-- ==== Sys2Proof/Word.lean ====
section
/-! DEFINITION. The words of the machine and the shape of a sparse table (spec 00 R3, R4). -/

namespace Sys2Proof

/-- A 64-bit register, instruction or memory word. -/
abbrev Word := BitVec 64

/-- The smallest addressable unit of memory. -/
abbrev Byte := BitVec 8

/-- A 32-bit vector, uniform or predicate register. -/
abbrev Half := BitVec 32

/-- A sparse table: keys strictly rising, and no entry equal to what an unlisted key reads as. -/
abbrev SMap (α : Type) := List (Nat × α)

end Sys2Proof
end

