-- ==== Sys2Proof/Machine/Kinds.lean ====
section
/-! DEFINITION. The closed kinds of outside information that commands carry. -/

namespace Sys2Proof.Machine

/-- What happened in the physical part while a command ran: nothing, an error the part corrected or repeated, or one it
could not (spec 16 R556 to R558). -/
inductive Upset where
  | none | corrected | lost
  deriving DecidableEq, Repr

/-- Where a SEM.SIG issues: the group's slot, and an error that the semaphore store finds in the semaphore's words (R561). -/
structure SigSlot where
  slot : Fin 64
  upset : Upset
  deriving DecidableEq, Repr

/-- The engine of a core that meets a matrix fault (R209). -/
inductive MxUnit where
  | array | drain | path
  deriving DecidableEq, Repr

/-- Who asks for a translation (R318). -/
inductive WalkFor where
  | core (c : Fin 192)
  | cluster (n : Fin 16)
  | hub
  deriving DecidableEq, Repr

/-- What an access needs (R308). -/
inductive Perm where
  | r | w | rw | x
  deriving DecidableEq, Repr

/-- How a request to the host ended (R491, R508): with its data, or one of the four failures. -/
inductive HostEnd where
  | ok | unsupported | abort | timeout | poisoned
  deriving DecidableEq, Repr

/-- What the host answered to the reads of its memory that a row makes: 8-byte words by address, and how the reads
ended (R491). -/
structure HostData where
  words : List (Nat × Word)
  ending : HostEnd
  deriving DecidableEq, Repr

/-- The byte that an answer of the host gives for an address. -/
def HostData.byte (h : HostData) (a : Nat) : Option Byte :=
  (h.words.find? (fun e => decide (e.1 ≤ a) && decide (a < e.1 + 8))).map (fun e => e.2.extractLsb' (8 * (a - e.1)) 8)

/-- A Mainline message (R460): its header's fields and what follows the header. -/
structure Msg where
  typ : Nat
  cls : Nat
  late : Bool
  device : Bool
  src : Nat
  dst : Nat
  seq : Nat
  flow : Nat
  addr : Nat
  len : Nat
  tenant : Nat
  status : Nat
  tag : Nat
  time : Nat
  data : List Byte
  deriving DecidableEq, Repr

/-- What a port's neighbour reports at training (R442): node, port number and timetable epoch, and the lanes that the
training put into service. -/
structure Peer where
  node : Byte
  port : Fin 8
  epoch : Half
  deriving DecidableEq, Repr

/-- What a port heard in a control window (R446, R447): the neighbour's advertised hop distance to node 0x00, its frame
number, and the link credits it returned (R445, R446): the buffer they are for, a class by its code or 4 plus the number of a flow, and units of 16
bytes. -/
structure Heard where
  port : Fin 8
  hops : Nat
  frame : BitVec 48
  credits : List (Nat × Nat)
  deriving DecidableEq, Repr

/-- An RDMA request of a peer as a port receives it (R502): the port, the queue pair it names, its packet sequence number,
whether its ICRC is right and whether it is CE-marked; the region key, address and length of a WRITE or READ; its payload;
its immediate value. -/
structure Inbound where
  port : Fin 2
  qp : Fin 4096
  psn : Nat
  icrc : Bool
  ce : Bool
  rkey : BitVec 32
  va : Word
  len : Nat
  imm : Option (BitVec 32)
  data : List Byte
  deriving DecidableEq, Repr

/-- Where the packets of a queue pair go (R497, R509): the 16 bytes of its port's address and of the peer's as the numbers they spell, the
next hop, the VLAN word and DSCP. -/
structure RdmaPath where
  src : Nat
  dst : Nat
  mac : Nat
  vlan : Nat
  dscp : Nat
  deriving DecidableEq, Repr

/-- A configuration request that the spec says something about (R479, R480, R483): a read of a doubleword, a write of the MSI-X
control bits, or of the Completion Timeout Value and the timeout-disable bit of Device Control 2. -/
inductive CfgReq where
  | read (off : Nat)
  | msix (on mask : Bool)
  | timeout (value : Fin 16) (disable : Bool)
  deriving DecidableEq, Repr

/-- The bytes of a write with their byte enables (R486). -/
abbrev MaskedBytes := List (Option Byte)

/-- Where a management request arrives (R581, R595): the SMBus, the PCIe link, or the physical function's DOE mailbox. -/
inductive Medium where
  | smbus | pcie | doe
  deriving DecidableEq, Repr

/-- What a module holds when it leaves the factory (R11, R576, R577): the bytes of its flash, its fuses, and the owner key
store; a public point is the number its X then Y bytes spell. -/
structure Factory where
  flash : List (Nat × Byte)
  serial : Word
  ochornRevoke : BitVec 2
  ownerHash : List Nat
  ownerRevoke : Byte
  fwCount : Fin 65
  conCount : Fin 65
  ownerKeys : List Nat
  deriving DecidableEq, Repr

/-- What a stack's controller did in a maintenance window (R546): the stack temperature it read, whether a recalibration succeeded,
the sectors that the patrol found wrong, and how many lines the patrol is behind. -/
structure MaintWork where
  temp : Option (BitVec 16)
  recal : Option Bool
  scrub : List (Nat × Upset)
  lag : BitVec 32
  deriving DecidableEq, Repr

/-- A unit with a power step of its own (R537, R541). -/
inductive StepUnit where
  | package
  | die (d : Fin 2)
  deriving DecidableEq, Repr

/-- A unit with thermal steps (R535). -/
inductive HeatUnit where
  | die (d : Fin 2)
  | hub
  | stack (s : Fin 8)
  deriving DecidableEq, Repr

/-- The part that a lasting fault concerns (R563, R565, R575). -/
inductive Part where
  | lane (port lane : Fin 8)
  | row (channel : Byte) (pc : Bool) (bg bank : Fin 4) (row : BitVec 18)
  | way (die : Fin 2) (slice : Fin 32) (way : Fin 16)
  | core (c : Fin 192)
  deriving DecidableEq, Repr

/-- What a wear sample measured (R604, R605): drift of each cluster in ppm, margin of each lane in mUI (none for a lane not
measured), and the mean junction temperature of west, east and hub die over the day, in 1/16 °C. -/
structure WearReading where
  drift : List Int
  eye : List (Option Nat)
  tj : List Int
  deriving DecidableEq, Repr

/-- A message for the management controller that is neither PLDM nor SPDM (R595, R598): an endpoint ID from the bus owner, the bus
owner enabling or disabling events, another control message, or a message of a type that is not served. -/
inductive MctpReq where
  | setEid (eid : Byte)
  | events (on : Bool)
  | other
  | foreign
  deriving DecidableEq, Repr

/-- A unit whose next remote message a port controller may accept (R454). -/
inductive MlnSource where
  | tcopy (core : Fin 192) (slot : Fin 8)
  | copy (n : Nat)
  deriving DecidableEq, Repr

end Sys2Proof.Machine
end

