-- ==== Sys2Proof/Syntax.lean ====
section
/-! DEFINITION. The commands the block takes: one constructor for each row of the table of operations and events. An
operand is what the command names or what comes with it from outside. -/

namespace Sys2Proof

/-- The commands, in the table's order; each cites the rule its row names. -/
inductive Instr where
  /-- REGISTER_WRITE (R7). -/
  | registerWrite (fn : Fin 64) (off : Nat) (size : Nat) (value : Word)
  /-- RC_COUNTER_READ (R7). -/
  | rcCounterRead (fn : Fin 64) (off : Nat) (size : Nat)
  /-- STANDBY_POWER_ON (R634). -/
  | standbyPowerOn (factory : Machine.Factory) (straps : Fin 4)
  /-- BOOT_ROM_VERIFY (R578). -/
  | bootRomVerify (badA : Bool) (badB : Bool)
  /-- MAIN_INPUT_VALID (R656). -/
  | mainInputValid
  /-- CONVERTERS_SETTLED (R634). -/
  | convertersSettled (ok : Bool)
  /-- ROOT_PLL_LOCK (R61). -/
  | rootPllLock
  /-- ROOT_PLL_LOCK_LOSS (R61). -/
  | rootPllLockLoss
  /-- STACK_TRAINING_DONE (R634). -/
  | stackTrainingDone (failed : Byte)
  /-- CONSIST_LOAD (R31). -/
  | consistLoad (badA : Bool) (badB : Bool)
  /-- START_OVERLAY (R31). -/
  | startOverlay (bad : Bool)
  /-- PERST_ASSERT (R637). -/
  | perstAssert
  /-- HOT_RESET (R637). -/
  | hotReset
  /-- WARM_RESET_DOMAIN_RESET (R637). -/
  | warmResetDomainReset
  /-- PERST_DEASSERT (R637). -/
  | perstDeassert
  /-- MAIN_POWER_LOSS (R640). -/
  | mainPowerLoss
  /-- MAIN_INPUT_OVERVOLTAGE (R656). -/
  | mainInputOvervoltage
  /-- STANDBY_POWER_LOSS (R658). -/
  | standbyPowerLoss
  /-- DRAIN_REQUEST (R641). -/
  | drainRequest (fn : Fin 64)
  /-- DRAIN_DONE (R641). -/
  | drainDone
  /-- CORE_RESET (R645). -/
  | coreReset (fn : Fin 64) (index : Byte)
  /-- CLUSTER_RESET (R645). -/
  | clusterReset (fn : Fin 64) (index : Byte)
  /-- MAINLINE_PORT_RESET (R645). -/
  | mainlinePortReset (fn : Fin 64) (index : Byte)
  /-- ETHERNET_PORT_RESET (R645). -/
  | ethernetPortReset (fn : Fin 64) (index : Byte)
  /-- UNIT_RESET_DONE (R645). -/
  | unitResetDone
  /-- FUNCTION_LEVEL_RESET (R643). -/
  | functionLevelReset (fn : Fin 64)
  /-- PF_FUNCTION_LEVEL_RESET (R644). -/
  | pfFunctionLevelReset
  /-- VF_ENABLE (R480). -/
  | vfEnable
  /-- VF_DISABLE (R511). -/
  | vfDisable
  /-- NUMVFS_WRITE (R480). -/
  | numvfsWrite (num : Nat)
  /-- CONFIG_REQUEST (R480). -/
  | configRequest (fn : Fin 64) (req : Machine.CfgReq)
  /-- POWER_STATE_CHANGE (R481). -/
  | powerStateChange (fn : Fin 64) (d3 : Bool)
  /-- REF_DEVIATION (R56). -/
  | refDeviation (ppm : BitVec 16)
  /-- CDC_OVERRUN (R67). -/
  | cdcOverrun (group : Fin 9)
  /-- CDC_STALL (R70). -/
  | cdcStall (group : Fin 9) (inst : Byte) (detect : Fin 8) (stopped : Fin 8)
  /-- SWITCH_REQUEST (R35). -/
  | switchRequest (fn : Fin 64) (value : Word)
  /-- OVERLAY_VERIFY_DONE (R35). -/
  | overlayVerifyDone (bad : Bool)
  /-- QUIESCE_TIMEOUT (R36). -/
  | quiesceTimeout
  /-- SWITCH_APPLY (R35). -/
  | switchApply
  /-- TIMETABLE_INSTALL (R452). -/
  | timetableInstall
  /-- NOP (R142). -/
  | nop (core : Fin 192) (slot : Fin 64)
  /-- IALU (R146). -/
  | ialu (core : Fin 192) (slot : Fin 64) (upset : Machine.Upset)
  /-- IALU_I (R146). -/
  | ialuI (core : Fin 192) (slot : Fin 64)
  /-- IMUL (R147). -/
  | imul (core : Fin 192) (slot : Fin 64)
  /-- IMUL_I (R147). -/
  | imulI (core : Fin 192) (slot : Fin 64)
  /-- ICMP (R148). -/
  | icmp (core : Fin 192) (slot : Fin 64)
  /-- ICMP_I (R148). -/
  | icmpI (core : Fin 192) (slot : Fin 64)
  /-- PLOP (R149). -/
  | plop (core : Fin 192) (slot : Fin 64)
  /-- FALU (R150). -/
  | falu (core : Fin 192) (slot : Fin 64) (upset : Machine.Upset)
  /-- FALU_I (R150). -/
  | faluI (core : Fin 192) (slot : Fin 64)
  /-- HALU (R151). -/
  | halu (core : Fin 192) (slot : Fin 64)
  /-- FCMP (R152). -/
  | fcmp (core : Fin 192) (slot : Fin 64)
  /-- SFU (R153). -/
  | sfu (core : Fin 192) (slot : Fin 64)
  /-- CVT (R156). -/
  | cvt (core : Fin 192) (slot : Fin 64)
  /-- XLANE (R159). -/
  | xlane (core : Fin 192) (slot : Fin 64)
  /-- SREG (R160). -/
  | sreg (core : Fin 192) (slot : Fin 64)
  /-- LDS (R164). -/
  | lds (core : Fin 192) (slot : Fin 64) (upset : Machine.Upset)
  /-- STS (R164). -/
  | sts (core : Fin 192) (slot : Fin 64)
  /-- LDG (R165). -/
  | ldg (core : Fin 192) (slot : Fin 64)
  /-- STG (R165). -/
  | stg (core : Fin 192) (slot : Fin 64)
  /-- ATOMS (R167). -/
  | atoms (core : Fin 192) (slot : Fin 64) (upset : Machine.Upset)
  /-- ATOMG (R168). -/
  | atomg (core : Fin 192) (slot : Fin 64)
  /-- ATOM_ACQ (R106). -/
  | atomAcq (core : Fin 192) (slot : Fin 64)
  /-- ATOM_REL (R107). -/
  | atomRel (core : Fin 192) (slot : Fin 64)
  /-- BRA_ANY (R91). -/
  | braAny (core : Fin 192) (slot : Fin 64)
  /-- BRA_ALL (R91). -/
  | braAll (core : Fin 192) (slot : Fin 64)
  /-- BRA_U (R91). -/
  | braU (core : Fin 192) (slot : Fin 64)
  /-- CALL (R173). -/
  | call (core : Fin 192) (slot : Fin 64)
  /-- RET (R173). -/
  | ret (core : Fin 192) (slot : Fin 64)
  /-- EXIT (R92). -/
  | exit (core : Fin 192) (slot : Fin 64)
  /-- BAR_SYNC (R94). -/
  | barSync (core : Fin 192) (slot : Fin 64)
  /-- BAR_ARRIVE (R94). -/
  | barArrive (core : Fin 192) (slot : Fin 64)
  /-- BARRIER_STALL (R98). -/
  | barrierStall (core : Fin 192) (set : Fin 64) (barrier : Fin 16)
  /-- SELF_LOCK (R109). -/
  | selfLock (core : Fin 192) (slot : Fin 64)
  /-- FENCE_FULL (R340). -/
  | fenceFull (core : Fin 192) (slot : Fin 64)
  /-- FENCE_ACQ (R340). -/
  | fenceAcq (core : Fin 192) (slot : Fin 64)
  /-- FENCE_REL (R340). -/
  | fenceRel (core : Fin 192) (slot : Fin 64)
  /-- TCOPY_GO (R113). -/
  | tcopyGo (core : Fin 192) (slot : Fin 64)
  /-- TCOPY_WAIT (R117). -/
  | tcopyWait (core : Fin 192) (slot : Fin 64)
  /-- TCOPY_SLOT_COMPLETE (R115). -/
  | tcopySlotComplete (core : Fin 192) (tslot : Fin 8) (host : Machine.HostData)
  /-- TCOPY_SLOT_FAULT (R116). -/
  | tcopySlotFault (core : Fin 192) (tslot : Fin 8) (host : Machine.HostData) (upset : Machine.Upset)
  /-- SEM_SIG (R178, R561). -/
  | semSig (core : Fin 192) (slot : Machine.SigSlot)
  /-- SEM_WAIT (R178). -/
  | semWait (core : Fin 192) (slot : Fin 64)
  /-- SEM_DEC (R178). -/
  | semDec (core : Fin 192) (slot : Fin 64)
  /-- SEM_READ (R178). -/
  | semRead (core : Fin 192) (slot : Fin 64)
  /-- PTS_SUB (R179). -/
  | ptsSub (core : Fin 192) (slot : Fin 64)
  /-- TRACE_MARK (R180). -/
  | traceMark (core : Fin 192) (slot : Fin 64)
  /-- MX_WAIT (R186). -/
  | mxWait (core : Fin 192) (slot : Fin 64)
  /-- MX_ISSUE (R181). -/
  | mxIssue (core : Fin 192) (slot : Fin 64)
  /-- MX_DRAIN (R183). -/
  | mxDrain (core : Fin 192) (slot : Fin 64)
  /-- MV_ISSUE (R185). -/
  | mvIssue (core : Fin 192) (slot : Fin 64)
  /-- LOAD_RETURN (R134). -/
  | loadReturn (core : Fin 192) (number : Nat) (struct : Fin 32) (upset : Machine.Upset)
  /-- ICACHE_FILL (R85). -/
  | icacheFill (core : Fin 192) (slot : Fin 64)
  /-- STORE_PERFORM (R336). -/
  | storePerform (core : Fin 192) (number : Nat)
  /-- L1_LINE_EXPIRE (R358). -/
  | l1LineExpire (core : Fin 192) (line : Nat)
  /-- BLOCK_PLACE (R80). -/
  | blockPlace (launch : Nat)
  /-- CORE_SWITCH_END (R518). -/
  | coreSwitchEnd (core : Fin 192)
  /-- BLOCK_END (R210). -/
  | blockEnd (core : Fin 192) (set : Fin 64)
  /-- TILE_START (R196). -/
  | tileStart (core : Fin 192)
  /-- TILE_COMPLETE (R197). -/
  | tileComplete (core : Fin 192)
  /-- DRAIN_START (R202). -/
  | drainStart (core : Fin 192) (upset : Machine.Upset)
  /-- DRAIN_COMPLETE (R202). -/
  | drainComplete (core : Fin 192)
  /-- MV_START (R215). -/
  | mvStart (core : Fin 192)
  /-- MV_COMPLETE (R214). -/
  | mvComplete (core : Fin 192)
  /-- MATRIX_FAULT (R209). -/
  | matrixFault (core : Fin 192) (what : Machine.MxUnit)
  /-- MX_COUNTER_LATCH (R217). -/
  | mxCounterLatch (fn : Fin 64) (core : Fin 192) (size : Nat)
  /-- POINTS_RECORD_READ (R240). -/
  | pointsRecordRead (cluster : Fin 16) (upset : Machine.Upset)
  /-- CHOICE_PLACE (R246). -/
  | choicePlace (cluster : Fin 16)
  /-- STEP_CLOSE (R251). -/
  | stepClose (launch : Nat)
  /-- PAGE_WALK (R304). -/
  | pageWalk (who : Machine.WalkFor) (cls : Fin 8) (ctx : Fin 4096) (va : Nat) (perm : Machine.Perm) (host : Machine.HostData)
  /-- TLB_INVALIDATE (R321). -/
  | tlbInvalidate (fn : Fin 64)
  /-- INVALIDATE_DONE (R322). -/
  | invalidateDone
  /-- MODE_SWITCH (R326). -/
  | modeSwitch (fn : Fin 64) (mirror : Bool)
  /-- MAINT_CLEAN (R364). -/
  | maintClean (fn : Fin 64) (l1Only : Bool)
  /-- MAINT_INVALIDATE (R364). -/
  | maintInvalidate (fn : Fin 64) (l1Only : Bool)
  /-- MAINT_CLEAN_INVALIDATE (R364). -/
  | maintCleanInvalidate (fn : Fin 64) (l1Only : Bool)
  /-- MAINT_DONE (R365). -/
  | maintDone (fn : Fin 64)
  /-- SETWAY_CLEAN (R366). -/
  | setwayClean (fn : Fin 64) (all : Bool) (die : Fin 2) (slice : Fin 32) (set : Fin 1024) (way : Fin 16)
  /-- SETWAY_INVALIDATE (R366). -/
  | setwayInvalidate (fn : Fin 64) (all : Bool) (die : Fin 2) (slice : Fin 32) (set : Fin 1024) (way : Fin 16)
  /-- SETWAY_CLEAN_INVALIDATE (R366). -/
  | setwayCleanInvalidate (fn : Fin 64) (all : Bool) (die : Fin 2) (slice : Fin 32) (set : Fin 1024) (way : Fin 16)
  /-- SETWAY_DONE (R366). -/
  | setwayDone
  /-- SQ_TAIL (R373). -/
  | sqTail (fn : Fin 64) (queue : Fin 16384) (size : Nat) (value : Word)
  /-- CQ_HEAD (R373). -/
  | cqHead (fn : Fin 64) (queue : Fin 16384) (size : Nat) (reg : Bool) (value : Word)
  /-- QUEUE_ENABLE (R374). -/
  | queueEnable (fn : Fin 64) (queue : Fin 16384) (value : Word)
  /-- QUEUE_DISABLE (R374). -/
  | queueDisable (fn : Fin 64) (queue : Fin 16384)
  /-- ENTRY_FETCH (R375). -/
  | entryFetch (queue : Fin 16384) (data : BitVec 512) (ending : Machine.HostEnd)
  /-- SQ_FAULT_CLEAR (R375). -/
  | sqFaultClear (fn : Fin 64) (queue : Fin 16384)
  /-- NOP_ENTRY (R379). -/
  | nopEntry (entry : Nat)
  /-- RUN_PROGRAM (R389). -/
  | runProgram (entry : Nat)
  /-- COPY_ENTRY (R400). -/
  | copyEntry (entry : Nat) (host : Machine.HostData)
  /-- SIGNAL_ENTRY (R379). -/
  | signalEntry (entry : Nat)
  /-- WAIT_ENTRY (R379). -/
  | waitEntry (entry : Nat)
  /-- PATCH (R411). -/
  | patch (entry : Nat) (host : Machine.HostData)
  /-- CREATE (R411). -/
  | create (entry : Nat) (host : Machine.HostData)
  /-- DELETE (R411). -/
  | delete (entry : Nat)
  /-- FENCE_ENTRY (R379). -/
  | fenceEntry (entry : Nat)
  /-- CONTEXT_RETIRE (R528). -/
  | contextRetire (entry : Nat)
  /-- RETIRE_DONE (R528). -/
  | retireDone (ctx : Fin 4096)
  /-- ADMISSION (R402). -/
  | admission (entry : Nat)
  /-- ENTRY_START (R403). -/
  | entryStart (entry : Nat)
  /-- BE_GRANT (R406). -/
  | beGrant (entry : Nat)
  /-- CLASS_OVERRUN (R403). -/
  | classOverrun (entry : Nat)
  /-- QUEUE_TIMEOUT (R407). -/
  | queueTimeout (entry : Nat)
  /-- BORROW_OVERRUN (R405). -/
  | borrowOverrun (launch : Nat)
  /-- LAUNCH_START (R392). -/
  | launchStart (thread : Fin 128) (host : Machine.HostData)
  /-- LAUNCH_COMPLETE (R352). -/
  | launchComplete (launch : Nat)
  /-- COPY_DONE (R400). -/
  | copyDone (number : Nat) (host : Machine.HostData)
  /-- PATCH_COMMIT (R412). -/
  | patchCommit (pslot : Fin 4096)
  /-- COMPLETION_WRITE (R385). -/
  | completionWrite (queue : Fin 16384)
  /-- COMPLETION_READBACK (R385). -/
  | completionReadback (queue : Fin 16384) (ending : Machine.HostEnd)
  /-- CQ_RETRY (R388). -/
  | cqRetry (fn : Fin 64) (queue : Fin 16384)
  /-- HOLD (R409). -/
  | hold (fn : Fin 64) (on : Bool)
  /-- DISPATCH_NOP (R397). -/
  | dispatchNop (thread : Fin 128)
  /-- END (R397). -/
  | dispEnd (thread : Fin 128)
  /-- YIELD (R522). -/
  | dispYield (thread : Fin 128)
  /-- ADD (R397). -/
  | dispAdd (thread : Fin 128)
  /-- SUB (R397). -/
  | dispSub (thread : Fin 128)
  /-- MUL (R397). -/
  | dispMul (thread : Fin 128)
  /-- AND (R397). -/
  | dispAnd (thread : Fin 128)
  /-- OR (R397). -/
  | dispOr (thread : Fin 128)
  /-- XOR (R397). -/
  | dispXor (thread : Fin 128)
  /-- SHL (R397). -/
  | dispShl (thread : Fin 128)
  /-- SHR (R397). -/
  | dispShr (thread : Fin 128)
  /-- ADDI (R397). -/
  | dispAddi (thread : Fin 128)
  /-- MOVI (R397). -/
  | dispMovi (thread : Fin 128)
  /-- MOVHI (R397). -/
  | dispMovhi (thread : Fin 128)
  /-- BRA (R396). -/
  | dispBra (thread : Fin 128)
  /-- BEQ (R397). -/
  | dispBeq (thread : Fin 128)
  /-- BNE (R397). -/
  | dispBne (thread : Fin 128)
  /-- BLT (R397). -/
  | dispBlt (thread : Fin 128)
  /-- BGE (R397). -/
  | dispBge (thread : Fin 128)
  /-- BLTU (R397). -/
  | dispBltu (thread : Fin 128)
  /-- BGEU (R397). -/
  | dispBgeu (thread : Fin 128)
  /-- DISPATCH_CALL (R396). -/
  | dispatchCall (thread : Fin 128)
  /-- DISPATCH_RET (R396). -/
  | dispatchRet (thread : Fin 128)
  /-- LOADT (R398). -/
  | dispLoadt (thread : Fin 128) (host : Machine.HostData)
  /-- STORE (R398). -/
  | dispStore (thread : Fin 128)
  /-- TIME (R397). -/
  | dispTime (thread : Fin 128)
  /-- LAUNCH (R391). -/
  | dispLaunch (thread : Fin 128) (host : Machine.HostData)
  /-- LAUNCH_PLAT (R394). -/
  | dispLaunchPlat (thread : Fin 128) (host : Machine.HostData)
  /-- JOIN (R391). -/
  | dispJoin (thread : Fin 128)
  /-- DISPATCH_COPY (R400). -/
  | dispatchCopy (thread : Fin 128) (host : Machine.HostData)
  /-- CMO (R397). -/
  | dispCmo (thread : Fin 128)
  /-- DISPATCH_SIGNAL (R397). -/
  | dispatchSignal (thread : Fin 128)
  /-- DISPATCH_WAIT (R397). -/
  | dispatchWait (thread : Fin 128)
  /-- TALLOC (R260). -/
  | dispTalloc (thread : Fin 128)
  /-- TFREE (R260). -/
  | dispTfree (thread : Fin 128)
  /-- TSET (R260). -/
  | dispTset (thread : Fin 128)
  /-- TGET (R260). -/
  | dispTget (thread : Fin 128) (upset : Machine.Upset)
  /-- TBATCH (R261). -/
  | dispTbatch (thread : Fin 128) (host : Machine.HostData)
  /-- TEXIT (R262). -/
  | dispTexit (thread : Fin 128) (host : Machine.HostData)
  /-- TADVANCE (R262). -/
  | dispTadvance (thread : Fin 128) (host : Machine.HostData)
  /-- DUMP (R625). -/
  | dispDump (thread : Fin 128)
  /-- DUMP_DONE (R625). -/
  | dumpDone (thread : Fin 128) (host : Machine.HostData)
  /-- TMARK (R397). -/
  | dispTmark (thread : Fin 128)
  /-- SEM_ACTIVATE (R424). -/
  | semActivate (fn : Fin 64) (sem : Fin 65536) (ctx : Fin 4096) (remote : Bool)
  /-- SEM_REMOTE_CHANGE (R424). -/
  | semRemoteChange (fn : Fin 64) (sem : Fin 65536) (remote : Bool)
  /-- SEM_BREAK (R424). -/
  | semBreak (fn : Fin 64) (sem : Fin 65536)
  /-- SEM_FREE (R424). -/
  | semFree (fn : Fin 64) (sem : Fin 65536)
  /-- SEM_FORCE (R435). -/
  | semForce (fn : Fin 64) (sem : Fin 65536) (value : Word)
  /-- SEM_SNAPSHOT (R438). -/
  | semSnapshot (fn : Fin 64) (sem : Fin 65536)
  /-- SEM_SNAPSHOT_READY (R438). -/
  | semSnapshotReady
  /-- PORT_ROLE_WRITE (R473). -/
  | portRoleWrite (fn : Fin 64) (port : Fin 8) (role : Fin 4)
  /-- PORT_TRAINING_DONE (R442). -/
  | portTrainingDone (port : Fin 8) (peer : Option Machine.Peer)
  /-- PORT_DOWN (R468). -/
  | portDown (port : Fin 8)
  /-- PORT_RETRAIN_ATTEMPT (R471). -/
  | portRetrainAttempt (port : Fin 8) (peer : Option Machine.Peer)
  /-- FRAME_BOUNDARY (R446). -/
  | frameBoundary
  /-- MESSAGE_ACCEPT (R454). -/
  | messageAccept (src : Machine.MlnSource)
  /-- MESSAGE_FORWARD (R444). -/
  | messageForward (msg : Machine.Msg)
  /-- WRITE_RECEIVE (R462). -/
  | writeReceive (msg : Machine.Msg)
  /-- READ_RECEIVE (R462). -/
  | readReceive (msg : Machine.Msg)
  /-- READ_RSP (R461). -/
  | readRsp (msg : Machine.Msg)
  /-- REMOTE_SIGNAL_RECEIVE (R432). -/
  | remoteSignalReceive (msg : Machine.Msg)
  /-- ACK (R464). -/
  | mlnAck (msg : Machine.Msg)
  /-- ACK_SEND (R464). -/
  | ackSend (src : Fin 256)
  /-- LINK_DOWN (R468). -/
  | linkDown (msg : Machine.Msg)
  /-- LINK_UP (R471). -/
  | linkUp (msg : Machine.Msg)
  /-- PEER_DOWN (R469). -/
  | peerDown (msg : Machine.Msg)
  /-- FLOW_LATE (R457). -/
  | flowLate (msg : Machine.Msg)
  /-- FLOW_DOWN (R457). -/
  | flowDown (msg : Machine.Msg)
  /-- EPOCH (R452). -/
  | mlnEpoch (msg : Machine.Msg)
  /-- PAIR_RESET (R471). -/
  | pairReset (msg : Machine.Msg)
  /-- BLOCK_CRC_ERROR (R466). -/
  | blockCrcError (port : Fin 8) (lane : Fin 8)
  /-- REPLAY_REQUEST (R466). -/
  | replayRequest (port : Fin 8) (again : Bool) (delayed : List Nat)
  /-- LINK_MAINT_OVERRUN (R549). -/
  | linkMaintOverrun (port : Fin 8) (slot : Fin 4096)
  /-- HOST_WINDOW_WRITE (R488). -/
  | hostWindowWrite (off : Nat) (data : Machine.MaskedBytes)
  /-- HOST_WINDOW_READ (R488). -/
  | hostWindowRead (off : Nat) (len : Nat)
  /-- HOST_READ_COMPLETION (R491). -/
  | hostReadCompletion (tag : Nat) (data : List Byte) (ending : Machine.HostEnd)
  /-- HOST_READ_TIMEOUT (R479). -/
  | hostReadTimeout (tag : Nat)
  /-- QP_READY (R497). -/
  | qpReady (fn : Fin 64) (qp : Fin 4096)
  /-- QP_RESET (R497). -/
  | qpReset (fn : Fin 64) (qp : Fin 4096)
  /-- QP_DOORBELL (R499). -/
  | qpDoorbell (fn : Fin 64) (qp : Fin 4096) (db : BitVec 32)
  /-- PRODUCER_POLL (R499). -/
  | producerPoll (qp : Fin 4096) (host : Machine.HostData)
  /-- SEND (R498). -/
  | send (qp : Fin 4096) (host : Machine.HostData)
  /-- SEND_IMM (R498). -/
  | sendImm (qp : Fin 4096) (host : Machine.HostData)
  /-- RDMA_WRITE (R498). -/
  | rdmaWrite (qp : Fin 4096) (host : Machine.HostData)
  /-- WRITE_IMM (R498). -/
  | writeImm (qp : Fin 4096) (host : Machine.HostData)
  /-- RDMA_READ (R498). -/
  | rdmaRead (qp : Fin 4096) (host : Machine.HostData)
  /-- RDMA_ACK (R500). -/
  | rdmaAck (qp : Fin 4096) (psn : Nat)
  /-- RDMA_READ_RESPONSE (R500). -/
  | rdmaReadResponse (qp : Fin 4096) (data : List Byte)
  /-- ACK_TIMEOUT (R497). -/
  | ackTimeout (qp : Fin 4096) (host : Machine.HostData)
  /-- RNR_NAK_RECEIVE (R504). -/
  | rnrNakReceive (qp : Fin 4096) (host : Machine.HostData)
  /-- INBOUND_WRITE (R502). -/
  | inboundWrite (msg : Machine.Inbound)
  /-- INBOUND_WRITE_IMM (R502). -/
  | inboundWriteImm (msg : Machine.Inbound)
  /-- INBOUND_READ (R502). -/
  | inboundRead (msg : Machine.Inbound)
  /-- INBOUND_SEND (R502). -/
  | inboundSend (msg : Machine.Inbound)
  /-- RAW_FRAME_RECEIVE (R497). -/
  | rawFrameReceive (port : Fin 2) (data : List Byte) (host : Machine.HostData)
  /-- PFC_PAUSE_RECEIVE (R495). -/
  | pfcPauseReceive (port : Fin 2) (prio : Fin 8) (on : Bool)
  /-- PFC_STORM (R495). -/
  | pfcStorm (port : Fin 2) (prio : Fin 8)
  /-- CNP_RECEIVE (R495). -/
  | cnpReceive (qp : Fin 4096)
  /-- CNP_RATE_INCREASE (R495). -/
  | cnpRateIncrease (qp : Fin 4096)
  /-- ETH_LINK_CHANGE (R484). -/
  | ethLinkChange (port : Fin 2) (up : Bool)
  /-- REGION_INVALIDATE (R501). -/
  | regionInvalidate (fn : Fin 64) (index : BitVec 16)
  /-- REGION_INV_DONE (R501). -/
  | regionInvDone
  /-- RDMA_HOLD (R505). -/
  | rdmaHold (fn : Fin 64) (on : Bool)
  /-- CONTEXT_ACTIVATE (R515). -/
  | contextActivate (fn : Fin 64) (ctx : Fin 4096) (tenant : Fin 64) (weight : Fin 65536)
  /-- CONTEXT_WEIGHT_CHANGE (R515). -/
  | contextWeightChange (fn : Fin 64) (ctx : Fin 4096) (weight : Fin 65536)
  /-- CONTEXT_FREE (R515). -/
  | contextFree (fn : Fin 64) (ctx : Fin 4096)
  /-- SEED_WRITE (R279). -/
  | seedWrite (fn : Fin 64) (ctx : Fin 4096) (value : Word)
  /-- CENSUS (R524). -/
  | census (fn : Fin 64) (ctx : Fin 4096)
  /-- CENSUS_DONE (R524). -/
  | censusDone (ctx : Fin 4096) (host : Machine.HostData)
  /-- POWER_SAMPLE (R534). -/
  | powerSample (input : BitVec 32) (west : BitVec 32) (east : BitVec 32)
  /-- STEP_LOWER (R534). -/
  | stepLower (unit : Machine.StepUnit)
  /-- DIE_POWER_STEP (R537). -/
  | diePowerStep (die : Fin 2)
  /-- THERMAL_STEP (R535). -/
  | thermalStep (unit : Machine.HeatUnit)
  /-- THERMAL_TRIP (R535). -/
  | thermalTrip (unit : Machine.HeatUnit)
  /-- CLUSTER_GATE (R540). -/
  | clusterGate (cluster : Fin 16)
  /-- CLUSTER_WAKE (R72). -/
  | clusterWake (cluster : Fin 16)
  /-- MAINT_WINDOW_OPEN (R545). -/
  | maintWindowOpen (channel : Byte) (work : Machine.MaintWork)
  /-- MAINT_OVERRUN (R547). -/
  | maintOverrun (channel : Byte) (task : Fin 4) (cycles : Fin 2000) (work : Machine.MaintWork)
  /-- LASTING_FAULT (R565). -/
  | lastingFault (part : Machine.Part)
  /-- ROW_SPARE_DONE (R566). -/
  | rowSpareDone (channel : Byte)
  /-- LEDGER_SNAPSHOT (R571). -/
  | ledgerSnapshot (fn : Fin 64) (value : Word)
  /-- LEDGER_SNAPSHOT_DONE (R571). -/
  | ledgerSnapshotDone
  /-- TOKEN_SUBMIT (R590). -/
  | tokenSubmit (fn : Fin 64)
  /-- TOKEN_VERIFY_DONE (R590). -/
  | tokenVerifyDone
  /-- RELOCK (R590). -/
  | relock (fn : Fin 64)
  /-- UNLOCK_EXPIRE (R590). -/
  | unlockExpire
  /-- NONCE_READ (R590). -/
  | nonceRead (fn : Fin 64)
  /-- COMMIT_FW (R579). -/
  | commitFw (fn : Fin 64)
  /-- COMMIT_CONSIST (R579). -/
  | commitConsist (fn : Fin 64)
  /-- KEY_CHANGE (R586). -/
  | keyChange (fn : Fin 64) (slot : Fin 128)
  /-- KEY_INSTALLED (R586). -/
  | keyInstalled
  /-- GET_VERSION (R581). -/
  | getVersion (medium : Machine.Medium)
  /-- GET_CAPABILITIES (R581). -/
  | getCapabilities (medium : Machine.Medium)
  /-- NEGOTIATE_ALGORITHMS (R581). -/
  | negotiateAlgorithms (medium : Machine.Medium)
  /-- GET_DIGESTS (R581). -/
  | getDigests (medium : Machine.Medium)
  /-- GET_CERTIFICATE (R581). -/
  | getCertificate (medium : Machine.Medium) (off : Nat) (len : Nat)
  /-- CHALLENGE (R581). -/
  | challenge (medium : Machine.Medium)
  /-- GET_MEASUREMENTS (R582). -/
  | getMeasurements (medium : Machine.Medium)
  /-- MCTP_CONTROL (R595). -/
  | mctpControl (medium : Machine.Medium) (req : Machine.MctpReq)
  /-- PLDM_SENSOR_READ (R597). -/
  | pldmSensorRead (medium : Machine.Medium) (entry : Nat)
  /-- PLDM_EVENT_LOG_READ (R600). -/
  | pldmEventLogRead (medium : Machine.Medium) (number : Nat)
  /-- REQUEST_UPDATE (R596). -/
  | requestUpdate (medium : Machine.Medium)
  /-- TRANSFER_COMPLETE (R602). -/
  | transferComplete (medium : Machine.Medium) (comp : Nat) (bad : Bool)
  /-- ACTIVATE_FIRMWARE (R602). -/
  | activateFirmware (medium : Machine.Medium)
  /-- CANCEL_UPDATE (R603). -/
  | cancelUpdate (medium : Machine.Medium)
  /-- SENSOR_SAMPLE (R597). -/
  | sensorSample (entry : Nat) (value : BitVec 32)
  /-- WEAR_SAMPLE (R605). -/
  | wearSample (reading : Machine.WearReading)
  /-- SAMPLE (R614). -/
  | counterSample
  /-- COUNTER_CLEAR (R612). -/
  | counterClear (fn : Fin 64) (set : Fin 214) (value : Word)
  /-- TRIGGER (R623). -/
  | traceTrigger (fn : Fin 64)
  /-- RESTART (R622). -/
  | traceRestart (fn : Fin 64)
  /-- TRACE_FREEZE (R622). -/
  | traceFreeze
  /-- SURVEY_START (R627). -/
  | surveyStart (fn : Fin 64) (value : Word)
  /-- SURVEY_LATCH (R628). -/
  | surveyLatch
  /-- SURVEY_DONE (R628). -/
  | surveyDone
  /-- DEBUG_MEMORY_READ (R631). -/
  | debugMemoryRead (fn : Fin 64) (size : Nat)
  /-- DEBUG_MEMORY_WRITE (R631). -/
  | debugMemoryWrite (fn : Fin 64) (size : Nat) (value : Word)
  /-- BYPASS (R666). -/
  | bypass
  /-- IDCODE (R666). -/
  | idcode
  /-- SAMPLE_PRELOAD (R666). -/
  | samplePreload (cells : Nat)
  /-- EXTEST (R666). -/
  | extest
  /-- EXTEST_PULSE (R666). -/
  | extestPulse
  /-- CONTROL_WINDOW (R447). -/
  | controlWindow (heard : List Machine.Heard)
  /-- DIE_LINK_REPLAY (R556). -/
  | dieLinkReplay (again : Bool)
  /-- PLL_LOCK_TIMEOUT (R634). -/
  | pllLockTimeout
  /-- TKT_FLUSH (R267). -/
  | tktFlush (fn : Fin 64)
  /-- REMOTE_ACCESS_NAK (R504). -/
  | remoteAccessNak (qp : Fin 4096) (invalid : Bool)
  /-- THERMTRIP_RELEASE (R664). -/
  | thermtripRelease
  /-- PCIE_LINK_UP (R634). -/
  | pcieLinkUp (speed : Fin 16) (width : Byte) (flit : Bool)
  /-- UPDATE_WRITE (R603). -/
  | updateWrite (medium : Machine.Medium) (comp : Nat) (off : Nat) (data : List Byte)
  /-- STANDBY_CRYSTAL_STOP (R74). -/
  | standbyCrystalStop
  deriving DecidableEq, Repr

end Sys2Proof
end

