-- ==== Sys2Proof/Config.lean ====
section
/-! DEFINITION. What an implementation fixes and what the spec leaves open: constants without a body, so that no
proof can rest on a value of theirs. Each is named in the assumption log. -/

namespace Sys2Proof

/-- A fresh free value for the `n`-th use (log 1); `State.freeCount` says how many were used. -/
opaque Config.free : Nat → Nat

/-- The special functions within their bounds (spec 04 R153): one bit pattern per operation and operand. -/
opaque Config.sfu : Nat → BitVec 32 → BitVec 32

/-- The running value after one step of the array, or of the matrix-vector path (`path`), within the bounds of spec 07 R287: one value per
formats, running value and element codes of the step's products. -/
opaque Config.matrixStep : (path : Bool) → (fmtA fmtB v : Nat) → List (Option (Nat × Nat)) → Nat

/-- Which of the timing reasons of spec 03 R126 holds a group at a time, 0 for none: latencies and busy units are no state (log 90). -/
opaque Config.groupWait : (now core slot : Nat) → Nat

/-- The set of a cluster or hub TLB that an entry of a tag goes to, by its page's number and size: which bits choose it is open
(spec 08 R318, log 97). -/
opaque Config.tlbSet : (tag page size : Nat) → Nat

/-- Units of 16 bytes that a port's buffer of a Mainline message class holds (spec 12 R445): the sizes of the SIG, REQ and RSP buffers are not
stated (log 101). -/
opaque Config.portBuffer : (cls : Nat) → Nat

/-- The row of a bank that holds a line, by the line's number: the controllers' own bijection (spec 15 R544, log 107). -/
opaque Config.dramRow : Nat → Nat

/-- What a counter of an event that the model does not see has reached at a time (spec 19 R611, log 22). -/
opaque Config.uncounted : (set code now : Nat) → Nat

/-- SHA-384 of a byte string (FIPS 180-4), not written out here: 48 bytes as a number. -/
opaque Config.sha384 : List Byte → Nat

/-- Whether an ECDSA P-384 signature (KEY_ID, r, s as stored) of a digest is valid (FIPS 186-5). -/
opaque Config.ecdsaOk : (pub digest r s : Nat) → Bool

/-- The device identity key's signature of a digest (spec 17 R581): r and s. -/
opaque Config.deviceSign : Nat → Nat × Nat

/-- The measurement of the boot ROM (spec 17 R580). -/
opaque Config.romMeasurement : Nat

/-- The two ROM keys' public points, with index 0 and 1 (spec 17 R577, R671). -/
opaque Config.romKey : Nat → Nat

/-- The certificate chain of slot 0 (spec 17 R581). -/
opaque Config.certChain : List Byte

end Sys2Proof
end

