-- ==== Sys2Proof/Machine/Bits.lean ====
section
/-! DEFINITION. Bit fields, byte order and sparse tables: the plain helpers every unit uses (spec 00 R3 to R6). -/

namespace Sys2Proof.Machine

/-- Bits `hi:lo` of a number. -/
def nfld (n hi lo : Nat) : Nat := (n >>> lo) % 2 ^ (hi + 1 - lo)

/-- Bits `hi:lo` of a word. -/
def fld (w : Word) (hi lo : Nat) : Nat := nfld w.toNat hi lo

/-- One bit of a word. -/
def bit (w : Word) (i : Nat) : Bool := w.getLsbD i

/-- The word with ones exactly in bits `hi:lo`. -/
def fieldMask (hi lo : Nat) : Word := BitVec.ofNat 64 ((2 ^ (hi + 1 - lo) - 1) <<< lo)

/-- `w` with bits `hi:lo` replaced by the low bits of `v`. -/
def setFld (w : Word) (hi lo v : Nat) : Word :=
  (w &&& ~~~fieldMask hi lo) ||| (BitVec.ofNat 64 (v <<< lo) &&& fieldMask hi lo)

/-- The two's-complement value of the low `n` bits of `v`. -/
def sx (n v : Nat) : Int :=
  let r := v % 2 ^ n
  if 2 ^ (n - 1) ≤ r then (r : Int) - 2 ^ n else r

/-- An integer wrapped into `n` bits. -/
def wrapI (n : Nat) (z : Int) : Nat := (z % (2 ^ n : Int)).toNat

/-- A number built from bytes, the lowest address first (R3: little-endian). -/
def leNat : List Byte → Nat
  | [] => 0
  | b :: t => b.toNat + 256 * leNat t

/-- The low `n` bytes of a number, the lowest address first (R3). -/
def leBytes : Nat → Nat → List Byte
  | 0, _ => []
  | n + 1, v => BitVec.ofNat 8 v :: leBytes n (v / 256)

/-- A number built from bytes, most significant first (the byte strings of R3). -/
def beNat (l : List Byte) : Nat := l.foldl (fun a b => 256 * a + b.toNat) 0

end Sys2Proof.Machine

namespace Sys2Proof

/-- What a sparse table holds under key `k`, `d` where it lists nothing. -/
def SMap.get {α : Type} (d : α) : SMap α → Nat → α
  | [], _ => d
  | (k', v) :: t, k => if k = k' then v else if k < k' then d else SMap.get d t k

/-- Store `v` under key `k`; storing the unlisted value `d` removes the entry, so equal tables are equal lists. -/
def SMap.put {α : Type} [DecidableEq α] (d : α) : SMap α → Nat → α → SMap α
  | [], k, v => if v = d then [] else [(k, v)]
  | (k', v') :: t, k, v =>
    if k < k' then (if v = d then (k', v') :: t else (k, v) :: (k', v') :: t)
    else if k = k' then (if v = d then t else (k, v) :: t)
    else (k', v') :: SMap.put d t k v

/-- The keys of a table. -/
def SMap.keys {α : Type} (m : SMap α) : List Nat := m.map Prod.fst

/-- The canonical form: keys strictly rising, no entry at the unlisted value `d`. -/
def SMap.wf {α : Type} [DecidableEq α] (d : Nat → α) (m : SMap α) : Bool :=
  decide (m.Pairwise (fun a b => a.1 < b.1)) && m.all (fun e => !decide (e.2 = d e.1))

/-- Update the value under `k`. -/
def SMap.upd {α : Type} [DecidableEq α] (d : α) (m : SMap α) (k : Nat) (f : α → α) : SMap α :=
  m.put d k (f (m.get d k))

/-- Apply a function to every listed value. -/
def SMap.mapv {α : Type} [DecidableEq α] (d : α) (f : Nat → α → α) (m : SMap α) : SMap α :=
  m.foldl (fun (a : SMap α) (e : Nat × α) => a.put d e.1 (f e.1 e.2)) m

/-- Byte memory: a list of cells in canonical form. -/
abbrev Mem := SMap Byte

/-- The byte at `a`; a byte nothing has written reads as zero (DESIGN CHOICE, log 3). -/
def Mem.read (m : Mem) (a : Nat) : Byte := SMap.get 0 m a

/-- Write one byte, keeping the canonical form. -/
def Mem.write (m : Mem) (a : Nat) (b : Byte) : Mem := SMap.put 0 m a b

/-- `n` bytes from `a` upward. -/
def Mem.bytes (m : Mem) (a : Nat) : Nat → List Byte
  | 0 => []
  | n + 1 => m.read a :: Mem.bytes m (a + 1) n

/-- Store a list of bytes from `a` upward. -/
def Mem.store (m : Mem) (a : Nat) : List Byte → Mem
  | [] => m
  | b :: t => Mem.store (m.write a b) (a + 1) t

/-- The little-endian number in `n` bytes at `a`. -/
def Mem.nat (m : Mem) (a n : Nat) : Nat := Machine.leNat (m.bytes a n)

/-- Store the low `n` bytes of `v` at `a`, little-endian. -/
def Mem.putNat (m : Mem) (a n v : Nat) : Mem := m.store a (Machine.leBytes n v)

/-- The canonical form of memory. -/
def Mem.wf (m : Mem) : Bool := SMap.wf (fun _ => (0 : Byte)) m

end Sys2Proof

namespace Sys2Proof.Machine

/-- Rotate a 32-bit number left. -/
def rotl32 (v n : Nat) : Nat := ((v <<< n) ||| (v >>> (32 - n))) % 2 ^ 32

/-- Number of ones among the low `n` bits. -/
def ones (n v : Nat) : Nat := ((List.range n).filter (fun i => v.testBit i)).length

/-- The first element that satisfies `p`, by position. -/
def findPos {α : Type} (p : α → Bool) : List α → Option Nat
  | [] => none
  | a :: t => if p a then some 0 else (findPos p t).map (· + 1)

/-- Replace element `i` of a list. -/
def setAt {α : Type} (l : List α) (i : Nat) (a : α) : List α := l.set i a

/-- Round `n` up to a multiple of `k`. -/
def roundUp (n k : Nat) : Nat := (n + (k - 1)) / k * k

end Sys2Proof.Machine
end

