-- ==== Sys2Proof/Machine/Float.lean ====
section
/-! DEFINITION. The element formats, rounding modes, overflow and NaN rules of spec 07 (R268 to R285) and the
FP32, FP16 and BF16 arithmetic of spec 04 (R150 to R152), computed exactly on dyadic numbers and rounded once. -/

namespace Sys2Proof.Machine

/-- A value of a floating-point format: NaN, an infinity, or (-1)^neg × man × 2^exp. -/
inductive FVal where
  | nan
  | inf (neg : Bool)
  | fin (neg : Bool) (man : Nat) (exp : Int)
  deriving DecidableEq, Repr

/-- How a format treats its top exponent (R268). -/
inductive FKind where
  | ieee | e4m3 | kf6 | e2m1
  deriving DecidableEq, Repr

/-- A floating-point format (R268): exponent bits, mantissa bits, bias, kind. -/
structure Fmt where
  eb : Nat
  mb : Nat
  bias : Nat
  kind : FKind
  deriving DecidableEq, Repr

def fmtF32 : Fmt := ⟨8, 23, 127, .ieee⟩
def fmtF16 : Fmt := ⟨5, 10, 15, .ieee⟩
def fmtBF16 : Fmt := ⟨8, 7, 127, .ieee⟩
def fmtE4M3 : Fmt := ⟨4, 3, 7, .e4m3⟩
def fmtE5M2 : Fmt := ⟨5, 2, 15, .ieee⟩
def fmtE2M1 : Fmt := ⟨2, 1, 1, .e2m1⟩
def fmtKF6 : Fmt := ⟨3, 2, 3, .kf6⟩

/-- The floating-point format of a code of R154. -/
def fmtOfCode : Nat → Option Fmt
  | 2 => some fmtF32 | 3 => some fmtF16 | 4 => some fmtBF16 | 5 => some fmtE4M3
  | 6 => some fmtE5M2 | 7 => some fmtE2M1 | 8 => some fmtKF6 | _ => none

/-- Integer formats of R274: bits and signedness. -/
def intOfCode : Nat → Option (Nat × Bool)
  | 0 => some (32, false) | 1 => some (32, true) | 9 => some (8, true) | 10 => some (8, false)
  | 11 => some (4, true) | 12 => some (4, false) | _ => none

/-- Elements of a format per 32-bit register (R155). -/
def perReg : Nat → Nat
  | 0 => 1 | 1 => 1 | 2 => 1 | 3 => 2 | 4 => 2 | 5 => 4 | 6 => 4 | 7 => 8 | 8 => 5 | 9 => 4 | 10 => 4
  | 11 => 8 | 12 => 8 | _ => 0

/-- Bits of one element (R268, R274). -/
def elemBits : Nat → Nat
  | 0 => 32 | 1 => 32 | 2 => 32 | 3 => 16 | 4 => 16 | 5 => 8 | 6 => 8 | 7 => 4 | 8 => 6 | 9 => 8 | 10 => 8
  | 11 => 4 | 12 => 4 | _ => 0

/-- Bits of the encoding. -/
def Fmt.bits (f : Fmt) : Nat := 1 + f.eb + f.mb

/-- The value an encoding stands for (R268, R269). -/
def Fmt.decode (f : Fmt) (x : Nat) : FVal :=
  let m := x % 2 ^ f.mb
  let e := (x >>> f.mb) % 2 ^ f.eb
  let s := decide ((x >>> (f.mb + f.eb)) % 2 = 1)
  let top := decide (e = 2 ^ f.eb - 1)
  if f.kind = .ieee && top then (if m = 0 then .inf s else .nan)
  else if f.kind = .e4m3 && top && decide (m = 7) then .nan
  else if f.kind = .kf6 && s && decide (e = 0) && decide (m = 0) then .nan
  else if e = 0 then .fin s m (1 - (f.bias : Int) - f.mb)
  else .fin s (2 ^ f.mb + m) ((e : Int) - f.bias - f.mb)

/-- The largest finite encoding without its sign (R268). -/
def Fmt.maxCode (f : Fmt) : Nat :=
  match f.kind with
  | .ieee => (2 ^ f.eb - 1) * 2 ^ f.mb - 1
  | .e4m3 => 0x7E
  | .kf6 => 0x1F
  | .e2m1 => 7

/-- The NaN a conversion writes (R282). -/
def Fmt.nanCode (f : Fmt) : Nat :=
  match f.kind with
  | .ieee => (2 ^ f.eb - 1) * 2 ^ f.mb + 2 ^ (f.mb - 1)
  | .e4m3 => 0x7F
  | .kf6 => 0x20
  | .e2m1 => 0

/-- An encoding with a sign; KF6 has no −0 (R273, R283). -/
def Fmt.withSign (f : Fmt) (neg : Bool) (code : Nat) : Nat :=
  if f.kind = .kf6 && decide (code = 0) then 0
  else if neg then code + 2 ^ (f.mb + f.eb) else code

/-- What overflow gives (R281): infinity, NaN or the largest finite value. -/
def Fmt.overflow (f : Fmt) (neg sat : Bool) : Nat :=
  if sat then f.withSign neg f.maxCode
  else match f.kind with
    | .ieee => f.withSign neg (f.maxCode + 1)
    | .e4m3 => 0x7F
    | .kf6 => 0x20
    | .e2m1 => f.withSign neg f.maxCode

/-- Rounding modes (R276): RN, RZ and RS with its 13 random bits. -/
inductive RMode where
  | rn | rz
  | rs (r : Nat)
  deriving DecidableEq, Repr

/-- The magnitude chosen in units of q: `k` whole units and remainder `r` of `2^d` (R276, R277). -/
def roundUnits (mode : RMode) (k r d : Nat) : Nat :=
  if r = 0 then k
  else match mode with
    | .rz => k
    | .rn => if 2 * r < 2 ^ d then k else if 2 ^ d < 2 * r then k + 1 else if k % 2 = 0 then k else k + 1
    | .rs x => if 8192 ≤ 8192 * r / 2 ^ d + x % 8192 then k + 1 else k

/-- Split `man × 2^exp` into units of `2^qe`: whole units, remainder, and the remainder's width. -/
def splitUnits (man : Nat) (exp qe : Int) : Nat × Nat × Nat :=
  if qe ≤ exp then (man * 2 ^ (exp - qe).toNat, 0, 0)
  else
    let d := (qe - exp).toNat
    (man / 2 ^ d, man % 2 ^ d, d)

/-- Round a value to a format (R276, R281 to R283). -/
def Fmt.round (f : Fmt) (mode : RMode) (sat : Bool) : FVal → Nat
  | .nan => f.nanCode
  | .inf neg =>
    match f.kind with
    | .ieee => f.withSign neg (f.maxCode + 1)
    | _ => f.overflow neg sat
  | .fin neg man exp =>
    if man = 0 then f.withSign neg 0
    else
      let emin : Int := 1 - (f.bias : Int)
      let lg : Int := (Nat.log2 man : Int) + exp
      let e := if lg < emin then emin else lg
      let (k, r, d) := splitUnits man exp (e - f.mb)
      let k' := roundUnits mode k r d
      -- a carry out of the binade
      let (k2, e2) := if k' = 2 ^ (f.mb + 1) then (2 ^ f.mb, e + 1) else (k', e)
      let field : Int := if k2 < 2 ^ f.mb then 0 else e2 + f.bias
      let code : Nat := field.toNat * 2 ^ f.mb + (if k2 < 2 ^ f.mb then k2 else k2 - 2 ^ f.mb)
      if f.maxCode < code then
        (if mode = .rz then f.withSign neg f.maxCode else f.overflow neg sat)
      else f.withSign neg code

/-- Round a value to an integer format: it always saturates, and NaN gives 0 (R157, R281, R282). -/
def roundInt (bits : Nat) (signed : Bool) (mode : RMode) : FVal → Nat
  | .nan => 0
  | .inf neg =>
    if neg then (if signed then 2 ^ (bits - 1) else 0)
    else if signed then 2 ^ (bits - 1) - 1 else 2 ^ bits - 1
  | .fin neg man exp =>
    let (k, r, d) := splitUnits man exp 0
    let k' := roundUnits mode k r d
    let z : Int := if neg then -(k' : Int) else k'
    let lo : Int := if signed then -(2 ^ (bits - 1) : Int) else 0
    let hi : Int := if signed then 2 ^ (bits - 1) - 1 else 2 ^ bits - 1
    wrapI bits (if z < lo then lo else if hi < z then hi else z)

/-- The value of an integer element. -/
def intVal (bits : Nat) (signed : Bool) (x : Nat) : FVal :=
  let z : Int := if signed then sx bits x else ((x % 2 ^ bits : Nat) : Int)
  .fin (decide (z < 0)) z.natAbs 0

/-- The value of an element of a format code (R154). -/
def elemVal (code x : Nat) : FVal :=
  match fmtOfCode code with
  | some f => f.decode x
  | none => match intOfCode code with
    | some (b, sg) => intVal b sg x
    | none => .nan

/-- Convert a value to a format code (R157). -/
def toElem (code : Nat) (mode : RMode) (sat : Bool) (v : FVal) : Nat :=
  match fmtOfCode code with
  | some f => f.round mode sat v
  | none => match intOfCode code with
    | some (b, sg) => roundInt b sg mode v
    | none => 0

/-- Exact negation. -/
def FVal.neg : FVal → FVal
  | .nan => .nan
  | .inf s => .inf (!s)
  | .fin s m e => .fin (!s) m e

/-- The signed mantissa of a finite value aligned at exponent `e`. -/
def alignTo (e : Int) (neg : Bool) (man : Nat) (exp : Int) : Int :=
  let z : Int := (man : Int) * 2 ^ (exp - e).toNat
  if neg then -z else z

/-- The exact sum; an exact zero is +0 unless both operands are −0 (R283). -/
def FVal.add : FVal → FVal → FVal
  | .nan, _ => .nan
  | _, .nan => .nan
  | .inf a, .inf b => if a = b then .inf a else .nan
  | .inf a, _ => .inf a
  | _, .inf b => .inf b
  | .fin s1 m1 e1, .fin s2 m2 e2 =>
    let e := if e1 < e2 then e1 else e2
    let z := alignTo e s1 m1 e1 + alignTo e s2 m2 e2
    if z = 0 then .fin (s1 && s2 && decide (m1 = 0) && decide (m2 = 0)) 0 0
    else .fin (decide (z < 0)) z.natAbs e

/-- The exact product. -/
def FVal.mul : FVal → FVal → FVal
  | .nan, _ => .nan
  | _, .nan => .nan
  | .inf a, .inf b => .inf (a != b)
  | .inf a, .fin b m _ => if m = 0 then .nan else .inf (a != b)
  | .fin a m _, .inf b => if m = 0 then .nan else .inf (a != b)
  | .fin s1 m1 e1, .fin s2 m2 e2 => .fin (s1 != s2) (m1 * m2) (e1 + e2)

/-- The magnitude of a value. -/
def FVal.abs : FVal → FVal
  | .nan => .nan
  | .inf _ => .inf false
  | .fin _ m e => .fin false m e

/-- Is the value NaN? -/
def FVal.isNan : FVal → Bool
  | .nan => true
  | _ => false

/-- Order of two values, NaN apart: −1, 0 or 1; the two zeros compare equal (R152). -/
def FVal.cmp : FVal → FVal → Int
  | .nan, _ => 0
  | _, .nan => 0
  | .inf a, .inf b => if a = b then 0 else if a then -1 else 1
  | .inf a, _ => if a then -1 else 1
  | _, .inf b => if b then 1 else -1
  | .fin s1 m1 e1, .fin s2 m2 e2 =>
    let e := if e1 < e2 then e1 else e2
    let z := alignTo e s1 m1 e1 - alignTo e s2 m2 e2
    if z < 0 then -1 else if z = 0 then 0 else 1

/-- The sign of a value, a zero's sign included. -/
def FVal.isNeg : FVal → Bool
  | .nan => false
  | .inf s => s
  | .fin s _ _ => s

/-- MIN or MAX of two encodings: a NaN operand is ignored, two NaNs give the canonical NaN, and −0 lies below +0
(R150, R284). -/
def fMinMax (f : Fmt) (wantMax : Bool) (x y : Nat) : Nat :=
  let a := f.decode x
  let b := f.decode y
  if a.isNan && b.isNan then f.nanCode
  else if a.isNan then y
  else if b.isNan then x
  else
    let c := a.cmp b
    let aFirst := if c = 0 then a.isNeg else decide (c < 0)
    if aFirst = wantMax then y else x

/-- A NaN whose payload the spec does not promise (R150): any NaN of the format, the canonical one where the free
bits would not spell a NaN. -/
def freeNan (f : Fmt) (r : Nat) : Nat :=
  let code := (2 ^ f.eb - 1) * 2 ^ f.mb + r % 2 ^ f.mb
  let c := if r % 2 ^ f.mb = 0 then f.nanCode else code
  c + (if (r >>> f.mb) % 2 = 1 then 2 ^ (f.mb + f.eb) else 0)

/-- Round an arithmetic result; a NaN takes the free payload `r` (R150, R285). -/
def arith (f : Fmt) (mode : RMode) (sat : Bool) (v : FVal) (r : Nat) : Nat :=
  if v.isNan then freeNan f r else f.round mode sat v

/-- ADD, MUL, FMA, MIN and MAX of one element (R150, R151). -/
def fpOp (f : Fmt) (minor : Nat) (mode : RMode) (sat : Bool) (na nb nc : Bool) (x y z r : Nat) : Nat :=
  let sg (n : Bool) (w : Nat) : Nat := if n then Nat.xor w (2 ^ (f.mb + f.eb)) else w
  let a := f.decode (sg na x)
  let b := f.decode (sg nb y)
  let c := f.decode (sg nc z)
  match minor with
  | 0 => arith f mode sat (a.add b) r
  | 1 => arith f mode sat (a.mul b) r
  | 2 => arith f mode sat ((a.mul b).add c) r
  | 3 => fMinMax f false (sg na x) (sg nb y)
  | _ => fMinMax f true (sg na x) (sg nb y)

/-- The comparisons of R148 and R152 from the order of two operands and whether one is NaN. -/
def cmpHolds (code : Nat) (c : Int) (anyNan : Bool) : Bool :=
  match code with
  | 0 => !anyNan && decide (c = 0)
  | 1 => anyNan || decide (c ≠ 0)
  | 2 => !anyNan && decide (c < 0)
  | 3 => !anyNan && decide (c ≤ 0)
  | 4 => !anyNan && decide (0 < c)
  | 5 => !anyNan && decide (0 ≤ c)
  | 6 => !anyNan
  | _ => anyNan

/-- FCMP of one element (R152). -/
def fCmp (f : Fmt) (code : Nat) (na nb : Bool) (x y : Nat) : Bool :=
  let sg (n : Bool) (w : Nat) : Nat := if n then Nat.xor w (2 ^ (f.mb + f.eb)) else w
  let a := f.decode (sg na x)
  let b := f.decode (sg nb y)
  cmpHolds code (a.cmp b) (a.isNan || b.isNan)

/-- |v × w − 1| ≤ u for the reciprocal check: both sides as dyadics with a common exponent (R153, RCP). -/
def absLe (a b : FVal) : Bool :=
  match a, b with
  | .fin _ m1 e1, .fin _ m2 e2 =>
    let e := if e1 < e2 then e1 else e2
    decide (m1 * 2 ^ (e1 - e).toNat ≤ m2 * 2 ^ (e2 - e).toNat)
  | _, .inf _ => true
  | _, _ => false

/-- One unit in the last place of a finite F32 encoding. -/
def ulpF32 (x : Nat) : FVal :=
  match fmtF32.decode x with
  | .fin _ _ e => .fin false 1 e
  | v => v

/-- Does `y` lie within 1 ulp of 1/a (R153)? -/
def rcpWithin (a y : Nat) : Bool :=
  let va := fmtF32.decode a
  let vy := fmtF32.decode y
  match va, vy with
  | .fin _ _ _, .fin _ _ _ =>
    absLe ((va.mul vy).add (.fin true 1 0)) ((ulpF32 y).mul va)
  | _, _ => false

/-- Does `y` lie within 2 ulp of 1/√a, for a positive `a` (R153)? -/
def rsqWithin (a y : Nat) : Bool :=
  let va := fmtF32.decode a
  let vy := fmtF32.decode y
  let two := (ulpF32 y).mul (.fin false 2 0)
  let hi := vy.add two
  let lo := vy.add two.neg
  match va, vy with
  | .fin false _ _, .fin false _ _ =>
    absLe (.fin false 1 0) ((hi.mul hi).mul va) &&
      (lo.isNeg || absLe ((lo.mul lo).mul va) (.fin false 1 0))
  | _, _ => false

/-- The integer square root, one bit at a time from bit 65 down. -/
def isqrt (n : Nat) : Nat :=
  (List.range 66).foldr (fun i r => if (r + 2 ^ i) * (r + 2 ^ i) ≤ n then r + 2 ^ i else r) 0

/-- The correctly rounded 1/a of a finite non-zero F32 value: what RCP gives where the free value leaves the bound. -/
def rcpCanon (neg : Bool) (man : Nat) (exp : Int) : Nat :=
  fmtF32.round .rn false (.fin neg (2 * (2 ^ 60 / man) + (if 2 ^ 60 % man = 0 then 0 else 1)) (-61 - exp))

/-- 1/√a to 50 bits and more, rounded: what RSQ gives where the free value leaves the bound. -/
def rsqCanon (man : Nat) (exp : Int) : Nat :=
  let o := exp % 2
  fmtF32.round .rn false (.fin false (isqrt (2 ^ 128 / (man * 2 ^ o.toNat))) (-64 - (exp - o) / 2))

/-! Reference values with 96 fraction bits, for the bounds of EX2, LG2, SIN and COS. -/

/-- The product of two numbers of 96 fraction bits. -/
def fxMul (a b : Int) : Int := a * b / 2 ^ 96

/-- A value with 96 fraction bits, rounded down; 0 for what is not finite. -/
def fxOf : FVal → Int
  | .fin s m e =>
    let n : Int := if s then -(m : Int) else m
    if 0 ≤ e + 96 then n * 2 ^ (e + 96).toNat else n / 2 ^ (-(e + 96)).toNat
  | _ => 0

/-- A number of 96 fraction bits as a value. -/
def fxVal (z : Int) : FVal := .fin (decide (z < 0)) z.natAbs (-96)

/-- 2^a: the fraction's exponential by its series, then the whole part as exponent; beyond the exponents of F32 a bound of it. -/
def ex2Ref (a : FVal) : FVal :=
  if !absLe a (.fin false 1 9) then .fin false 1 (if a.isNeg then -512 else 512)
  else
    let z := fxOf a
    let u := fxMul (z % 2 ^ 96) 54916777467707473351141471128
    let s := ((List.range 40).foldl (fun (t : Int × Int) k => (t.1 + t.2, fxMul t.2 u / (k + 1 : Nat))) (0, 2 ^ 96)).1
    .fin false s.natAbs (z / 2 ^ 96 - 96)

/-- log₂ of man × 2^exp: the exponent, and the logarithm of the mantissa between 1 and 2 by the series of artanh. -/
def lg2Ref (man : Nat) (exp : Int) : FVal :=
  let n := Nat.log2 man
  let z : Int := ((man - 2 ^ n : Nat) : Int) * 2 ^ 96 / ((man + 2 ^ n : Nat) : Int)
  let q := fxMul z z
  let s := ((List.range 32).foldl (fun (t : Int × Int) k => (t.1 + t.2 / (2 * k + 1 : Nat), fxMul t.2 q)) (0, z)).1
  fxVal (fxMul s 228604154316148052805275351873 + ((n : Int) + exp) * 2 ^ 96)

/-- The sine, or cosine, of an angle of at most 2^16 in magnitude: taken modulo 2π, then by its series. -/
def sinRef (cosine : Bool) (a : FVal) : FVal :=
  let r := fxOf a % 497805226624462170461043889244
  let q := fxMul r r
  fxVal ((List.range 26).foldl (fun (t : Int × Int) k =>
    (t.1 + t.2, -(fxMul t.2 q) / (if cosine then (2 * k + 1) * (2 * k + 2) else (2 * k + 2) * (2 * k + 3) : Nat)))
    (0, if cosine then 2 ^ 96 else r)).1

/-- Does `y` lie within a bound of a reference value? The reference's own error, below 2⁻⁶⁴, counts for `y` (log 6). -/
def sfuNear (y : Nat) (ref bound : FVal) : Bool :=
  match fmtF32.decode y with
  | .fin s m e => absLe ((FVal.fin s m e).add ref.neg) (bound.add (.fin false 1 (-64)))
  | _ => false

/-- A special function's result: the free one where it keeps the bound, else the reference value rounded. -/
def sfuHeld (y : Nat) (ref bound : FVal) : Nat := if sfuNear y ref bound then y else fmtF32.round .rn false ref

/-- Two units in the last place of a result. -/
def ulps2 (y : Nat) : FVal := (ulpF32 y).mul (.fin false 2 0)

/-- The special functions (R153). The special cases are the spec's; elsewhere the result is the free function
`Config.sfu` of the operation and the operand, held to the spec's bounds, and to [−1, 1] for SIN and COS of angles above 2^16. The NaN of an operation
is a function of its operand too. -/
def sfuOp (minor x : Nat) : Nat :=
  let v := fmtF32.decode x
  let y := (Config.sfu minor (BitVec.ofNat 32 x)).toNat
  let unit := if absLe (fmtF32.decode y) (.fin false 1 0) then y else 0
  match minor, v with
  | _, .nan => freeNan fmtF32 y
  | 0, .fin s m e => if m = 0 then fmtF32.withSign s 0x7F800000 else if rcpWithin x y then y else rcpCanon s m e
  | 1, .inf true => freeNan fmtF32 y
  | 1, .fin s m e =>
    if m = 0 then y else if s then freeNan fmtF32 y else if rsqWithin x y then y else rsqCanon m e
  | 2, .fin _ _ _ => sfuHeld y (ex2Ref v) (ulps2 y)
  | 3, .fin _ 0 _ => 0xFF800000
  | 3, .fin false m e =>
    let ref := lg2Ref m e
    sfuHeld y ref (if absLe (.fin false 1 (-1)) ref.abs then ulps2 y else
      if absLe (ulps2 y) (.fin false 1 (-22)) then .fin false 1 (-22) else ulps2 y)
  | 4, .inf _ => freeNan fmtF32 y
  | 5, .inf _ => freeNan fmtF32 y
  | 4, .fin _ _ _ => if absLe v.abs (.fin false 1 16) then sfuHeld y (sinRef false v) (.fin false 1 (-21)) else unit
  | 5, .fin _ _ _ => if absLe v.abs (.fin false 1 16) then sfuHeld y (sinRef true v) (.fin false 1 (-21)) else unit
  | _, _ => y

/-- The generator of one lane (R278): the state after one draw. -/
def genNext (s : Nat) : Nat :=
  let s1 := Nat.xor s (s <<< 13 % 2 ^ 32)
  let s2 := Nat.xor s1 (s1 >>> 17)
  Nat.xor s2 (s2 <<< 5 % 2 ^ 32)

/-- The 13 bits a draw returns, from the state it leaves (R278). -/
def genBits (s : Nat) : Nat := s >>> 19

/-- The seed of hardware lane `h` of a core (R279). -/
def genSeed (seed core h : Nat) : Nat :=
  let m := 2 ^ 32
  let s := Nat.xor (Nat.xor (seed % m) (rotl32 (seed / m % m) 16))
    (Nat.xor (core * 0x9E3779B9 % m) (h * 0x85EBCA6B % m))
  let s := Nat.xor s (s >>> 16)
  let s := s * 0x7FEB352D % m
  let s := Nat.xor s (s >>> 15)
  let s := s * 0x846CA68B % m
  let s := Nat.xor s (s >>> 16)
  if s = 0 then 0x6D2B79F5 else s

/-- Round toward zero with overflow to infinity, as the accumulate stage does (R288). -/
def rzOverflow (v : FVal) : Nat :=
  let c := fmtF32.round .rz false v
  match v with
  | .fin s _ _ =>
    if absLe (.fin false (2 ^ 24 - 1) 104) v && !absLe v (.fin false (2 ^ 24 - 1) 104)
    then fmtF32.withSign s (fmtF32.maxCode + 1) else c
  | _ => c

/-- The new running value of a step (R287): the free value where it meets both inequalities, the exact sum rounded
toward zero otherwise; a sum beyond F32 is infinite (R288). `v` is the running value, `sum` the exact sum of v and the products, `mag` the sum of
magnitudes; a sum of integers below 2^24 is exact (R290). -/
def stepValue (sum mag : FVal) (ints : Bool) (free : Nat) : Nat :=
  let canon := rzOverflow sum
  let y := fmtF32.decode (free % 2 ^ 32)
  let err := y.add sum.neg
  let bound := (mag.mul (.fin false 1 (-23))).add (.fin false 1 (-149))
  if ints && absLe sum (.fin false (2 ^ 24 - 1) 0) then canon
  else match fmtF32.decode canon, y with
  | .fin _ _ _, .fin _ _ _ => if absLe err bound && absLe y mag then free % 2 ^ 32 else canon
  | _, _ => canon

end Sys2Proof.Machine
end

