-- ==== Sys2Proof/Machine/GroupState.lean ====
section
/-! DEFINITION. What a core holds for its groups and blocks: registers, masks, barriers, waits, faults
(spec 03 R76 to R98, R112 to R126). -/

namespace Sys2Proof.Machine

/-- The states of a group slot that is not EMPTY (R125). -/
inductive GroupStat where
  | ready | waiting | faulted
  deriving DecidableEq, Repr

/-- A thread fault (R119): code of R144, program counter, faulting lanes, lowest faulting lane's address. -/
structure ThreadFault where
  code : Nat
  pc : Nat
  lanes : Half
  addr : Nat
  deriving DecidableEq, Repr

/-- A resident group (R76 to R83, R109, R125). `hold` says that the group is held at the instruction at `pc`, which
the partition tries again. `last` is the turn of its last issue among the core's issues, 0 before the first (R86), and `issued` when
that was. -/
structure Group where
  block : Nat
  index : Nat
  decl : Nat
  stat : GroupStat
  wait : Nat
  hold : Bool
  live : Half
  pc : Nat
  v : SMap Half
  u : SMap Half
  p : SMap Half
  tsHi : Half
  selfLock : Nat
  stopping : Bool
  stopped : Bool
  fetching : Option Nat
  fault : Option ThreadFault
  last : Nat
  issued : Nat
  deriving DecidableEq, Repr

/-- One named barrier of a block (R93 to R98): the expected count, who has arrived, who waits for the phase in
BAR.SYNC, who waits to arrive again (R96) with whether by BAR.SYNC, how far the count drops at the next phase (R97), and when the
earliest waiting group arrived, in core cycles. -/
structure Barrier where
  expected : Nat
  arrived : List Nat
  waiting : List Nat
  again : List (Nat × Bool)
  dropNext : Nat
  since : Option Nat
  earliest : Option Nat
  deriving DecidableEq, Repr

/-- A resident block (R80, R84): its launch, context, index in the grid, scratchpad range, groups and barrier set, the
guard limits in force for its launch (R123), the thread fault that stopped it, whether it lies on a borrowed lane
cluster, and the time plus 1 at which it must be off it (R405), 0 for none, and its age among the blocks. -/
structure Block where
  launch : Nat
  ctx : Nat
  index : Nat
  base : Nat
  size : Nat
  groups : Nat
  threads : Nat
  ended : List Nat
  bars : SMap Barrier
  barGuard : Nat
  lockGuard : Nat
  fault : Option ThreadFault
  stopped : Bool
  borrowed : Bool
  due : Nat
  born : Nat
  deriving DecidableEq, Repr

/-- Lane `l` of vector register `r` (R77). -/
def Group.getV (g : Group) (r l : Nat) : Nat := (SMap.get 0 g.v (32 * r + l)).toNat

/-- Uniform register `r` (R79). -/
def Group.getU (g : Group) (r : Nat) : Nat := (SMap.get 0 g.u r).toNat

/-- Predicate register `r`; p7 reads all ones (R88). -/
def Group.getP (g : Group) (r : Nat) : Half := if r = 7 then BitVec.allOnes 32 else SMap.get 0 g.p r

/-- Write one lane of a vector register. -/
def Group.setV (g : Group) (r l x : Nat) : Group :=
  { g with v := SMap.put 0 g.v (32 * r + l) (BitVec.ofNat 32 x) }

/-- Write a uniform register. -/
def Group.setU (g : Group) (r x : Nat) : Group := { g with u := SMap.put 0 g.u r (BitVec.ofNat 32 x) }

/-- Write a predicate register in the lanes of `mask`; a write to p7 is discarded (R88, R90). -/
def Group.setP (g : Group) (r : Nat) (mask x : Half) : Group :=
  if r = 7 then g else { g with p := SMap.put 0 g.p r ((g.getP r &&& ~~~mask) ||| (x &&& mask)) }

/-- Write lane values of a vector register over the lanes of a mask. -/
def Group.setLanes (g : Group) (r : Nat) (mask : Half) (f : Nat → Nat) : Group :=
  (List.range 32).foldl (fun h l => if mask.getLsbD l then h.setV r l (f l) else h) g

/-- The mask of the lanes for which `f` holds. -/
def laneMask (f : Nat → Bool) : Half :=
  BitVec.ofNat 32 ((List.range 32).foldl (fun a l => if f l then a + 2 ^ l else a) 0)

/-- The lanes of a mask, ascending. -/
def lanesOf (m : Half) : List Nat := (List.range 32).filter (fun l => m.getLsbD l)

end Sys2Proof.Machine
end

