-- ==== Sys2Proof/Machine/MemState.lean ====
section
/-! DEFINITION. What the memory system and the translation path hold: device memory with the key generation and poison
of each sector, L2 lines and sidings, TLBs and walk caches (spec 02 R53 to R55, 08, 09, 16 R559, 17 R583). -/

namespace Sys2Proof.Machine

/-- One line held by its home slice or that slice's siding (R360, R361): bytes, poisoned sectors (one bit each), dirty,
the way it occupies or `none` in the siding, the key slot it carries (R583), when it came there, and whether
a hint gave it the lowest replacement priority (R166). -/
structure L2Line where
  bytes : List Byte
  poison : Nat
  dirty : Bool
  way : Option Nat
  slot : Nat
  stamp : Nat
  first : Bool
  deriving DecidableEq, Repr

/-- A line of an event crossing (R67): what its 6-bit accumulator holds, whether it has saturated in the transfer window, and the count
that the last transfer delivered. -/
structure EventLine where
  acc : Nat
  full : Bool
  sent : Nat
  deriving DecidableEq, Repr

/-- Device memory and its caches. `key` gives, for a written 32-byte sector, the key it is encrypted under (slot and
generation, plus 1; 0 for a sector nothing has written); `gen` the generation of each key slot (R586). `fenced` lists the
crossings that a stall has fenced, by group and instance (R70), with 9 and 0 for the west-east link while it is down (R52), `events`
the saturating line of each group's event crossings, `cut` the writes that those towards the stacks discarded; `tally` counts, for
R611, the lines written to the stacks of die d under d and the write-backs of its slices under 2 + d. -/
structure MemSys where
  dram : Mem
  key : SMap Nat
  poison : SMap Bool
  l2 : SMap (Option L2Line)
  clock : Nat
  gen : SMap Nat
  fenced : List (Nat × Nat)
  events : SMap EventLine
  cut : Nat
  tally : SMap Nat
  deriving DecidableEq, Repr

/-- A TLB entry (R318): context number, or 4,096 for MODEL; a page or run: first virtual address, bytes, first physical
address; region of R315. -/
structure TlbEntry where
  tag : Nat
  va : Nat
  size : Nat
  pa : Nat
  region : Nat
  deriving DecidableEq, Repr

/-- A walk-cache entry: the table that a non-leaf entry of `level` names, for the virtual addresses with this prefix. -/
structure WalkEntry where
  tag : Nat
  level : Nat
  vaPrefix : Nat
  table : Nat
  deriving DecidableEq, Repr

/-- An invalidation in progress (R321, R322): what it names, and the turns of the instructions of each core whose accesses had
translated before it and are not performed yet. -/
structure Inval where
  tag : Nat
  va : Nat
  pages : Nat
  waits : List (Nat × Nat)
  deriving DecidableEq, Repr

/-- The shared part of the translation path; each core's TLB stands with its core. `views` holds the translation registers
that launches, copies and programs took at their boundary, by view number (R306). -/
structure TrnState where
  cluster : SMap (List TlbEntry)
  hub : List TlbEntry
  walk : SMap (List WalkEntry)
  inval : Option Inval
  views : SMap (Option (SMap Word))
  nextView : Nat
  deriving DecidableEq, Repr

/-- What a translation answers: the physical address and region, or the cause of R328 with the table level. -/
inductive Xlat where
  | ok (pa region : Nat)
  | fault (cause level : Nat)
  deriving DecidableEq, Repr

end Sys2Proof.Machine
end

