-- ==== Sys2Proof/Machine/CoreState.lean ====
section
/-! DEFINITION. What a core holds beside its groups: L1, instruction cache, store buffer, outstanding loads, tensor
copy slots, matrix array and matrix-vector path (spec 03 R112 to R118, 04 R127, 05, 09 R336, R357). -/

namespace Sys2Proof.Machine

/-- An L1 line: bytes and poisoned sectors, when it was filled (R357, R358), and whether a hint gave it the lowest replacement
priority (R166). -/
structure L1Line where
  bytes : List Byte
  poison : Nat
  filled : Nat
  first : Bool
  deriving DecidableEq, Repr

/-- Where a physical address leads (R298, R302). -/
inductive Place where
  | localMem | host | remote
  deriving DecidableEq, Repr

/-- One store in a store-buffer entry: the group slot that stored, the turn of its issue, its launch, its virtual address, and its
bytes. -/
structure StorePart where
  slot : Nat
  turn : Nat
  launch : Nat
  va : Nat
  data : SMap (Option Byte)
  deriving DecidableEq, Repr

/-- A store-buffer entry (R336): up to 128 bytes of one line, by offset in the line; where it goes, its region, key slot
and context; whether it takes further merges; whether the west-east link has accepted it (R338); its HINT; the launch
that stored last; and the stores merged in it, in core order. -/
structure StoreEntry where
  place : Place
  line : Nat
  data : SMap (Option Byte)
  region : Nat
  keySlot : Nat
  ctx : Nat
  open_ : Bool
  linked : Bool
  hint : Nat
  launch : Nat
  parts : List StorePart
  deriving DecidableEq, Repr

/-- A lane of an outstanding load: its virtual address, and its place in local memory, if there. -/
structure LoadLane where
  lane : Nat
  va : Nat
  off : Option Nat
  deriving DecidableEq, Repr

/-- An outstanding load or atomic of a group (R134): destination register, registers per lane, uniform or not, lanes,
the value of each lane once it is fixed, the host reads that lanes wait for (by tag), the lanes that poison reached, the lines to
fill into L1 with their key slot and the hint of the lowest replacement priority, what kind of acquire it is (0 none, 1 narrow, 2 at .d or
wider), the instruction's address and turn, its OP and bytes per lane, its lanes, and whether a parity error reads it again (R357). -/
structure Load where
  slot : Nat
  dest : Nat
  regs : Nat
  uni : Bool
  mask : Half
  vals : SMap (Option Nat)
  want : List (Nat × Nat)
  bad : Half
  fill : List Nat
  keySlot : Nat
  first : Bool
  acq : Nat
  pc : Nat
  turn : Nat
  op : Nat
  size : Nat
  lanes : List LoadLane
  again : Bool
  deriving DecidableEq, Repr

/-- A tensor copy slot (R112 to R117): the copied descriptor, the barrier set of its block (64 once the
block has ended), the block's allocation, context and launch, the bytes it has moved or asked for, and its fault. -/
structure TSlot where
  block : Nat
  op : Nat
  elem : Nat
  dims : Nat
  flags : Nat
  src : Nat
  dst : Nat
  ext0 : Nat
  ext1 : Nat
  ext2 : Nat
  sstr1 : Int
  sstr2 : Int
  dstr1 : Int
  dstr2 : Int
  sem : Nat
  flagAddr : Nat
  base : Nat
  size : Nat
  ctx : Nat
  launch : Nat
  pos : Nat
  fault : Option Nat
  deriving DecidableEq, Repr

/-- An operand descriptor as the array copied it (R191), with the bytes of its operand as they stood at issue (R194) by
address, `base` being the allocation's start for scratchpad, and the ranges that could not be read: start, length and
fault code. -/
structure Operand where
  addr : Nat
  space : Nat
  extent : Nat
  stride : Nat
  scale : Nat
  panel : Nat
  meta_ : Nat
  base : Nat
  bytes : Mem
  bad : List (Nat × Nat × Nat)
  deriving DecidableEq, Repr

/-- A tile product (R181 to R198). `fault` is set when the descriptors were malformed; `order` numbers the tiles
and drains of the core as they are accepted (R200, R202), and `ran` counts the array cycles since its first K-step, freezes apart (R197). -/
structure Tile where
  slot : Nat
  acc : Bool
  fmtA : Nat
  fmtB : Nat
  sparse : Nat
  zskip : Bool
  scaled : Bool
  k : Nat
  a : Operand
  b : Operand
  group : Nat
  block : Nat
  order : Nat
  ran : Nat
  fault : Option Nat
  deriving DecidableEq, Repr

/-- A drain (R183, R184, R202, R203); `base` its block's allocation, `mask` the lanes it may write, `home` the slot of
the group that issued it, `order` its number among the core's tiles and drains, `reading` the words it read. -/
structure Drain where
  slot : Nat
  target : Nat
  ofmt : Nat
  rnd : Nat
  sat : Bool
  band : Nat
  keep : Bool
  addr : Nat
  base : Nat
  dest : Nat
  mask : Half
  home : Nat
  group : Nat
  block : Nat
  order : Nat
  reading : Option (List Nat)
  fault : Option Nat
  deriving DecidableEq, Repr

/-- A matrix-vector operation (R185, R212). -/
structure MvOp where
  n : Nat
  acc : Bool
  fmtW : Nat
  fmtX : Nat
  sparse : Nat
  zskip : Bool
  scaled : Bool
  ofmt : Nat
  rnd : Nat
  sat : Bool
  k : Nat
  w : Operand
  x : Operand
  out : Nat
  base : Nat
  limit : Nat
  group : Nat
  block : Nat
  started : Bool
  fault : Option Nat
  deriving DecidableEq, Repr

/-- A matrix fault not yet reported (R186, R209): slot 0 to 7, or 8 for the path; issuing group and block; code. -/
structure MxFault where
  slot : Nat
  group : Nat
  block : Nat
  code : Nat
  deriving DecidableEq, Repr

/-- The matrix array, drain and matrix-vector path of a core: accumulator words (slot × 6,144 + 48 × row + column),
poisoned words (R556), queues, unreported faults, the latched counters of R217, and the number of the next tile or drain. -/
structure Matrix where
  acc : SMap Half
  accPoison : SMap Bool
  queue : List Tile
  flight : List Tile
  drains : List Drain
  mv : List MvOp
  faults : List MxFault
  latched : List Word
  nextOrder : Nat
  deriving DecidableEq, Repr

/-- A fault that is recorded once the `left` oldest entries of the store buffer are performed (R354): the barrier set and launch of its
block. -/
structure LateFault where
  left : Nat
  set : Nat
  launch : Nat
  fault : ThreadFault
  deriving DecidableEq, Repr

/-- One core (R76 to R84, R122, R127, R278, R318, R336, R357). Scratchpad poison is by 4-byte word. `turns` counts its issues, and
`issuedAt` holds, for each partition, the time of its last issue plus 1 (R86). -/
structure Core where
  ctx : Option Nat
  switching : Bool
  launches : List Nat
  groups : SMap (Option Group)
  blocks : SMap (Option Block)
  scratch : Mem
  scratchPoison : SMap Bool
  gens : SMap Half
  icache : SMap (Option (List Byte))
  l1 : SMap (Option L1Line)
  stores : List StoreEntry
  loads : List Load
  tcopy : SMap (Option TSlot)
  mx : Matrix
  tlb : List TlbEntry
  lost : List Nat
  clockStopped : Bool
  reseed : Bool
  turns : Nat
  issuedAt : SMap Nat
  late : List LateFault
  deriving DecidableEq, Repr

/-- An idle matrix path. -/
def Matrix.empty : Matrix := ⟨[], [], [], [], [], [], [], [], 0⟩

/-- A core that holds nothing. Its generators hold what R279 puts for a seed that would be zero (DESIGN CHOICE,
log 2: before the first context switch the spec gives them no value). -/
def Core.empty : Core :=
  { ctx := none, switching := false, launches := [], groups := [], blocks := [], scratch := [], scratchPoison := [],
    gens := [], icache := [], l1 := [], stores := [], loads := [], tcopy := [], mx := Matrix.empty, tlb := [],
    lost := [], clockStopped := false, reseed := false, turns := 0, issuedAt := [], late := [] }

/-- What an unlisted generator holds. -/
def genReset : Half := 0x6D2B79F5

/-- Is any word of a scratchpad range poisoned? -/
def Core.scratchBad (k : Core) (a len : Nat) : Bool :=
  (List.range (len / 4 + 2)).any (fun i => decide (4 * (a / 4 + i) < a + len) && SMap.get false k.scratchPoison (a / 4 + i))

/-- Store bytes in the scratchpad; a word written whole loses its poison (R559). -/
def Core.scratchWrite (k : Core) (a : Nat) (b : List Byte) : Core :=
  { k with scratch := k.scratch.store a b,
           scratchPoison := k.scratchPoison.filter (fun e => !(decide (a ≤ 4 * e.1) && decide (4 * e.1 + 4 ≤ a + b.length))) }

/-- The first `n` lines of 128 bytes of what is written to the scratchpad. -/
def Core.scratchLines (k : Core) (a : Nat) (b : List Byte) (n : Nat) : Core := k.scratchWrite a (b.take (128 * n))

end Sys2Proof.Machine
end

