-- ==== Sys2Proof/Machine/MatrixMath.lean ====
section
/-! DEFINITION. Operand layouts, sparse forms, zero-skipping and the arithmetic of the matrix array and the
matrix-vector path (spec 05 R188 to R193, R212, R213, 06 R219 to R235, 07 R286 to R291). -/

namespace Sys2Proof.Machine

/-- `n` bits of a memory from bit `o` of byte `a` upward. -/
def bitsAt (m : Mem) (a o n : Nat) : Nat := nfld (m.nat (a + o / 8) (n / 8 + 2)) (o % 8 + n - 1) (o % 8)

/-- The rate class of a format pair (R182, R190): 0 16-bit, 1 8-bit, 2 4-bit; `none` where the pair is not allowed. -/
def rateClass (a b : Nat) : Option Nat :=
  let eight (x : Nat) : Bool := decide (x = 5) || decide (x = 6) || decide (x = 8)
  if a = 3 && b = 3 || a = 4 && b = 4 then some 0
  else if eight a && eight b || a = 7 && eight b then some 1
  else if a = 7 && b = 7 then some 2
  else if a = 9 && (b = 9 || b = 11) || a = 11 && b = 9 then some 1
  else if a = 11 && b = 11 then some 2
  else none

/-- A product of one panel: formats, form of A, rows, columns, K, and the two operands; `aAddr` and `aMeta` are where
the panel's values and metadata start. -/
structure Product where
  fmtA : Nat
  fmtB : Nat
  sparse : Nat
  zskip : Bool
  k : Nat
  rows : Nat
  cols : Nat
  a : Operand
  aAddr : Nat
  aMeta : Nat
  b : Operand

/-- Skip units of a product (R228), and the first K position and the number of positions of one. -/
def Product.units (p : Product) : Nat :=
  match p.sparse with
  | 0 => p.k / 16
  | 1 => (p.k + 31) / 32
  | _ => p.k / 64

def Product.unitK (p : Product) (u : Nat) : Nat × Nat :=
  match p.sparse with
  | 0 => (16 * u, 16)
  | 1 => (32 * u, if 32 * u + 32 ≤ p.k then 32 else p.k - 32 * u)
  | _ => (64 * u, 64)

/-- Element (k, c) of operand B or X (R192). -/
def Product.bElem (p : Product) (k c : Nat) : Nat :=
  let eb := elemBits p.fmtB
  bitsAt p.b.bytes (p.b.base + p.b.addr + k / 16 * p.b.stride) (eb * (16 * c + k % 16)) eb

/-- Is a unit of B zero in every column (R228)? -/
def Product.unitZero (p : Product) (u : Nat) : Bool :=
  let (k0, n) := p.unitK u
  (List.range n).all fun i => (List.range p.cols).all fun c =>
    match elemVal p.fmtB (p.bElem (k0 + i) c) with
    | .fin _ m _ => decide (m = 0)
    | _ => false

/-- Is a unit skipped (R229)? -/
def Product.skipped (p : Product) (u : Nat) : Bool := p.zskip && p.unitZero u

/-- COUNT and MASK of a row of a block column (R222). -/
def Product.count (p : Product) (u r : Nat) : Nat :=
  (p.a.bytes.read (p.a.base + p.aMeta + 1152 * u + 0x400 + r)).toNat
def Product.mask (p : Product) (u r : Nat) : Nat := p.a.bytes.nat (p.a.base + p.aMeta + 1152 * u + 8 * r) 8

/-- M_j: the largest COUNT of a block column (R222). -/
def Product.maxCount (p : Product) (u : Nat) : Nat :=
  (List.range 128).foldl (fun a r => if a < p.count u r then p.count u r else a) 0

/-- Q_j: the first step of a block column (R223). -/
def Product.firstStep (p : Product) (u : Nat) : Nat := (List.range u).foldl (fun a i => a + p.maxCount i) 0

/-- Does a unit stream? A KSB block column with no value does not (R225, R229). -/
def Product.streams (p : Product) (u : Nat) : Bool :=
  !p.skipped u && !(decide (p.sparse = 2) && decide (p.maxCount u = 0))

/-- The k-positions set in a 64-bit mask, ascending. -/
def setBits (m : Nat) : List Nat := (List.range 64).filter (fun i => m.testBit i)

/-- Cut a list into steps of 16 (R287). -/
def chunks16 {α : Type} : Nat → List α → List (List α)
  | 0, _ => []
  | fuel + 1, l => if l.isEmpty then [] else l.take 16 :: chunks16 fuel (l.drop 16)

/-- T_j: the steps that a KSB block column streams (R225). -/
def Product.columnSteps (p : Product) (u : Nat) : Nat :=
  let m := p.maxCount u
  if m = 0 then 0 else if m < 16 then 16 else m

/-- The steps of one row in one unit (R287): A elements with the K position they meet, `none` where a KSB row that has no value left contributes a
zero product (R225). -/
def Product.rowSteps (p : Product) (u r : Nat) : List (List (Option (Nat × Nat))) :=
  let eb := elemBits p.fmtA
  let slice := p.a.base + p.aAddr + u * p.a.stride
  match p.sparse with
  | 0 => [(List.range 16).map fun i => some (bitsAt p.a.bytes slice (eb * (16 * r + i)) eb, 16 * u + i)]
  | 1 =>
    let word := p.a.bytes.nat (p.a.base + p.aMeta + 512 * u + 4 * r) 4
    let n := (p.unitK u).2 / 2
    [(List.range n).map fun i =>
      some (bitsAt p.a.bytes slice (eb * (16 * r + i)) eb, 32 * u + 4 * (i / 2) + nfld word (2 * i + 1) (2 * i))]
  | _ =>
    let q := p.firstStep u
    let vals := ((setBits (p.mask u r)).zipIdx).map fun e =>
      some (bitsAt p.a.bytes (p.a.base + p.aAddr + (q + e.2) * p.a.stride) (eb * r) eb, 64 * u + e.1)
    chunks16 4 (vals ++ List.replicate (p.columnSteps u - vals.length) none)

/-- The operand ranges of a unit (R192, R220, R222, R229), as addresses and lengths: those of A that are metadata, and
those that are values. -/
def Product.metaReads (p : Product) (u : Nat) : List (Nat × Nat) :=
  match p.sparse with
  | 0 => []
  | 1 => if p.skipped u then [] else [(p.aMeta + 512 * u, 512)]
  | _ => (p.aMeta + 1152 * u + 0x400, 128) :: (if p.skipped u then [] else [(p.aMeta + 1152 * u, 1024)])

def Product.valueReads (p : Product) (u : Nat) : List (Nat × Nat) :=
  let eb := elemBits p.fmtA
  if p.skipped u then []
  else match p.sparse with
    | 2 => (List.range (p.maxCount u)).map fun i => (p.aAddr + (p.firstStep u + i) * p.a.stride, 16 * eb)
    | _ => [(p.aAddr + u * p.a.stride, 2 * eb * p.rows)]

/-- The dense B slices of a unit. -/
def Product.bReads (p : Product) (u : Nat) : List (Nat × Nat) :=
  let (k0, n) := p.unitK u
  (List.range (n / 16)).map fun i => (p.b.addr + (k0 / 16 + i) * p.b.stride, 2 * elemBits p.fmtB * p.cols)

/-- The fault codes met in reading ranges of an operand. -/
def badCodes (o : Operand) (l : List (Nat × Nat)) : List Nat :=
  (o.bad.filter (fun e => l.any (fun r => decide (e.1 < r.1 + r.2) && decide (r.1 < e.1 + e.2.1)))).map (fun e => e.2.2)

/-- Malformed sparse metadata of a unit that is read (R220, R224). -/
def Product.malformed (p : Product) (u : Nat) : Bool :=
  if p.skipped u then false
  else match p.sparse with
    | 0 => false
    | 1 => (List.range p.rows).any fun r =>
        let word := p.a.bytes.nat (p.a.base + p.aMeta + 512 * u + 4 * r) 4
        (List.range ((p.unitK u).2 / 4)).any fun g =>
          decide (nfld word (4 * g + 3) (4 * g + 2) ≤ nfld word (4 * g + 1) (4 * g))
    | _ => (List.range 128).any fun r =>
        decide (p.count u r ≠ ones 64 (p.mask u r)) ||
          (decide (p.rows ≤ r) && (decide (p.count u r ≠ 0) || decide (p.mask u r ≠ 0)))

/-- The fault codes of a unit. -/
def Product.unitFaults (p : Product) (u : Nat) : List Nat :=
  badCodes p.b (p.bReads u) ++ badCodes p.a (p.metaReads u ++ p.valueReads u) ++ (if p.malformed u then [0x0B] else [])

/-- Is an operand format an integer one (R290)? -/
def intCode (n : Nat) : Bool := (intOfCode n).isSome

/-- The products of a step in column `c` (R286). -/
def Product.prods (p : Product) (c : Nat) (st : List (Option (Nat × Nat))) : List FVal :=
  st.map fun e => match e with
    | some e => (elemVal p.fmtA e.1).mul (elemVal p.fmtB (p.bElem e.2 c))
    | none => .fin false 0 0

/-- Is a value zero, or −0? -/
def FVal.isZero : FVal → Bool
  | .fin _ m _ => decide (m = 0)
  | _ => false
def FVal.isNegZero : FVal → Bool
  | .fin s m _ => s && decide (m = 0)
  | _ => false

/-- One element's running value over its steps (R286, R287), with whether every product so far was −0. A step whose products are all zero
leaves it as it is, so that skipping such a step changes no bit (R230); else the value is the free one of the step's operands. -/
def Product.run (p : Product) (path : Bool) (c : Nat) (steps : List (List (Option (Nat × Nat)))) (v : Nat) (neg : Bool) : Nat × Bool :=
  match steps with
  | [] => (v, neg)
  | st :: rest =>
    let prods := p.prods c st
    let start := fmtF32.decode v
    let sum := prods.foldl FVal.add start
    let mag := prods.foldl (fun a x => a.add x.abs) start.abs
    let codes := st.map (fun e => e.map (fun e => (e.1, p.bElem e.2 c)))
    let v' := if prods.all FVal.isZero then v
      else stepValue sum mag (intCode p.fmtA && intCode p.fmtB) (Config.matrixStep path p.fmtA p.fmtB v codes)
    p.run path c rest v' (neg && prods.all FVal.isNegZero)

/-- The steps of a row over the first `n` units, as far as they stream. -/
def Product.steps (p : Product) (r n : Nat) : List (List (Option (Nat × Nat))) :=
  ((List.range n).filter (fun u => p.streams u)).flatMap (fun u => p.rowSteps u r)

/-- The exact value of the final stage (R288, R291): scale × running value + what was there. -/
def finalValue (scale : FVal) (t : Nat) (old : FVal) : FVal := (scale.mul (fmtF32.decode t)).add old

/-- The F32 result of the final stage: rounded toward zero, overflow to infinity, an exact zero +0 unless every product
and what was there are −0 (R288, R289). The pattern of a NaN is free. -/
def finalCode (v : FVal) (negZero : Bool) (free : Nat) : Nat :=
  match v with
  | .nan => freeNan fmtF32 free
  | .fin _ 0 _ => if negZero then 0x80000000 else 0
  | v => rzOverflow v

/-- One element of a product over its first `n` units (R188, R212): the F32 result at row `r`, column `c`, on what was there, zero for a fresh
start (R288). Rows and columns beyond the operands take a sum of zero products; `free` is the pattern of a NaN. -/
def Product.elem (p : Product) (path : Bool) (scale : FVal) (r c n : Nat) (old : FVal) (free : Nat) : Nat :=
  let inside := decide (r < p.rows) && decide (c < p.cols)
  let whole := (List.range n).all (fun u => !p.skipped u)
  let steps := if inside then p.steps r n else []
  let (t, neg) := p.run path c steps 0 (whole && !steps.isEmpty)
  finalCode (finalValue scale t old) (neg && old.isNegZero) free

/-- STEP cycles of the first `n` units of a product (R190, R221, R225). -/
def Product.cyclesTo (p : Product) (cls n : Nat) : Nat :=
  let one (u : Nat) : Nat :=
    if !p.streams u then 0
    else
      let t := match p.sparse with
        | 0 => 16
        | 1 => (p.unitK u).2 / 2
        | _ => p.columnSteps u
      match cls with | 0 => 2 * t | 1 => t | _ => (t + 1) / 2
  (List.range n).foldl (fun a u => a + one u) 0

/-- STEP cycles of a tile (R190, R221, R225, R232). -/
def Product.cycles (p : Product) (cls : Nat) : Nat :=
  let s := p.cyclesTo cls p.units
  if s = 0 then 1 else s

/-- Skipped dense slices among the first `n` units (R233). -/
def Product.skips (p : Product) (n : Nat) : Nat :=
  (List.range n).foldl (fun a u => if p.skipped u then a + (p.unitK u).2 / 16 else a) 0

/-- Weight bytes read (R214, R234). -/
def Product.weightBytes (p : Product) : Nat :=
  (List.range p.units).foldl (fun a u => ((p.metaReads u) ++ (p.valueReads u)).foldl (fun a e => a + e.2) a) 0

/-- Codes of `n` elements of `eb` bits packed from the lowest bit upward into bytes (R192, R203). -/
def packBits (eb : Nat) (l : List Nat) : List Byte :=
  leBytes ((eb * l.length + 7) / 8) (l.foldr (fun x a => x % 2 ^ eb + 2 ^ eb * a) 0)

/-! ### Tiles -/

/-- The product of panel `p` of a weight or A operand. -/
def productOf (fa fb sparse : Nat) (z : Bool) (k p rows cols : Nat) (a b : Operand) : Product :=
  let mstep := match sparse with | 1 => 512 * ((k + 31) / 32) | _ => 1152 * (k / 64)
  { fmtA := fa, fmtB := fb, sparse := sparse, zskip := z, k := k, rows := rows, cols := cols, a := a,
    aAddr := a.addr + p * a.panel, aMeta := a.meta_ + p * mstep, b := b }

/-- The product of a tile. -/
def Tile.product (t : Tile) : Product :=
  productOf t.fmtA t.fmtB t.sparse t.zskip t.k 0 t.a.extent t.b.extent t.a t.b

/-- The rate class of a tile, and its STEP cycles (R190). -/
def Tile.cls (t : Tile) : Nat := (rateClass t.fmtA t.fmtB).getD 1
def Tile.cycles (t : Tile) : Nat := t.product.cycles t.cls

/-- The scale of a product (R189). -/
def scaleOf (scaled : Bool) (a b : Operand) : FVal :=
  if scaled then (fmtF32.decode a.scale).mul (fmtF32.decode b.scale) else .fin false 1 0

/-- The accumulator after the first `n` units of a tile: all of them where it completes (R188, R189, R232, R288), else the partial sum of R209; `r`
supplies the patterns of NaNs. -/
def Tile.result (t : Tile) (acc : SMap Half) (n r : Nat) : SMap Half :=
  let p := t.product
  let none_ := !(List.range n).any p.streams
  (List.range 6144).foldl (fun a i =>
    let old := (SMap.get 0 acc (6144 * t.slot + i)).toNat
    let v := if none_ then (if t.acc then old else 0)
      else p.elem false (scaleOf t.scaled t.a t.b) (i / 48) (i % 48) n (if t.acc then fmtF32.decode old else .fin false 0 0)
        (r / 2 ^ (32 * i))
    SMap.put 0 a (6144 * t.slot + i) (BitVec.ofNat 32 v)) acc

/-- The poison marks of the accumulator after a tile: a fresh start writes every word of its slot. -/
def Tile.marks (t : Tile) (m : SMap Bool) : SMap Bool := if t.acc then m else m.filter (fun e => e.1 / 6144 ≠ t.slot)

/-- How many units a tile that is stopped in flight has taken: at least those its counted cycles cover; where it stands beyond that is timing, and
free (R211, log 1). -/
def Tile.unitsAt (t : Tile) (free : Nat) : Nat :=
  let p := t.product
  let n := ((List.range (p.units + 1)).filter (fun n => decide (p.cyclesTo t.cls n ≤ t.ran))).length - 1
  n + free % (p.units + 1 - n)

/-! ### Drains -/

/-- The words a drain reads, in the order of its elements (R184, R203). -/
def Drain.cells (d : Drain) : List Nat :=
  if d.target = 1 then (List.range 768).map (fun e => 6144 * d.slot + 48 * (16 * d.band + e / 48) + e % 48)
  else (List.range 6144).map (fun e => 6144 * d.slot + 48 * (16 * (e / 768) + e % 16) + e % 768 / 16)

/-- Convert a drain's words to its format (R157, R202): with RS each element draws once from the generator of lane
`e mod 32` of the slot that issued, elements in ascending order. -/
def Drain.codes (d : Drain) (k : Core) (vals : List Nat) : List Nat × Core :=
  let r := vals.zipIdx.foldl (fun (a : List Nat × SMap Half) e =>
    let l := 32 * d.home + e.2 % 32
    let st := genNext (SMap.get genReset a.2 l).toNat
    let mode : RMode := match d.rnd with | 1 => .rz | 2 => .rs (genBits st) | _ => .rn
    let gens := if d.rnd = 2 then SMap.put genReset a.2 l (BitVec.ofNat 32 st) else a.2
    (toElem d.ofmt mode d.sat (fmtF32.decode e.1) :: a.1, gens)) ([], k.gens)
  (r.1.reverse, { k with gens := r.2 })

/-- A drain to scratchpad that stops at a line boundary (R209, R211): the words it has read are converted, and some of their whole lines are
written, `free` says how many. -/
def Drain.stopped (d : Drain) (k : Core) (vals : List Nat) (free : Nat) : Core :=
  let (codes, k) := d.codes k vals
  let b := packBits (elemBits d.ofmt) codes
  if d.target = 0 then k.scratchLines (d.base + d.addr) b (free % (b.length / 128 + 1)) else k

/-- Has a tile's slot a drain that was accepted before it and has still to read (R200)? -/
def Matrix.drainsFirst (m : Matrix) (t : Tile) : Bool :=
  m.drains.any (fun d => decide (d.slot = t.slot) && decide (d.order < t.order) && d.reading.isNone && d.fault.isNone)

/-- Has a drain's slot a tile that was accepted before it and is not complete (R202)? -/
def Matrix.tilesFirst (m : Matrix) (d : Drain) : Bool :=
  (m.queue ++ m.flight).any (fun t => decide (t.slot = d.slot) && decide (t.order < d.order))

/-! ### The matrix-vector path -/

/-- The panels of a matrix-vector operation. -/
def MvOp.products (o : MvOp) : List Product :=
  (List.range ((o.w.extent + 127) / 128)).map fun p =>
    productOf o.fmtW o.fmtX o.sparse o.zskip o.k p (if 128 * p + 128 ≤ o.w.extent then 128 else o.w.extent - 128 * p)
      o.n o.w o.x

/-- Weight bytes and skipped slices of an operation (R214, R233). -/
def MvOp.weightBytes (o : MvOp) : Nat := o.products.foldl (fun a p => a + p.weightBytes) 0
def MvOp.skips (o : MvOp) : Nat := o.products.foldl (fun a p => a + p.skips p.units) 0

/-- The output of a matrix-vector operation (R212, R213, R291): slices of 16 rows, positions at or above EXTENT and
padding zero. The spec names no generator for RND RS: its 13 bits are free (log 1). -/
def MvOp.output (o : MvOp) (k : Core) (r : Nat) : List Byte :=
  let eb := elemBits o.ofmt
  let stride := roundUp (2 * o.n * eb) 16
  let ps := o.products
  (List.range ((o.w.extent + 15) / 16)).flatMap fun j =>
    let codes := (List.range (16 * o.n)).map fun q =>
      let m := 16 * j + q % 16
      let n := q / 16
      let old := elemVal o.ofmt (bitsAt k.scratch (o.out + j * stride) (eb * q) eb)
      let r' := r / 2 ^ (64 * (16 * o.n * j + q))
      let mode : RMode := match o.rnd with | 1 => .rz | 2 => .rs (r' % 2 ^ 13) | _ => .rn
      match ps[m / 128]? with
      | some p =>
        if o.w.extent ≤ m then 0
        else toElem o.ofmt mode o.sat (fmtF32.decode (p.elem true (scaleOf o.scaled o.w o.x) (m % 128) n p.units
          (if o.acc then old else .fin false 0 0) (r' / 2 ^ 13)))
      | none => 0
    let b := packBits eb codes
    b ++ List.replicate (stride - b.length) 0

end Sys2Proof.Machine
end

