-- ==== Sys2Proof/Machine/ConsistState.lean ====
section
/-! DEFINITION. What the loaded consist gives the units beyond the registers it sets (spec 01). -/

namespace Sys2Proof.Machine

/-- Values in force from the base and the applied overlay. `node` and the mesh size are those of the MAINLINE
capability entry (R47); `split` the LOCAL_SPLIT byte of each core (R20); `queTimeout` BE_TIMEOUT (R25); the
MSI-X table sizes of R24; `seeds` the SEEDS section (R21);
`totalVfs` of R480; `base` the copy of the base that is loaded, with its length (0 for none). `next` is the overlay that a switch has
verified: its bytes and length, or length 0 to remove the overlay; `asked` when the switch was asked for; `reqSlot`, `reqMem`, `reqAddr` and `reqLen` what
the REQ under way named (R35, R39), `quiet` whether its quiesce point has been reached (R36); `policy`
the debug policy, `permit` MIRROR_PERMIT, and the ACCEPTED_KEYS of R592; `scrubHours` of R569; `barGuard` BAR_GUARD of DEFAULTS (R25, R123). -/
structure Consist where
  node : Nat
  meshW : Nat
  meshH : Nat
  split : SMap Nat
  queTimeout : Nat
  pfVectors : Nat
  vfVectors : Nat
  seeds : SMap Word
  totalVfs : Nat
  base : Mem
  baseLen : Nat
  next : Option (Mem × Nat)
  asked : Nat
  reqSlot : Nat
  reqMem : Bool
  reqAddr : Nat
  reqLen : Nat
  quiet : Bool
  policy : Nat
  permit : Bool
  accepted : List Nat
  scrubHours : Nat
  barGuard : Nat
  deriving DecidableEq, Repr

end Sys2Proof.Machine
end

