-- ==== Sys2Proof/Machine/DspState.lean ====
section
/-! DEFINITION. What the dispatcher and the control cores hold: queues, dispatch threads, launches, copies, lanes and
stored programs (spec 10). -/

namespace Sys2Proof.Machine

/-- The platform range of a LAUNCH.PLAT in a launch queue (R394, R256): first platform, count, tokens per block, the
position it has reached, and the argument stride. -/
structure PlatRange where
  first : Nat
  count : Nat
  tpb : Nat
  pos : Nat
  stride : Nat
  deriving DecidableEq, Repr

/-- A launch (R390 to R394): descriptor fields, then where it stands. `order` numbers the launches as they start;
`lastCluster` the rotation of R392; `running` its resident blocks; `guards` the limits taken per cluster (R123);
`fault` the first thread fault (R121) with its program counter; `stop` status and code it ends with when it was stopped;
`word` the instruction that made it; `view` the translation registers it keeps (R306). -/
structure Launch where
  cmd : Nat
  thread : Nat
  ctx : Nat
  entry : Nat
  gx : Nat
  gy : Nat
  gz : Nat
  threads : Nat
  vregs : Nat
  overlap : Bool
  router : Bool
  borrow : Bool
  scratch : Nat
  args : Nat
  stepVa : Nat
  clusters : Nat
  plat : Option PlatRange
  order : Nat
  nextBlock : Nat
  lastCluster : Option Nat
  running : Nat
  guards : SMap (Option (Nat × Nat))
  fault : Option (Nat × Nat)
  stop : Option (Nat × Nat)
  word : Nat
  view : Nat
  deriving DecidableEq, Repr

/-- How a command or a program ends: STATUS of R384 and DETAIL of R383. -/
structure Outcome where
  status : Nat
  detail : Nat
  deriving DecidableEq, Repr

/-- DETAIL of R383. -/
def mkDetail (word source code : Nat) : Nat := 2 ^ 16 * word + 2 ^ 8 * source + code

/-- Where an entry stands (R376, R402, R403, R406): held; admitted to a lane; free to begin its work, by its reserved start
or its grant; at work; ended. -/
inductive Stage where
  | held | admitted | cleared | running | ended
  deriving DecidableEq, Repr

/-- A fetched entry (R376 to R380): queue and position in it, the eight words, its number in its context (R525, 0 for
none), the values taken at fetch (R418), times, lane and reserved interval (R402), pinned slot and version (R413), whether it
waits on a semaphore, its dispatch thread, core-nanoseconds (R382), outcome, a refused engine signal's status (R426), flags (R381), and its place among the admissions and
grants. `held` is the time spent held under R407. -/
structure Cmd where
  queue : Nat
  index : Nat
  words : List Nat
  ctx : Nat
  number : Nat
  evt : Nat
  timeout : Nat
  fetched : Nat
  stage : Stage
  started : Bool
  lane : Option Nat
  start : Nat
  fin : Nat
  pin : Option (Nat × Nat)
  waiting : Bool
  thr : Option Nat
  engine : Nat
  endT : Nat
  held : Nat
  outcome : Option Outcome
  refused : Option Nat
  void : Bool
  dropped : Bool
  boundary : Bool
  order : Nat
  deriving DecidableEq, Repr

/-- What holds a dispatch thread at its instruction: an instruction that is tried again (queue full, JOIN, END, YIELD, no
room for a copy), or one that something else ends: a copy, a remote read, a semaphore, a dump, a host access. -/
inductive Hold where
  | none | retry | copy (n : Nat) | sem | dump | host (tag : Nat)
  deriving DecidableEq, Repr

/-- A dispatch thread that runs a program (R389, R391, R396); `queue` its launch queue, `fresh` until its first
instruction, `view` the translation registers it keeps, `quick` while its last instruction was one that only works on registers. -/
structure Thread where
  cmd : Nat
  ctx : Nat
  slot : Nat
  version : Nat
  pc : Nat
  x : SMap Word
  stack : List Nat
  queue : List Launch
  hold : Hold
  dest : Nat
  fresh : Bool
  view : Nat
  quick : Bool
  deriving DecidableEq, Repr

/-- A copy of the hub copy engine (R399, R400): the command, the thread that issued it if any, the
instruction's word index, the bytes moved or asked for, and the fault it ends with
once it has failed. -/
structure Copy where
  cmd : Nat
  thread : Option Nat
  ctx : Nat
  src : Nat
  dst : Nat
  len : Nat
  word : Nat
  pos : Nat
  failed : Option Nat
  view : Nat
  deriving DecidableEq, Repr

/-- An alive version of a stored program (R411 to R413): number, words, pool pages in order, pins. -/
structure Version where
  num : Nat
  size : Nat
  pages : List Nat
  pins : Nat
  deriving DecidableEq, Repr

/-- A stored-program slot that is not EMPTY (R411, R417): the current version is the last of the list;
`deleting` once DELETE took effect, with the words and the number of the version that was current then. -/
structure PSlot where
  tenant : Nat
  flows : List Nat
  versions : List Version
  deleting : Bool
  atDelete : Nat × Nat
  deriving DecidableEq, Repr

/-- A PATCH or CREATE between its start and its commit (R412): the entry, the new version's words and pages, those of them
it took fresh, and the flow list of a CREATE. -/
structure Patching where
  cmd : Nat
  size : Nat
  pages : List Nat
  fresh : List Nat
  flows : Option (List Nat)
  deriving DecidableEq, Repr

/-- What a queue holds beside its registers: fetches made, completions in the order of their ends, the one whose
read-back is outstanding or failed (R385, R387), and the completions to write before a retry lets fetching resume (R388). -/
structure QueueSt where
  seq : Nat
  done : List Nat
  writing : Option Nat
  overflow : Option Nat
  owed : Nat
  deriving DecidableEq, Repr

/-- A retirement that runs (R528): the entries that wait for it, `none` for a retirement without one (R511), and the next
step. -/
structure Retire where
  cmds : List Nat
  step : Nat
  deriving DecidableEq, Repr

/-- The dispatcher's state. `vfrac` holds the 16 fraction bits of each context's virtual time (R520); `eligible` who was
eligible at the last choice of a thread and of a launch (R521); `doneAhead` ended entry numbers beyond
CTX_EPOCH_DONE (R525); `served` the queue served last of each kind, plus 1 (R375), and `rotation` the thread, plus 1, of each control
core that issued last in rotation (R389); `patching` the versions being written, by slot; `draining` while a reset or an orderly drain has stopped fetching (R637, R641). -/
structure Dsp where
  launches : SMap (Option Launch)
  nextLaunch : Nat
  nextOrder : Nat
  cmds : SMap (Option Cmd)
  nextCmd : Nat
  threads : SMap (Option Thread)
  copies : SMap (Option Copy)
  nextCopy : Nat
  slots : SMap (Option PSlot)
  queues : SMap QueueSt
  retiring : SMap (Option Retire)
  vfrac : SMap Nat
  eligibleT : List Nat
  eligibleL : List Nat
  doneAhead : SMap (List Nat)
  patching : SMap (Option Patching)
  nextGrant : Nat
  served : SMap Nat
  rotation : SMap Nat
  draining : Bool
  tableSet : Bool
  poolSet : Bool
  deriving DecidableEq, Repr

end Sys2Proof.Machine
end

