-- ==== Sys2Proof/Machine/MlnState.lean ====
section
/-! DEFINITION. What Mainline holds beyond its registers (spec 12). -/

namespace Sys2Proof.Machine

/-- A message of a pair that its destination has not acknowledged yet (R463, R464): destination node, SEQ, and the core
whose store it carries, 192 for another source. -/
structure Unacked where
  dest : Nat
  seq : Nat
  core : Nat
  deriving DecidableEq, Repr

/-- A flow of this package's timetable (R449, R457): its entry; STATE 1 SERVED, 2 LATE, 3 UNSERVED and REASON of R476;
frames in which it was declared, and whether it was in this one. -/
structure Flow where
  num : Nat
  src : Nat
  dst : Nat
  slots : Nat
  inPort : Nat
  outPort : Nat
  state : Nat
  reason : Nat
  late : Nat
  declared : Bool
  deriving DecidableEq, Repr

/-- A timetable (R448): epoch, ACTIVATE_FRAME, flows, slot map (4,096 × port + slot; an unlisted slot is free), and memory
windows by channel, START and LENGTH. -/
structure Timetable where
  epoch : Nat
  activate : Nat
  flows : List Flow
  slotMap : SMap Nat
  windows : List (Nat × Nat × Nat)
  deriving DecidableEq, Repr

/-- A message that waits to leave by a port: the port, the message, whether it holds injection credit of its
flow, and whether it came from another package: then by which port (8 for a message of this package), and the buffer it occupies there. -/
structure Leaving where
  port : Nat
  msg : Msg
  credit : Bool
  transit : Bool
  from_ : Nat
  lane : Nat
  deriving DecidableEq, Repr

/-- Who waits for a remote read: a TCOPY slot, or a hub copy. -/
inductive MlnReader where
  | tcopy (core slot : Nat)
  | copy (n : Nat)
  deriving DecidableEq, Repr

/-- A READ that has not been answered (R461): tag, destination, reader, position in the reader's copy, length, and
its answer where an earlier chunk of the copy is still awaited (R116). -/
structure MlnRead where
  tag : Nat
  dest : Nat
  who : MlnReader
  pos : Nat
  len : Nat
  got : Option Msg
  deriving DecidableEq, Repr

/-- Mainline. `nextSeq` numbers the messages of each destination, `expect` is the next SEQ of each source, `performed`
and `refused` count since the last ACK to each source; `needReset` lists the nodes whose pair awaits PAIR_RESET;
`leaving` what has not left yet; `hold` messages ahead of their sequence; `links` and `peers` what notices named as
lost; `epochs` the epoch each node announced; `slot` the slot of the frame; `frameAt` when the frame began (R446, R545); `replays` the failures in succession
of one block on each port; `retraining` the ports that retrain after having been UP (R466, R467); `taken` the link credits that each port's
transmitter has taken and `owed` those to return to each port's neighbour, in units of 16 bytes, by 8 × buffer + port (R445, R472); `turns` who was
served last, plus 1, by 2 × port, plus 1 for REQ (R458); `used` and `lostSlots` the slots of this frame for the SLOT ledger. -/
structure MlnState where
  unacked : List Unacked
  nextSeq : SMap Nat
  expect : SMap Nat
  performed : SMap Nat
  refused : SMap Nat
  needReset : List Nat
  leaving : List Leaving
  hold : List Msg
  reads : List MlnRead
  nextTag : Nat
  links : List (Nat × Nat)
  peers : List Nat
  epochs : SMap Nat
  slot : Nat
  frameAt : Nat
  replays : SMap Nat
  retraining : List Nat
  taken : SMap Nat
  owed : SMap Nat
  turns : SMap Nat
  flows : List Flow
  slotMap : SMap Nat
  windows : List (Nat × Nat × Nat)
  pending : Option Timetable
  impaired : List Nat
  used : Nat
  lostSlots : Nat
  deriving DecidableEq, Repr

end Sys2Proof.Machine
end

