-- ==== Sys2Proof/Machine/PointsState.lean ====
section
/-! DEFINITION. What the points units, platforms and the ticket cache hold (spec 06 R236 to R267). -/

namespace Sys2Proof.Machine

/-- A copy of a scratchpad platform whose block has ended (R249): platform, core, where its region starts in the core's scratchpad, entries
placed and choices dropped. -/
structure PlatCopy where
  plat : Nat
  core : Nat
  start : Nat
  count : Nat
  dropped : Nat
  deriving DecidableEq, Repr

/-- An open step (R236, R251, R252): its launch and context, the descriptor's fields, the counts of its result, and the copies of its
scratchpad platforms whose blocks have ended. -/
structure RouteStep where
  launch : Nat
  ctx : Nat
  step : Nat
  layer : Nat
  dests : Nat
  k : Nat
  sfmt : Nat
  route : List Nat
  result : Nat
  accepted : Nat
  excluded : Nat
  foreign_ : Nat
  carriedIn : Nat
  placed : Nat
  placedAlt : Nat
  deferred : Nat
  dropFull : Nat
  dropExhausted : Nat
  dropDeferFull : Nat
  dropFault : Nat
  platDropped : SMap Nat
  platCarried : SMap Nat
  copies : List PlatCopy
  closing : Bool
  deriving DecidableEq, Repr

/-- A batch being read by a unit (R239, R240). -/
structure Submission where
  core : Nat
  slot : Nat
  set : Nat
  launch : Nat
  ctx : Nat
  records : Nat
  scores : Nat
  stride : Nat
  count : Nat
  next : Nat
  accepted : Nat
  dest : Nat
  deriving DecidableEq, Repr

/-- One ranked choice: its rank, platform and score as FP32 (R242, R245). -/
structure Choice where
  rank : Nat
  plat : Nat
  score : Nat
  deriving DecidableEq, Repr

/-- A ranked record awaiting placement (R241 to R243): what its entries copy, the primary choices still to place, and
its unused alternates; `missing` primary choices found no distinct platform. -/
structure RankedRec where
  core : Nat
  slot : Nat
  set : Nat
  launch : Nat
  ctx : Nat
  row : Nat
  token : Nat
  ticket : Nat
  user : Nat
  primary : List Choice
  alts : List Choice
  missing : Nat
  deriving DecidableEq, Repr

/-- One points unit: submissions in rotation order and the queue of ranked records (R241). -/
structure PtsUnit where
  subs : List Submission
  queue : List RankedRec
  deriving DecidableEq, Repr

/-- A cached ticket record (R259, R263): its 64 bytes, modified or not, when it came in, and the poison of R561. -/
structure TktLine where
  bytes : List Byte
  dirty : Bool
  stamp : Nat
  poison : Bool
  deriving DecidableEq, Repr

/-- Points units, open steps, the counters of scratchpad platform copies and what was dropped for each (by platform, core and barrier set,
R249), and the ticket cache. -/
structure PtsState where
  units : SMap PtsUnit
  steps : List RouteStep
  copies : SMap Nat
  copyDrops : SMap Nat
  tickets : SMap (Option TktLine)
  clock : Nat
  deriving DecidableEq, Repr

/-- A points unit with nothing to do. -/
def PtsUnit.empty : PtsUnit := ⟨[], []⟩

end Sys2Proof.Machine
end

