-- ==== Sys2Proof/Machine/RasState.lean ====
section
/-! DEFINITION. What error counting and retirement hold beyond their registers (spec 16). -/

namespace Sys2Proof.Machine

/-- Times of the events in each part's window, newest first, by part (R563, R564); the counts of the
ledgers that no other register holds, by 4k + i (R570); the Mainline lanes retired, by 8 × port + lane (R467); rows that wait to be spared, oldest first (R566); the counts and
settled bits of the snapshot being taken (R571). -/
structure RasState where
  events : SMap (List Nat)
  ledgers : SMap Nat
  lanesOut : SMap Bool
  sparing : List Nat
  snap : Option (List Nat × Nat)
  deriving DecidableEq, Repr

end Sys2Proof.Machine
end

