-- ==== Sys2Proof/Machine/DbgState.lean ====
section
/-! DEFINITION. What samplers, trace, dumps and surveys hold beyond their registers (spec 19). -/

namespace Sys2Proof.Machine

/-- The owning command of a core (R612): its number, cookie, context and queue, whether events of other entries counted since the last
restart, and whether a counter saturated (R615). -/
structure Owner where
  cmd : Nat
  cookie : Nat
  ctx : Nat
  queue : Nat
  shared : Bool
  deriving DecidableEq, Repr

/-- What a set held at its last owner change (R613, R617): when, who owned it, saturated or not, and the counters. -/
structure PastOwner where
  time : Nat
  owner : Option Owner
  sat : Bool
  vals : List Word
  deriving DecidableEq, Repr

/-- A dump that waits for its program's earlier work (R625): its thread, the request and its fields, and the operands. -/
structure Dumping where
  thread : Nat
  request : Nat
  cfg : Word
  dest : Nat
  tensor : Nat
  step : Nat
  addr : Nat
  len : Nat
  deriving DecidableEq, Repr

/-- What a survey latches, as it stood when a guard or a limit fired: the stops wait for the latch (R628). -/
structure Frozen where
  regs : SMap Word
  cores : SMap Core
  pts : PtsState
  dsp : Dsp
  ras : RasState
  mln : MlnState
  deriving DecidableEq, Repr

/-- Trace: records left to write after a freeze trigger (R622), whether every slot of the buffer has been written since the last restart, and records
the full buffer's last slot counts; the trigger code
of the survey that runs (R627), the cluster or queue that fired it and the state it latches; owners and past owners of the cores' counter sets, sets of which a counter saturated, and
the time of the set's last restart; the time from which each core's array counts its cycles, stopped time included (R201, R216); dumps at work; the sample's number since ENABLE became 1 (R615) and when the survey that runs latched, with its number (R628). -/
structure DbgState where
  postLeft : Option Nat
  traceFilled : Bool
  fillLost : Nat
  survey : Option Nat
  surveyWho : Nat
  frozen : Option Frozen
  owners : SMap (Option Owner)
  past : SMap (Option PastOwner)
  sat : SMap Bool
  cycBase : SMap Nat
  mxBase : SMap Nat
  dumps : List Dumping
  sampleSeq : Nat
  surveyTime : Nat
  surveySeq : Nat
  latched : Bool
  deriving DecidableEq, Repr

end Sys2Proof.Machine
end

