-- ==== Sys2Proof/Machine/EthState.lean ====
section
/-! DEFINITION. What the Ethernet ports and the RDMA engine hold beyond their registers (spec 13 R493 to R505). -/

namespace Sys2Proof.Machine

/-- A send entry between its start and its completion (R498, R500): its index in the ring and its fields, the sequence numbers of
its first and last packet, when it was last sent, and whether it is acknowledged. -/
structure Wqe where
  index : Nat
  op : Nat
  flags : Nat
  imm : Nat
  addr : Nat
  len : Nat
  rkey : Nat
  remote : Nat
  first : Nat
  last : Nat
  sent : Nat
  acked : Bool
  deriving DecidableEq, Repr

/-- A queue pair out of RESET (R497): the fields of its record, then where it stands: next and expected packet sequence
numbers, posted producer indices, the next send entry to start, entries at work, retries used, rate in Mb/s, and when it
last changed. -/
structure Qp where
  owner : Nat
  flags : Nat
  pmtu : Nat
  retry : Nat
  timeout : Nat
  gid : Nat
  dscp : Nat
  vlan : Nat
  peerIp : Nat
  peerMac : Nat
  vector : Nat
  peer : Nat
  sqBase : Nat
  rqBase : Nat
  piAddr : Nat
  sqLog : Nat
  rqLog : Nat
  sendPsn : Nat
  recvPsn : Nat
  sqPi : Nat
  rqPi : Nat
  sqNext : Nat
  flight : List Wqe
  tries : Nat
  rnrTries : Nat
  rate : Nat
  rateAt : Nat
  deriving DecidableEq, Repr

/-- The Ethernet side. Queue pairs by number; cached region records by index and the one being invalidated; by 8 × port +
priority, since when the peer pauses it and until when its pauses are ignored; by queue pair, when the last congestion
notification was sent. -/
structure EthState where
  qps : SMap (Option Qp)
  regions : SMap (Option (List Byte))
  invalidating : Option Nat
  paused : SMap (Option Nat)
  ignored : SMap Nat
  cnpAt : SMap (Option Nat)
  deriving DecidableEq, Repr

end Sys2Proof.Machine
end

