-- ==== Sys2Proof/Machine/Out.lean ====
section
/-! DEFINITION. What the part sends to the outside, as a record in the state. -/

namespace Sys2Proof.Machine

/-- Something the part sent. -/
inductive Out where
  | answer (off : Nat) (value : Nat)
  | unsupported
  /-- A BAR0 read whose data is marked poisoned, for it met a fenced crossing (R70). -/
  | poisoned (off : Nat)
  /-- A configuration request met Request Retry Status (R634). -/
  | retry
  /-- A configuration read's doubleword. -/
  | config (off value : Nat)
  /-- Data of a BAR2 read, and whether it is marked poisoned (R489). -/
  | window (data : List Byte) (ep : Bool)
  | msix (fn vector : Nat)
  | hostWrite (fn addr : Nat) (data : List Byte)
  | hostRead (tag fn addr len : Nat)
  | mln (port : Nat) (msg : Msg)
  | mlnReplay (port : Nat)
  /-- Link credits that a port returns in its control window (R446): the buffer, and units of 16 bytes. -/
  | mlnCredit (port lane units : Nat)
  /-- A RoCE request to a peer's queue pair: OPCODE of R498, its first packet sequence number, and its operands. -/
  | rdma (port : Nat) (path : RdmaPath) (peer op psn imm rkey va len : Nat) (data : List Byte)
  /-- An acknowledgement, or a NAK: 1 remote access, 2 invalid request, 3 receiver not ready (R502); no path for a packet that named a
  queue pair without a record. -/
  | rdmaAck (port : Nat) (path : Option RdmaPath) (peer psn nak : Nat)
  /-- The data of a READ that a peer asked for. -/
  | rdmaRead (port : Nat) (path : RdmaPath) (peer psn : Nat) (data : List Byte)
  /-- A congestion notification packet (R495). -/
  | cnp (port : Nat) (path : RdmaPath) (peer : Nat)
  /-- A raw frame. -/
  | frame (port : Nat) (data : List Byte)
  /-- XOFF or XON for a priority (R495, R505). -/
  | pause (port prio : Nat) (on : Bool)
  /-- An SPDM response: its request's place in R581's list, the data it carries, and the signature (r, s), zero for none. -/
  | spdm (medium : Medium) (kind : Nat) (data : List Byte) (r s : Nat)
  /-- An MCTP control response. -/
  | mctp (medium : Medium)
  /-- A PLDM sensor reading: `none` for UNAVAILABLE. -/
  | sensor (medium : Medium) (id : Nat) (reading : Option Nat)
  /-- A record of the event log. -/
  | logRecord (medium : Medium) (time code unit data : Nat)
  /-- The end of a PLDM update command: its place (0 RequestUpdate, 1 data, 2 VerifyComplete, 3 ActivateFirmware, 4
  CancelUpdate) and whether it succeeded; a RequestUpdate that fails says ALREADY_IN_UPDATE_MODE. -/
  | update (medium : Medium) (command : Nat) (ok : Bool)
  /-- A PLDM PlatformEventMessage of an alert cause (R598, R599). -/
  | platformEvent (medium : Medium) (cause : Nat)
  /-- What a boundary scan shifted out. -/
  | tap (value : Nat)
  deriving DecidableEq, Repr

end Sys2Proof.Machine
end

