-- ==== Sys2Proof/Machine/PciState.lean ====
section
/-! DEFINITION. What the host link holds: functions, MSI-X tables, requests outstanding at the host (spec 13 R478 to R491). -/

namespace Sys2Proof.Machine

/-- Who waits for a read of host memory (R491); `op` is the load's operation. -/
inductive HostReader where
  | thread (core slot op : Nat)
  | fetch (core slot line : Nat)
  | tcopy (core slot : Nat)
  deriving DecidableEq, Repr

/-- A non-posted request outstanding at the host: the function on whose behalf it went, address and length, who waits, and when it was
sent (R479). -/
structure HostReq where
  tag : Nat
  fn : Nat
  addr : Nat
  len : Nat
  who : HostReader
  sent : Nat
  deriving DecidableEq, Repr

/-- The host link. `table` holds each function's MSI-X entries as two words per vector (4,096 × function + 2 × vector),
`pend` the pending-bit array, `msixOn` and `msixMask` the enable and function mask of the MSI-X capability; `hostData` is what the host
answers to the reads that the row now at work makes, none where the row does not say (the model's own field); `flr`
the functions whose reset waits for retirements (R643); `timeout` each function's Completion Timeout Value, 16 above it while timeouts are
disabled (R479); `aer` the Unsupported Requests that the physical function's AER has logged (R480). -/
structure PciState where
  numVfs : Nat
  vfEnable : Bool
  d3 : SMap Bool
  table : SMap Word
  pend : SMap Bool
  msixOn : SMap Bool
  msixMask : SMap Bool
  reqs : List HostReq
  nextTag : Nat
  hostData : Option HostData
  flr : List Nat
  timeout : SMap Nat
  aer : Nat
  deriving DecidableEq, Repr

end Sys2Proof.Machine
end

