-- ==== Sys2Proof/Machine/PlatState.lean ====
section
/-! DEFINITION. What start-up, power, security, management and the test access port hold beyond their registers (spec 15, 17,
18, 20, 21). -/

namespace Sys2Proof.Machine

/-- Where a start stands (R634 to R642). `power` VSB5 is within limits; `main` the main input is, and the loads are on;
`converters` they have settled; `pll` failures of the root PLL to lock since step 3; `lossStart` the start under way follows a lock loss;
`perst` PERST# is low; `warm` a warm reset runs from its step 1 to the end of its start, by a hot reset or not; `waiting` it has done
step 6 and its stacks are not trained again; `stopped` no message of any kind leaves (R637); `drain` an orderly power-down runs; `startWritten` software wrote
CON_START_SLOT since the last cold reset (R638); `made` the factory's contents are in place; `trip` THERMTRIP# is low; `unit` the KIND and INDEX of the unit reset that
runs; `straps` the SMBus address straps as sampled. -/
structure Boot where
  power : Bool
  main : Bool
  converters : Bool
  pll : Nat
  lossStart : Bool
  perst : Bool
  warm : Option Bool
  waiting : Bool
  stopped : Bool
  drain : Bool
  startWritten : Bool
  made : Bool
  trip : Bool
  unit : Option (Nat × Nat)
  straps : Nat
  deriving DecidableEq, Repr

/-- The limits of the POWER section that no register shows (R536), the excess-energy account in nanojoules (R534), samples in
succession above the excursion limit, until when each channel's overrun takes foreground cycles (R547), the time in µs that each current step's condition for falling or a die's for rising has held, when
each step last rose; thermal steps by unit and since when a unit has been 3 °C below each of its steps; gated clusters and
when each cluster last held a block (R540). Units of steps: 0 west, 1 east, 2 package; of heat: 0, 1, 2 to 9 stacks, 10 hub. -/
structure PwrState where
  excursionW : Nat
  excursionUs : Nat
  dieW : Nat
  account : Nat
  above : Nat
  calm : SMap Nat
  dieOver : SMap Nat
  steps : SMap Nat
  raised : SMap (Option Nat)
  heat : SMap Nat
  cool : SMap (Option Nat)
  gated : List Nat
  lastBlock : SMap Nat
  recalFails : SMap Nat
  overrun : SMap Nat
  deriving DecidableEq, Repr

/-- The fuses (R576). -/
structure Fuses where
  ochornRevoke : Nat
  ownerHash : List Nat
  ownerRevoke : Nat
  fwCount : Nat
  conCount : Nat
  deriving DecidableEq, Repr

/-- The security engine: fuses and owner keys; measurements 2 to 5 (R580); the current nonce, unused; the token's words and
the one being verified; scopes granted by a token and when they end; the scopes that are OPEN; the slot being
rekeyed; SPDM progress by medium; security versions of the running firmware and the loaded base (R579). -/
structure SecState where
  fuses : Fuses
  ownerKeys : List Nat
  fwMeas : Nat
  baseMeas : Nat
  ovlMeas : Nat
  history : Nat
  nonce : Option Word
  token : SMap Word
  checking : Option (List Word)
  scopes : Nat
  until_ : Nat
  opened : Nat
  rekeying : Option Nat
  spdm : SMap Nat
  fwVersion : Nat
  baseVersion : Nat
  deriving DecidableEq, Repr

/-- A record of the event log (R600). -/
structure LogRec where
  time : Nat
  code : Nat
  unit : Nat
  data : Nat
  deriving DecidableEq, Repr

/-- A sample of the wear history (R605). -/
structure WearSample where
  reading : WearReading
  spares : List Nat
  ways : List Nat
  deriving DecidableEq, Repr

/-- An update in progress (R601): the medium, components verified and not activated, the bytes of the component that is not an
image, and whether flash writes are under way. -/
structure Update where
  medium : Medium
  passed : List Nat
  buf : Mem
  writing : Bool
  deriving DecidableEq, Repr

/-- The management controller and the flash: flash bytes; the preferred firmware slot and the one running; nanoseconds of standby power;
event log, newest first, and the events that wait for the flash; wear history, oldest last, and a sample held for an update; days of the spare-row and way
events of each unit (R605); spared rows, ways and lanes on record (R568); media with events enabled; the
latest readings of the sensors without a register, and the base of each tenant's utilisation; the update in
progress. -/
structure MgtState where
  flash : SMap Byte
  fwPref : Nat
  running : Option Nat
  uptimeNs : Nat
  log : List LogRec
  waiting : List LogRec
  wear : List WearSample
  wearHeld : Option WearSample
  rowDays : SMap (List Nat)
  wayDays : SMap (List Nat)
  ways : SMap Nat
  spares : SMap Nat
  rows : List Nat
  events : SMap Bool
  readings : SMap (Option Nat)
  utilBase : SMap Nat
  update : Option Update
  deriving DecidableEq, Repr

/-- The instructions of the test access port (R666). -/
inductive TapInstr where
  | bypass | idcode | sample | extest | extestPulse
  deriving DecidableEq, Repr

/-- The test access port: the instruction in force, the boundary cells' contents, and whether they drive the lands. -/
structure Tap where
  instr : TapInstr
  cells : Nat
  driving : Bool
  deriving DecidableEq, Repr

end Sys2Proof.Machine
end

