-- ==== Sys2Proof/Machine/Regs.lean ====
section
/-! DEFINITION. The BAR0 register map: the offset of every register and, for each, its fields with access code and
change class, as the register tables and maps of spec 00 to 20 give them; and what a register reads at reset. -/

namespace Sys2Proof.Machine

/-- Access codes of R7. -/
inductive Acc where
  | ro | rw | rw1c | rw1s | wo | rc
  deriving DecidableEq, Repr

/-- Change classes of R9; `none` for a field that is not written. -/
inductive ChangeClass where
  | none | s | b | l
  deriving DecidableEq, Repr

/-- One field of a register map. -/
structure RegField where
  hi : Nat
  lo : Nat
  acc : Acc
  cls : ChangeClass
  deriving DecidableEq, Repr

/-- A register or an array of registers: its first offset, the outer stride and count, the inner stride and count
(0 for none), and its fields; bits no field names are reserved (R6). -/
structure RegRow where
  base : Nat
  s1 : Nat
  c1 : Nat
  s2 : Nat
  c2 : Nat
  fields : List RegField
  deriving DecidableEq, Repr

namespace R

/-- GLB_IDENTITY (R2). -/
def glbIdentity : Nat := 0x0
/-- Word `w` of the capability chain's entry `i`, entries standing one after another (R45). -/
def glbCap (i w : Nat) : Nat := 0x100 + 16 * i + 8 * w
/-- CON_STATUS (R41). -/
def conStatus : Nat := 0x10000
/-- CON_CONTROL (R41). -/
def conControl : Nat := 0x10008
/-- CON_ERROR (R41). -/
def conError : Nat := 0x10010
/-- CON_ACTIVE (R41). -/
def conActive : Nat := 0x10018
/-- CON_START_SLOT (R41). -/
def conStartSlot : Nat := 0x10020
/-- CON_BOOT_SLOT (R41). -/
def conBootSlot : Nat := 0x10028
/-- CON_OVL_ADDR (R41). -/
def conOvlAddr : Nat := 0x10030
/-- CON_OVL_LEN (R41). -/
def conOvlLen : Nat := 0x10038
/-- CON_QUIESCE_LIMIT (R41). -/
def conQuiesceLimit : Nat := 0x10040
/-- CON_SWITCH_COUNT (R41). -/
def conSwitchCount : Nat := 0x10048
/-- CLK_STATUS (R73). -/
def clkStatus : Nat := 0x20000
/-- CLK_DIVIDERS (R73). -/
def clkDividers : Nat := 0x20008
/-- CLK_TS_NOW (R73). -/
def clkTsNow : Nat := 0x20010
/-- CLK_REF_PPM (R73). -/
def clkRefPpm : Nat := 0x20018
/-- CLK_CDC_OVERRUN (R73). -/
def clkCdcOverrun : Nat := 0x20020
/-- CLK_CDC_STALL (R73). -/
def clkCdcStall : Nat := 0x20028
/-- CLK_CDC_STALL_LOG (R73). -/
def clkCdcStallLog : Nat := 0x20030
/-- CLK_CDC_STALL_COUNT (R73). -/
def clkCdcStallCount : Nat := 0x20038
/-- CLK_CDC_OVERRUN_COUNT (R73). -/
def clkCdcOverrunCount : Nat := 0x20040
/-- PWR_STATUS (R551). -/
def pwrStatus : Nat := 0x30000
/-- PWR_INPUT_MW (R551). -/
def pwrInputMw : Nat := 0x30008
/-- PWR_BUCKET_MJ (R551). -/
def pwrBucketMj : Nat := 0x30010
/-- PWR_SCHED_NOW (R551). -/
def pwrSchedNow : Nat := 0x30018
/-- PWR_BE_GRANTED (R551). -/
def pwrBeGranted : Nat := 0x30020
/-- PWR_EMERG_STEP (R551). -/
def pwrEmergStep : Nat := 0x30028
/-- PWR_EMERG_LOG (R551). -/
def pwrEmergLog : Nat := 0x30030
/-- PWR_EMERG_COUNT (R551). -/
def pwrEmergCount : Nat := 0x30038
/-- PWR_DRAIN (R551). -/
def pwrDrain : Nat := 0x30040
/-- PWR_GATE_IDLE (R551). -/
def pwrGateIdle : Nat := 0x30048
/-- PWR_PARTITION (R551). -/
def pwrPartition : Nat := 0x30050
/-- PWR_RESET_CAUSE (R647). -/
def pwrResetCause : Nat := 0x30058
/-- PWR_RESET_LOG (R647). -/
def pwrResetLog : Nat := 0x30060
/-- PWR_UNIT_RESET (R647). -/
def pwrUnitReset : Nat := 0x30068
/-- PWR_BOOT_STATUS (R647). -/
def pwrBootStatus : Nat := 0x30070
/-- PWR_CLASS (R551). -/
def pwrClass (i : Nat) : Nat := 0x30100 + 8 * i
/-- SEC_STATUS (R593). -/
def secStatus : Nat := 0x40000
/-- SEC_CONTROL (R593). -/
def secControl : Nat := 0x40008
/-- SEC_SERIAL (R593). -/
def secSerial : Nat := 0x40010
/-- SEC_NONCE (R593). -/
def secNonce : Nat := 0x40018
/-- SEC_UNLOCK (R593). -/
def secUnlock : Nat := 0x40020
/-- SEC_UNLOCK_LEFT (R593). -/
def secUnlockLeft : Nat := 0x40028
/-- SEC_ROLLBACK (R593). -/
def secRollback : Nat := 0x40030
/-- SEC_FUSES (R593). -/
def secFuses : Nat := 0x40038
/-- SEC_KEY_CMD (R593). -/
def secKeyCmd : Nat := 0x40040
/-- SEC_DEBUG_KEYSLOT (R593). -/
def secDebugKeyslot : Nat := 0x40048
/-- SEC_TOKEN (R593). -/
def secToken (i : Nat) : Nat := 0x40100 + 8 * i
/-- SEC_ROM_KEYID (R593). -/
def secRomKeyid (i : Nat) : Nat := 0x40200 + 8 * i
/-- MGT_STATUS (R608). -/
def mgtStatus : Nat := 0x50000
/-- MGT_ALERT (R608). -/
def mgtAlert : Nat := 0x50008
/-- MGT_EID (R608). -/
def mgtEid : Nat := 0x50010
/-- MGT_UPTIME (R608). -/
def mgtUptime : Nat := 0x50018
/-- MGT_POWER_ON_DAYS (R608). -/
def mgtPowerOnDays : Nat := 0x50020
/-- MGT_MCTP_DROPPED (R608). -/
def mgtMctpDropped : Nat := 0x50028
/-- MGT_LOG_LOST (R608). -/
def mgtLogLost : Nat := 0x50030
/-- MGT_EOL_WARN (R608). -/
def mgtEolWarn : Nat := 0x50038
/-- MGT_EOL_LOW (R608). -/
def mgtEolLow : Nat := 0x50040
/-- MGT_TEMP (R608). -/
def mgtTemp (i : Nat) : Nat := 0x50100 + 8 * i
/-- MGT_RAIL_MW (R608). -/
def mgtRailMw (i : Nat) : Nat := 0x50300 + 8 * i
/-- MGT_RO_DRIFT (R608). -/
def mgtRoDrift (i : Nat) : Nat := 0x50400 + 8 * i
/-- MGT_EYE (R608). -/
def mgtEye (i : Nat) : Nat := 0x50500 + 8 * i
/-- MGT_EOL (R608). -/
def mgtEol (i : Nat) : Nat := 0x50800 + 8 * i
/-- RAS_STATUS (R572). -/
def rasStatus : Nat := 0x60000
/-- RAS_SNAP (R572). -/
def rasSnap : Nat := 0x60008
/-- RAS_LEDGER_STATE (R572). -/
def rasLedgerState : Nat := 0x60010
/-- RAS_ERR_LOG (R572). -/
def rasErrLog : Nat := 0x60018
/-- RAS_ERR_ADDR (R572). -/
def rasErrAddr : Nat := 0x60020
/-- RAS_RETIRE_LOG (R572). -/
def rasRetireLog : Nat := 0x60028
/-- RAS_RETIRE_WHERE (R572). -/
def rasRetireWhere : Nat := 0x60030
/-- RAS_POISON_CONSUMED (R572). -/
def rasPoisonConsumed : Nat := 0x60038
/-- RAS_SPARES_OUT (R572). -/
def rasSparesOut : Nat := 0x60040
/-- RAS_CE (R572). -/
def rasCe (i : Nat) : Nat := 0x60100 + 8 * i
/-- RAS_UE (R572). -/
def rasUe (i : Nat) : Nat := 0x60200 + 8 * i
/-- RAS_LEDGER (R572). -/
def rasLedger (i : Nat) : Nat := 0x60400 + 8 * i
/-- RAS_POLICY (R572). -/
def rasPolicy (i : Nat) : Nat := 0x60600 + 8 * i
/-- DBG_STATUS (R632). -/
def dbgStatus : Nat := 0x80000
/-- DBG_SAMPLE_BASE (R632). -/
def dbgSampleBase : Nat := 0x80008
/-- DBG_SAMPLE_SIZE (R632). -/
def dbgSampleSize : Nat := 0x80010
/-- DBG_SAMPLE_CFG (R632). -/
def dbgSampleCfg : Nat := 0x80018
/-- DBG_SAMPLE_WR (R632). -/
def dbgSampleWr : Nat := 0x80020
/-- DBG_SAMPLE_RD (R632). -/
def dbgSampleRd : Nat := 0x80028
/-- DBG_SAMPLE_LOST (R632). -/
def dbgSampleLost : Nat := 0x80030
/-- DBG_SET_EN (R632). -/
def dbgSetEn (i : Nat) : Nat := 0x80038 + 8 * i
/-- DBG_TRACE_BASE (R632). -/
def dbgTraceBase : Nat := 0x80100
/-- DBG_TRACE_SIZE (R632). -/
def dbgTraceSize : Nat := 0x80108
/-- DBG_TRACE_CFG (R632). -/
def dbgTraceCfg : Nat := 0x80110
/-- DBG_TRACE_FILTER (R632). -/
def dbgTraceFilter : Nat := 0x80118
/-- DBG_TRACE_CTL (R632). -/
def dbgTraceCtl : Nat := 0x80120
/-- DBG_TRACE_WR (R632). -/
def dbgTraceWr : Nat := 0x80128
/-- DBG_TRACE_LOST (R632). -/
def dbgTraceLost : Nat := 0x80130
/-- DBG_TRACE_TRIG_MARK (R632). -/
def dbgTraceTrigMark : Nat := 0x80138
/-- DBG_TRACE_TRIG_TIME (R632). -/
def dbgTraceTrigTime : Nat := 0x80140
/-- DBG_SURVEY_BASE (R632). -/
def dbgSurveyBase : Nat := 0x80200
/-- DBG_SURVEY_CTL (R632). -/
def dbgSurveyCtl : Nat := 0x80208
/-- DBG_SURVEY_IGNORED (R632). -/
def dbgSurveyIgnored : Nat := 0x80210
/-- DBG_MEM_ADDR (R632). -/
def dbgMemAddr : Nat := 0x80300
/-- DBG_MEM_DATA (R632). -/
def dbgMemData : Nat := 0x80308
/-- DBG_MEM_STATUS (R632). -/
def dbgMemStatus : Nat := 0x80310
/-- DBG_DUMP_DONE (R632). -/
def dbgDumpDone : Nat := 0x80400
/-- DBG_DUMP_ID (R632). -/
def dbgDumpId (i : Nat) : Nat := 0x81000 + 64 * i
/-- DBG_DUMP_STEP (R632). -/
def dbgDumpStep (i : Nat) : Nat := 0x81008 + 64 * i
/-- DBG_DUMP_DEST (R632). -/
def dbgDumpDest (i : Nat) : Nat := 0x81010 + 64 * i
/-- DBG_DUMP_CFG (R632). -/
def dbgDumpCfg (i : Nat) : Nat := 0x81018 + 64 * i
/-- DBG_SEM_SEL (R438). -/
def dbgSemSel : Nat := 0x8F000
/-- DBG_SEM_SNAP (R438). -/
def dbgSemSnap : Nat := 0x8F008
/-- DBG_SEM_LAST_TIME (R438). -/
def dbgSemLastTime : Nat := 0x8F010
/-- DBG_SEM_STATUS (R438). -/
def dbgSemStatus : Nat := 0x8F018
/-- DBG_SEM_FOREIGN_COUNT (R438). -/
def dbgSemForeignCount : Nat := 0x8F020
/-- DBG_SEM_UNDERFLOW_COUNT (R438). -/
def dbgSemUnderflowCount : Nat := 0x8F028
/-- DBG_SEM_REMOTE_REFUSED (R438). -/
def dbgSemRemoteRefused : Nat := 0x8F030
/-- DBG_SEM_SATURATE_COUNT (R438). -/
def dbgSemSaturateCount : Nat := 0x8F038
/-- DBG_SEM_FORCE_COUNT (R438). -/
def dbgSemForceCount : Nat := 0x8F040
/-- DBG_SEM_FORCE_LOG (R438). -/
def dbgSemForceLog : Nat := 0x8F048
/-- DBG_SEM_WAITER (R438). -/
def dbgSemWaiter (i : Nat) : Nat := 0x8F100 + 16 * i
/-- DBG_SEM_WAITER_COUNT (R438). -/
def dbgSemWaiterCount (i : Nat) : Nat := 0x8F108 + 16 * i
/-- DBG_SET_CFG (R632). -/
def dbgSetCfg (i : Nat) : Nat := 0x90000 + 256 * i
/-- DBG_EVSEL (R632). -/
def dbgEvsel (n i : Nat) : Nat := 0x90008 + 0x100 * n + 8 * i
/-- DBG_FIX (R632). -/
def dbgFix (n i : Nat) : Nat := 0x90040 + 0x100 * n + 8 * i
/-- DBG_CTR (R632). -/
def dbgCtr (n i : Nat) : Nat := 0x90080 + 0x100 * n + 8 * i
/-- DSP_STATUS (R415). -/
def dspStatus : Nat := 0x100000
/-- DSP_CONTROL (R415). -/
def dspControl : Nat := 0x100008
/-- DSP_PROG_TABLE (R415). -/
def dspProgTable : Nat := 0x100010
/-- DSP_PROG_POOL (R415). -/
def dspProgPool : Nat := 0x100018
/-- DSP_POOL_PAGES (R415). -/
def dspPoolPages : Nat := 0x100020
/-- DSP_POOL_FREE (R415). -/
def dspPoolFree : Nat := 0x100028
/-- DSP_BORROW_LIMIT (R415). -/
def dspBorrowLimit : Nat := 0x100030
/-- DSP_SLOT_SEL (R415). -/
def dspSlotSel : Nat := 0x100038
/-- DSP_SLOT_INFO (R415). -/
def dspSlotInfo : Nat := 0x100040
/-- DSP_ADMITTED (R415). -/
def dspAdmitted : Nat := 0x100048
/-- DSP_REFUSED (R415). -/
def dspRefused : Nat := 0x100050
/-- DSP_TIMEOUTS (R415). -/
def dspTimeouts : Nat := 0x100058
/-- DSP_DB_FOREIGN (R415). -/
def dspDbForeign : Nat := 0x100060
/-- DSP_SEAL_ADDR (R415). -/
def dspSealAddr : Nat := 0x100068
/-- DSP_LANE_CLUSTERS (R415). -/
def dspLaneClusters (i : Nat) : Nat := 0x100100 + 8 * i
/-- DSP_LANE_END (R415). -/
def dspLaneEnd (i : Nat) : Nat := 0x100140 + 8 * i
/-- DSP_RETIRE_COUNT (R532). -/
def dspRetireCount : Nat := 0x100200
/-- DSP_SHARE_LAG (R532). -/
def dspShareLag : Nat := 0x100208
/-- DSP_SWITCHES (R532). -/
def dspSwitches : Nat := 0x100210
/-- DSP_CTX_ACTIVE (R532). -/
def dspCtxActive : Nat := 0x100218
/-- SEQ_BAR_GUARD (R123). -/
def seqBarGuard (n : Nat) : Nat := 0x200800 + 0x10000 * n
/-- SEQ_LOCK_GUARD (R123). -/
def seqLockGuard (n : Nat) : Nat := 0x200808 + 0x10000 * n
/-- SEQ_GUARD_COUNT (R123). -/
def seqGuardCount (n : Nat) : Nat := 0x200810 + 0x10000 * n
/-- SEQ_GUARD_LOG (R123). -/
def seqGuardLog (n : Nat) : Nat := 0x200818 + 0x10000 * n
/-- QUE_CFG (R418). -/
def queCfg (n : Nat) : Nat := 0x400000 + 0x100 * n
/-- QUE_SQ_BASE (R418). -/
def queSqBase (n : Nat) : Nat := 0x400008 + 0x100 * n
/-- QUE_CQ_BASE (R418). -/
def queCqBase (n : Nat) : Nat := 0x400010 + 0x100 * n
/-- QUE_EVT_ADDR (R418). -/
def queEvtAddr (n : Nat) : Nat := 0x400018 + 0x100 * n
/-- QUE_TIMEOUT (R418). -/
def queTimeout (n : Nat) : Nat := 0x400020 + 0x100 * n
/-- QUE_SQ_TAIL (R418). -/
def queSqTail (n : Nat) : Nat := 0x400028 + 0x100 * n
/-- QUE_SQ_HEAD (R418). -/
def queSqHead (n : Nat) : Nat := 0x400030 + 0x100 * n
/-- QUE_CQ_TAIL (R418). -/
def queCqTail (n : Nat) : Nat := 0x400038 + 0x100 * n
/-- QUE_CQ_HEAD (R418). -/
def queCqHead (n : Nat) : Nat := 0x400040 + 0x100 * n
/-- QUE_STATUS (R418). -/
def queStatus (n : Nat) : Nat := 0x400048 + 0x100 * n
/-- QUE_INFLIGHT (R418). -/
def queInflight (n : Nat) : Nat := 0x400050 + 0x100 * n
/-- QUE_COMPLETED (R418). -/
def queCompleted (n : Nat) : Nat := 0x400058 + 0x100 * n
/-- QUE_LOST (R418). -/
def queLost (n : Nat) : Nat := 0x400060 + 0x100 * n
/-- CTX_CFG (R512). -/
def ctxCfg (n : Nat) : Nat := 0x800000 + 0x200 * n
/-- CTX_STATUS (R512). -/
def ctxStatus (n : Nat) : Nat := 0x800008 + 0x200 * n
/-- CTX_SEED (R512). -/
def ctxSeed (n : Nat) : Nat := 0x800010 + 0x200 * n
/-- CTX_EPOCH_FETCHED (R512). -/
def ctxEpochFetched (n : Nat) : Nat := 0x800018 + 0x200 * n
/-- CTX_EPOCH_DONE (R512). -/
def ctxEpochDone (n : Nat) : Nat := 0x800020 + 0x200 * n
/-- CTX_ENGINE_NS (R512). -/
def ctxEngineNs (n : Nat) : Nat := 0x800028 + 0x200 * n
/-- CTX_SHARE_NS (R512). -/
def ctxShareNs (n : Nat) : Nat := 0x800030 + 0x200 * n
/-- CTX_VTIME (R512). -/
def ctxVtime (n : Nat) : Nat := 0x800038 + 0x200 * n
/-- CTX_LAUNCHES (R512). -/
def ctxLaunches (n : Nat) : Nat := 0x800040 + 0x200 * n
/-- CTX_RESIDENT (R512). -/
def ctxResident (n : Nat) : Nat := 0x800048 + 0x200 * n
/-- CTX_CENSUS (R512). -/
def ctxCensus (n : Nat) : Nat := 0x800050 + 0x200 * n
/-- CTX_MAP_SMALL (R512). -/
def ctxMapSmall (n : Nat) : Nat := 0x800058 + 0x200 * n
/-- CTX_MAP_MEDIUM (R512). -/
def ctxMapMedium (n : Nat) : Nat := 0x800060 + 0x200 * n
/-- CTX_MAP_HUGE (R512). -/
def ctxMapHuge (n : Nat) : Nat := 0x800068 + 0x200 * n
/-- CTX_RETIRE_EPOCH (R512). -/
def ctxRetireEpoch (n : Nat) : Nat := 0x800080 + 0x200 * n
/-- CTX_DISCARDED (R512). -/
def ctxDiscarded (n : Nat) : Nat := 0x800088 + 0x200 * n
/-- CTX_ABORTED (R512). -/
def ctxAborted (n : Nat) : Nat := 0x800090 + 0x200 * n
/-- CTX_BROKEN (R512). -/
def ctxBroken (n : Nat) : Nat := 0x800098 + 0x200 * n
/-- CTX_TICKETS_FREED (R512). -/
def ctxTicketsFreed (n : Nat) : Nat := 0x8000A0 + 0x200 * n
/-- CTX_PTS_SURRENDERED (R512). -/
def ctxPtsSurrendered (n : Nat) : Nat := 0x8000A8 + 0x200 * n
/-- CTX_PT_ROOT (R306). -/
def ctxPtRoot (n : Nat) : Nat := 0x800100 + 0x200 * n
/-- CTX_MIRROR_ROOT (R306). -/
def ctxMirrorRoot (n : Nat) : Nat := 0x800108 + 0x200 * n
/-- CTX_HOST_HI (R306). -/
def ctxHostHi (n : Nat) : Nat := 0x800110 + 0x200 * n
/-- CTX_SEG_BASE (R306). -/
def ctxSegBase (n i : Nat) : Nat := 0x800120 + 0x200 * n + 16 * i
/-- CTX_SEG_CFG (R306). -/
def ctxSegCfg (n i : Nat) : Nat := 0x800128 + 0x200 * n + 16 * i
/-- SEM_CFG (R421). -/
def semCfg (n : Nat) : Nat := 0xA00000 + 0x20 * n
/-- SEM_VALUE (R421). -/
def semValue (n : Nat) : Nat := 0xA00008 + 0x20 * n
/-- SEM_LAST (R421). -/
def semLast (n : Nat) : Nat := 0xA00010 + 0x20 * n
/-- SEM_LAST_COOKIE (R421). -/
def semLastCookie (n : Nat) : Nat := 0xA00018 + 0x20 * n
/-- TRN_MODE (R330). -/
def trnMode : Nat := 0xC00000
/-- TRN_STATUS (R330). -/
def trnStatus : Nat := 0xC00008
/-- TRN_MODEL_ROOT (R330). -/
def trnModelRoot : Nat := 0xC00010
/-- TRN_MODEL_MIRROR (R330). -/
def trnModelMirror : Nat := 0xC00018
/-- TRN_INV_CTX (R330). -/
def trnInvCtx : Nat := 0xC00020
/-- TRN_INV_VA (R330). -/
def trnInvVa : Nat := 0xC00028
/-- TRN_INV_PAGES (R330). -/
def trnInvPages : Nat := 0xC00030
/-- TRN_INV_CMD (R330). -/
def trnInvCmd : Nat := 0xC00038
/-- TRN_FAULT_LOG (R330). -/
def trnFaultLog (i : Nat) : Nat := 0xC00040 + 8 * i
/-- TRN_FAULT_VA (R330). -/
def trnFaultVa (i : Nat) : Nat := 0xC00058 + 8 * i
/-- TRN_WALKS (R330). -/
def trnWalks (i : Nat) : Nat := 0xC00070 + 8 * i
/-- CCH_STATUS (R367). -/
def cchStatus : Nat := 0xD00000
/-- CCH_SETWAY_CMD (R367). -/
def cchSetwayCmd : Nat := 0xD00008
/-- CCH_MAINT_LINES (R367). -/
def cchMaintLines : Nat := 0xD00010
/-- CCH_WAYMASK (R367). -/
def cchWaymask (i : Nat) : Nat := 0xD00100 + 8 * i
/-- CCH_WAY_RETIRED (R367). -/
def cchWayRetired (i : Nat) : Nat := 0xD00200 + 8 * i
/-- CCH_SIDING_RECALLS (R367). -/
def cchSidingRecalls (i : Nat) : Nat := 0xD00400 + 8 * i
/-- CCH_L2_MISSES (R367). -/
def cchL2Misses (i : Nat) : Nat := 0xD00410 + 8 * i
/-- CCH_MAINT_CTX (R367). -/
def cchMaintCtx (i : Nat) : Nat := 0xD01000 + 64 * i
/-- CCH_MAINT_VA (R367). -/
def cchMaintVa (i : Nat) : Nat := 0xD01008 + 64 * i
/-- CCH_MAINT_LEN (R367). -/
def cchMaintLen (i : Nat) : Nat := 0xD01010 + 64 * i
/-- CCH_MAINT_CMD (R367). -/
def cchMaintCmd (i : Nat) : Nat := 0xD01018 + 64 * i
/-- CCH_MAINT_STATUS (R367). -/
def cchMaintStatus (i : Nat) : Nat := 0xD01020 + 64 * i
/-- MEM_STATUS (R554). -/
def memStatus : Nat := 0xE00000
/-- MEM_OVERRUN_COUNT (R554). -/
def memOverrunCount : Nat := 0xE00008
/-- MEM_OVERRUN_CYCLES (R554). -/
def memOverrunCycles : Nat := 0xE00010
/-- MEM_OVERRUN_LOG (R554). -/
def memOverrunLog : Nat := 0xE00018
/-- MEM_WINDOW_SHARE (R554). -/
def memWindowShare : Nat := 0xE00020
/-- MEM_STACK_TEMP (R554). -/
def memStackTemp (i : Nat) : Nat := 0xE00100 + 8 * i
/-- MEM_SCRUB_LAG (R554). -/
def memScrubLag (i : Nat) : Nat := 0xE00140 + 8 * i
/-- MEM_SPARE_LEFT (R554). -/
def memSpareLeft (i : Nat) : Nat := 0xE00180 + 8 * i
/-- MEM_CH_STATUS (R554). -/
def memChStatus (i : Nat) : Nat := 0xE01000 + 8 * i
/-- PTS_STATUS (R264). -/
def ptsStatus (i : Nat) : Nat := 0xF00000 + 256 * i
/-- PTS_RECORDS (R264). -/
def ptsRecords (i : Nat) : Nat := 0xF00008 + 256 * i
/-- PTS_TABLE_BASE (R264). -/
def ptsTableBase : Nat := 0xF02000
/-- PTS_ENTERED (R264). -/
def ptsEntered : Nat := 0xF02008
/-- PTS_PLACED (R264). -/
def ptsPlaced : Nat := 0xF02010
/-- PTS_DROPPED (R264). -/
def ptsDropped : Nat := 0xF02018
/-- PTS_HELD (R264). -/
def ptsHeld : Nat := 0xF02020
/-- PTS_SURRENDERED (R264). -/
def ptsSurrendered : Nat := 0xF02028
/-- PTS_PLAT_CFG (R264). -/
def ptsPlatCfg (i : Nat) : Nat := 0xF10000 + 64 * i
/-- PTS_PLAT_CAP (R264). -/
def ptsPlatCap (i : Nat) : Nat := 0xF10008 + 64 * i
/-- PTS_PLAT_BASE (R264). -/
def ptsPlatBase (i : Nat) : Nat := 0xF10010 + 64 * i
/-- PTS_PLAT_OCC (R264). -/
def ptsPlatOcc (i : Nat) : Nat := 0xF10018 + 64 * i
/-- PTS_PLAT_HELD (R264). -/
def ptsPlatHeld (i : Nat) : Nat := 0xF10020 + 64 * i
/-- TKT_TABLE_BASE (R267). -/
def tktTableBase : Nat := 0x1000000
/-- TKT_SIDE_BASE (R267). -/
def tktSideBase : Nat := 0x1000008
/-- TKT_ACTIVE (R267). -/
def tktActive : Nat := 0x1000010
/-- TKT_ALLOCS (R267). -/
def tktAllocs : Nat := 0x1000018
/-- TKT_FREES (R267). -/
def tktFrees : Nat := 0x1000020
/-- TKT_CACHE_MISS (R267). -/
def tktCacheMiss : Nat := 0x1000028
/-- TKT_FLUSH (R267). -/
def tktFlush : Nat := 0x1000030
/-- TKT_STATUS (R267). -/
def tktStatus : Nat := 0x1000038
/-- MLN_STATUS (R473). -/
def mlnStatus : Nat := 0x1100000
/-- MLN_FRAME (R473). -/
def mlnFrame : Nat := 0x1100008
/-- MLN_EPOCH (R473). -/
def mlnEpoch : Nat := 0x1100010
/-- MLN_ROOT_DIST (R473). -/
def mlnRootDist : Nat := 0x1100018
/-- MLN_DEAD_MAP (R473). -/
def mlnDeadMap (i : Nat) : Nat := 0x1100020 + 8 * i
/-- MLN_PEER_LOG (R473). -/
def mlnPeerLog : Nat := 0x1100040
/-- MLN_RX_REFUSED (R473). -/
def mlnRxRefused : Nat := 0x1100048
/-- MLN_RX_MALFORMED (R473). -/
def mlnRxMalformed : Nat := 0x1100050
/-- MLN_SIG_BACKLOG (R473). -/
def mlnSigBacklog : Nat := 0x1100058
/-- MLN_LATE_COUNT (R473). -/
def mlnLateCount : Nat := 0x1100060
/-- MLN_FLOW_SEL (R473). -/
def mlnFlowSel : Nat := 0x1100068
/-- MLN_FLOW_STATE (R473). -/
def mlnFlowState : Nat := 0x1100070
/-- MLN_PORT_CFG (R473). -/
def mlnPortCfg (i : Nat) : Nat := 0x1100100 + 64 * i
/-- MLN_PORT_STATUS (R473). -/
def mlnPortStatus (i : Nat) : Nat := 0x1100108 + 64 * i
/-- MLN_PORT_RETRY (R473). -/
def mlnPortRetry (i : Nat) : Nat := 0x1100110 + 64 * i
/-- MLN_PORT_CRC_ERR (R473). -/
def mlnPortCrcErr (i : Nat) : Nat := 0x1100118 + 64 * i
/-- MLN_PORT_DOWN_COUNT (R473). -/
def mlnPortDownCount (i : Nat) : Nat := 0x1100120 + 64 * i
/-- MLN_LANE_ERR (R473). -/
def mlnLaneErr (i : Nat) : Nat := 0x1100300 + 8 * i
/-- MLN_LEDGER (R473). -/
def mlnLedger (i : Nat) : Nat := 0x1100500 + 8 * i
/-- MLN_RX_WIN_BASE (R473). -/
def mlnRxWinBase (i : Nat) : Nat := 0x1100600 + 8 * i
/-- MLN_RX_WIN_CFG (R473). -/
def mlnRxWinCfg (i : Nat) : Nat := 0x1100800 + 8 * i
/-- ETH_STATUS (R509). -/
def ethStatus : Nat := 0x1200000
/-- ETH_CONTROL (R509). -/
def ethControl : Nat := 0x1200008
/-- ETH_QP_TABLE (R509). -/
def ethQpTable : Nat := 0x1200010
/-- ETH_REGION_BASE (R509). -/
def ethRegionBase : Nat := 0x1200018
/-- ETH_REGION_INV (R509). -/
def ethRegionInv : Nat := 0x1200020
/-- ETH_RX_DENIED (R509). -/
def ethRxDenied : Nat := 0x1200028
/-- ETH_RX_ICRC (R509). -/
def ethRxIcrc : Nat := 0x1200030
/-- ETH_CNP_SENT (R509). -/
def ethCnpSent : Nat := 0x1200038
/-- ETH_PORT_CFG (R509). -/
def ethPortCfg (i : Nat) : Nat := 0x1200100 + 256 * i
/-- ETH_PORT_MAC (R509). -/
def ethPortMac (i : Nat) : Nat := 0x1200108 + 256 * i
/-- ETH_PFC_STORMS (R509). -/
def ethPfcStorms (i : Nat) : Nat := 0x1200110 + 256 * i
/-- ETH_FEC_CORRECTED (R509). -/
def ethFecCorrected (i : Nat) : Nat := 0x1200118 + 256 * i
/-- ETH_FEC_UNCORRECTED (R509). -/
def ethFecUncorrected (i : Nat) : Nat := 0x1200120 + 256 * i
/-- ETH_GID_LO (R509). -/
def ethGidLo (i : Nat) : Nat := 0x1200400 + 32 * i
/-- ETH_GID_HI (R509). -/
def ethGidHi (i : Nat) : Nat := 0x1200408 + 32 * i
/-- ETH_GID_CFG (R509). -/
def ethGidCfg (i : Nat) : Nat := 0x1200410 + 32 * i
/-- ETH_QP_CMD (R509). -/
def ethQpCmd (i : Nat) : Nat := 0x1210000 + 16 * i
/-- ETH_QP_STATUS (R509). -/
def ethQpStatus (i : Nat) : Nat := 0x1210008 + 16 * i
/-- ETH_QP_DB (R509). -/
def ethQpDb (i : Nat) : Nat := 0x1220000 + 16 * i
/-- PCI_STATUS (R506). -/
def pciStatus : Nat := 0x1400000
/-- PCI_WIN_BASE (R506). -/
def pciWinBase : Nat := 0x1400008
/-- PCI_WIN_CFG (R506). -/
def pciWinCfg : Nat := 0x1400010
/-- PCI_WIN_DISCARDS (R506). -/
def pciWinDiscards : Nat := 0x1400018
/-- PCI_DB_MALFORMED (R506). -/
def pciDbMalformed : Nat := 0x1400020
/-- PCI_HOST_ERRORS (R506). -/
def pciHostErrors : Nat := 0x1400028
/-- PCI_FN_CAUSE (R506). -/
def pciFnCause (i : Nat) : Nat := 0x1401000 + 64 * i
/-- PCI_FN_ERR_LOG (R506). -/
def pciFnErrLog (i : Nat) : Nat := 0x1401008 + 64 * i
/-- PCI_FN_ERR_ADDR (R506). -/
def pciFnErrAddr (i : Nat) : Nat := 0x1401010 + 64 * i
/-- PCI_FN_DENIED (R506). -/
def pciFnDenied (i : Nat) : Nat := 0x1401018 + 64 * i
/-- CORE_GROUP_STATE (R125). -/
def coreGroupState (n i : Nat) : Nat := 0x1800000 + 0x8000 * n + 8 * i
/-- CORE_MX_STATUS (R216). -/
def coreMxStatus (n : Nat) : Nat := 0x1800400 + 0x8000 * n
/-- CORE_MX_STEP (R216). -/
def coreMxStep (n : Nat) : Nat := 0x1800408 + 0x8000 * n
/-- CORE_MX_BUBBLE (R216). -/
def coreMxBubble (n : Nat) : Nat := 0x1800410 + 0x8000 * n
/-- CORE_MX_FREEZE_A (R216). -/
def coreMxFreezeA (n : Nat) : Nat := 0x1800418 + 0x8000 * n
/-- CORE_MX_FREEZE_B (R216). -/
def coreMxFreezeB (n : Nat) : Nat := 0x1800420 + 0x8000 * n
/-- CORE_MX_FREEZE_DRAIN (R216). -/
def coreMxFreezeDrain (n : Nat) : Nat := 0x1800428 + 0x8000 * n
/-- CORE_MX_IDLE (R216). -/
def coreMxIdle (n : Nat) : Nat := 0x1800430 + 0x8000 * n
/-- CORE_MX_TILES (R216). -/
def coreMxTiles (n : Nat) : Nat := 0x1800438 + 0x8000 * n
/-- CORE_MV_BYTES (R216). -/
def coreMvBytes (n : Nat) : Nat := 0x1800440 + 0x8000 * n
/-- CORE_MV_WAIT (R216). -/
def coreMvWait (n : Nat) : Nat := 0x1800448 + 0x8000 * n
/-- CORE_ZSKIP_SLICES (R233). -/
def coreZskipSlices (n : Nat) : Nat := 0x1800450 + 0x8000 * n

end R

/-- The registers of the GLB block. -/
def regRowsGlb : List RegRow := [
  ⟨0x0, 0, 0, 0, 0, [⟨31, 0, .ro, .s⟩]⟩,
  ⟨0x100, 0, 0, 8, 480, [⟨63, 0, .ro, .s⟩]⟩]

/-- The registers of the CON block. -/
def regRowsCon : List RegRow := [
  ⟨0x10000, 0, 0, 0, 0, [⟨27, 24, .ro, .none⟩, ⟨23, 20, .ro, .none⟩, ⟨17, 17, .ro, .none⟩, ⟨16, 16, .ro, .none⟩, ⟨15, 15, .rw1c, .none⟩, ⟨14, 14, .rw1c, .none⟩, ⟨13, 13, .rw1c, .none⟩, ⟨12, 12, .rw1c, .none⟩, ⟨8, 8, .ro, .none⟩, ⟨3, 0, .ro, .none⟩]⟩,
  ⟨0x10008, 0, 0, 0, 0, [⟨11, 8, .rw, .l⟩, ⟨4, 4, .rw, .l⟩, ⟨0, 0, .wo, .l⟩]⟩,
  ⟨0x10010, 0, 0, 0, 0, [⟨31, 16, .ro, .none⟩, ⟨7, 0, .ro, .none⟩]⟩,
  ⟨0x10018, 0, 0, 0, 0, [⟨63, 32, .ro, .s⟩, ⟨31, 0, .ro, .s⟩]⟩,
  ⟨0x10020, 0, 0, 0, 0, [⟨3, 0, .rw, .l⟩]⟩,
  ⟨0x10028, 0, 0, 0, 0, [⟨0, 0, .rw, .l⟩]⟩,
  ⟨0x10030, 0, 0, 0, 0, [⟨55, 0, .rw, .l⟩]⟩,
  ⟨0x10038, 0, 0, 0, 0, [⟨20, 0, .rw, .l⟩]⟩,
  ⟨0x10040, 0, 0, 0, 0, [⟨31, 0, .rw, .l⟩]⟩,
  ⟨0x10048, 0, 0, 0, 0, [⟨31, 0, .ro, .none⟩]⟩]

/-- The registers of the CLK block. -/
def regRowsClk : List RegRow := [
  ⟨0x20000, 0, 0, 0, 0, [⟨15, 15, .ro, .none⟩, ⟨14, 14, .ro, .none⟩, ⟨7, 7, .ro, .none⟩, ⟨6, 6, .ro, .none⟩, ⟨5, 5, .ro, .none⟩, ⟨4, 4, .ro, .none⟩]⟩,
  ⟨0x20008, 0, 0, 0, 0, [⟨63, 0, .ro, .none⟩]⟩,
  ⟨0x20010, 0, 0, 0, 0, [⟨63, 0, .ro, .none⟩]⟩,
  ⟨0x20018, 0, 0, 0, 0, [⟨15, 0, .ro, .none⟩]⟩,
  ⟨0x20020, 0, 0, 0, 0, [⟨8, 0, .rw1c, .none⟩]⟩,
  ⟨0x20028, 0, 0, 0, 0, [⟨8, 0, .rw1c, .none⟩]⟩,
  ⟨0x20030, 0, 0, 0, 0, [⟨63, 63, .rw1c, .none⟩, ⟨62, 59, .ro, .none⟩, ⟨58, 55, .ro, .none⟩, ⟨54, 48, .ro, .none⟩, ⟨47, 40, .ro, .none⟩, ⟨39, 0, .ro, .none⟩]⟩,
  ⟨0x20038, 0, 0, 0, 0, [⟨31, 0, .rc, .none⟩]⟩,
  ⟨0x20040, 0, 0, 0, 0, [⟨31, 0, .rc, .none⟩]⟩]

/-- The registers of the PWR block. -/
def regRowsPwr : List RegRow := [
  ⟨0x30000, 0, 0, 0, 0, [⟨7, 7, .ro, .none⟩, ⟨6, 6, .rw1c, .none⟩, ⟨5, 5, .rw1c, .none⟩, ⟨4, 4, .rw1c, .none⟩, ⟨3, 3, .ro, .none⟩]⟩,
  ⟨0x30008, 0, 0, 0, 0, [⟨31, 0, .ro, .none⟩]⟩,
  ⟨0x30010, 0, 0, 0, 0, [⟨31, 0, .ro, .none⟩]⟩,
  ⟨0x30018, 0, 0, 0, 0, [⟨15, 0, .ro, .none⟩]⟩,
  ⟨0x30020, 0, 0, 0, 0, [⟨15, 0, .ro, .none⟩]⟩,
  ⟨0x30028, 0, 0, 0, 0, [⟨31, 0, .ro, .none⟩]⟩,
  ⟨0x30030, 0, 0, 0, 0, [⟨63, 63, .rw1c, .none⟩, ⟨62, 61, .ro, .none⟩, ⟨60, 57, .ro, .none⟩, ⟨56, 55, .ro, .none⟩, ⟨54, 49, .ro, .none⟩, ⟨39, 0, .ro, .none⟩]⟩,
  ⟨0x30038, 0, 0, 0, 0, [⟨31, 0, .rc, .none⟩]⟩,
  ⟨0x30040, 0, 0, 0, 0, [⟨0, 0, .wo, .l⟩, ⟨1, 1, .ro, .none⟩]⟩,
  ⟨0x30048, 0, 0, 0, 0, [⟨31, 0, .rw, .l⟩]⟩,
  ⟨0x30050, 0, 0, 0, 0, [⟨63, 0, .ro, .none⟩]⟩,
  ⟨0x30058, 0, 0, 0, 0, [⟨4, 4, .ro, .none⟩, ⟨3, 3, .ro, .none⟩, ⟨2, 2, .ro, .none⟩, ⟨1, 1, .ro, .none⟩, ⟨0, 0, .ro, .none⟩]⟩,
  ⟨0x30060, 0, 0, 0, 0, [⟨63, 0, .ro, .none⟩]⟩,
  ⟨0x30068, 0, 0, 0, 0, [⟨31, 31, .wo, .l⟩, ⟨30, 30, .ro, .none⟩, ⟨29, 29, .rw1c, .none⟩, ⟨11, 8, .rw, .l⟩, ⟨7, 0, .rw, .l⟩]⟩,
  ⟨0x30070, 0, 0, 0, 0, [⟨31, 0, .ro, .none⟩]⟩,
  ⟨0x30100, 0, 0, 8, 8, [⟨63, 0, .ro, .none⟩]⟩]

/-- The registers of the SEC block. -/
def regRowsSec : List RegRow := [
  ⟨0x40000, 0, 0, 0, 0, [⟨15, 15, .ro, .none⟩, ⟨14, 14, .rw1c, .none⟩, ⟨13, 13, .rw1c, .none⟩, ⟨12, 12, .rw1c, .none⟩, ⟨11, 11, .rw1c, .none⟩, ⟨10, 10, .ro, .none⟩, ⟨9, 9, .rw1c, .none⟩, ⟨7, 0, .ro, .none⟩]⟩,
  ⟨0x40008, 0, 0, 0, 0, [⟨3, 0, .wo, .l⟩]⟩,
  ⟨0x40010, 0, 0, 0, 0, [⟨63, 0, .ro, .none⟩]⟩,
  ⟨0x40018, 0, 0, 0, 0, [⟨63, 0, .ro, .none⟩]⟩,
  ⟨0x40020, 0, 0, 0, 0, [⟨3, 0, .ro, .none⟩]⟩,
  ⟨0x40028, 0, 0, 0, 0, [⟨16, 0, .ro, .none⟩]⟩,
  ⟨0x40030, 0, 0, 0, 0, [⟨14, 0, .ro, .none⟩]⟩,
  ⟨0x40038, 0, 0, 0, 0, [⟨17, 0, .ro, .none⟩]⟩,
  ⟨0x40040, 0, 0, 0, 0, [⟨7, 0, .wo, .l⟩]⟩,
  ⟨0x40048, 0, 0, 0, 0, [⟨6, 0, .rw, .l⟩]⟩,
  ⟨0x40100, 0, 0, 8, 18, [⟨63, 0, .wo, .l⟩]⟩,
  ⟨0x40200, 0, 0, 8, 4, [⟨63, 0, .ro, .none⟩]⟩]

/-- The registers of the MGT block. -/
def regRowsMgt : List RegRow := [
  ⟨0x50000, 0, 0, 0, 0, [⟨31, 0, .ro, .none⟩]⟩,
  ⟨0x50008, 0, 0, 0, 0, [⟨7, 0, .rw1c, .none⟩]⟩,
  ⟨0x50010, 0, 0, 0, 0, [⟨15, 0, .ro, .none⟩]⟩,
  ⟨0x50018, 0, 0, 0, 0, [⟨63, 0, .ro, .none⟩]⟩,
  ⟨0x50020, 0, 0, 0, 0, [⟨31, 0, .ro, .none⟩]⟩,
  ⟨0x50028, 0, 0, 0, 0, [⟨31, 0, .rc, .none⟩]⟩,
  ⟨0x50030, 0, 0, 0, 0, [⟨31, 0, .rc, .none⟩]⟩,
  ⟨0x50038, 0, 0, 0, 0, [⟨15, 0, .rw, .l⟩]⟩,
  ⟨0x50040, 0, 0, 0, 0, [⟨10, 0, .ro, .none⟩]⟩,
  ⟨0x50100, 0, 0, 8, 56, [⟨15, 0, .ro, .none⟩]⟩,
  ⟨0x50300, 0, 0, 8, 8, [⟨31, 0, .ro, .none⟩]⟩,
  ⟨0x50400, 0, 0, 8, 16, [⟨31, 0, .ro, .none⟩]⟩,
  ⟨0x50500, 0, 0, 8, 88, [⟨31, 0, .ro, .none⟩]⟩,
  ⟨0x50800, 0, 0, 8, 11, [⟨31, 0, .ro, .none⟩]⟩]

/-- The registers of the RAS block. -/
def regRowsRas : List RegRow := [
  ⟨0x60000, 0, 0, 0, 0, [⟨8, 8, .ro, .none⟩, ⟨7, 7, .rw1c, .none⟩, ⟨6, 6, .rw1c, .none⟩, ⟨5, 5, .rw1c, .none⟩, ⟨4, 4, .rw1c, .none⟩, ⟨3, 3, .rw1c, .none⟩, ⟨2, 2, .rw1c, .none⟩, ⟨1, 1, .rw1c, .none⟩, ⟨0, 0, .rw1c, .none⟩]⟩,
  ⟨0x60008, 0, 0, 0, 0, [⟨0, 0, .wo, .l⟩]⟩,
  ⟨0x60010, 0, 0, 0, 0, [⟨63, 0, .ro, .none⟩]⟩,
  ⟨0x60018, 0, 0, 0, 0, [⟨63, 63, .rw1c, .none⟩, ⟨62, 58, .ro, .none⟩, ⟨57, 50, .ro, .none⟩, ⟨39, 0, .ro, .none⟩]⟩,
  ⟨0x60020, 0, 0, 0, 0, [⟨55, 0, .ro, .none⟩]⟩,
  ⟨0x60028, 0, 0, 0, 0, [⟨63, 63, .rw1c, .none⟩, ⟨62, 60, .ro, .none⟩, ⟨59, 59, .ro, .none⟩, ⟨58, 58, .ro, .none⟩, ⟨39, 0, .ro, .none⟩]⟩,
  ⟨0x60030, 0, 0, 0, 0, [⟨63, 0, .ro, .none⟩]⟩,
  ⟨0x60038, 0, 0, 0, 0, [⟨31, 0, .rc, .none⟩]⟩,
  ⟨0x60040, 0, 0, 0, 0, [⟨7, 0, .ro, .none⟩]⟩,
  ⟨0x60100, 0, 0, 8, 16, [⟨63, 0, .rc, .none⟩]⟩,
  ⟨0x60200, 0, 0, 8, 16, [⟨63, 0, .rc, .none⟩]⟩,
  ⟨0x60400, 0, 0, 8, 48, [⟨63, 0, .ro, .none⟩]⟩,
  ⟨0x60600, 0, 0, 8, 4, [⟨63, 0, .ro, .none⟩]⟩]

/-- The registers of the DBG block. -/
def regRowsDbg : List RegRow := [
  ⟨0x80000, 0, 0, 0, 0, [⟨8, 8, .rw1c, .none⟩, ⟨7, 7, .rw1c, .none⟩, ⟨6, 6, .ro, .none⟩, ⟨5, 5, .ro, .none⟩, ⟨4, 4, .ro, .none⟩, ⟨3, 3, .ro, .none⟩, ⟨2, 2, .ro, .none⟩, ⟨1, 1, .ro, .none⟩, ⟨0, 0, .rw1c, .none⟩]⟩,
  ⟨0x80008, 0, 0, 0, 0, [⟨55, 0, .rw, .s⟩]⟩,
  ⟨0x80010, 0, 0, 0, 0, [⟨32, 0, .rw, .s⟩]⟩,
  ⟨0x80018, 0, 0, 0, 0, [⟨63, 63, .rw, .l⟩, ⟨19, 0, .rw, .l⟩]⟩,
  ⟨0x80020, 0, 0, 0, 0, [⟨31, 0, .ro, .none⟩]⟩,
  ⟨0x80028, 0, 0, 0, 0, [⟨31, 0, .rw, .l⟩]⟩,
  ⟨0x80030, 0, 0, 0, 0, [⟨31, 0, .rc, .none⟩]⟩,
  ⟨0x80038, 0, 0, 8, 4, [⟨63, 0, .rw, .l⟩]⟩,
  ⟨0x80100, 0, 0, 0, 0, [⟨55, 0, .rw, .s⟩]⟩,
  ⟨0x80108, 0, 0, 0, 0, [⟨5, 0, .rw, .s⟩]⟩,
  ⟨0x80110, 0, 0, 0, 0, [⟨63, 32, .rw, .l⟩, ⟨15, 8, .rw, .l⟩, ⟨1, 0, .rw, .l⟩]⟩,
  ⟨0x80118, 0, 0, 0, 0, [⟨15, 0, .rw, .l⟩]⟩,
  ⟨0x80120, 0, 0, 0, 0, [⟨1, 0, .wo, .l⟩]⟩,
  ⟨0x80128, 0, 0, 0, 0, [⟨31, 0, .ro, .none⟩]⟩,
  ⟨0x80130, 0, 0, 0, 0, [⟨63, 0, .rc, .none⟩]⟩,
  ⟨0x80138, 0, 0, 0, 0, [⟨15, 0, .rw, .l⟩]⟩,
  ⟨0x80140, 0, 0, 0, 0, [⟨63, 0, .ro, .none⟩]⟩,
  ⟨0x80200, 0, 0, 0, 0, [⟨55, 0, .rw, .l⟩]⟩,
  ⟨0x80208, 0, 0, 0, 0, [⟨0, 0, .wo, .l⟩, ⟨1, 1, .rw, .l⟩, ⟨11, 8, .rw, .l⟩]⟩,
  ⟨0x80210, 0, 0, 0, 0, [⟨31, 0, .rc, .none⟩]⟩,
  ⟨0x80300, 0, 0, 0, 0, [⟨55, 0, .rw, .l⟩]⟩,
  ⟨0x80308, 0, 0, 0, 0, [⟨63, 0, .rw, .l⟩]⟩,
  ⟨0x80310, 0, 0, 0, 0, [⟨1, 0, .rw1c, .none⟩]⟩,
  ⟨0x80400, 0, 0, 0, 0, [⟨15, 0, .rw1c, .none⟩]⟩,
  ⟨0x81000, 0, 0, 64, 16, [⟨31, 0, .rw, .l⟩]⟩,
  ⟨0x81008, 0, 0, 64, 16, [⟨63, 0, .rw, .l⟩]⟩,
  ⟨0x81010, 0, 0, 64, 16, [⟨55, 0, .rw, .l⟩]⟩,
  ⟨0x81018, 0, 0, 64, 16, [⟨63, 50, .rw, .l⟩, ⟨47, 44, .rw, .l⟩, ⟨39, 0, .rw, .l⟩]⟩,
  ⟨0x90000, 0, 0, 256, 214, [⟨0, 0, .rw, .l⟩, ⟨1, 1, .wo, .l⟩]⟩,
  ⟨0x90008, 256, 214, 8, 4, [⟨63, 0, .rw, .l⟩]⟩,
  ⟨0x90040, 256, 214, 8, 8, [⟨47, 0, .ro, .none⟩]⟩,
  ⟨0x90080, 256, 214, 8, 16, [⟨47, 0, .ro, .none⟩]⟩]

/-- The registers of the DBGSEM block. -/
def regRowsDbgsem : List RegRow := [
  ⟨0x8F000, 0, 0, 0, 0, [⟨15, 0, .rw, .l⟩]⟩,
  ⟨0x8F008, 0, 0, 0, 0, [⟨31, 0, .ro, .none⟩]⟩,
  ⟨0x8F010, 0, 0, 0, 0, [⟨39, 0, .ro, .none⟩]⟩,
  ⟨0x8F018, 0, 0, 0, 0, [⟨0, 0, .rw1c, .none⟩]⟩,
  ⟨0x8F020, 0, 0, 0, 0, [⟨31, 0, .rc, .none⟩]⟩,
  ⟨0x8F028, 0, 0, 0, 0, [⟨31, 0, .rc, .none⟩]⟩,
  ⟨0x8F030, 0, 0, 0, 0, [⟨31, 0, .rc, .none⟩]⟩,
  ⟨0x8F038, 0, 0, 0, 0, [⟨31, 0, .rc, .none⟩]⟩,
  ⟨0x8F040, 0, 0, 0, 0, [⟨31, 0, .rc, .none⟩]⟩,
  ⟨0x8F048, 0, 0, 0, 0, [⟨63, 63, .rw1c, .none⟩, ⟨61, 0, .ro, .none⟩]⟩,
  ⟨0x8F100, 0, 0, 16, 64, [⟨63, 63, .ro, .none⟩, ⟨62, 61, .ro, .none⟩, ⟨60, 49, .ro, .none⟩, ⟨48, 35, .ro, .none⟩, ⟨34, 0, .ro, .none⟩]⟩,
  ⟨0x8F108, 0, 0, 16, 64, [⟨47, 0, .ro, .none⟩]⟩]

/-- The registers of the DSP block. -/
def regRowsDsp : List RegRow := [
  ⟨0x100000, 0, 0, 0, 0, [⟨23, 16, .ro, .none⟩, ⟨4, 4, .rw1c, .none⟩, ⟨3, 3, .rw1c, .none⟩, ⟨2, 2, .ro, .none⟩, ⟨1, 1, .ro, .none⟩, ⟨0, 0, .ro, .none⟩]⟩,
  ⟨0x100008, 0, 0, 0, 0, [⟨0, 0, .rw, .l⟩]⟩,
  ⟨0x100010, 0, 0, 0, 0, [⟨55, 0, .rw, .s⟩]⟩,
  ⟨0x100018, 0, 0, 0, 0, [⟨55, 0, .rw, .s⟩]⟩,
  ⟨0x100020, 0, 0, 0, 0, [⟨16, 0, .rw, .s⟩]⟩,
  ⟨0x100028, 0, 0, 0, 0, [⟨16, 0, .ro, .none⟩]⟩,
  ⟨0x100030, 0, 0, 0, 0, [⟨31, 0, .rw, .b⟩]⟩,
  ⟨0x100038, 0, 0, 0, 0, [⟨11, 0, .rw, .l⟩]⟩,
  ⟨0x100040, 0, 0, 0, 0, [⟨63, 62, .ro, .none⟩, ⟨61, 56, .ro, .none⟩, ⟨55, 53, .ro, .none⟩, ⟨45, 32, .ro, .none⟩, ⟨31, 16, .ro, .none⟩, ⟨15, 0, .ro, .none⟩]⟩,
  ⟨0x100048, 0, 0, 0, 0, [⟨63, 0, .ro, .none⟩]⟩,
  ⟨0x100050, 0, 0, 0, 0, [⟨63, 0, .ro, .none⟩]⟩,
  ⟨0x100058, 0, 0, 0, 0, [⟨63, 0, .ro, .none⟩]⟩,
  ⟨0x100060, 0, 0, 0, 0, [⟨31, 0, .rc, .none⟩]⟩,
  ⟨0x100068, 0, 0, 0, 0, [⟨55, 0, .ro, .none⟩]⟩,
  ⟨0x100100, 0, 0, 8, 8, [⟨15, 0, .rw, .s⟩]⟩,
  ⟨0x100140, 0, 0, 8, 8, [⟨63, 0, .ro, .none⟩]⟩,
  ⟨0x100200, 0, 0, 0, 0, [⟨63, 0, .ro, .none⟩]⟩,
  ⟨0x100208, 0, 0, 0, 0, [⟨63, 0, .rw, .l⟩]⟩,
  ⟨0x100210, 0, 0, 0, 0, [⟨63, 0, .ro, .none⟩]⟩,
  ⟨0x100218, 0, 0, 0, 0, [⟨12, 0, .ro, .none⟩]⟩]

/-- The registers of the SEQ block. -/
def regRowsSeq : List RegRow := [
  ⟨0x200800, 65536, 16, 0, 0, [⟨31, 0, .rw, .b⟩]⟩,
  ⟨0x200808, 65536, 16, 0, 0, [⟨31, 0, .rw, .b⟩]⟩,
  ⟨0x200810, 65536, 16, 0, 0, [⟨31, 0, .rc, .none⟩]⟩,
  ⟨0x200818, 65536, 16, 0, 0, [⟨63, 63, .rw1c, .none⟩, ⟨62, 61, .ro, .none⟩, ⟨60, 53, .ro, .none⟩, ⟨52, 47, .ro, .none⟩, ⟨46, 43, .ro, .none⟩, ⟨39, 0, .ro, .none⟩]⟩]

/-- The registers of the QUE block. -/
def regRowsQue : List RegRow := [
  ⟨0x400000, 256, 16384, 0, 0, [⟨63, 63, .rw, .l⟩, ⟨62, 62, .rw, .s⟩, ⟨61, 61, .rw, .s⟩, ⟨60, 60, .rw, .s⟩, ⟨59, 59, .rw, .s⟩, ⟨58, 48, .rw, .s⟩, ⟨37, 32, .rw, .s⟩, ⟨28, 24, .rw, .s⟩, ⟨20, 16, .rw, .s⟩, ⟨6, 0, .rw, .s⟩]⟩,
  ⟨0x400008, 256, 16384, 0, 0, [⟨63, 0, .rw, .s⟩]⟩,
  ⟨0x400010, 256, 16384, 0, 0, [⟨63, 0, .rw, .s⟩]⟩,
  ⟨0x400018, 256, 16384, 0, 0, [⟨63, 0, .rw, .b⟩]⟩,
  ⟨0x400020, 256, 16384, 0, 0, [⟨31, 0, .rw, .b⟩]⟩,
  ⟨0x400028, 256, 16384, 0, 0, [⟨15, 0, .ro, .none⟩]⟩,
  ⟨0x400030, 256, 16384, 0, 0, [⟨15, 0, .ro, .none⟩]⟩,
  ⟨0x400038, 256, 16384, 0, 0, [⟨16, 0, .ro, .none⟩]⟩,
  ⟨0x400040, 256, 16384, 0, 0, [⟨15, 0, .rw, .l⟩]⟩,
  ⟨0x400048, 256, 16384, 0, 0, [⟨7, 7, .rw1c, .none⟩, ⟨6, 6, .rw1c, .none⟩, ⟨5, 5, .rw1c, .none⟩, ⟨4, 4, .rw1c, .none⟩, ⟨3, 3, .ro, .none⟩, ⟨2, 2, .ro, .none⟩, ⟨1, 1, .ro, .none⟩, ⟨0, 0, .ro, .none⟩]⟩,
  ⟨0x400050, 256, 16384, 0, 0, [⟨6, 0, .ro, .none⟩]⟩,
  ⟨0x400058, 256, 16384, 0, 0, [⟨63, 0, .ro, .none⟩]⟩,
  ⟨0x400060, 256, 16384, 0, 0, [⟨31, 0, .ro, .none⟩]⟩]

/-- The registers of the CTX block. -/
def regRowsCtx : List RegRow := [
  ⟨0x800000, 512, 4096, 0, 0, [⟨63, 62, .rw, .l⟩, ⟨61, 56, .rw, .s⟩, ⟨15, 0, .rw, .l⟩]⟩,
  ⟨0x800008, 512, 4096, 0, 0, [⟨4, 4, .ro, .none⟩, ⟨3, 3, .ro, .none⟩, ⟨2, 2, .rw1c, .none⟩, ⟨1, 1, .ro, .none⟩, ⟨0, 0, .rw1c, .none⟩]⟩,
  ⟨0x800010, 512, 4096, 0, 0, [⟨63, 0, .rw, .b⟩]⟩,
  ⟨0x800018, 512, 4096, 0, 0, [⟨63, 0, .ro, .none⟩]⟩,
  ⟨0x800020, 512, 4096, 0, 0, [⟨63, 0, .ro, .none⟩]⟩,
  ⟨0x800028, 512, 4096, 0, 0, [⟨63, 0, .ro, .none⟩]⟩,
  ⟨0x800030, 512, 4096, 0, 0, [⟨63, 0, .ro, .none⟩]⟩,
  ⟨0x800038, 512, 4096, 0, 0, [⟨63, 0, .ro, .none⟩]⟩,
  ⟨0x800040, 512, 4096, 0, 0, [⟨63, 0, .ro, .none⟩]⟩,
  ⟨0x800048, 512, 4096, 0, 0, [⟨7, 0, .ro, .none⟩]⟩,
  ⟨0x800050, 512, 4096, 0, 0, [⟨0, 0, .wo, .l⟩]⟩,
  ⟨0x800058, 512, 4096, 0, 0, [⟨35, 0, .ro, .none⟩]⟩,
  ⟨0x800060, 512, 4096, 0, 0, [⟨26, 0, .ro, .none⟩]⟩,
  ⟨0x800068, 512, 4096, 0, 0, [⟨17, 0, .ro, .none⟩]⟩,
  ⟨0x800080, 512, 4096, 0, 0, [⟨63, 0, .ro, .none⟩]⟩,
  ⟨0x800088, 512, 4096, 0, 0, [⟨31, 0, .ro, .none⟩]⟩,
  ⟨0x800090, 512, 4096, 0, 0, [⟨31, 0, .ro, .none⟩]⟩,
  ⟨0x800098, 512, 4096, 0, 0, [⟨16, 0, .ro, .none⟩]⟩,
  ⟨0x8000A0, 512, 4096, 0, 0, [⟨20, 0, .ro, .none⟩]⟩,
  ⟨0x8000A8, 512, 4096, 0, 0, [⟨31, 0, .ro, .none⟩]⟩,
  ⟨0x800100, 512, 4096, 0, 0, [⟨55, 0, .rw, .b⟩]⟩,
  ⟨0x800108, 512, 4096, 0, 0, [⟨63, 0, .rw, .b⟩]⟩,
  ⟨0x800110, 512, 4096, 0, 0, [⟨63, 0, .rw, .b⟩]⟩,
  ⟨0x800120, 512, 4096, 16, 8, [⟨47, 12, .rw, .b⟩]⟩,
  ⟨0x800128, 512, 4096, 16, 8, [⟨44, 44, .rw, .b⟩, ⟨43, 43, .rw, .b⟩, ⟨42, 42, .rw, .b⟩, ⟨41, 41, .rw, .b⟩, ⟨40, 40, .rw, .b⟩, ⟨39, 39, .rw, .b⟩, ⟨35, 0, .rw, .b⟩]⟩]

/-- The registers of the SEM block. -/
def regRowsSem : List RegRow := [
  ⟨0xA00000, 32, 65536, 0, 0, [⟨63, 62, .rw, .l⟩, ⟨61, 61, .rw, .l⟩, ⟨60, 60, .rw1c, .l⟩, ⟨59, 54, .ro, .none⟩, ⟨53, 42, .rw, .l⟩, ⟨30, 16, .ro, .none⟩]⟩,
  ⟨0xA00008, 32, 65536, 0, 0, [⟨47, 0, .rw, .l⟩]⟩,
  ⟨0xA00010, 32, 65536, 0, 0, [⟨63, 61, .ro, .none⟩, ⟨60, 49, .ro, .none⟩, ⟨48, 35, .ro, .none⟩, ⟨34, 27, .ro, .none⟩, ⟨26, 0, .ro, .none⟩]⟩,
  ⟨0xA00018, 32, 65536, 0, 0, [⟨63, 0, .ro, .none⟩]⟩]

/-- The registers of the TRN block. -/
def regRowsTrn : List RegRow := [
  ⟨0xC00000, 0, 0, 0, 0, [⟨1, 1, .ro, .s⟩, ⟨0, 0, .rw, .s⟩]⟩,
  ⟨0xC00008, 0, 0, 0, 0, [⟨7, 7, .ro, .none⟩, ⟨3, 3, .ro, .none⟩, ⟨2, 2, .rw1c, .none⟩, ⟨1, 1, .rw1c, .none⟩, ⟨0, 0, .rw1c, .none⟩]⟩,
  ⟨0xC00010, 0, 0, 0, 0, [⟨55, 0, .rw, .s⟩]⟩,
  ⟨0xC00018, 0, 0, 0, 0, [⟨63, 0, .rw, .s⟩]⟩,
  ⟨0xC00020, 0, 0, 0, 0, [⟨12, 0, .rw, .l⟩]⟩,
  ⟨0xC00028, 0, 0, 0, 0, [⟨47, 0, .rw, .l⟩]⟩,
  ⟨0xC00030, 0, 0, 0, 0, [⟨35, 0, .rw, .l⟩]⟩,
  ⟨0xC00038, 0, 0, 0, 0, [⟨0, 0, .wo, .l⟩]⟩,
  ⟨0xC00040, 0, 0, 8, 3, [⟨63, 63, .rw1c, .none⟩, ⟨62, 59, .ro, .none⟩, ⟨58, 56, .ro, .none⟩, ⟨55, 44, .ro, .none⟩, ⟨43, 42, .ro, .none⟩, ⟨39, 0, .ro, .none⟩]⟩,
  ⟨0xC00058, 0, 0, 8, 3, [⟨47, 0, .ro, .none⟩]⟩,
  ⟨0xC00070, 0, 0, 8, 3, [⟨63, 0, .rc, .none⟩]⟩]

/-- The registers of the CCH block. -/
def regRowsCch : List RegRow := [
  ⟨0xD00000, 0, 0, 0, 0, [⟨2, 2, .rw1c, .none⟩, ⟨1, 1, .rw1c, .none⟩, ⟨0, 0, .ro, .none⟩]⟩,
  ⟨0xD00008, 0, 0, 0, 0, [⟨23, 20, .wo, .l⟩, ⟨19, 10, .wo, .l⟩, ⟨9, 5, .wo, .l⟩, ⟨4, 4, .wo, .l⟩, ⟨3, 3, .wo, .l⟩, ⟨2, 1, .wo, .l⟩, ⟨0, 0, .wo, .l⟩]⟩,
  ⟨0xD00010, 0, 0, 0, 0, [⟨63, 0, .rc, .none⟩]⟩,
  ⟨0xD00100, 0, 0, 8, 16, [⟨15, 0, .rw, .l⟩]⟩,
  ⟨0xD00200, 0, 0, 8, 64, [⟨15, 0, .ro, .none⟩]⟩,
  ⟨0xD00400, 0, 0, 8, 2, [⟨63, 0, .rc, .none⟩]⟩,
  ⟨0xD00410, 0, 0, 8, 2, [⟨63, 0, .rc, .none⟩]⟩,
  ⟨0xD01000, 0, 0, 64, 64, [⟨11, 0, .rw, .l⟩]⟩,
  ⟨0xD01008, 0, 0, 64, 64, [⟨47, 0, .rw, .l⟩]⟩,
  ⟨0xD01010, 0, 0, 64, 64, [⟨47, 0, .rw, .l⟩]⟩,
  ⟨0xD01018, 0, 0, 64, 64, [⟨3, 0, .wo, .l⟩]⟩,
  ⟨0xD01020, 0, 0, 64, 64, [⟨3, 3, .rw1c, .none⟩, ⟨2, 2, .rw1c, .none⟩, ⟨1, 1, .rw1c, .none⟩, ⟨0, 0, .ro, .none⟩]⟩]

/-- The registers of the MEM block. -/
def regRowsMem : List RegRow := [
  ⟨0xE00000, 0, 0, 0, 0, [⟨1, 1, .rw1c, .none⟩, ⟨0, 0, .rw1c, .none⟩]⟩,
  ⟨0xE00008, 0, 0, 0, 0, [⟨31, 0, .rc, .none⟩]⟩,
  ⟨0xE00010, 0, 0, 0, 0, [⟨63, 0, .rc, .none⟩]⟩,
  ⟨0xE00018, 0, 0, 0, 0, [⟨63, 63, .rw1c, .none⟩, ⟨62, 60, .ro, .none⟩, ⟨59, 52, .ro, .none⟩, ⟨51, 40, .ro, .none⟩, ⟨39, 0, .ro, .none⟩]⟩,
  ⟨0xE00020, 0, 0, 0, 0, [⟨15, 0, .ro, .none⟩]⟩,
  ⟨0xE00100, 0, 0, 8, 8, [⟨15, 0, .ro, .none⟩]⟩,
  ⟨0xE00140, 0, 0, 8, 8, [⟨31, 0, .ro, .none⟩]⟩,
  ⟨0xE00180, 0, 0, 8, 8, [⟨15, 0, .ro, .none⟩]⟩,
  ⟨0xE01000, 0, 0, 8, 256, [⟨31, 0, .ro, .none⟩]⟩]

/-- The registers of the PTS block. -/
def regRowsPts : List RegRow := [
  ⟨0xF00000, 0, 0, 256, 16, [⟨31, 31, .rw1c, .none⟩, ⟨30, 30, .rw1c, .none⟩, ⟨15, 15, .ro, .none⟩, ⟨9, 0, .ro, .none⟩]⟩,
  ⟨0xF00008, 0, 0, 256, 16, [⟨63, 0, .ro, .none⟩]⟩,
  ⟨0xF02000, 0, 0, 0, 0, [⟨55, 0, .rw, .s⟩]⟩,
  ⟨0xF02008, 0, 0, 0, 0, [⟨63, 0, .ro, .none⟩]⟩,
  ⟨0xF02010, 0, 0, 0, 0, [⟨63, 0, .ro, .none⟩]⟩,
  ⟨0xF02018, 0, 0, 0, 0, [⟨63, 0, .ro, .none⟩]⟩,
  ⟨0xF02020, 0, 0, 0, 0, [⟨31, 0, .ro, .none⟩]⟩,
  ⟨0xF02028, 0, 0, 0, 0, [⟨63, 0, .ro, .none⟩]⟩,
  ⟨0xF10000, 0, 0, 64, 1024, [⟨63, 52, .rw, .b⟩, ⟨51, 51, .rw, .b⟩, ⟨50, 50, .rw, .b⟩, ⟨49, 48, .rw, .b⟩, ⟨47, 46, .rw, .b⟩, ⟨45, 38, .rw, .b⟩, ⟨37, 30, .rw, .b⟩, ⟨15, 0, .rw, .b⟩]⟩,
  ⟨0xF10008, 0, 0, 64, 1024, [⟨19, 0, .rw, .b⟩]⟩,
  ⟨0xF10010, 0, 0, 64, 1024, [⟨47, 0, .rw, .b⟩]⟩,
  ⟨0xF10018, 0, 0, 64, 1024, [⟨19, 0, .ro, .none⟩]⟩,
  ⟨0xF10020, 0, 0, 64, 1024, [⟨19, 0, .ro, .none⟩]⟩]

/-- The registers of the TKT block. -/
def regRowsTkt : List RegRow := [
  ⟨0x1000000, 0, 0, 0, 0, [⟨55, 0, .rw, .s⟩]⟩,
  ⟨0x1000008, 0, 0, 0, 0, [⟨55, 0, .rw, .s⟩]⟩,
  ⟨0x1000010, 0, 0, 0, 0, [⟨20, 0, .ro, .none⟩]⟩,
  ⟨0x1000018, 0, 0, 0, 0, [⟨63, 0, .ro, .none⟩]⟩,
  ⟨0x1000020, 0, 0, 0, 0, [⟨63, 0, .ro, .none⟩]⟩,
  ⟨0x1000028, 0, 0, 0, 0, [⟨31, 0, .rc, .none⟩]⟩,
  ⟨0x1000030, 0, 0, 0, 0, [⟨0, 0, .wo, .l⟩]⟩,
  ⟨0x1000038, 0, 0, 0, 0, [⟨0, 0, .rw1c, .none⟩]⟩]

/-- The registers of the MLN block. -/
def regRowsMln : List RegRow := [
  ⟨0x1100000, 0, 0, 0, 0, [⟨15, 15, .rw1c, .none⟩, ⟨14, 14, .rw1c, .none⟩, ⟨13, 13, .rw1c, .none⟩, ⟨12, 12, .rw1c, .none⟩, ⟨11, 11, .rw1c, .none⟩, ⟨2, 2, .ro, .none⟩, ⟨1, 1, .ro, .none⟩, ⟨0, 0, .ro, .none⟩]⟩,
  ⟨0x1100008, 0, 0, 0, 0, [⟨47, 0, .ro, .none⟩]⟩,
  ⟨0x1100010, 0, 0, 0, 0, [⟨63, 0, .ro, .none⟩]⟩,
  ⟨0x1100018, 0, 0, 0, 0, [⟨11, 0, .ro, .none⟩]⟩,
  ⟨0x1100020, 0, 0, 8, 4, [⟨63, 0, .ro, .none⟩]⟩,
  ⟨0x1100040, 0, 0, 0, 0, [⟨63, 63, .rw1c, .none⟩, ⟨62, 0, .ro, .none⟩]⟩,
  ⟨0x1100048, 0, 0, 0, 0, [⟨31, 0, .rc, .none⟩]⟩,
  ⟨0x1100050, 0, 0, 0, 0, [⟨31, 0, .rc, .none⟩]⟩,
  ⟨0x1100058, 0, 0, 0, 0, [⟨31, 0, .rc, .none⟩]⟩,
  ⟨0x1100060, 0, 0, 0, 0, [⟨31, 0, .rc, .none⟩]⟩,
  ⟨0x1100068, 0, 0, 0, 0, [⟨11, 0, .rw, .l⟩]⟩,
  ⟨0x1100070, 0, 0, 0, 0, [⟨63, 62, .ro, .none⟩, ⟨61, 58, .ro, .none⟩, ⟨57, 50, .ro, .none⟩, ⟨49, 42, .ro, .none⟩, ⟨41, 29, .ro, .none⟩, ⟨28, 25, .ro, .none⟩, ⟨24, 21, .ro, .none⟩, ⟨15, 0, .ro, .none⟩]⟩,
  ⟨0x1100100, 0, 0, 64, 8, [⟨1, 0, .rw, .s⟩]⟩,
  ⟨0x1100108, 0, 0, 64, 8, [⟨23, 16, .ro, .none⟩, ⟨11, 8, .ro, .none⟩, ⟨5, 5, .ro, .none⟩, ⟨4, 4, .ro, .none⟩, ⟨3, 0, .ro, .none⟩]⟩,
  ⟨0x1100110, 0, 0, 64, 8, [⟨31, 0, .rc, .none⟩]⟩,
  ⟨0x1100118, 0, 0, 64, 8, [⟨31, 0, .rc, .none⟩]⟩,
  ⟨0x1100120, 0, 0, 64, 8, [⟨31, 0, .rc, .none⟩]⟩,
  ⟨0x1100300, 0, 0, 8, 64, [⟨15, 0, .ro, .none⟩]⟩,
  ⟨0x1100500, 0, 0, 8, 20, [⟨63, 0, .ro, .none⟩]⟩,
  ⟨0x1100600, 0, 0, 8, 64, [⟨47, 12, .rw, .b⟩]⟩,
  ⟨0x1100800, 0, 0, 8, 64, [⟨48, 48, .rw, .b⟩, ⟨47, 47, .rw, .b⟩, ⟨46, 46, .rw, .b⟩, ⟨45, 40, .rw, .b⟩, ⟨35, 0, .rw, .b⟩]⟩]

/-- The registers of the ETH block. -/
def regRowsEth : List RegRow := [
  ⟨0x1200000, 0, 0, 0, 0, [⟨2, 2, .rw1c, .none⟩, ⟨4, 4, .rw1c, .none⟩, ⟨1, 0, .ro, .none⟩, ⟨3, 3, .ro, .none⟩, ⟨9, 8, .ro, .none⟩]⟩,
  ⟨0x1200008, 0, 0, 0, 0, [⟨0, 0, .rw, .l⟩]⟩,
  ⟨0x1200010, 0, 0, 0, 0, [⟨55, 0, .rw, .s⟩]⟩,
  ⟨0x1200018, 0, 0, 0, 0, [⟨55, 0, .rw, .s⟩]⟩,
  ⟨0x1200020, 0, 0, 0, 0, [⟨16, 0, .wo, .l⟩]⟩,
  ⟨0x1200028, 0, 0, 0, 0, [⟨31, 0, .rc, .none⟩]⟩,
  ⟨0x1200030, 0, 0, 0, 0, [⟨31, 0, .rc, .none⟩]⟩,
  ⟨0x1200038, 0, 0, 0, 0, [⟨31, 0, .rc, .none⟩]⟩,
  ⟨0x1200100, 0, 0, 256, 2, [⟨63, 58, .rw, .s⟩, ⟨56, 55, .ro, .s⟩, ⟨50, 48, .rw, .s⟩, ⟨47, 40, .rw, .s⟩]⟩,
  ⟨0x1200108, 0, 0, 256, 2, [⟨47, 0, .ro, .none⟩]⟩,
  ⟨0x1200110, 0, 0, 256, 2, [⟨31, 0, .rc, .none⟩]⟩,
  ⟨0x1200118, 0, 0, 256, 2, [⟨63, 0, .rc, .none⟩]⟩,
  ⟨0x1200120, 0, 0, 256, 2, [⟨63, 0, .rc, .none⟩]⟩,
  ⟨0x1200400, 0, 0, 32, 32, [⟨63, 0, .rw, .b⟩]⟩,
  ⟨0x1200408, 0, 0, 32, 32, [⟨63, 0, .rw, .b⟩]⟩,
  ⟨0x1200410, 0, 0, 32, 32, [⟨31, 31, .rw, .b⟩, ⟨29, 24, .rw, .b⟩, ⟨12, 0, .rw, .b⟩]⟩,
  ⟨0x1210000, 0, 0, 16, 4096, [⟨1, 0, .wo, .l⟩]⟩,
  ⟨0x1210008, 0, 0, 16, 4096, [⟨63, 0, .ro, .none⟩]⟩,
  ⟨0x1220000, 0, 0, 16, 4096, [⟨31, 0, .wo, .l⟩]⟩]

/-- The registers of the PCI block. -/
def regRowsPci : List RegRow := [
  ⟨0x1400000, 0, 0, 0, 0, [⟨23, 16, .ro, .none⟩, ⟨15, 12, .ro, .none⟩, ⟨11, 11, .ro, .none⟩, ⟨10, 10, .ro, .none⟩, ⟨0, 0, .rw1c, .none⟩]⟩,
  ⟨0x1400008, 0, 0, 0, 0, [⟨55, 0, .rw, .l⟩]⟩,
  ⟨0x1400010, 0, 0, 0, 0, [⟨8, 7, .rw, .l⟩, ⟨5, 0, .rw, .l⟩]⟩,
  ⟨0x1400018, 0, 0, 0, 0, [⟨31, 0, .rc, .none⟩]⟩,
  ⟨0x1400020, 0, 0, 0, 0, [⟨31, 0, .rc, .none⟩]⟩,
  ⟨0x1400028, 0, 0, 0, 0, [⟨31, 0, .rc, .none⟩]⟩,
  ⟨0x1401000, 0, 0, 64, 64, [⟨15, 0, .rw1c, .none⟩]⟩,
  ⟨0x1401008, 0, 0, 64, 64, [⟨63, 63, .rw1c, .none⟩, ⟨62, 60, .ro, .none⟩, ⟨59, 56, .ro, .none⟩, ⟨55, 44, .ro, .none⟩, ⟨39, 0, .ro, .none⟩]⟩,
  ⟨0x1401010, 0, 0, 64, 64, [⟨63, 0, .ro, .none⟩]⟩,
  ⟨0x1401018, 0, 0, 64, 64, [⟨31, 0, .rc, .none⟩]⟩]

/-- The MSI-X table and pending-bit array of the function that reads (R483). -/
def regRowsMsix : List RegRow := [
  ⟨0x1500000, 0, 0, 8, 4096, [⟨63, 0, .rw, .l⟩]⟩,
  ⟨0x1508000, 0, 0, 8, 32, [⟨63, 0, .ro, .none⟩]⟩]

/-- The registers of the CORE block. -/
def regRowsCore : List RegRow := [
  ⟨0x1800000, 32768, 192, 8, 64, [⟨63, 0, .ro, .none⟩]⟩,
  ⟨0x1800400, 32768, 192, 0, 0, [⟨47, 40, .ro, .none⟩, ⟨39, 32, .ro, .none⟩, ⟨23, 23, .ro, .none⟩, ⟨22, 20, .ro, .none⟩, ⟨19, 16, .ro, .none⟩, ⟨11, 8, .ro, .none⟩, ⟨7, 4, .ro, .none⟩]⟩,
  ⟨0x1800408, 32768, 192, 0, 0, [⟨63, 0, .ro, .none⟩]⟩,
  ⟨0x1800410, 32768, 192, 0, 0, [⟨63, 0, .ro, .none⟩]⟩,
  ⟨0x1800418, 32768, 192, 0, 0, [⟨63, 0, .ro, .none⟩]⟩,
  ⟨0x1800420, 32768, 192, 0, 0, [⟨63, 0, .ro, .none⟩]⟩,
  ⟨0x1800428, 32768, 192, 0, 0, [⟨63, 0, .ro, .none⟩]⟩,
  ⟨0x1800430, 32768, 192, 0, 0, [⟨63, 0, .ro, .none⟩]⟩,
  ⟨0x1800438, 32768, 192, 0, 0, [⟨63, 0, .ro, .none⟩]⟩,
  ⟨0x1800440, 32768, 192, 0, 0, [⟨63, 0, .ro, .none⟩]⟩,
  ⟨0x1800448, 32768, 192, 0, 0, [⟨63, 0, .ro, .none⟩]⟩,
  ⟨0x1800450, 32768, 192, 0, 0, [⟨63, 0, .ro, .none⟩]⟩]

/-- Every register of the part. -/
def regTable : List RegRow :=
  regRowsGlb ++ regRowsCon ++ regRowsClk ++ regRowsPwr ++ regRowsSec ++ regRowsMgt ++ regRowsRas ++ regRowsDbg ++ regRowsDbgsem ++ regRowsDsp ++
  regRowsSeq ++ regRowsQue ++ regRowsCtx ++ regRowsSem ++ regRowsTrn ++ regRowsCch ++ regRowsMem ++ regRowsPts ++ regRowsTkt ++
  regRowsMln ++ regRowsEth ++ regRowsPci ++ regRowsMsix ++ regRowsCore

/-- Does an array row hold a register at this offset? -/
def RegRow.covers (r : RegRow) (off : Nat) : Bool :=
  let d := off - r.base
  let inner (x : Nat) : Bool :=
    if r.c2 = 0 then decide (x = 0) else decide (x % r.s2 = 0) && decide (x / r.s2 < r.c2)
  decide (r.base ≤ off) &&
    (if r.c1 = 0 then inner d else decide (d / r.s1 < r.c1) && inner (d % r.s1))

/-- The register at an 8-byte aligned offset, if there is one. -/
def findReg (off : Nat) : Option RegRow := regTable.find? (fun r => r.covers off)

/-- Is `off` register number `i` of an array at `b`, stride `s`, count `c`? -/
def inArray (off b s c : Nat) : Bool :=
  decide (b ≤ off) && decide ((off - b) % s = 0) && decide ((off - b) / s < c)

/-- What a register reads at reset (the Reset column). Where the column names an image, a flash record, a fuse or a
policy, this is its value while nothing is loaded: log 2 names each. -/
def resetOf (off : Nat) : Word :=
  if off = R.glbIdentity then 0x9600A200
  else if off = R.conStatus then 0x0F000001
  else if off = R.conControl then 0x00000F00
  else if off = R.conStartSlot then 0xF
  else if off = R.conQuiesceLimit then 100000
  else if off = R.clkStatus then 0x70
  else if off = R.clkDividers then 0x0014080808050404
  else if off = R.pwrGateIdle then 50
  else if off = R.pwrResetCause then 1
  else if off = R.mgtEolWarn then 180
  else if off = R.dbgSurveyCtl then 0x302
  else if off = R.dspBorrowLimit then 200
  else if off = R.dspStatus then 2
  else if off = R.dspShareLag then 0x40000000
  else if off = R.ethStatus then 1
  else if inArray off (R.seqBarGuard 0) 0x10000 16 then 0x01000000
  else if inArray off (R.seqLockGuard 0) 0x10000 16 then 0x00010000
  else if inArray off (R.queCqTail 0) 0x100 16384 then 0x10000
  else if inArray off (R.queStatus 0) 0x100 16384 then 2
  else if inArray off (R.memSpareLeft 0) 8 8 then 2048
  else 0

end Sys2Proof.Machine
end

