-- ==== Sys2Proof/Machine/SemState.lean ====
section
/-! DEFINITION. What the semaphore store holds beyond its registers (spec 11). -/

namespace Sys2Proof.Machine

/-- A waiter (R427, R439): 0 group, 1 dispatch thread, 2 WAIT entry; its context; core × 64 + slot, thread number, or
command number; the count it awaits, since when, and the register its status goes to. -/
structure Waiter where
  kind : Nat
  ctx : Nat
  place : Nat
  count : Nat
  since : Nat
  dest : Nat
  deriving DecidableEq, Repr

/-- A snapshot of a semaphore (R438): its SEM_CFG, SEM_VALUE, SEM_LAST, SEM_LAST_COOKIE, last-signal time, waiters in all, and the first 64
of them, each with its word of R439 and the count it awaits. -/
structure SemSnap where
  cfg : Word
  value : Word
  last : Word
  cookie : Word
  time : Nat
  total : Nat
  shown : List (Word × Nat)
  deriving DecidableEq, Repr

/-- Waiter lists, oldest first, the full time of the last signal, the semaphore whose snapshot is being taken, and the snapshot as it was
taken. -/
structure SemState where
  waiters : SMap (List Waiter)
  lastTime : SMap Nat
  snapping : Option Nat
  snap : SemSnap
  deriving DecidableEq, Repr

end Sys2Proof.Machine
end

