-- ==== Sys2Proof/Machine/State.lean ====
section
/-! DEFINITION. The state of the KZ9600 as plain data, its reset, and the names under which a command may stop. -/

namespace Sys2Proof.Machine

/-- Faults of the model: states in which the part is given no way on. None is raised today: every command has an effect
the spec states, a refusal of the hardware among them. -/
inductive Fault where
  /-- Raised by no command; kept so that the interface has a name to stop with. Safe. -/
  | stuck
  deriving DecidableEq, Repr

/-- Refusals of the model. -/
inductive Refusal where
  /-- Raised by an arm of `exec` whose row has no meaning yet, with the row's mnemonic. Safe. -/
  | notModelled (mnemonic : String)
  deriving DecidableEq, Repr

/-- Everything the spec gives the module. `pending` is the queue of commands that wait, first in first out;
`freeCount` counts the free values used (the model's own field, log 1); `out` is what the part sent, newest first. -/
structure State where
  pending : List Instr
  freeCount : Nat
  out : List Out
  regs : SMap Word
  force : SMap Word
  mem : MemSys
  trn : TrnState
  cores : SMap Core
  pts : PtsState
  dsp : Dsp
  pci : PciState
  con : Consist
  sem : SemState
  dbg : DbgState
  ras : RasState
  mln : MlnState
  eth : EthState
  boot : Boot
  pwr : PwrState
  sec : SecState
  mgt : MgtState
  tap : Tap
  deriving DecidableEq, Repr

/-- Empty memory, caches and key generations. -/
def memReset : MemSys := { dram := [], key := [], poison := [], l2 := [], clock := 0, gen := [], fenced := [], events := [], cut := 0, tally := [] }

/-- Empty TLBs and walk caches. -/
def trnReset : TrnState := { cluster := [], hub := [], walk := [], inval := none, views := [], nextView := 1 }

/-- Points units and ticket cache without work. -/
def ptsReset : PtsState := { units := [], steps := [], copies := [], copyDrops := [], tickets := [], clock := 0 }

/-- A dispatcher without work. -/
def dspReset : Dsp := {
  launches := [], nextLaunch := 1, nextOrder := 1, cmds := [], nextCmd := 1, threads := [], copies := [], nextCopy := 1,
  slots := [], queues := [], retiring := [], vfrac := [], eligibleT := [], eligibleL := [], doneAhead := [],
  patching := [], nextGrant := 1, served := [], rotation := [], draining := false, tableSet := false, poolSet := false }

/-- A host link with the physical function alone. -/
def pciReset : PciState := {
  numVfs := 0, vfEnable := false, d3 := [], table := [], pend := [], msixOn := [], msixMask := [], reqs := [],
  nextTag := 0, hostData := none, flr := [], timeout := [], aer := 0 }

/-- No consist. -/
def conReset : Consist := {
  node := 0, meshW := 0, meshH := 0, split := [], queTimeout := 0, pfVectors := 2, vfVectors := 0, seeds := [],
  totalVfs := 0, base := [], baseLen := 0, next := none, asked := 0, reqSlot := 0xF, reqMem := false, reqAddr := 0, reqLen := 0,
  quiet := false, policy := 0, permit := false, accepted := [],
  scrubHours := 24, barGuard := 0x01000000 }

/-- No waiters. -/
def semReset : SemState := { waiters := [], lastTime := [], snapping := none, snap := ⟨0, 0, 0, 0, 0, 0, []⟩ }

/-- No samples, trace or surveys. -/
def dbgReset : DbgState := {
  postLeft := none, traceFilled := false, fillLost := 0, survey := none, surveyWho := 0, frozen := none, owners := [], past := [], sat := [], cycBase := [], mxBase := [], dumps := [],
  sampleSeq := 0, surveyTime := 0, surveySeq := 0, latched := false }

/-- No error counted. -/
def rasReset : RasState := { events := [], ledgers := [], lanesOut := [], sparing := [], snap := none }

/-- Mainline without timetable or traffic. -/
def mlnReset : MlnState := {
  unacked := [], nextSeq := [], expect := [], performed := [], refused := [], needReset := [], leaving := [], hold := [],
  reads := [], nextTag := 0, links := [], peers := [], epochs := [], slot := 0, frameAt := 0, replays := [], retraining := [], taken := [], owed := [], turns := [], flows := [],
  slotMap := [], windows := [], pending := none, impaired := [], used := 0, lostSlots := 0 }

/-- Ethernet without queue pairs. -/
def ethReset : EthState := { qps := [], regions := [], invalidating := none, paused := [], ignored := [], cnpAt := [] }

/-- A module without power. PERST# is held low by its pull-down (R664). -/
def bootReset : Boot := {
  power := false, main := false, converters := false, pll := 0, lossStart := false, perst := true, warm := none,
  waiting := false, stopped := false, drain := false, startWritten := false, made := false, trip := false, unit := none,
  straps := 0 }

/-- A power controller that has measured nothing. -/
def pwrReset : PwrState := {
  excursionW := 0, excursionUs := 0, dieW := 0, account := 0, above := 0, calm := [], dieOver := [], steps := [], raised := [],
  heat := [], cool := [], gated := [], lastBlock := [], recalFails := [], overrun := [] }

/-- A security engine before its first start. -/
def secReset : SecState := {
  fuses := { ochornRevoke := 0, ownerHash := [], ownerRevoke := 0, fwCount := 0, conCount := 0 }, ownerKeys := [],
  fwMeas := 0, baseMeas := 0, ovlMeas := 0, history := 0, nonce := none, token := [], checking := none,
  scopes := 0, until_ := 0, opened := 0, rekeying := none, spdm := [], fwVersion := 0, baseVersion := 0 }

/-- A management controller with an empty flash. -/
def mgtReset : MgtState := {
  flash := [], fwPref := 0, running := none, uptimeNs := 0, log := [], waiting := [], wear := [], wearHeld := none,
  rowDays := [], wayDays := [], ways := [], spares := [], rows := [], events := [], readings := [], utilBase := [],
  update := none }

/-- The machine at the start of a cold start from nothing: every register at its reset value, every memory empty, no consist
loaded, nothing in flight (log 2 names each value that the spec does not state). -/
def State.reset : State := {
  pending := []
  freeCount := 0
  out := []
  regs := []
  force := []
  mem := memReset
  trn := trnReset
  cores := []
  pts := ptsReset
  dsp := dspReset
  pci := pciReset
  con := conReset
  sem := semReset
  dbg := dbgReset
  ras := rasReset
  mln := mlnReset
  eth := ethReset
  boot := bootReset
  pwr := pwrReset
  sec := secReset
  mgt := mgtReset
  tap := { instr := .bypass, cells := 0, driving := false } }

/-- What a command answers. -/
abbrev Answer := Host.Outcome State Fault Refusal

end Sys2Proof.Machine
end

