-- ==== Sys2Proof/Machine/Ops.lean ====
section
/-! DEFINITION. The named operations over registers that every unit uses: reading and writing stored registers,
counters, first-event logs, time, free values, interrupt vectors (spec 00 R5 to R10, 02 R62, 13 R483, R484). -/

namespace Sys2Proof.Machine

/-- The stored contents of the register at BAR0 offset `off`. -/
def State.rd (s : State) (off : Nat) : Word := SMap.get (resetOf off) s.regs off

/-- Store a register's contents. -/
def State.wr (s : State) (off : Nat) (v : Word) : State := { s with regs := SMap.put (resetOf off) s.regs off v }

/-- Bits `hi:lo` of a stored register. -/
def State.fld (s : State) (off hi lo : Nat) : Nat := Machine.fld (s.rd off) hi lo

/-- One bit of a stored register. -/
def State.flag (s : State) (off i : Nat) : Bool := bit (s.rd off) i

/-- Replace bits `hi:lo` of a stored register. -/
def State.setFld (s : State) (off hi lo v : Nat) : State := s.wr off (Machine.setFld (s.rd off) hi lo v)

/-- Set one bit of a stored register. -/
def State.setFlag (s : State) (off i : Nat) : State := s.setFld off i i 1

/-- Clear one bit of a stored register. -/
def State.clrFlag (s : State) (off i : Nat) : State := s.setFld off i i 0

/-- Set or clear one bit of a stored register. -/
def State.putFlag (s : State) (off i : Nat) (b : Bool) : State := s.setFld off i i (if b then 1 else 0)

/-- The value in force of a B-class register (R9, R10): the last one adopted at a boundary. -/
def State.inForce (s : State) (off : Nat) : Word := SMap.get (s.rd off) s.force off

/-- Adopt the written value of a B-class register at its unit's boundary (R9). -/
def State.adopt (s : State) (off : Nat) : State := { s with force := s.force.filter (fun e => !decide (e.1 = off)) }

/-- Write a B-class register while its unit is not at a boundary: the old value stays in force (R10). -/
def State.wrLate (s : State) (off : Nat) (v : Word) : State :=
  let old := s.inForce off
  let t := s.wr off v
  { t with force := SMap.put v t.force off old }

/-- The timestamp count of R62. -/
def State.now (s : State) : Nat := (s.rd R.clkTsNow).toNat

/-- Bits 39:0 of the timestamp, as every log stores it. -/
def State.time40 (s : State) : Nat := s.now % 2 ^ 40

/-- Take a fresh free value (log 1). -/
def State.free (s : State) : Nat × State := (Config.free s.freeCount, { s with freeCount := s.freeCount + 1 })

/-- Take a fresh free value and drop it into a function of the state. -/
def State.withFree (s : State) (f : Nat → State → State) : State :=
  f (Config.free s.freeCount) { s with freeCount := s.freeCount + 1 }

/-- Count `k` events in a counter of `w` bits. Where the count would pass its width the spec gives no value: a free one
(log 1). -/
def State.count (s : State) (off w k : Nat) : State :=
  let n := (s.rd off).toNat + k
  if n < 2 ^ w then s.wr off (BitVec.ofNat 64 n)
  else s.withFree fun r t => t.wr off (BitVec.ofNat 64 (r % 2 ^ w))

/-- Add to a counter of 48 bits that saturates (R610), and say whether it did. -/
def State.countSat (s : State) (set off n : Nat) : State :=
  let v := (s.rd off).toNat + n
  if v < 2 ^ 48 then s.wr off (BitVec.ofNat 64 v)
  else { s.wr off (BitVec.ofNat 64 (2 ^ 48 - 1)) with dbg := { s.dbg with sat := SMap.put false s.dbg.sat set true } }

/-- Count `k` in a field of a register. Past its width the spec gives no value: a free one (log 1). -/
def State.countFld (s : State) (off hi lo k : Nat) : State :=
  let n := s.fld off hi lo + k
  if n < 2 ^ (hi + 1 - lo) then s.setFld off hi lo n else s.withFree fun r t => t.setFld off hi lo r

/-- Writes discarded by a reset or a drain (R637, R639): host and remote ones. -/
def State.resetLog (s : State) (host remote : Nat) : State :=
  let s := if host = 0 then s else s.countFld R.pwrResetLog 63 32 host
  if remote = 0 then s else s.countFld R.pwrResetLog 31 16 remote

/-- An event of a counter set happens `n` times (R610, R611): every programmable counter that its code selects counts it. -/
def State.hit (s : State) (set code n : Nat) : State :=
  (List.range 4).foldl (fun s j =>
    let w := s.rd (R.dbgEvsel set j)
    if w = 0 then s
    else (List.range 4).foldl (fun s i =>
      if Machine.fld w (16 * i + 15) (16 * i) = code then s.countSat set (R.dbgCtr set (4 * j + i)) n else s) s) s

/-- Fill a first-event log: only while its VALID bit, bit 63, is 0. -/
def State.fillLog (s : State) (off : Nat) (v : Word) : State := if s.flag off 63 then s else s.wr off v

/-- Record something the part sent. -/
def State.emit (s : State) (o : Out) : State := { s with out := o :: s.out }

/-- Does function `f` exist (R480)? -/
def State.fnExists (s : State) (f : Nat) : Bool := f = 0 || (s.pci.vfEnable && decide (f ≤ s.pci.numVfs))

/-- The vector control word of an MSI-X entry: bit 32 of its second word masks it. Entries start masked (the MSI-X
default). -/
def State.msixWord (s : State) (f v i : Nat) : Word :=
  SMap.get (if i = 1 then 0x100000000 else 0) s.pci.table (4096 * f + 2 * v + i)

/-- Send an MSI-X vector of a function (R481, R483): the message, or the pending bit while the vector or the function is
masked or the function is in D3hot. None is sent while a warm reset runs (R637). -/
def State.sendVector (s : State) (f v : Nat) : State :=
  if !s.fnExists f || !SMap.get false s.pci.msixOn f || s.boot.stopped then s
  else if SMap.get false s.pci.msixMask f || SMap.get false s.pci.d3 f || bit (s.msixWord f v 1) 32 then
    { s with pci := { s.pci with pend := SMap.put false s.pci.pend (4096 * f + v) true } }
  else s.emit (.msix f v)

/-- Set a cause bit and send the error vector, or the configuration vector for cause 14 (R484). -/
def State.raiseCause (s : State) (f c : Nat) : State :=
  (s.setFlag (R.pciFnCause f) c).sendVector f (if c = 14 then 1 else 0)

/-- Update the cores' table. -/
def State.core (s : State) (c : Nat) : Core := SMap.get Core.empty s.cores c

/-- Replace a core. -/
def State.setCore (s : State) (c : Nat) (k : Core) : State := { s with cores := SMap.put Core.empty s.cores c k }

/-- Update a core. -/
def State.updCore (s : State) (c : Nat) (f : Core → Core) : State := s.setCore c (f (s.core c))

/-- Apply a function to every core that is not idle and empty. -/
def State.mapCores (s : State) (f : Nat → Core → Core) : State := { s with cores := SMap.mapv Core.empty f s.cores }

/-- The group in a slot. -/
def Core.group (k : Core) (g : Nat) : Option Group := SMap.get none k.groups g

/-- Replace the group in a slot. -/
def Core.setGroup (k : Core) (g : Nat) (x : Option Group) : Core := { k with groups := SMap.put none k.groups g x }

/-- The block in a barrier set. -/
def Core.block (k : Core) (b : Nat) : Option Block := SMap.get none k.blocks b

/-- Replace the block in a barrier set. -/
def Core.setBlock (k : Core) (b : Nat) (x : Option Block) : Core := { k with blocks := SMap.put none k.blocks b x }

/-- The resident groups of a core with their slots. -/
def Core.groupList (k : Core) : List (Nat × Group) := k.groups.filterMap (fun e => e.2.map (fun g => (e.1, g)))

/-- The resident blocks of a core with their barrier sets. -/
def Core.blockList (k : Core) : List (Nat × Block) := k.blocks.filterMap (fun e => e.2.map (fun b => (e.1, b)))

/-- A launch by its number. -/
def State.launch (s : State) (l : Nat) : Option Launch := SMap.get none s.dsp.launches l

/-- Replace a launch. -/
def State.setLaunch (s : State) (l : Nat) (x : Option Launch) : State :=
  { s with dsp := { s.dsp with launches := SMap.put none s.dsp.launches l x } }

/-- A dispatch thread by its number (16 × control core + thread). -/
def State.thread (s : State) (t : Nat) : Option Thread := SMap.get none s.dsp.threads t

/-- Replace a dispatch thread. -/
def State.setThread (s : State) (t : Nat) (x : Option Thread) : State :=
  { s with dsp := { s.dsp with threads := SMap.put none s.dsp.threads t x } }

/-- A fetched entry by its number. -/
def State.cmd (s : State) (c : Nat) : Option Cmd := SMap.get none s.dsp.cmds c

/-- Replace a fetched entry. -/
def State.setCmd (s : State) (c : Nat) (x : Option Cmd) : State :=
  { s with dsp := { s.dsp with cmds := SMap.put none s.dsp.cmds c x } }

/-- The points unit of one cluster. -/
def State.unit (s : State) (u : Nat) : PtsUnit := SMap.get PtsUnit.empty s.pts.units u

/-- Replace the points unit of a cluster. -/
def State.setUnit (s : State) (u : Nat) (x : PtsUnit) : State :=
  { s with pts := { s.pts with units := SMap.put PtsUnit.empty s.pts.units u x } }

/-- The launch a group runs for. -/
def Core.groupLaunch (k : Core) (g : Group) : Nat :=
  match k.block g.block with | some b => b.launch | none => 0

/-- The context of a group's block. -/
def Core.groupCtx (k : Core) (g : Group) : Nat := match k.block g.block with | some b => b.ctx | none => 0

/-- The cluster and die of a core (R50). -/
def clusterOf (core : Nat) : Nat := core / 12
def dieOfCore (core : Nat) : Nat := core / 96

/-- The tenant of a context, or of a view of one (TENANT of CTX_CFG, R513). -/
def State.tenantOf (s : State) (ctx : Nat) : Nat := s.fld (R.ctxCfg (ctx % 4096)) 61 56

end Sys2Proof.Machine
end

