-- ==== Sys2Proof/Machine/MemOps.lean ====
section
/-! DEFINITION. Local device memory through its home slice: the address hash, encryption keys and poison of a sector,
lines in ways and sidings, reading and writing (spec 02 R53 to R55, 09 R360 to R363, 16 R559, 17 R583 to R585). -/

namespace Sys2Proof.Machine

/-- One past the last local device address (R53, R298). -/
def localEnd : Nat := 0x4800000000

/-- The first address homed on the east die (R53). -/
def eastBase : Nat := 0x2400000000

/-- The home die of a local address (R53). -/
def homeDie (a : Nat) : Nat := if a < eastBase then 0 else 1

/-- The die-relative offset O of R53. -/
def dieOffset (a : Nat) : Nat := if a < eastBase then a else a - eastBase

/-- The home slice within the die (R54). -/
def homeSlice (a : Nat) : Nat :=
  let o := dieOffset a
  Nat.xor (Nat.xor (nfld o 11 7) (nfld o 16 12)) (nfld o 21 17)

/-- The set of a line in its slice (R360). -/
def l2Set (a : Nat) : Nat := (dieOffset a >>> 12) % 768

/-- The stack behind an address (R54). -/
def homeStack (a : Nat) : Nat := homeDie a * 4 + homeSlice a / 8

/-- The key a sector is stored under: slot and generation (R583, R586). -/
def keyId (m : MemSys) (slot : Nat) : Nat := slot + 65 * SMap.get 0 m.gen slot + 1

/-- The 32 bytes of a sector as read under a key slot: what was stored, or unpredictable bytes where it was stored
under another key (R583, R585). A sector nothing has written reads as memory does (log 3). -/
def State.sectorRead (s : State) (sector slot : Nat) : List Byte × State :=
  let k := SMap.get 0 s.mem.key sector
  if k = 0 || k = keyId s.mem slot then (s.mem.dram.bytes (32 * sector) 32, s)
  else (leBytes 32 (Config.free s.freeCount), { s with freeCount := s.freeCount + 1 })

/-- Is a crossing fenced (R70)? -/
def State.cutOff (s : State) (group inst : Nat) : Bool := s.mem.fenced.contains (group, inst)

/-- Is the crossing between the fabric and the stack of a line fenced (R64, R70)? -/
def MemSys.stackCut (m : MemSys) (line : Nat) : Bool := m.fenced.contains (2 + homeDie (128 * line), homeStack (128 * line))

/-- The poison bits of a line's four sectors in the stack; a read across a fenced crossing returns poison (R70). -/
def dramPoison (m : MemSys) (line : Nat) : Nat :=
  if m.stackCut line then 15
  else (List.range 4).foldl (fun a i => if SMap.get false m.poison (4 * line + i) then a + 2 ^ i else a) 0

/-- The bytes of a line in the stack, decrypted under a slot. -/
def State.dramBytes (s : State) (line slot : Nat) : List Byte × State :=
  (List.range 4).foldl (fun (acc : List Byte × State) i =>
    let (b, t) := acc.2.sectorRead (4 * line + i) slot
    (acc.1 ++ b, t)) ([], s)

/-- A line read from the stack (R611). -/
def State.dramLine (s : State) (line slot : Nat) : List Byte × State :=
  (s.hit (210 + homeDie (128 * line)) 0x3000 1).dramBytes line slot

/-- Write the sectors of `sectors` (a 4-bit mask) of a line to the stack under a slot, with their poison; a fenced crossing discards
the write (R70). -/
def dramWrite (m : MemSys) (line slot : Nat) (bytes : List Byte) (poison sectors : Nat) : MemSys :=
  if m.stackCut line then { m with cut := m.cut + 1 }
  else (List.range 4).foldl (fun (m : MemSys) i =>
    if sectors.testBit i then
      { m with dram := m.dram.store (128 * line + 32 * i) ((bytes.drop (32 * i)).take 32),
               key := SMap.put 0 m.key (4 * line + i) (keyId m slot),
               poison := SMap.put false m.poison (4 * line + i) (poison.testBit i) }
    else m) { m with tally := SMap.upd 0 m.tally (homeDie (128 * line)) (· + 1) }

/-- A line held in slice or siding. -/
def MemSys.line (m : MemSys) (n : Nat) : Option L2Line := SMap.get none m.l2 n

/-- Replace what the L2 holds of a line. -/
def MemSys.setLine (m : MemSys) (n : Nat) (x : Option L2Line) : MemSys := { m with l2 := SMap.put none m.l2 n x }

/-- Write a line back to its stack if it is dirty; it stays, clean (R364). -/
def MemSys.cleanLine (m : MemSys) (n : Nat) : MemSys :=
  match m.line n with
  | some x =>
    if x.dirty then
      let t := { m with tally := SMap.upd 0 m.tally (2 + homeDie (128 * n)) (· + 1) }
      (dramWrite t n x.slot x.bytes x.poison 15).setLine n (some { x with dirty := false })
    else m
  | none => m

/-- Drop a line; dirty data is lost. -/
def MemSys.dropLine (m : MemSys) (n : Nat) : MemSys := m.setLine n none

/-- Write back and drop. -/
def MemSys.flushLine (m : MemSys) (n : Nat) : MemSys := (m.cleanLine n).dropLine n

/-- Replace the memory system; lines written to the stacks and write-backs are events of R611. -/
def State.setMem (s : State) (m : MemSys) : State :=
  let rise (k : Nat) : Nat := SMap.get 0 m.tally k - SMap.get 0 s.mem.tally k
  [0, 1].foldl (fun (t : State) d =>
    let t := if rise d = 0 then t else t.hit (210 + d) 0x3001 (rise d)
    if rise (2 + d) = 0 then t else t.hit (208 + d) 0x2003 (rise (2 + d))) { s with mem := m }

/-- Do two lines share a slice? -/
def sameSlice (n k : Nat) : Bool :=
  homeDie (128 * n) = homeDie (128 * k) && homeSlice (128 * n) = homeSlice (128 * k)

/-- Do two lines share slice and set? -/
def sameSet (n k : Nat) : Bool := sameSlice n k && l2Set (128 * n) = l2Set (128 * k)

/-- Put an evicted line into the siding of its slice (R361): when the siding holds 64, its oldest line leaves first. -/
def MemSys.toSiding (m : MemSys) (n : Nat) : MemSys :=
  let inSiding := m.l2.filter (fun e => sameSlice n e.1 && (match e.2 with | some x => x.way.isNone | none => false))
  let m := if 64 ≤ inSiding.length then
      match inSiding.foldl (fun (a : Option (Nat × Nat)) e =>
          match e.2, a with
          | some x, none => some (e.1, x.stamp)
          | some x, some (k, st) => if x.stamp < st then some (e.1, x.stamp) else some (k, st)
          | none, a => a) none with
      | some (k, _) => m.flushLine k
      | none => m
    else m
  match m.line n with
  | some x => { m.setLine n (some { x with way := none, stamp := m.clock }) with clock := m.clock + 1 }
  | none => m

/-- The ways a requester class may allocate into in a line's slice (R362, R363). -/
def State.waysFor (s : State) (n cls : Nat) : Nat :=
  let d := homeDie (128 * n)
  let m := s.fld (R.cchWaymask (8 * d + cls)) 15 0
  let r := s.fld (R.cchWayRetired (32 * d + homeSlice (128 * n))) 15 0
  Nat.land m (2 ^ 16 - 1 - r)

/-- The line that occupies a way of a line's set, if any. -/
def MemSys.inWay (m : MemSys) (n w : Nat) : Option Nat :=
  (m.l2.find? (fun e => sameSet n e.1 && (match e.2 with | some x => x.way = some w | none => false))).map Prod.fst

/-- Place a line in its slice among the ways of a mask that is not zero: a free way, else a victim's, which goes to the
siding, into the place of a line that is recalled from there (R361). Which line is the victim is open beyond R166's hint: a free choice (log 1). -/
def State.placeLine (s : State) (n : Nat) (x : L2Line) (mask : Nat) : State :=
  let ways := (List.range 16).filter (fun w => mask.testBit w)
  match ways.find? (fun w => (s.mem.inWay n w).isNone) with
  | some w => { s with mem := { s.mem.setLine n (some { x with way := some w, stamp := s.mem.clock }) with
                          clock := s.mem.clock + 1 } }
  | none =>
    let low := ways.filter (fun w => match s.mem.inWay n w with
      | some k => (match s.mem.line k with | some y => y.first | none => false) | none => false)
    let cand := if low.isEmpty then ways else low
    s.withFree fun r s =>
      let w := cand.getD (r % cand.length) 0
      let m := s.mem.dropLine n
      let m := match m.inWay n w with | some k => m.toSiding k | none => m
      s.setMem { m.setLine n (some { x with way := some w, stamp := m.clock }) with clock := m.clock + 1 }

/-- A held line under the requester's key slot: one that carries another slot is written back and read again (R585); poison
stays. -/
def State.rekeyLine (s : State) (n slot : Nat) (x : L2Line) : L2Line × State :=
  if x.slot = slot then (x, s)
  else
    let (b, s) := (s.setMem (s.mem.cleanLine n)).dramLine n slot
    ({ x with bytes := b, slot := slot, dirty := false },
      s.setMem (s.mem.setLine n (some { x with bytes := b, slot := slot, dirty := false })))

/-- A recall from the siding is counted (R361, R611). -/
def State.countRecall (s : State) (n : Nat) : State :=
  (s.count (R.cchSidingRecalls (homeDie (128 * n))) 64 1).hit (208 + homeDie (128 * n)) 0x2002 1

/-- A miss is counted (R611). -/
def State.countMiss (s : State) (n : Nat) : State :=
  (s.count (R.cchL2Misses (homeDie (128 * n))) 64 1).hit (208 + homeDie (128 * n)) 0x2001 1

/-- The line after it was placed among the ways of a mask. -/
def State.placed (s : State) (n : Nat) (x : L2Line) (mask : Nat) : L2Line × State :=
  let t := s.placeLine n x mask
  ((t.mem.line n).getD x, t)

/-- Bring a line to the requester under its key slot: recall it from the siding, read it from the stack, allocate it
where its class may (R360 to R362). Answers the line as it now stands, allocated or not. -/
def State.lineFor (s : State) (n cls slot : Nat) (alloc first : Bool) : L2Line × State :=
  let mask := s.waysFor n cls
  let s := s.hit (208 + homeDie (128 * n)) 0x2000 1
  match s.mem.line n with
  | some x =>
    let (x, s) := s.rekeyLine n slot x
    if x.way.isSome then (x, s)
    else if mask = 0 then (x, s.countRecall n)
    else (s.countRecall n).placed n x mask
  | none =>
    let (b, s) := (s.countMiss n).dramLine n slot
    let x : L2Line := ⟨b, dramPoison s.mem n, false, none, slot, 0, first⟩
    if alloc && decide (mask ≠ 0) then s.placed n x mask else (x, s)

/-- A line as it now stands at its home, under the requester's key slot: no access of its own (R611). -/
def State.lineNow (s : State) (n slot : Nat) : L2Line × State :=
  match s.mem.line n with
  | some x => s.rekeyLine n slot x
  | none =>
    let (b, s) := s.dramBytes n slot
    (⟨b, dramPoison s.mem n, false, none, slot, 0, false⟩, s)

/-- The sectors of a line, as a mask, that the bytes from `off` cover. -/
def sectorsOf (off len : Nat) : Nat :=
  (List.range 4).foldl (fun a i => if off < 32 * i + 32 && 32 * i < off + len && decide (0 < len) then a + 2 ^ i else a) 0

/-- Does a range of a line's bytes, by address, touch a poisoned sector? -/
def L2Line.poisonAt (x : L2Line) (a len : Nat) : Bool := decide (Nat.land x.poison (sectorsOf (a % 128) len) ≠ 0)

/-- A read of bytes of one line at the home slice: the bytes, and whether a sector they touch is poisoned, or the control cores'
crossing is fenced (R70). -/
def State.lineRead (s : State) (a len cls slot : Nat) (alloc first : Bool) : List Byte × Bool × State :=
  let (x, s) := s.lineFor (a / 128) cls slot alloc first
  ((x.bytes.drop (a % 128)).take len, x.poisonAt a len || (cls = 2 && s.cutOff 4 0), s)

/-- Bytes of a line with some of them replaced. -/
def overlay (bytes : List Byte) (data : SMap (Option Byte)) : List Byte :=
  (List.range bytes.length).map (fun i => (SMap.get none data i).getD (bytes.getD i 0))

/-- The poison that a write leaves: only a sector it writes whole is cleared (R559). -/
def clearPoison (p : Nat) (data : SMap (Option Byte)) : Nat :=
  (List.range 4).foldl (fun a i =>
    if p.testBit i && !((List.range 32).all fun j => (SMap.get none data (32 * i + j)).isSome) then a + 2 ^ i else a) 0

/-- The sectors that a write touches. -/
def touched (data : SMap (Option Byte)) : Nat :=
  (List.range 4).foldl (fun a i =>
    if (List.range 32).any (fun j => (SMap.get none data (32 * i + j)).isSome) then a + 2 ^ i else a) 0

/-- The bytes of a write, given by offset, over a line that was brought to the requester: into the line where the L2 holds it, else into
the stack (R332, R360). -/
def State.lineUpdate (s : State) (n : Nat) (x : L2Line) (data : SMap (Option Byte)) (slot : Nat) : State :=
  let y := { x with bytes := overlay x.bytes data, poison := clearPoison x.poison data, dirty := true }
  match s.mem.line n with
  | some _ => { s with mem := s.mem.setLine n (some y) }
  | none => s.setMem (dramWrite s.mem n slot y.bytes y.poison (touched data))

/-- A write of bytes of one line performed at the home slice (R332, R360). -/
def State.lineWrite (s : State) (n : Nat) (data : SMap (Option Byte)) (cls slot : Nat) (alloc first : Bool) : State :=
  if cls = 2 && s.cutOff 4 0 then { s with mem := { s.mem with cut := s.mem.cut + 1 } }
  else
  let (x, s) := s.lineFor n cls slot alloc first
  s.lineUpdate n x data slot

/-- Offsets and bytes as the data of a line write. -/
def lineData (off : Nat) (b : List Byte) : SMap (Option Byte) :=
  (List.range b.length).map (fun i => (off + i, some (b.getD i 0)))

/-- The pieces of a range that lie in one line each: address, length and position. -/
def linePieces (a len : Nat) : List (Nat × Nat × Nat) :=
  let first := a / 128
  let last := if len = 0 then first else (a + len - 1) / 128
  if len = 0 then [] else
  (List.range (last + 1 - first)).map (fun i =>
    let lo := if i = 0 then a else 128 * (first + i)
    let hi := if first + i = last then a + len else 128 * (first + i + 1)
    (lo, hi - lo, lo - a))

/-- Read any range of local device memory at its home slices. -/
def State.memRead (s : State) (a len cls slot : Nat) (alloc : Bool) : List Byte × Bool × State :=
  (linePieces a len).foldl (fun (acc : List Byte × Bool × State) p =>
    let (b, bad, t) := acc.2.2.lineRead p.1 p.2.1 cls slot alloc false
    (acc.1 ++ b, acc.2.1 || bad, t)) ([], false, s)

/-- Does a range lie in the sealed program pool, once the pool is set (R410, R414)? -/
def State.inPool (s : State) (a len : Nat) : Bool :=
  let base := (s.rd R.dspProgPool).toNat
  let size := 4096 * s.fld R.dspPoolPages 31 0
  decide (0 < size) && s.dsp.poolSet && decide (a < base + size) && decide (base < a + len)

/-- Write any range of local device memory at its home slices, as the dispatcher's patch path does into the pool too. -/
def State.memPut (s : State) (a : Nat) (b : List Byte) (cls slot : Nat) (alloc : Bool) : State :=
  (linePieces a b.length).foldl (fun t p =>
    t.lineWrite (p.1 / 128) (lineData (p.1 % 128) ((b.drop p.2.2).take p.2.1)) cls slot alloc false) s

/-- Write any range of local device memory at its home slices; what lies in the sealed pool is discarded (R414). -/
def State.memWrite (s : State) (a : Nat) (b : List Byte) (cls slot : Nat) (alloc : Bool) : State :=
  (linePieces a b.length).foldl (fun t p =>
    if t.inPool p.1 p.2.1 then t
    else t.lineWrite (p.1 / 128) (lineData (p.1 % 128) ((b.drop p.2.2).take p.2.1)) cls slot alloc false) s

/-- Mark the sectors of a range poisoned, where they are held: in the L2 line, else in the stack (R559). -/
def MemSys.poisonRange (m : MemSys) (a len : Nat) : MemSys :=
  (List.range ((a + len + 31) / 32 - a / 32)).foldl (fun (m : MemSys) i =>
    let sector := a / 32 + i
    match m.line (sector / 4) with
    | some x => m.setLine (sector / 4) (some { x with poison := Nat.lor x.poison (2 ^ (sector % 4)) })
    | none => { m with poison := SMap.put false m.poison sector true }) m

/-- A consumer met poison (R560). -/
def State.consumedPoison (s : State) : State :=
  ((s.count R.rasPoisonConsumed 32 1).setFlag R.rasStatus 1)

/-- A consumer met poison: counted, shown, and raised as R573 says (bits 0 and 2 to 7 of RAS_STATUS raise the RAS cause;
bit 1 does not). -/
def State.poisonIf (s : State) (b : Bool) : State := if b then s.consumedPoison else s

end Sys2Proof.Machine
end

