-- ==== Sys2Proof/Machine/Ras.lean ====
section
/-! DEFINITION. A detected error: counted, logged, and counted against its part; and reads of the host that failed (spec 16 R556 to R564, R572 to R574, 13 R491, R508). -/

namespace Sys2Proof.Machine

/-- The key of a part: its kind of R563 and where it is. -/
def partKey (kind place : Nat) : Nat := kind * 2 ^ 60 + place

/-- An error event counts against a part (R563). -/
def State.partEvent (s : State) (kind place : Nat) : State :=
  let k := partKey kind place
  { s with ras := { s.ras with events := SMap.put [] s.ras.events k (s.now :: SMap.get [] s.ras.events k) } }

/-- The package channel of a local address (R544). -/
def homeChannel (a : Nat) : Nat :=
  let o := dieOffset a
  32 * homeStack a + 4 * (homeSlice a % 8) + Nat.xor (nfld o 13 12) (nfld o 23 22)

/-- The DRAM row of a local address as RAS_RETIRE_WHERE names it (R544, R575); its row number is the controller's. -/
def homeRow (a : Nat) : Nat :=
  let o := dieOffset a
  homeChannel a * 2 ^ 48 + Nat.xor (nfld o 14 14) (nfld o 24 24) * 2 ^ 47 + Nat.xor (nfld o 16 15) (nfld o 26 25) * 2 ^ 45 +
    Nat.xor (nfld o 18 17) (nfld o 28 27) * 2 ^ 43 + Config.dramRow (a / 128) % 2 ^ 18

/-- The tracked rows of a stack with the time of each one's newest event (R564). -/
def State.trackedRows (s : State) (stack : Nat) : List (Nat × Nat) :=
  s.ras.events.filterMap (fun e => match e.2 with
    | t :: _ => if e.1 / 2 ^ 60 = 1 && e.1 % 2 ^ 56 / 2 ^ 48 / 32 = stack then some (e.1, t) else none
    | [] => none)

/-- An error event of a row (R563, R564): a controller whose table is full of other rows drops the one whose newest event is oldest; of
several such the lowest place (DESIGN CHOICE, log 107). -/
def State.rowEvent (s : State) (a : Nat) : State :=
  let place := homeRow a
  let l := s.trackedRows (homeStack a)
  let s := if decide (l.length < 4096) || l.any (fun e => e.1 = partKey 1 place) then s
    else match l.foldl (fun (o : Option (Nat × Nat)) e => match o with
        | none => some e
        | some b => if e.2 < b.2 then some e else some b) none with
      | some e => { s with ras := { s.ras with events := SMap.put [] s.ras.events e.1 [] } }
      | none => s
  s.partEvent 1 place

/-- The events of a part of a kind in its window up to a time (R563, R569). -/
def State.eventsIn (s : State) (kind key t : Nat) : Nat :=
  ((SMap.get [] s.ras.events key).filter (fun x => decide (t < x + s.fld (R.rasPolicy kind) 63 32 * 1000000000))).length

/-- Add to a ledger count of R570 that no register of its own holds: `j` is 4k + i. -/
def State.rled (s : State) (j n : Nat) : State :=
  { s with ras := { s.ras with ledgers := SMap.upd 0 s.ras.ledgers j (· + n) } }

/-- Does RAS_ERR_LOG keep what it holds (R574)? Of errors of one cycle it takes the lower structure, then the lower unit; a cycle is taken as a
nanosecond (DESIGN CHOICE, log 108). -/
def State.keepsError (s : State) (st unit : Nat) : Bool :=
  s.flag R.rasErrLog 63 && !(s.fld R.rasErrLog 39 0 = s.time40 && decide (st * 2 ^ 8 + unit < s.fld R.rasErrLog 62 50))

/-- An error of structure `st` in unit `unit` (R556, R574): a corrected one is counted in RAS_CE; one that is not
correctable is counted in RAS_UE, shown, logged with its address, and raises the RAS cause (R573). -/
def State.detect (s : State) (st unit addr : Nat) (u : Upset) : State :=
  match u with
  | .none => s
  | .corrected =>
    let s := s.count (R.rasCe st) 64 1
    if st = 0x0B then s.hit (208 + unit / 32) 0x2005 1 else s
  | .lost =>
    let s := (s.count (R.rasUe st) 64 1).setFlag R.rasStatus 0
    let s := if s.keepsError st unit then s
      else (s.wr R.rasErrLog (BitVec.ofNat 64 (2 ^ 63 + st * 2 ^ 58 + unit * 2 ^ 50 + s.time40))).wr R.rasErrAddr
        (BitVec.ofNat 64 (addr % 2 ^ 56))
    s.raiseCause 0 15

/-- KIND of R508. -/
def HostEnd.kind : HostEnd → Nat
  | .ok => 0
  | .unsupported => 1
  | .abort => 2
  | .timeout => 3
  | .poisoned => 4

/-- A read of host memory failed (R491): counted, logged for the function on whose behalf it went, and its cause raised. -/
def State.hostError (s : State) (fn requester ctx addr : Nat) (e : HostEnd) : State :=
  if e = .ok then s
  else
    let s := s.count R.pciHostErrors 32 1
    let s := if s.flag (R.pciFnErrLog fn) 63 then s
      else (s.wr (R.pciFnErrLog fn)
          (BitVec.ofNat 64 (2 ^ 63 + e.kind * 2 ^ 60 + requester * 2 ^ 56 + ctx * 2 ^ 44 + s.time40))).wr
        (R.pciFnErrAddr fn) (BitVec.ofNat 64 addr)
    s.raiseCause fn 1

/-- The state in which a row runs: its reads of host memory meet what the host answers (R301, R491). -/
def State.hostIn (s : State) (h : HostData) : State := { s with pci := { s.pci with hostData := some h } }

/-- The host's answer has been used up. -/
def State.hostOut (t : State) : State := { t with pci := { t.pci with hostData := none } }

/-- Run a row with what the host answered to its reads (R491). -/
def State.withHost (s : State) (h : HostData) (f : State → State) : State := (f (s.hostIn h)).hostOut

/-- One of the ways in which a request to the host ends. -/
def HostEnd.ofFree (n : Nat) : HostEnd :=
  match n % 5 with | 0 => .ok | 1 => .unsupported | 2 => .abort | 3 => .timeout | _ => .poisoned

/-- Read host memory at a bus address for a function, as a PCIe request: the bytes, and whether the read failed (R301, R491). The part
keeps no copy of host memory: what the row's answer does not say, bytes or ending, is the host's, a free value (log 97). -/
def State.busRead (s : State) (fn requester ctx a len : Nat) : List Byte × Bool × State :=
  let r := Config.free s.freeCount
  let bytes := (List.range len).map fun i =>
    (s.pci.hostData.bind (HostData.byte · (a + i))).getD (BitVec.ofNat 8 (r >>> (8 * i)))
  let e := match s.pci.hostData with
    | some h => h.ending
    | none => HostEnd.ofFree (Config.free (s.freeCount + 1))
  let tag := s.pci.nextTag
  let s := { s with freeCount := s.freeCount + 2, pci := { s.pci with nextTag := tag + 1 } }.emit (.hostRead tag fn a len)
  (bytes, decide (e ≠ .ok), s.hostError fn requester ctx a e)

end Sys2Proof.Machine
end

