-- ==== Sys2Proof/Machine/EndCmd.lean ====
section
/-! DEFINITION. How an entry ends: its outcome, its lane, its pin and its place in its context's epoch, and the entry's own
fields (spec 10 R377 to R384, R402, R403, R413, 14 R525). -/

namespace Sys2Proof.Machine

/-- COOKIE of an entry (R377). -/
def Cmd.cookie (c : Cmd) : Nat := c.words.getD 3 0

/-- The fields of an entry's first word, and its further words (R377, R378). -/
def Cmd.opcode (c : Cmd) : Nat := nfld (c.words.getD 0 0) 7 0
def Cmd.eclass (c : Cmd) : Nat := nfld (c.words.getD 0 0) 10 8
def Cmd.flags (c : Cmd) : Nat := nfld (c.words.getD 0 0) 31 16
def Cmd.pipe (c : Cmd) : Bool := c.flags.testBit 0
def Cmd.event (c : Cmd) : Bool := c.flags.testBit 1
def Cmd.dlRel (c : Cmd) : Bool := c.flags.testBit 2
def Cmd.srcHost (c : Cmd) : Bool := c.flags.testBit 3
def Cmd.slot (c : Cmd) : Nat := nfld (c.words.getD 1 0) 11 0
def Cmd.entry (c : Cmd) : Nat := nfld (c.words.getD 1 0) 31 16
def Cmd.args (c : Cmd) : Nat := c.words.getD 2 0
def Cmd.deadline (c : Cmd) : Nat := c.words.getD 4 0
def Cmd.op0 (c : Cmd) : Nat := c.words.getD 5 0
def Cmd.op1 (c : Cmd) : Nat := c.words.getD 6 0

/-- The opcodes with a lane-admission column "yes" (R379). -/
def laneOpcode (op : Nat) : Bool := op = 1 || op = 2 || op = 5

/-- The part of the dispatcher that a queue holds. -/
def State.queue (s : State) (q : Nat) : QueueSt := SMap.get ⟨0, [], none, none, 0⟩ s.dsp.queues q
def State.setQueue (s : State) (q : Nat) (x : QueueSt) : State :=
  { s with dsp := { s.dsp with queues := SMap.put ⟨0, [], none, none, 0⟩ s.dsp.queues q x } }

/-- A stored-program slot. -/
def State.pslot (s : State) (n : Nat) : Option PSlot := SMap.get none s.dsp.slots n
def State.setPslot (s : State) (n : Nat) (x : Option PSlot) : State :=
  { s with dsp := { s.dsp with slots := SMap.put none s.dsp.slots n x } }

/-- Pool pages that no alive version of any slot holds (R413), below DSP_POOL_PAGES. -/
def State.poolUsed (s : State) : List Nat :=
  s.dsp.slots.flatMap (fun e => match e.2 with | some p => p.versions.flatMap Version.pages | none => []) ++
  s.dsp.patching.flatMap (fun e => match e.2 with | some p => p.fresh | none => [])

/-- DSP_POOL_FREE follows the pages in use (R413, R415). -/
def State.poolCount (s : State) : State :=
  let n := s.fld R.dspPoolPages 31 0
  let used := ((List.range n).filter (fun p => s.poolUsed.contains p)).length
  s.wr R.dspPoolFree (BitVec.ofNat 64 (n - used))

/-- The versions of a slot that are still alive (R413): the current one unless the slot is deleted, and pinned ones; a
deleted slot without pins is EMPTY (R411). -/
def State.reapSlot (s : State) (n : Nat) : State :=
  match s.pslot n with
  | none => s
  | some p =>
    let last := (p.versions.getLast?).map Version.num
    let alive := p.versions.filter (fun v => decide (0 < v.pins) || (!p.deleting && last = some v.num))
    if alive.isEmpty then (s.setPslot n none).poolCount
    else (s.setPslot n (some { p with versions := alive })).poolCount

/-- Pin or release the version of a slot (R413). -/
def State.pinBy (s : State) (n v : Nat) (f : Nat → Nat) : State :=
  match s.pslot n with
  | none => s
  | some p =>
    (s.setPslot n (some { p with versions := p.versions.map (fun x => if x.num = v then { x with pins := f x.pins } else x) }))

/-- The pin of an entry is released (R413). -/
def State.unpin (s : State) (c : Cmd) : State :=
  match c.pin with
  | some (n, v) => (s.pinBy n v (· - 1)).reapSlot n
  | none => s

/-- Move CTX_EPOCH_DONE over the ended numbers that follow it (R525). -/
def epochMove : Nat → List Nat → Nat → Nat × List Nat
  | done, ahead, 0 => (done, ahead)
  | done, ahead, fuel + 1 =>
    if ahead.contains (done + 1) then epochMove (done + 1) (ahead.filter (fun x => !decide (x = done + 1))) fuel
    else (done, ahead)

/-- An entry number of a context has ended (R525). -/
def State.epochEnd (s : State) (ctx number : Nat) : State :=
  if number = 0 then s
  else
    let ahead := number :: SMap.get [] s.dsp.doneAhead ctx
    let (d, rest) := epochMove (s.rd (R.ctxEpochDone ctx)).toNat ahead ahead.length
    { s with dsp := { s.dsp with doneAhead := SMap.put [] s.dsp.doneAhead ctx rest } }.wr (R.ctxEpochDone ctx) (BitVec.ofNat 64 d)

/-- A lane with no admitted command left has lane_end 0 (R402). -/
def State.laneSettle (s : State) (l : Nat) : State :=
  if s.dsp.cmds.any (fun e => match e.2 with | some c => c.lane = some l && decide (c.stage ≠ .ended) | none => false) then s
  else    s.wr (R.dspLaneEnd l) 0

/-- Did an entry hold a reservation or a grant (R538)? -/
def Cmd.powered (c : Cmd) : Bool := laneOpcode c.opcode && (c.stage = .admitted || c.stage = .cleared || c.stage = .running)

/-- An entry's work has ended (R382, R403, R426, R525): outcome, START (a lane-admitted entry's is its reserved one) and END are fixed, lane and
power are released, the epoch moves, refusals and timeouts are counted, and its completion awaits its turn. A refused engine signal replaces
OK. An entry that ends with none of its work begun has START equal to END (log 99). -/
def State.endCmd (s : State) (id status detail : Nat) : State :=
  match s.cmd id with
  | none => s
  | some c =>
    if c.stage = .ended then s
    else
      let (status, detail) := match c.refused with
        | some st => if status = 0 then (st, mkDetail 0xFFFF 6 0) else (status, detail)
        | none => (status, detail)
      let started := c.started
      let s := if c.powered then s.rled (4 * 6 + 1) 1 else s
      let s := s.setCmd id (some { c with
        stage := .ended, started := true, start := if started || c.lane.isSome then c.start else s.now, endT := s.now,
        outcome := some ⟨status, detail⟩, waiting := false })
      let s := match c.lane with | some l => s.laneSettle l | none => s
      let s := s.epochEnd c.ctx c.number
      let s := if status = 0x01 then s.count R.dspRefused 64 1 else if status = 0x02 then s.count R.dspTimeouts 64 1 else s
      let q := s.queue c.queue
      s.setQueue c.queue { q with done := q.done ++ [id] }

end Sys2Proof.Machine
end

