-- ==== Sys2Proof/Machine/Trace.lean ====
section
/-! DEFINITION. Trace records and triggers (spec 19 R619 to R623). -/

namespace Sys2Proof.Machine

/-- A trace record as its producer makes it. -/
structure TraceRec where
  type : Nat
  source : Nat
  unit : Nat
  ctx : Nat
  queue : Nat
  data0 : Nat
  data1 : Nat
  deriving DecidableEq, Repr

/-- The 32 bytes of a record (R619). -/
def TraceRec.bytes (r : TraceRec) (time : Nat) : List Byte :=
  leBytes 8 time ++ leBytes 1 r.type ++ leBytes 1 r.source ++ leBytes 2 r.unit ++ leBytes 2 r.ctx ++
    leBytes 2 r.queue ++ leBytes 8 r.data0 ++ leBytes 8 r.data1

/-- Records the buffer holds: 2^LOG bytes (R619); none for LOG 0. -/
def State.traceSlots (s : State) : Nat :=
  let log := s.fld R.dbgTraceSize 5 0
  if log = 0 then 0 else 2 ^ log / 32

/-- Store a record at an index of the buffer, as requester class debug under slot 0 (R619). -/
def State.traceStore (s : State) (i : Nat) (r : TraceRec) : State :=
  s.memWrite (s.fld R.dbgTraceBase 55 0 + 32 * i) (r.bytes s.now) 7 0 true

/-- A lost record is counted (R619, R622). -/
def State.traceLost (s : State) : State := s.count R.dbgTraceLost 64 1

/-- A write that does not depend on MODE's end conditions: RING and FREEZE overwrite the oldest record (R622). -/
def State.traceRing (s : State) (r : TraceRec) : State :=
  let n := s.traceSlots
  let w := s.fld R.dbgTraceWr 31 0
  let s := s.traceStore (w % n) r
  let s := s.wr R.dbgTraceWr (BitVec.ofNat 64 ((w + 1) % n))
  if s.dbg.traceFilled then s.setFlag R.dbgStatus 3
  else if w + 1 = n then { s with dbg := { s.dbg with traceFilled := true } }
  else s

/-- Put a record into the buffer (R619 to R622). -/
def State.traceWrite (s : State) (r : TraceRec) : State :=
  let n := s.traceSlots
  if n = 0 then s.traceLost
  else
    match s.fld R.dbgTraceCfg 1 0 with
    | 0 => s.traceLost
    | 1 =>
      let w := s.fld R.dbgTraceWr 31 0
      if w + 1 < n then
        let s := (s.traceStore w r).wr R.dbgTraceWr (BitVec.ofNat 64 (w + 1))
        if w + 2 = n then s.setFlag R.dbgStatus 2 else s
      else
        let lost := s.dbg.fillLost + 1
        let s := (s.traceLost).setFlag R.dbgStatus 2
        let s := { s with dbg := { s.dbg with fillLost := lost } }
        s.traceStore (n - 1) ⟨0x7F, 9, 0, 0, 0, lost, r.unit + 2 ^ 16 * r.source⟩
    | 2 => s.traceRing r
    | _ =>
      match s.dbg.postLeft with
      | some 0 => s.traceLost
      | some (k + 1) =>
        let s := s.traceRing r
        { s with dbg := { s.dbg with postLeft := some k } }
      | none => s.traceRing r

/-- A producer's record passes the filter (R620). -/
def State.trace (s : State) (r : TraceRec) : State :=
  if r.type = 0x08 || r.type = 0x0C || r.type = 0x7F || s.flag R.dbgTraceFilter r.type then s.traceWrite r else s

/-- Trigger `b` (R623): the first enabled one writes a TRIGGER record, sets TRIGGERED and records its time. -/
def State.traceTrigger (s : State) (b : Nat) : State :=
  if !s.flag R.dbgTraceCfg (8 + b) || s.flag R.dbgStatus 4 then s
  else
    let s := s.traceWrite ⟨0x0C, 9, 0, 0, 0, b, 0⟩
    let s := (s.setFlag R.dbgStatus 4).wr R.dbgTraceTrigTime (BitVec.ofNat 64 s.now)
    if s.fld R.dbgTraceCfg 1 0 = 3 then
      { s with dbg := { s.dbg with postLeft := some (s.fld R.dbgTraceCfg 63 32) } }
    else s

/-- An event's record followed by its trigger (R623). -/
def State.traceEvent (s : State) (r : TraceRec) (b : Nat) : State := (s.trace r).traceTrigger b

/-- A survey starts for a trigger code (R627), or is ignored and counted. A guard's or a limit's survey shows the hang as it
stood (R628). -/
def State.surveyStart (s : State) (code who : Nat) : State :=
  if s.flag R.dbgStatus 6 || (s.flag R.dbgSurveyCtl 1 && s.flag R.dbgStatus 7) || s.fld R.dbgSurveyBase 55 0 = 0 then
    s.count R.dbgSurveyIgnored 32 1
  else
    { s.setFlag R.dbgStatus 6 with dbg := { s.dbg with
        survey := some code, surveyWho := who, latched := false,
        frozen := if code = 0 then none else some ⟨s.regs, s.cores, s.pts, s.dsp, s.ras, s.mln⟩ } }

/-- A survey trigger of code 1 to 4 acts when DBG_SURVEY_CTL.TRIG enables it (R627). -/
def State.surveyTrigger (s : State) (code who : Nat) : State :=
  if s.flag R.dbgSurveyCtl (7 + code) then s.surveyStart code who else s

end Sys2Proof.Machine
end

