-- ==== Sys2Proof/Machine/Sem.lean ====
section
/-! DEFINITION. The semaphore store: operations, waiters and their release (spec 11 R421 to R437). -/

namespace Sys2Proof.Machine

/-- Completion status codes that semaphores return (R178). -/
def stOk : Nat := 0x00
def stSemBroken : Nat := 0x08
def stSemUnderflow : Nat := 0x0C
def stSemForeign : Nat := 0x0D

/-- STATE of SEM_CFG (R422): 0 FREE, 1 ACTIVE, 2 BROKEN. -/
def State.semState (s : State) (n : Nat) : Nat := s.fld (R.semCfg n) 63 62

/-- VALUE of a semaphore. -/
def State.semVal (s : State) (n : Nat) : Nat := s.fld (R.semValue n) 47 0

/-- The waiter list of a semaphore, head first. -/
def State.semWaiters (s : State) (n : Nat) : List Waiter := SMap.get [] s.sem.waiters n

/-- Replace the waiter list; WAITERS of SEM_CFG follows it (R422). -/
def State.setWaiters (s : State) (n : Nat) (l : List Waiter) : State :=
  { s with sem := { s.sem with waiters := SMap.put [] s.sem.waiters n l } }.setFld (R.semCfg n) 30 16 l.length

/-- The L1 of a core after an acquire at .d or wider (R339): every line is invalidated, and fills of loads that are
outstanding do not allocate. -/
def Core.acquire (k : Core) : Core := { k with l1 := [], loads := k.loads.map (fun l => { l with fill := [] }) }

/-- A waiter ends its wait with a status (R178, R379, R397, R437): a group writes uDEST, passes the instruction and
acquires at .p when the status is OK; a dispatch thread writes x(D) and continues; a WAIT entry completes, with SOURCE
SEMAPHORE when it is refused. -/
def State.wake (s : State) (w : Waiter) (status : Nat) : State :=
  if w.kind = 0 then
    let c := w.place / 64
    match (s.core c).group (w.place % 64) with
    | some g =>
      let k := (s.core c).setGroup (w.place % 64)
        (some { (g.setU w.dest status) with stat := .ready, wait := 0, hold := false, pc := (g.pc + 8) % 2 ^ 48 })
      s.setCore c (if status = stOk then k.acquire else k)
    | none => s
  else if w.kind = 1 then
    match s.thread w.place with
    | some t =>
      let x := if w.dest = 0 then t.x else SMap.put 0 t.x w.dest (BitVec.ofNat 64 status)
      s.setThread w.place (some { t with x := x, hold := .none, pc := t.pc + 1 })
    | none => s
  else s.endCmd w.place status (mkDetail 0xFFFF 6 0)

/-- Serve waiters from the head while their counts fit (R428): the list and value that remain, and who was granted. -/
def serve : List Waiter → Nat → List Waiter × Nat × List Waiter
  | [], v => ([], v, [])
  | w :: t, v =>
    if w.count ≤ v then
      let (rest, v', g) := serve t (v - w.count)
      (rest, v', w :: g)
    else (w :: t, v, [])

/-- Serve the list of a semaphore in one step of the store (R428). -/
def State.semServe (s : State) (n : Nat) : State :=
  let (rest, v, granted) := serve (s.semWaiters n) (s.semVal n)
  let s := (s.setWaiters n rest).setFld (R.semValue n) 47 0 v
  granted.foldl (fun s w => s.wake w stOk) s

/-- Rewrite the last-signaller record (R423). -/
def State.semStamp (s : State) (n kind ctx queue node cookie : Nat) : State :=
  let last := kind * 2 ^ 61 + ctx * 2 ^ 49 + queue * 2 ^ 35 + node * 2 ^ 27 + nfld s.now 38 12
  let s := (s.wr (R.semLast n) (BitVec.ofNat 64 last)).wr (R.semLastCookie n) (BitVec.ofNat 64 cookie)
  { s with sem := { s.sem with lastTime := SMap.put 0 s.sem.lastTime n s.time40 } }

/-- Who operates on a semaphore: KIND of R423, tenant, context, queue, node and cookie of the command. -/
structure Signaller where
  kind : Nat
  tenant : Nat
  ctx : Nat
  queue : Nat
  node : Nat
  cookie : Nat
  deriving DecidableEq, Repr

/-- The checks of R427: the status with which the operation is refused, 0 when it may be applied. -/
def State.semCheck (s : State) (n tenant : Nat) : Nat :=
  if s.semState n = 0 || s.fld (R.semCfg n) 59 54 ≠ tenant then stSemForeign
  else if s.semState n = 2 then stSemBroken
  else 0

/-- Count a SEM_FOREIGN refusal (R427). -/
def State.semRefuse (s : State) (status : Nat) : State :=
  if status = stSemForeign then s.count R.dbgSemForeignCount 32 1 else s

/-- A signal by `c` (R427): status and state. -/
def State.semSignal (s : State) (n c : Nat) (q : Signaller) : Nat × State :=
  let st := s.semCheck n q.tenant
  if st ≠ 0 then (st, s.semRefuse st)
  else if c = 0 then (stOk, s)
  else
    let v := s.semVal n + c
    let clamp := decide (2 ^ 48 ≤ v)
    let s := s.setFld (R.semValue n) 47 0 (if clamp then 2 ^ 48 - 1 else v)
    let s := if clamp then (s.setFlag (R.semCfg n) 60).count R.dbgSemSaturateCount 32 1 else s
    let s := s.semStamp n q.kind q.ctx q.queue q.node q.cookie
    (stOk, s.semServe n)

/-- A WAIT for `c` (R427): `some status` when it ends at once, `none` when the waiter joined the list. -/
def State.semWait (s : State) (n tenant : Nat) (w : Waiter) : Option Nat × State :=
  let st := s.semCheck n tenant
  if st ≠ 0 then (some st, s.semRefuse st)
  else if w.count = 0 then (some stOk, s)
  else if (s.semWaiters n).isEmpty && decide (w.count ≤ s.semVal n) then
    (some stOk, s.setFld (R.semValue n) 47 0 (s.semVal n - w.count))
  else (none, s.setWaiters n (s.semWaiters n ++ [w]))

/-- A DEC of `c` (R427). -/
def State.semDec (s : State) (n c tenant : Nat) : Nat × State :=
  let st := s.semCheck n tenant
  if st ≠ 0 then (st, s.semRefuse st)
  else if c ≤ s.semVal n then (stOk, s.setFld (R.semValue n) 47 0 (s.semVal n - c))
  else (stSemUnderflow, s.count R.dbgSemUnderflowCount 32 1)

/-- A READ (R427): the status and the value it returns. -/
def State.semRead (s : State) (n tenant : Nat) : Nat × Nat × State :=
  let st := s.semCheck n tenant
  if st = stSemForeign then (st, 0, s.semRefuse st) else (st, s.semVal n, s)

/-- Waiters that satisfy `p` leave every list without a grant, and the rest of each such list is served (R434). -/
def State.semLeave (s : State) (p : Waiter → Bool) : State :=
  s.sem.waiters.foldl (fun s e =>
    if e.2.any p then (s.setWaiters e.1 ((s.semWaiters e.1).filter (fun w => !p w))).semServe e.1 else s) s

/-- A semaphore becomes BROKEN (R437, R561): waiters of other contexts than `ctx` are released with SEM_BROKEN, those of
`ctx` leave. Value and record stay. -/
def State.semBreak (s : State) (n : Nat) (ctx : Option Nat) : State :=
  let l := s.semWaiters n
  let s := (s.setWaiters n []).setFld (R.semCfg n) 63 62 2
  l.foldl (fun s w => if ctx = some w.ctx then s else s.wake w stSemBroken) s

end Sys2Proof.Machine
end

