-- ==== Sys2Proof/Machine/Stop.lean ====
section
/-! DEFINITION. Thread faults, guards and how groups, blocks and launches stop (spec 03 R119 to R124, R672, 05 R211). -/

namespace Sys2Proof.Machine

/-- Does a group have a load, atomic, lock or fetch outstanding (R672)? -/
def Core.outstanding (k : Core) (slot : Nat) : Bool :=
  k.loads.any (fun l => l.slot = slot) || (match k.group slot with | some g => g.fetching.isSome | none => false)

/-- A group that is to stop has stopped once its outstanding accesses have completed (R672). -/
def Core.settled (k : Core) (slot : Nat) : Core :=
  match k.group slot with
  | some g => if g.stopping && !k.outstanding slot then k.setGroup slot (some { g with stopping := false, stopped := true }) else k
  | none => k

/-- A group stops at its next instruction boundary (R672): at once, without completing a wait, or once its outstanding
accesses have completed. It leaves any semaphore list (R434). -/
def State.stopGroup (s : State) (c slot : Nat) : State :=
  match (s.core c).group slot with
  | none => s
  | some g =>
    if g.fault.isSome || g.stopped || g.stopping then s
    else
      let s := s.setCore c (((s.core c).setGroup slot (some { g with stopping := true })).settled slot)
      s.semLeave (fun w => w.kind = 0 && w.place = 64 * c + slot)

/-- STEP cycles and skipped slices of a tile's first `n` units, as far as STEP has not counted them yet (R201, R216, R233). -/
def State.stepsTaken (s : State) (c : Nat) (t : Tile) (n steps : Nat) : State :=
  let left := steps - t.ran
  let skips := t.product.skips n
  (((s.count (R.coreMxStep c) 64 left).countSat c (R.dbgFix c 2) left).count (R.coreZskipSlices c) 64 skips).hit c 0x26 skips

/-- A tile in flight stops after its first `n` units: its slot holds the partial sum of what it has taken (R209, R211, R224). -/
def State.tileStops (s : State) (c : Nat) (t : Tile) (n r : Nat) : State :=
  (s.updCore c (fun k => { k with mx := { k.mx with acc := t.result k.mx.acc n r, accPoison := t.marks k.mx.accPoison } })).stepsTaken
    c t n (t.product.cyclesTo t.cls n)

/-- A started matrix-vector operation stops (R211, R216): some of its lines are written, and some of its weights are consumed; how many is timing, and
free (log 1). -/
def State.pathStops (s : State) (c : Nat) (o : MvOp) : State :=
  s.withFree fun r s =>
    let b := o.output (s.core c) (r / 2 ^ 96)
    (s.updCore c (fun k => k.scratchLines o.out b (r % 2 ^ 32 % (b.length / 128 + 1)))).count (R.coreMvBytes c) 64
      (r / 2 ^ 32 % 2 ^ 64 % (o.weightBytes + 1))

/-- Discard the queued tiles, drains and matrix-vector operations of a block and stop those at work (R211). -/
def State.dropMatrix (s : State) (c set : Nat) : State :=
  let k := s.core c
  let s := s.setCore c { k with mx := { k.mx with
    queue := k.mx.queue.filter (fun t => !decide (t.block = set)),
    flight := k.mx.flight.filter (fun t => !decide (t.block = set)),
    drains := k.mx.drains.filter (fun d => !decide (d.block = set)),
    mv := k.mx.mv.filter (fun m => !decide (m.block = set)) } }
  let s := (k.mx.flight.filter (fun t => t.block = set)).foldl (fun s t => s.withFree fun r s => s.tileStops c t (t.unitsAt (r % 2 ^ 32)) (r / 2 ^ 32)) s
  let s := (k.mx.drains.filter (fun d => d.block = set)).foldl (fun s d => match d.reading with
    | some vals => s.withFree fun r s => s.updCore c (fun k => d.stopped k vals r)
    | none => s) s
  (k.mx.mv.filter (fun m => m.block = set && m.started)).foldl (fun s o => s.pathStops c o) s

/-- Every group of a block stops, and its matrix work with it. -/
def State.stopBlock (s : State) (c set : Nat) : State :=
  match (s.core c).block set with
  | none => s
  | some b =>
    if b.stopped then s
    else
      let s := s.setCore c ((s.core c).setBlock set (some { b with stopped := true }))
      let s := ((s.core c).groupList.filter (fun e => e.2.block = set)).foldl (fun s e => s.stopGroup c e.1) s
      s.dropMatrix c set

/-- Every resident block of a launch stops, on every core (R121). -/
def State.stopBlocks (s : State) (l : Nat) : State :=
  s.cores.foldl (fun s e => ((s.core e.1).blockList.filter (fun b => b.2.launch = l)).foldl
    (fun s b => s.stopBlock e.1 b.1) s) s

/-- The entry whose program made a launch. -/
def State.launchCmd (s : State) (l : Nat) : Option Cmd :=
  (s.launch l).bind (fun x => s.cmd x.cmd)

/-- Cookie and queue of the command behind a launch, zero where there is none. -/
def State.launchTag (s : State) (l : Nat) : Nat × Nat :=
  match s.launchCmd l with
  | some c => (c.cookie, c.queue)
  | none => (0, 0)

/-- A launch stops with a status (R121, R393, R403, R405, R407, R528): its first cause stands; its blocks stop and no
further block is placed. -/
def State.stopLaunch (s : State) (l status code : Nat) : State :=
  match s.launch l with
  | none => s
  | some x =>
    let s := s.setLaunch l (some { x with stop := x.stop.or (some (status, code)) })
    s.stopBlocks l

/-- A launch takes its first thread fault (R121): recorded, traced (R620), stopped with FAULT_KERNEL. -/
def State.launchFault (s : State) (l code pc : Nat) : State :=
  match s.launch l with
  | none => s
  | some x =>
    let s := if x.fault.isSome then s
      else
        let (cookie, queue) := s.launchTag l
        let s := s.setLaunch l (some { x with fault := some (code, pc) })
        s.traceEvent ⟨0x06, 2, x.lastCluster.getD 0, x.ctx, queue, cookie, code + 2 ^ 8 * (pc / 8)⟩ 1
    s.stopLaunch l 0x05 (0x300 + code)

/-- A fault of a group is recorded in its block and its launch, which stops (R119, R121). -/
def State.recordFault (s : State) (c : Nat) (e : LateFault) : State :=
  let s := match (s.core c).block e.set with
    | some b => s.setCore c ((s.core c).setBlock e.set (some { b with fault := b.fault.or (some e.fault) }))
    | none => s
  s.launchFault e.launch e.fault.code e.fault.pc

/-- The faults that no store holds back any longer are recorded (R354). -/
def State.settleFaults (s : State) (c : Nat) : State :=
  let k := s.core c
  (k.late.filter (fun e => e.left = 0)).foldl (fun s e => s.recordFault c e)
    (s.setCore c { k with late := k.late.filter (fun e => !decide (e.left = 0)) })

/-- Only the entries for which `p` holds stay in the store buffer. -/
def Core.keepStores (k : Core) (p : StoreEntry → Bool) : Core :=
  { k with
    stores := k.stores.filter p, late := k.late.map (fun e => { e with left := ((k.stores.take e.left).filter p).length }) }

/-- Entry `n` leaves the store buffer. -/
def Core.eraseStore (k : Core) (n : Nat) : Core :=
  { k with
    stores := k.stores.eraseIdx n, late := k.late.map (fun e => if n < e.left then { e with left := e.left - 1 } else e) }

/-- A group faults at `pc` (R119, R120, R121, R144): recorded in the group, which leaves any semaphore list (R434); every other group of the
block stops. Once the stores that were in the buffer are performed (R354) the fault is recorded in its block and its launch, and
every other block of the launch stops. -/
def State.faultAt (s : State) (c slot code pc : Nat) (lanes : Half) (addr : Nat) : State :=
  match (s.core c).group slot with
  | none => s
  | some g =>
    let f : ThreadFault := ⟨code, pc, lanes, addr⟩
    let s := (s.setCore c ((s.core c).setGroup slot
      (some { g with stat := .faulted, wait := 0, hold := false, fault := some f }))).semLeave
        (fun w => w.kind = 0 && w.place = 64 * c + slot)
    match (s.core c).block g.block with
    | none => s
    | some b =>
      let s := s.stopBlock c g.block
      let s := s.updCore c (fun k => { k with late := k.late ++ [⟨k.stores.length, g.block, b.launch, f⟩] })
      (s.settleFaults c).poisonIf (code = 0x06)

/-- A group faults at the instruction it is at. -/
def State.faultGroup (s : State) (c slot code : Nat) (lanes : Half) (addr : Nat) : State :=
  match (s.core c).group slot with
  | none => s
  | some g => s.faultAt c slot code g.pc lanes addr

/-- A guard that fires is counted, logged and traced (R98, R109, R123, R124, R620): once, be it one group or all of a block that it
faults (log 93). Its trigger (R623) acts after that of the fault which it raises in the same cycle: the lower one is recorded. -/
def State.guardFault (s : State) (c cause slot barrier : Nat) : State :=
  let n := clusterOf c
  let w := BitVec.ofNat 64 (2 ^ 63 + cause * 2 ^ 61 + c * 2 ^ 53 + slot * 2 ^ 47 + barrier * 2 ^ 43 + s.time40)
  let s := (s.count (R.seqGuardCount n) 32 1).fillLog (R.seqGuardLog n) w
  s.trace ⟨0x07, 2, n, 0, 0, (s.rd (R.seqGuardLog n)).toNat, 0⟩

end Sys2Proof.Machine
end

