-- ==== Sys2Proof/Machine/Operands.lean ====
section
/-! DEFINITION. The operand forms of the thread instruction set (spec 04 R131 to R141): fields of an instruction
word, register operands and their rules, and reading and writing them in a group. -/

namespace Sys2Proof.Machine

/-- A register operand: `n` consecutive vector or uniform registers from `r` (R131, R132), or a constant. -/
inductive Opd where
  | v (r n : Nat)
  | u (r n : Nat)
  | imm (x : Nat)
  deriving DecidableEq, Repr

/-- The fields every first word shares (R135), with the bits below SRCA as they stand. -/
structure IFields where
  major : Nat
  pred : Nat
  pinv : Bool
  dest : Nat
  srcA : Nat
  srcB : Nat
  srcC : Nat
  low : Nat
  deriving DecidableEq, Repr

/-- Read the shared fields (R135). -/
def iFields (w : Word) : IFields :=
  ⟨fld w 63 57, fld w 56 54, bit w 53, fld w 52 45, fld w 44 37, fld w 36 29, fld w 28 21, fld w 20 0⟩

/-- Format A's bits 20:0 (R136). -/
structure FmtA where
  ud : Bool
  ua : Bool
  ub : Bool
  uc : Bool
  minor : Nat
  ty : Nat
  rnd : Nat
  sat : Bool
  na : Bool
  nb : Bool
  nc : Bool
  res : Bool
  deriving DecidableEq, Repr

def fmtA (w : Word) : FmtA :=
  ⟨bit w 20, bit w 19, bit w 18, bit w 17, fld w 16 10, fld w 9 7, fld w 6 5, bit w 4, bit w 3, bit w 2, bit w 1,
    bit w 0⟩

/-- Format AI's bits 36:0 (R137). -/
structure FmtAI where
  minor : Nat
  ud : Bool
  ua : Bool
  ty : Nat
  psel : Nat
  sat : Bool
  imm : Nat
  deriving DecidableEq, Repr

def fmtAI (w : Word) : FmtAI :=
  ⟨fld w 36 30, bit w 29, bit w 28, fld w 27 25, fld w 24 22, bit w 21, fld w 20 0⟩

/-- Format M's bits 28:0 (R138); `wide` and `aty` are the atomics' reading of bits 28:26. -/
structure FmtM where
  size : Nat
  wide : Bool
  aty : Nat
  ord : Nat
  op : Nat
  scope : Nat
  hint : Nat
  ua : Bool
  ud : Bool
  off : Int
  deriving DecidableEq, Repr

def fmtM (w : Word) : FmtM :=
  ⟨fld w 28 26, bit w 28, fld w 27 26, fld w 25 24, fld w 23 21, fld w 20 18, fld w 17 16, bit w 15, bit w 14,
    sx 14 (fld w 13 0)⟩

/-- Format B: MINOR in bits 28:21 and IMM21 (R139). -/
structure FmtB where
  minor : Nat
  imm : Nat
  deriving DecidableEq, Repr

def fmtB (w : Word) : FmtB := ⟨fld w 28 21, fld w 20 0⟩

/-- Is a register operand legal for a group that declares `decl` registers (R78, R131, R132)? -/
def Opd.ok (decl : Nat) : Opd → Bool
  | .v r n => decide (r % n = 0) && decide (r + n ≤ decl)
  | .u r n => decide (r < 64) && decide (r % n = 0)
  | .imm _ => true

/-- Does the operand name vector registers? -/
def Opd.isV : Opd → Bool
  | .v _ _ => true
  | _ => false

/-- The registers an operand names, vector registers as themselves and uniform ones from 256 up. -/
def Opd.regs : Opd → List Nat
  | .v r n => (List.range n).map (r + ·)
  | .u r n => (List.range n).map (256 + r + ·)
  | .imm _ => []

/-- A register operand chosen by its uniform-select bit. -/
def opd (uni : Bool) (r n : Nat) : Opd := if uni then .u r n else .v r n

/-- A number read from the operand's registers, the lowest register in the low bits (R132, R133). -/
def Group.read (g : Group) (o : Opd) (lane : Nat) : Nat :=
  match o with
  | .v r n => (List.range n).foldr (fun i a => g.getV (r + i) lane + 2 ^ 32 * a) 0
  | .u r n => (List.range n).foldr (fun i a => g.getU (r + i) + 2 ^ 32 * a) 0
  | .imm x => x

/-- The execution mask of an instruction (R88). -/
def execMask (g : Group) (f : IFields) : Half :=
  (if f.pinv then ~~~g.getP f.pred else g.getP f.pred) &&& g.live

/-- The lowest lane of a mask, 0 for an empty one. -/
def lowLane (m : Half) : Nat := (lanesOf m).headD 0

/-- Write `n` 32-bit parts of `x` to consecutive registers of lane `l`. -/
def Group.setVs (g : Group) (r n l x : Nat) : Group :=
  (List.range n).foldl (fun h i => h.setV (r + i) l (x / 2 ^ (32 * i) % 2 ^ 32)) g

/-- Write `n` 32-bit parts of `x` to consecutive uniform registers. -/
def Group.setUs (g : Group) (r n x : Nat) : Group :=
  (List.range n).foldl (fun h i => h.setU (r + i) (x / 2 ^ (32 * i) % 2 ^ 32)) g

/-- Write a result under the execution mask: lane by lane into vector registers (R89), once into uniform ones when the
mask is not empty, with the lowest lane's value (R90, R133). -/
def Group.write (g : Group) (o : Opd) (mask : Half) (f : Nat → Nat) : Group :=
  match o with
  | .v r n => (lanesOf mask).foldl (fun h l => h.setVs r n l (f l)) g
  | .u r n => if mask = 0 then g else g.setUs r n (f (lowLane mask))
  | .imm _ => g

end Sys2Proof.Machine
end

