-- ==== Sys2Proof/Machine/ThreadAlu.lean ====
section
/-! DEFINITION. What the register-to-register thread instructions compute: integer, predicate, floating-point,
conversion and cross-lane operations, each with its decode checks (spec 04 R143, R146 to R160). A decoder answers
`none` where the group faults with ILLEGAL_OPCODE. -/

namespace Sys2Proof.Machine

/-- Are all operands of an instruction legal (R78, R131 to R133)? A uniform destination takes no vector source unless
`vecOk`. -/
def opdsOk (g : Group) (dest : Opd) (srcs : List Opd) (vecOk : Bool) : Bool :=
  dest.ok g.decl && srcs.all (Opd.ok g.decl) &&
    (dest.isV || vecOk || srcs.all (fun o => !o.isV))

/-- Two's complement negation within `w` bits. -/
def negW (w : Nat) (n : Bool) (x : Nat) : Nat := if n then (2 ^ w - x % 2 ^ w) % 2 ^ w else x % 2 ^ w

/-- Clamp an exact sum to a type's range, or wrap it (R146). -/
def satW (w : Nat) (sgn sat : Bool) (z : Int) : Nat :=
  let lo : Int := if sgn then -(2 ^ (w - 1) : Int) else 0
  let hi : Int := if sgn then 2 ^ (w - 1) - 1 else 2 ^ w - 1
  wrapI w (if sat then (if z < lo then lo else if hi < z then hi else z) else z)

/-- The exact value of an operand under its type. -/
def valW (w : Nat) (sgn : Bool) (x : Nat) : Int := if sgn then sx w x else ((x % 2 ^ w : Nat) : Int)

/-- The field of R146's FIELD operations: start, and length cut at bit 31. -/
def fieldOf (b : Nat) : Nat × Nat :=
  let st := nfld b 4 0
  let len := nfld b 13 8
  let len := if 32 < len then 32 else len
  (st, if 32 < st + len then 32 - st else len)

/-- Reverse the 32 bits of a word. -/
def reverse32 (x : Nat) : Nat :=
  (List.range 32).foldl (fun a i => if x.testBit i then a + 2 ^ (31 - i) else a) 0

/-- Zero bits above the most significant set bit, 0 to 32. -/
def leadz32 (x : Nat) : Nat := if x % 2 ^ 32 = 0 then 32 else 31 - Nat.log2 (x % 2 ^ 32)

/-- The integer and logic operations (R146) on `w`-bit operands; `pick` is the predicate bit of PICK. -/
def ialuVal (minor w : Nat) (sgn sat pick : Bool) (a b c : Nat) : Nat :=
  let A := valW w sgn a
  let B := valW w sgn b
  let amt := b % 256
  match minor with
  | 0x00 => satW w sgn sat (A + B)
  | 0x01 => satW w sgn sat (A - B)
  | 0x02 => if A ≤ B then a else b
  | 0x03 => if A ≤ B then b else a
  | 0x04 => satW w sgn sat (if A < 0 then -A else A)
  | 0x05 => Nat.land a b
  | 0x06 => Nat.lor a b
  | 0x07 => Nat.xor a b
  | 0x08 => 2 ^ w - 1 - a % 2 ^ w
  | 0x09 => if w ≤ amt then 0 else a * 2 ^ amt % 2 ^ w
  | 0x0A => if w ≤ amt then 0 else a / 2 ^ amt
  | 0x0B => wrapI w (sx w a / 2 ^ (if w ≤ amt then w else amt))
  | 0x0C => ones 32 a
  | 0x0D => leadz32 a
  | 0x0E => reverse32 a
  | 0x0F => if pick then a else b
  | 0x10 => a
  | 0x11 =>
    let (st, len) := fieldOf b
    let x := a / 2 ^ st % 2 ^ len
    if len = 0 then 0 else if sgn then wrapI 32 (sx len x) else x
  | 0x12 =>
    let (st, len) := fieldOf b
    let m := (2 ^ len - 1) * 2 ^ st
    Nat.lor (Nat.land c (2 ^ 32 - 1 - m)) (a % 2 ^ len * 2 ^ st)
  | _ => Nat.lor (Nat.land c (2 ^ 21 - 1)) (b % 2 ^ 11 * 2 ^ 21)

/-- Which sources an IALU operation reads: a, b, c, and the predicate of PICK. -/
def ialuUses (minor : Nat) : Bool × Bool × Bool × Bool :=
  match minor with
  | 0x04 | 0x08 | 0x0C | 0x0D | 0x0E | 0x10 => (true, false, false, false)
  | 0x0F => (true, true, false, true)
  | 0x12 => (true, true, true, false)
  | 0x13 => (false, true, true, false)
  | _ => (true, true, false, false)

/-- Operations marked "32 only" (R146). -/
def only32 (minor : Nat) : Bool := [0x04, 0x0C, 0x0D, 0x0E, 0x0F, 0x11, 0x12, 0x13].contains minor

/-- Operations for which SAT is defined (R146). -/
def ialuSat (minor : Nat) : Bool := minor ≤ 1 || minor = 4

/-- The width and signedness of an integer TYPE (R136). -/
def intType : Nat → Option (Nat × Bool)
  | 0 => some (32, false) | 1 => some (32, true) | 5 => some (64, false) | 6 => some (64, true) | _ => none

/-- What a register instruction does once decoded: the registers it reads, those it names, and its effect on the group under the
execution mask and a free number. -/
structure RegEffect where
  srcs : List Nat
  regs : List Nat
  run : Half → Nat → Group → Group

/-- IALU (R146): format A. -/
def decIalu (g : Group) (w : Word) : Option RegEffect :=
  let f := iFields w
  let a := fmtA w
  match intType a.ty with
  | none => none
  | some (wd, sgn) =>
    let n := wd / 32
    let (ra, rb, rc, rp) := ialuUses a.minor
    let dest := opd a.ud f.dest n
    let sa := opd a.ua f.srcA n
    let sb := opd a.ub f.srcB n
    let sc := opd a.uc f.srcC n
    let srcs := (if ra then [sa] else []) ++ (if rb then [sb] else []) ++ (if rc then [sc] else [])
    let ok := decide (a.minor ≤ 0x12) && !a.res && decide (a.rnd = 0) && (!a.sat || ialuSat a.minor) &&
      (wd = 32 || !only32 a.minor) && opdsOk g dest srcs false &&
      (ra || (f.srcA = 0 && !a.ua && !a.na)) && (rb || (f.srcB = 0 && !a.ub && !a.nb)) &&
      (rc || (!a.uc && !a.nc && (if rp then f.srcC < 8 else f.srcC = 0)))
    if ok then
      some ⟨srcs.flatMap Opd.regs, dest.regs ++ srcs.flatMap Opd.regs, fun m _ h => h.write dest m (fun l =>
        ialuVal a.minor wd sgn a.sat ((h.getP f.srcC).getLsbD l)
          (negW wd a.na (h.read sa l)) (negW wd a.nb (h.read sb l)) (negW wd a.nc (h.read sc l)))⟩
    else none

/-- IALU.I (R146, R137): the immediate, sign-extended to the operand width, stands for b; MOV writes it, and UPPER
keeps the low bits of its destination. -/
def decIaluI (g : Group) (w : Word) : Option RegEffect :=
  let f := iFields w
  let a := fmtAI w
  match intType a.ty with
  | none => none
  | some (wd, sgn) =>
    let n := wd / 32
    let (ra0, _, _, _) := ialuUses a.minor
    let ra := ra0 && decide (a.minor ≠ 0x10)
    let dest := opd a.ud f.dest n
    let sa := opd a.ua f.srcA n
    let immV := wrapI wd (sx 21 a.imm)
    let srcs := if ra then [sa] else []
    let ok := decide (a.minor ≤ 0x13) && decide (a.minor ≠ 0x12) && (wd = 32 || !only32 a.minor) &&
      opdsOk g dest srcs false
    if ok then
      some ⟨srcs.flatMap Opd.regs, dest.regs ++ srcs.flatMap Opd.regs, fun m _ h => h.write dest m (fun l =>
        if a.minor = 0x10 then immV
        else ialuVal a.minor wd sgn a.sat ((h.getP a.psel).getLsbD l) (h.read sa l % 2 ^ wd)
          (if a.minor = 0x13 then a.imm else immV) (h.read dest l))⟩
    else none

/-- The integer products (R147). -/
def imulVal (minor : Nat) (sgn : Bool) (a b c : Nat) : Nat :=
  let A := valW 32 sgn a
  let B := valW 32 sgn b
  match minor with
  | 0 => wrapI 32 (A * B)
  | 1 => wrapI 64 (A * B) / 2 ^ 32
  | 2 => wrapI 32 (A * B + (c : Int))
  | _ => wrapI 64 (A * B + (c : Int))

/-- IMUL (R147). -/
def decImul (g : Group) (w : Word) : Option RegEffect :=
  let f := iFields w
  let a := fmtA w
  let wide := decide (a.minor = 3)
  let n := if wide then 2 else 1
  let useC := decide (2 ≤ a.minor)
  let dest := opd a.ud f.dest n
  let sa := opd a.ua f.srcA 1
  let sb := opd a.ub f.srcB 1
  let sc := opd a.uc f.srcC n
  let srcs := [sa, sb] ++ (if useC then [sc] else [])
  let ok := decide (a.minor ≤ 3) && decide (a.ty ≤ 1) && !a.res && !a.sat && decide (a.rnd = 0) &&
    opdsOk g dest srcs false && (useC || (f.srcC = 0 && !a.uc && !a.nc))
  if ok then
    some ⟨srcs.flatMap Opd.regs, dest.regs ++ srcs.flatMap Opd.regs, fun m _ h => h.write dest m (fun l =>
      imulVal a.minor (a.ty = 1) (negW 32 a.na (h.read sa l)) (negW 32 a.nb (h.read sb l))
        (negW (32 * n) a.nc (h.read sc l)))⟩
  else none

/-- IMUL.I (R147): MAD has no third source in format AI, so only MUL.LO and MUL.HI exist. -/
def decImulI (g : Group) (w : Word) : Option RegEffect :=
  let f := iFields w
  let a := fmtAI w
  let dest := opd a.ud f.dest 1
  let sa := opd a.ua f.srcA 1
  let ok := decide (a.minor ≤ 1) && decide (a.ty ≤ 1) && opdsOk g dest [sa] false
  if ok then
    some ⟨sa.regs, dest.regs ++ sa.regs, fun m _ h => h.write dest m (fun l =>
      imulVal a.minor (a.ty = 1) (h.read sa l % 2 ^ 32) (wrapI 32 (sx 21 a.imm)) 0)⟩
  else none

/-- Combine a comparison with a predicate register: 0 none, 1 AND, 2 OR, 3 XOR (R148). -/
def combine (code : Nat) (r p : Bool) : Bool :=
  match code with
  | 0 => r
  | 1 => r && p
  | 2 => r || p
  | _ => r != p

/-- ICMP (R148). -/
def decIcmp (g : Group) (w : Word) : Option RegEffect :=
  let f := iFields w
  let a := fmtA w
  match intType a.ty with
  | none => none
  | some (wd, sgn) =>
    let n := wd / 32
    let cc := a.minor / 16
    let cb := a.minor / 4 % 4
    let sa := opd a.ua f.srcA n
    let sb := opd a.ub f.srcB n
    let ok := decide (cc ≤ 5) && decide (a.minor % 4 = 0) && !a.res && !a.sat && decide (a.rnd = 0) && !a.ud &&
      decide (f.dest < 8) && sa.ok g.decl && sb.ok g.decl && !a.uc && !a.nc &&
      (if cb = 0 then f.srcC = 0 else f.srcC < 8)
    if ok then
      some ⟨sa.regs ++ sb.regs, sa.regs ++ sb.regs, fun m _ h => h.setP f.dest m (laneMask (fun l =>
        let x := valW wd sgn (negW wd a.na (h.read sa l))
        let y := valW wd sgn (negW wd a.nb (h.read sb l))
        combine cb (cmpHolds cc (x - y) false) ((h.getP f.srcC).getLsbD l)))⟩
    else none

/-- ICMP.I (R148). -/
def decIcmpI (g : Group) (w : Word) : Option RegEffect :=
  let f := iFields w
  let a := fmtAI w
  match intType a.ty with
  | none => none
  | some (wd, sgn) =>
    let cc := a.minor / 16
    let cb := a.minor / 4 % 4
    let sa := opd a.ua f.srcA (wd / 32)
    let ok := decide (cc ≤ 5) && decide (a.minor % 4 = 0) && !a.ud && decide (f.dest < 8) && sa.ok g.decl
    if ok then
      some ⟨sa.regs, sa.regs, fun m _ h => h.setP f.dest m (laneMask (fun l =>
        let x := valW wd sgn (h.read sa l)
        let y := valW wd sgn (wrapI wd (sx 21 a.imm))
        combine cb (cmpHolds cc (x - y) false) ((h.getP a.psel).getLsbD l)))⟩
    else none

/-- PLOP (R149). It does not use TYPE, of which 1 to 6 are accepted (log 94). -/
def decPlop (g : Group) (w : Word) : Option RegEffect :=
  let f := iFields w
  let a := fmtA w
  let base := !a.res && !a.sat && decide (a.rnd = 0) && !a.na && !a.nb && !a.nc && decide (a.ty < 7) &&
    decide (f.srcC = 0) && !a.uc
  let noB := decide (f.srcB = 0) && !a.ub
  let va := opd a.ua f.srcA 1
  if !base then none
  else match a.minor with
  | 4 => if noB && !a.ud && decide (f.dest < 8) && va.ok g.decl
      then some ⟨va.regs, va.regs, fun m _ h => h.setP f.dest m (laneMask (fun l => h.read va l ≠ 0))⟩ else none
  | 5 => if noB && !a.ud && !a.ua && decide (f.srcA < 8) && (Opd.v f.dest 1).ok g.decl
      then some ⟨[], [f.dest], fun m _ h => h.write (.v f.dest 1) m (fun l =>
        if (h.getP f.srcA).getLsbD l then 1 else 0)⟩ else none
  | 6 => if noB && !a.ud && a.ua && decide (f.dest < 8) && decide (f.srcA < 64)
      then some ⟨[256 + f.srcA], [256 + f.srcA], fun m _ h => h.setP f.dest m (BitVec.ofNat 32 (h.getU f.srcA))⟩ else none
  | 7 => if noB && a.ud && !a.ua && decide (f.dest < 64) && decide (f.srcA < 8)
      then some ⟨[], [256 + f.dest], fun m _ h => h.write (.u f.dest 1) m (fun _ => (h.getP f.srcA).toNat)⟩ else none
  | k => if decide (k ≤ 3) && !a.ud && !a.ua && !a.ub && decide (f.dest < 8) && decide (f.srcA < 8) &&
        decide (f.srcB < 8)
      then some ⟨[], [], fun m _ h =>
        let x := h.getP f.srcA
        let y := h.getP f.srcB
        h.setP f.dest m (match k with
          | 0 => x &&& y
          | 1 => x ||| y
          | 2 => x ^^^ y
          | _ => x &&& ~~~y)⟩ else none

/-- The rounding mode of RND 0 and 1. -/
def rmode (r : Nat) : RMode := if r = 1 then .rz else .rn

/-- Split a free number into one per lane and element. -/
def freeFor (r l e : Nat) : Nat := r / 2 ^ (64 * (2 * l + e)) % 2 ^ 64

/-- FALU and HALU (R150, R151): `fs` is the element format and the elements per register. -/
def decFp (g : Group) (w : Word) (fmt : Nat → Option (Fmt × Nat)) : Option RegEffect :=
  let f := iFields w
  let a := fmtA w
  match fmt a.ty with
  | none => none
  | some (fm, per) =>
    let useC := decide (a.minor = 2)
    let dest := opd a.ud f.dest 1
    let sa := opd a.ua f.srcA 1
    let sb := opd a.ub f.srcB 1
    let sc := opd a.uc f.srcC 1
    let srcs := [sa, sb] ++ (if useC then [sc] else [])
    let ok := decide (a.minor ≤ 4) && decide (a.rnd ≤ 1) && (a.minor ≤ 2 || a.rnd = 0) && !a.res &&
      opdsOk g dest srcs false && (useC || (f.srcC = 0 && !a.uc && !a.nc))
    let bs := fm.bits
    if ok then
      some ⟨srcs.flatMap Opd.regs, dest.regs ++ srcs.flatMap Opd.regs, fun m r h => h.write dest m (fun l =>
        (List.range per).foldl (fun acc e =>
          let el (x : Nat) : Nat := x / 2 ^ (bs * e) % 2 ^ bs
          acc + 2 ^ (bs * e) * fpOp fm a.minor (rmode a.rnd) a.sat a.na a.nb a.nc
            (el (h.read sa l)) (el (h.read sb l)) (el (h.read sc l)) (freeFor r l e)) 0)⟩
    else none

def falufmt (ty : Nat) : Option (Fmt × Nat) := if ty = 2 then some (fmtF32, 1) else none

def halufmt (ty : Nat) : Option (Fmt × Nat) :=
  if ty = 3 then some (fmtF16, 2) else if ty = 4 then some (fmtBF16, 2) else none

/-- FALU.I (R150, R137): IMM21 is bits 31:11 of an FP32 value; FMA has no third source in format AI. -/
def decFaluI (g : Group) (w : Word) : Option RegEffect :=
  let f := iFields w
  let a := fmtAI w
  let dest := opd a.ud f.dest 1
  let sa := opd a.ua f.srcA 1
  let ok := decide (a.minor ≤ 4) && decide (a.minor ≠ 2) && decide (a.ty = 2) && opdsOk g dest [sa] false
  if ok then
    some ⟨sa.regs, dest.regs ++ sa.regs, fun m r h => h.write dest m (fun l =>
      fpOp fmtF32 a.minor .rn a.sat false false false (h.read sa l) (a.imm * 2 ^ 11) 0 (freeFor r l 0))⟩
  else none

/-- FCMP (R152): pair types set the bit only when both elements satisfy the comparison. -/
def decFcmp (g : Group) (w : Word) : Option RegEffect :=
  let f := iFields w
  let a := fmtA w
  match (match falufmt a.ty with | some x => some x | none => halufmt a.ty) with
  | none => none
  | some (fm, per) =>
    let cc := a.minor / 16
    let cb := a.minor / 4 % 4
    let sa := opd a.ua f.srcA 1
    let sb := opd a.ub f.srcB 1
    let ok := decide (a.minor % 4 = 0) && !a.res && !a.sat && decide (a.rnd = 0) && !a.ud && decide (f.dest < 8) &&
      sa.ok g.decl && sb.ok g.decl && !a.uc && !a.nc && (if cb = 0 then f.srcC = 0 else f.srcC < 8)
    let bs := fm.bits
    if ok then
      some ⟨sa.regs ++ sb.regs, sa.regs ++ sb.regs, fun m _ h => h.setP f.dest m (laneMask (fun l =>
        let el (x e : Nat) : Nat := x / 2 ^ (bs * e) % 2 ^ bs
        let r := (List.range per).all (fun e => fCmp fm cc a.na a.nb (el (h.read sa l) e) (el (h.read sb l) e))
        combine cb r ((h.getP f.srcC).getLsbD l)))⟩
    else none

/-- SFU (R153): NA negates the source exactly. -/
def decSfu (g : Group) (w : Word) : Option RegEffect :=
  let f := iFields w
  let a := fmtA w
  let dest := opd a.ud f.dest 1
  let sa := opd a.ua f.srcA 1
  let ok := decide (a.minor ≤ 5) && decide (a.ty = 2) && decide (a.rnd ≤ 1) && !a.sat && !a.res &&
    opdsOk g dest [sa] false && decide (f.srcB = 0) && !a.ub && !a.nb && decide (f.srcC = 0) && !a.uc && !a.nc
  if ok then
    some ⟨sa.regs, dest.regs ++ sa.regs, fun m _ h => h.write dest m (fun l =>
      let x := h.read sa l
      sfuOp a.minor (if a.na then Nat.xor x (2 ^ 31) else x))⟩
  else none

/-- CVT's fields (R156). -/
structure CvtFields where
  ud : Bool
  ua : Bool
  dfmt : Nat
  sfmt : Nat
  rnd : Nat
  sat : Bool
  delem : Nat
  selem : Nat
  deriving DecidableEq, Repr

def cvtFields (w : Word) : CvtFields :=
  ⟨bit w 20, bit w 19, fld w 18 14, fld w 13 9, fld w 8 7, bit w 6, fld w 5 3, fld w 2 0⟩

/-- Is a CVT word legal for the group (R156, R157)? -/
def cvtOk (g : Group) (w : Word) : Bool :=
  let f := iFields w
  let c := cvtFields w
  decide (c.dfmt ≤ 12) && decide (c.sfmt ≤ 12) && decide (c.rnd ≤ 2) &&
    decide (c.selem < perReg c.sfmt) && decide (c.delem < perReg c.dfmt) &&
    !(decide (c.rnd = 2) && (c.ud || (intOfCode c.dfmt).isSome)) &&
    opdsOk g (opd c.ud f.dest 1) [opd c.ua f.srcA 1] false && decide (f.srcB = 0) && decide (f.srcC = 0)

/-- The value a lane's CVT writes, given its rounding mode (R155 to R157): the destination register with one element
replaced. Bits 31:30 of a KF6 register are zero (R155). -/
def cvtVal (c : CvtFields) (mode : RMode) (src old : Nat) : Nat :=
  let sb := elemBits c.sfmt
  let db := elemBits c.dfmt
  let x := src / 2 ^ (sb * c.selem) % 2 ^ sb
  let y := toElem c.dfmt mode c.sat (elemVal c.sfmt x)
  let keep := old / 2 ^ (db * c.delem) % 2 ^ db
  (old - keep * 2 ^ (db * c.delem) + y % 2 ^ db * 2 ^ (db * c.delem)) % 2 ^ (if c.dfmt = 8 then 30 else 32)

/-- XLANE (R159). Exchanges do not use TYPE, of which 1 to 6 are accepted (log 94). -/
def decXlane (g : Group) (w : Word) : Option RegEffect :=
  let f := iFields w
  let a := fmtA w
  let base := !a.res && !a.sat && decide (a.rnd = 0) && !a.na && !a.nb && !a.nc && decide (a.ty < 7) && !a.uc
  let dest := opd a.ud f.dest 1
  let sa := opd a.ua f.srcA 1
  let sb := opd a.ub f.srcB 1
  let noB := decide (f.srcB = 0) && !a.ub
  let noC := decide (f.srcC = 0)
  if !base then none
  else if a.minor ≤ 3 || a.minor = 9 then
    if noC && opdsOk g dest [sa, sb] false then
      some ⟨sa.regs ++ sb.regs, dest.regs ++ sa.regs ++ sb.regs, fun m _ h => h.write dest m (fun l =>
        let b := h.read sb l % 32
        let from' := match a.minor with
          | 0 => b
          | 1 => if l < b then l else l - b
          | 2 => if 31 < l + b then l else l + b
          | 3 => Nat.xor l b
          | _ => (l + b) % 32
        h.read sa from')⟩
    else none
  else if !a.ud || 63 < f.dest then none
  else match a.minor with
  | 4 => if noB && decide (f.srcA = 0) && !a.ua && decide (f.srcC < 8)
      then some ⟨[], [256 + f.dest], fun m _ h => h.write dest m (fun _ => (h.getP f.srcC &&& m).toNat)⟩ else none
  | 5 => if noC && a.ub && sa.ok g.decl && sb.ok g.decl
      then some ⟨sa.regs ++ sb.regs, dest.regs ++ sa.regs ++ sb.regs, fun m _ h => h.write dest m (fun _ =>
        h.read sa (h.read sb 0 % 32))⟩ else none
  | 6 => if noC && noB && sa.ok g.decl
      then some ⟨sa.regs, dest.regs ++ sa.regs, fun m _ h => h.write dest m (fun _ =>
        (lanesOf m).foldl (fun x l => (x + h.read sa l) % 2 ^ 32) 0)⟩ else none
  | k => if (decide (k = 7) || decide (k = 8)) && decide (a.ty ≤ 1) && noC && noB && sa.ok g.decl
      then some ⟨sa.regs, dest.regs ++ sa.regs, fun m _ h => h.write dest m (fun _ =>
        let sg := decide (a.ty = 1)
        (lanesOf m).foldl (fun x l =>
          let y := h.read sa l
          if k = 7 then (if valW 32 sg y < valW 32 sg x then y else x)
          else (if valW 32 sg x < valW 32 sg y then y else x)) (h.read sa (lowLane m)))⟩ else none

/-- Is an SREG word legal (R160)? It does not use TYPE, of which 1 to 6 are accepted (log 94). -/
def sregOk (g : Group) (w : Word) : Bool :=
  let f := iFields w
  let a := fmtA w
  decide (a.minor ≤ 0x0E) && !(decide (a.minor = 0) && a.ud) && decide (f.srcA = 0) && decide (f.srcB = 0) &&
    decide (f.srcC = 0) && !a.ua && !a.ub && !a.uc && !a.na && !a.nb && !a.nc && !a.sat && !a.res &&
    decide (a.rnd = 0) && decide (a.ty < 7) && (opd a.ud f.dest 1).ok g.decl

end Sys2Proof.Machine
end

