-- ==== Sys2Proof/Machine/Xlate.lean ====
section
/-! DEFINITION. Segments, TLBs and page walks: the six stages of a translated access, and its fault record
(spec 08 R297 to R329). -/

namespace Sys2Proof.Machine

/-- Who translates: a core, a cluster's units, or a hub unit (R318). -/
inductive Req where
  | core (c : Nat)
  | cluster (n : Nat)
  | hub
  deriving DecidableEq, Repr

/-- The walker of the requester's die: 0 west, 1 east, 2 hub (R328). -/
def Req.walker : Req → Nat
  | .core c => dieOfCore c
  | .cluster n => n / 8
  | .hub => 2

/-- What an access needs (R308). -/
structure Need where
  r : Bool
  w : Bool
  x : Bool
  deriving DecidableEq, Repr

def needR : Need := ⟨true, false, false⟩
def needW : Need := ⟨false, true, false⟩
def needRW : Need := ⟨true, true, false⟩
def needX : Need := ⟨false, false, true⟩

/-- The node field of a physical address and its offset (R297). -/
def paNode (a : Nat) : Nat := nfld a 55 48
def paOffset (a : Nat) : Nat := a % 2 ^ 48

/-- The configuration alias (R298). -/
def aliasBase : Nat := 0xF000000000
def inAlias (off : Nat) : Bool := decide (aliasBase ≤ off) && decide (off < aliasBase + 0x2000000)

/-- Does an offset lie in a hole of the map of R298? -/
def inHole (off : Nat) : Bool := decide (localEnd ≤ off) && decide (off < 2 ^ 47) && !inAlias off

/-- Where a translated address leads (R302). -/
def State.placeOf (s : State) (pa : Nat) : Place :=
  if paNode pa ≠ s.con.node then .remote else if (paOffset pa).testBit 47 then .host else .localMem

/-- The thread fault code of a cause of R328. -/
def causeCode (cause : Nat) : Nat := if cause ≤ 5 then 0x09 else 0x08

/-- A translation register of a context as a view of it holds it (R306): a view number is the context plus 4,096 times the
number of the registers' copy that a launch, copy or program took at its boundary; 0 reads the registers as written. -/
def State.ctxReg (s : State) (view : Nat) (reg : Nat → Nat) : Word :=
  match SMap.get none s.trn.views (view / 4096) with
  | some m => SMap.get 0 m (reg (view % 4096))
  | none => s.rd (reg (view % 4096))

/-- The translation registers of a context (R306). -/
def ctxRegs (ctx : Nat) : List Nat :=
  [R.ctxPtRoot ctx, R.ctxMirrorRoot ctx, R.ctxHostHi ctx] ++ (List.range 8).flatMap (fun i => [R.ctxSegBase ctx i, R.ctxSegCfg ctx i])

/-- A launch, copy or program of a context reaches its boundary (R306): the view it keeps to its end. -/
def State.takeView (s : State) (ctx : Nat) : Nat × State :=
  let m := (ctxRegs ctx).foldl (fun (m : SMap Word) r => SMap.put 0 m r (s.rd r)) []
  match s.trn.views.find? (fun e => decide (e.2 = some m)) with
  | some e => (ctx + 4096 * e.1, s)
  | none =>
    let n := s.trn.nextView + 1
    (ctx + 4096 * n, { s with trn := { s.trn with views := SMap.put none s.trn.views n (some m), nextView := n } })

/-- The view that a launch translates by. -/
def State.viewOf (s : State) (l ctx : Nat) : Nat :=
  match s.launch l with
  | some x => x.view
  | none => ctx

/-- The view by which a unit that keeps none of its own translates for a context: the one in force for the context's current launch
(R320), else its program's or its copy's at work, else, for an idle context, the registers as written (R9; log 98). -/
def State.viewNow (s : State) (ctx : Nat) : Nat :=
  let launches := s.dsp.launches.filterMap fun e => e.2.bind fun x => if x.ctx = ctx then some (x.order, x.view) else none
  let programs := s.dsp.threads.filterMap fun e => e.2.bind fun x => if x.ctx = ctx then some x.view else none
  let copies := s.dsp.copies.filterMap fun e => e.2.bind fun x => if x.ctx = ctx then some x.view else none
  match launches.foldl (fun (a : Option (Nat × Nat)) x =>
      match a with | some y => if y.1 ≤ x.1 then some x else a | none => some x) none with
  | some x => x.2
  | none => (programs ++ copies).headD ctx

/-- Segment `i` of a context holds an address (R308). -/
def State.inSegment (s : State) (ctx i va : Nat) : Bool :=
  let base := 4096 * Machine.fld (s.ctxReg ctx (R.ctxSegBase · i)) 47 12
  let pages := Machine.fld (s.ctxReg ctx (R.ctxSegCfg · i)) 35 0
  decide (base ≤ va) && decide (va < base + 4096 * pages) && decide (va < 2 ^ 48)

/-- The segment that decides (R308), by its CTX_SEG_CFG in force. -/
def State.segmentOf (s : State) (ctx va : Nat) : Option Word :=
  ((List.range 8).find? (fun i => s.inSegment ctx i va)).map (fun i => s.ctxReg ctx (R.ctxSegCfg · i))

/-- Is the deciding segment the model segment (R309)? -/
def State.segModel (s : State) (ctx va : Nat) : Bool :=
  match s.segmentOf ctx va with
  | some cfg => bit cfg 44
  | none => false

/-- Does a segment grant what an access needs? W counts as 0 in the model segment (R309). -/
def segGrants (cfg : Word) (n : Need) : Bool :=
  (!n.r || bit cfg 39) && (!n.w || (bit cfg 40 && !bit cfg 44)) && (!n.x || bit cfg 41)

/-- The key slot of a translated access (R584). -/
def State.keySlotOf (s : State) (ctx va : Nat) : Nat := if s.segModel ctx va then 64 else s.tenantOf ctx

/-- Bytes a leaf of a level maps (R310). -/
def pageSize (level : Nat) : Nat := 2 ^ (12 + 9 * level)

/-- Is MIRROR the mode (R326)? -/
def State.mirror (s : State) : Bool := s.flag R.trnMode 0

/-- Is an entry malformed at a level (R312)? -/
def State.badPte (s : State) (e : Word) (level : Nat) : Bool :=
  let leaf := bit e 1
  let frame := 4096 * Machine.fld e 55 12
  let isLocal := decide (paNode frame = s.con.node)
  let contig := Machine.fld e 11 8
  let region := Machine.fld e 5 4
  Machine.fld e 59 56 ≠ 0 || Machine.fld e 7 6 ≠ 0 || Machine.fld e 3 2 ≠ 0 ||
  (leaf && level = 3) || (!leaf && level = 0) ||
  (!leaf && (contig ≠ 0 || region ≠ 0)) ||
  (!leaf && !s.mirror && !(isLocal && decide (paOffset frame < localEnd))) ||
  (leaf && frame % pageSize level ≠ 0) ||
  decide (4 < contig) ||
  (leaf && isLocal && (decide (region = 3) != frame.testBit 47)) ||
  (leaf && region = 3 && !isLocal)

/-- Read a page-table entry (R314, R325): at its home slice under slot 0, or from host memory in MIRROR mode. -/
def State.pteRead (s : State) (a : Nat) : Word × Bool × State :=
  if s.mirror then
    let (b, bad, s) := s.busRead 0 2 0 a 8
    (BitVec.ofNat 64 (leNat b), bad, s)
  else
    let (b, bad, s) := s.memRead (paOffset a) 8 6 0 true
    (BitVec.ofNat 64 (leNat b), bad, s.poisonIf bad)

/-- A walk from a table of `level` (R310 to R314): the leaf with its level, or a cause with its level. Non-leaf entries
go into the walk cache of the walker; `fuel` bounds the levels. -/
def State.walkFrom (s : State) (walker tag va : Nat) : Nat → Nat → Nat → (Word ⊕ Nat) × Nat × State
  | 0, level, _ => (.inr 0x7, level, s)
  | fuel + 1, level, table =>
    let idx := nfld va (20 + 9 * level) (12 + 9 * level)
    let (e, bad, s) := s.pteRead (table + 8 * idx)
    if bad then (.inr 0xA, level, s)
    else if !bit e 0 then (.inr 0x6, level, s)
    else if s.badPte e level then (.inr 0x7, level, s)
    else if bit e 1 then (.inl e, level, s)
    else
      let next := 4096 * Machine.fld e 55 12
      let c := SMap.get [] s.trn.walk walker
      let w : WalkEntry := ⟨tag, level, va / pageSize level, next⟩
      let put (c : List WalkEntry) : State :=
        { s with trn := { s.trn with walk := SMap.put [] s.trn.walk walker (w :: c) } }
      let s := if c.length < 256 then put c
        else
          let r := Config.free s.freeCount
          { put (c.eraseIdx (r % 256)) with freeCount := s.freeCount + 1 }
      s.walkFrom walker tag va fuel (level - 1) next

/-- Where a walk starts: below the deepest walk-cache entry that covers the address, else at the root (R309, R325). -/
def State.walkStart (s : State) (walker tag va root : Nat) : Nat × Nat :=
  let c := SMap.get [] s.trn.walk walker
  let hit (l : Nat) := c.find? (fun w => w.tag = tag && w.level = l && w.vaPrefix = va / pageSize l)
  match hit 1, hit 2, hit 3 with
  | some w, _, _ => (0, w.table)
  | none, some w, _ => (1, w.table)
  | none, none, some w => (2, w.table)
  | none, none, none => (3, root)

/-- The root of a context's or the model's tables (R306, R309, R325). -/
def State.rootOf (s : State) (ctx : Nat) (model : Bool) : Nat :=
  if s.mirror then
    (if model then (s.rd R.trnModelMirror).toNat else (s.ctxReg ctx R.ctxMirrorRoot).toNat)
  else (if model then s.fld R.trnModelRoot 55 0 else Machine.fld (s.ctxReg ctx R.ctxPtRoot) 55 0)

/-- The entry that a leaf gives a TLB: its page, or its run (R313). -/
def leafEntry (tag va level : Nat) (e : Word) : TlbEntry :=
  let size := pageSize level * 2 ^ Machine.fld e 11 8
  ⟨tag, va / size * size, size, 4096 * Machine.fld e 55 12 / size * size, Machine.fld e 5 4⟩

/-- A complete walk (R304 stage 3): counts it, and answers a TLB entry or a cause with its level. -/
def State.walk (s : State) (walker ctx va : Nat) (model : Bool) : (TlbEntry ⊕ Nat) × Nat × State :=
  let tag := if model then 4096 else ctx % 4096
  let (level, table) := s.walkStart walker tag va (s.rootOf ctx model)
  let (r, lv, s) := s.walkFrom walker tag va 4 level table
  let s := s.count (R.trnWalks walker) 64 1
  match r with
  | .inl e => (.inl (leafEntry tag va lv e), lv, s)
  | .inr cause => (.inr cause, lv, s)

/-- Put an entry into a fully associative TLB of `cap` entries; which entry it replaces is open (log 1). -/
def tlbPut (l : List TlbEntry) (e : TlbEntry) (cap free : Nat) : List TlbEntry :=
  if l.length < cap then e :: l else e :: l.eraseIdx (free % cap)

/-- The set of an entry in a TLB of 2,048 entries in 8 ways (R318). -/
def TlbEntry.set (e : TlbEntry) : Nat := Config.tlbSet e.tag (e.va / e.size) e.size % 256

/-- Put an entry into a cluster's or the hub's TLB (R318): among the 8 ways of its set; which way it replaces is open (log 1). -/
def tlbPutSet (l : List TlbEntry) (e : TlbEntry) (free : Nat) : List TlbEntry :=
  if l.length < 8 then e :: l
  else
    let peers := l.filter (fun x => x.set = e.set)
    if peers.length < 8 then e :: l
    else match peers[free % peers.length]? with
      | some x => e :: l.erase x
      | none => e :: l

/-- Does a TLB entry map an address for a tag? -/
def TlbEntry.hits (e : TlbEntry) (tag va : Nat) : Bool :=
  e.tag = tag && decide (e.va ≤ va) && decide (va < e.va + e.size)

/-- The TLB levels of a requester, nearest first (R318). -/
def State.tlbHit (s : State) (q : Req) (tag va : Nat) : Option TlbEntry :=
  let cl (n : Nat) := (SMap.get [] s.trn.cluster n).find? (fun e => e.hits tag va)
  match q with
  | .core c => ((s.core c).tlb.find? (fun e => e.hits tag va)).or (cl (clusterOf c))
  | .cluster n => cl n
  | .hub => s.trn.hub.find? (fun e => e.hits tag va)

/-- Fill the requester's TLBs with an entry. -/
def State.tlbFill (s : State) (q : Req) (e : TlbEntry) : State :=
  s.withFree fun r s =>
    let cl (n : Nat) (t : State) : State :=
      let l := SMap.get [] t.trn.cluster n
      if l.contains e then t
      else { t with trn := { t.trn with cluster := SMap.put [] t.trn.cluster n (tlbPutSet l e r) } }
    match q with
    | .core c =>
      let k := s.core c
      cl (clusterOf c) (if k.tlb.contains e then s else s.setCore c { k with tlb := tlbPut k.tlb e 64 r })
    | .cluster n => cl n s
    | .hub => { s with trn := { s.trn with hub := tlbPutSet s.trn.hub e r } }

/-- Stages 4 to 6 of R304 on a physical address under the deciding segment: the cause, or 0. -/
def State.frameCause (s : State) (cfg : Word) (pa : Nat) : Nat :=
  let off := paOffset pa
  if paNode pa = s.con.node then
    if inHole off then 0x8
    else if inAlias off then 0x5
    else if off.testBit 47 && !bit cfg 43 then 0x4
    else 0
  else if !bit cfg 42 then 0x3
  else if s.con.meshW ≤ nfld pa 55 52 || s.con.meshH ≤ nfld pa 51 48 then 0x9
  else if localEnd ≤ off then 0x8
  else 0

/-- TLB misses of a requester are events of R611: of the core's own TLB, and of its cluster's. -/
def State.tlbMisses (s : State) (q : Req) (tag va : Nat) : State :=
  let cl (n : Nat) (t : State) : State :=
    if ((SMap.get [] s.trn.cluster n).find? (fun e => e.hits tag va)).isSome then t else t.hit (192 + n) 0x1001 1
  match q with
  | .core c =>
    if ((s.core c).tlb.find? (fun e => e.hits tag va)).isSome then s else cl (clusterOf c) (s.hit c 0x23 1)
  | .cluster n => cl n s
  | .hub => s

/-- A translation without its fault record (R304, R308): the six stages in order. -/
def State.xlateQuiet (s : State) (q : Req) (ctx va : Nat) (n : Need) : Xlat × State :=
  match s.segmentOf ctx va with
  | none => (.fault 0x1 0, s)
  | some cfg =>
    if !segGrants cfg n then (.fault 0x2 0, s)
    else
      let model := bit cfg 44
      let tag := if model then 4096 else ctx % 4096
      let fin (e : TlbEntry) (s : State) : Xlat × State :=
        let pa := e.pa + (va - e.va)
        let c := s.frameCause cfg pa
        if c = 0 then (.ok pa e.region, s) else (.fault c 0, s)
      match s.tlbHit q tag va with
      | some e => fin e (s.tlbMisses q tag va)
      | none =>
        match (s.tlbMisses q tag va).walk q.walker ctx va model with
        | (.inl e, _, s) => fin e (s.tlbFill q e)
        | (.inr cause, lv, s) => (.fault cause lv, s)

/-- Record a translation or segment fault in its die's log (R328, R329). -/
def State.logXlat (s : State) (walker cause level cls ctx va : Nat) : State :=
  if s.flag (R.trnFaultLog walker) 63 then s
  else
    let lv := if 0x6 ≤ cause && cause ≠ 0x8 && cause ≠ 0x9 then level else 0
    let w := BitVec.ofNat 64 (2 ^ 63 + cause * 2 ^ 59 + cls * 2 ^ 56 + ctx % 4096 * 2 ^ 44 + lv * 2 ^ 42 + s.time40)
    (s.wr (R.trnFaultLog walker) w).wr (R.trnFaultVa walker) (BitVec.ofNat 64 (va % 2 ^ 48))

/-- A translation with its fault record: requester class `cls` of R329. -/
def State.xlate (s : State) (q : Req) (cls ctx va : Nat) (n : Need) : Xlat × State :=
  match s.xlateQuiet q ctx va n with
  | (.ok pa r, s) => (.ok pa r, s)
  | (.fault c lv, s) => (.fault c lv, s.logXlat q.walker c lv cls ctx va)

/-- The host bus address of a physical address with bit 47 set (R301). -/
def State.hostAddr (s : State) (ctx pa : Nat) : Nat :=
  2 ^ 47 * Machine.fld (s.ctxReg ctx R.ctxHostHi) 63 47 + pa % 2 ^ 47

end Sys2Proof.Machine
end

