-- ==== Sys2Proof/Machine/Issue.lean ====
section
/-! DEFINITION. Issuing a thread instruction: fetch, which row a word belongs to, registers still to be written, and the
two ends an issue can have (spec 03 R85, R88, R119, 04 R127 to R145). -/

namespace Sys2Proof.Machine



/-- The instruction word at a virtual address, from the core's instruction cache (R127). -/
def Core.word (k : Core) (va : Nat) : Option Word :=
  (SMap.get none k.icache (va / 128)).map (fun b => BitVec.ofNat 64 (leNat ((b.drop (va % 128)).take 8)))

/-- The major opcodes of R142. -/
def majors : List Nat :=
  [0x00, 0x01, 0x02, 0x03, 0x04, 0x05, 0x06, 0x07, 0x08, 0x09, 0x0A, 0x0B, 0x0C, 0x0D, 0x0E, 0x0F, 0x20, 0x21, 0x22,
   0x23, 0x24, 0x25, 0x26, 0x30, 0x31, 0x32, 0x33, 0x34, 0x35, 0x36, 0x37, 0x38, 0x39, 0x3A, 0x40, 0x41, 0x43]

/-- Can a group issue now (R85, R518, R672)? A group held at its instruction tries it again. -/
def Core.canIssue (k : Core) (g : Group) : Bool :=
  !k.switching && !k.clockStopped && !g.stopped && !g.stopping && g.fault.isNone && g.fetching.isNone &&
    !(decide (g.stat = .waiting) && !g.hold) && !decide (g.stat = .faulted)

/-- Replace a group of a core. -/
def State.setGroup (s : State) (c slot : Nat) (g : Group) : State := s.setCore c ((s.core c).setGroup slot (some g))

/-- The group waits at the instruction it is at, with a reason of R126, and will try again. -/
def State.holdAt (s : State) (c slot : Nat) (g : Group) (why : Nat) : State :=
  s.setGroup c slot { g with stat := .waiting, wait := why, hold := true }

/-- The group after an instruction of `n` bytes (R127). -/
def Group.next (g : Group) (n : Nat) : Group :=
  { g with pc := (g.pc + n) % 2 ^ 48, stat := .ready, wait := 0, hold := false }

/-- Lanes that a vector instruction works on, 0 for one that writes a uniform register or is no vector instruction (R133, R611). -/
def vectorLanes (g : Group) (w : Word) : Nat :=
  let n := fld w 63 57
  let uni := if n = 0x02 || n = 0x04 || n = 0x06 || n = 0x09 then (fmtAI w).ud
    else if n < 0x10 then (fmtA w).ud else (fmtM w).ud
  if n = 0 || (0x10 ≤ n && n < 0x20) || 0x26 < n || uni then 0 else ones 32 (execMask g (iFields w)).toNat

/-- An issued instruction is counted in ISSUED, for its partition and with its lanes (R609, R611). -/
def State.countIssue (s : State) (c slot lanes : Nat) : State :=
  let s := (s.countSat c (R.dbgFix c 1) 1).hit c (1 + slot % 4) 1
  if lanes = 0 then s else s.hit c 0x29 lanes

/-- An instruction of a group has issued (R86): the group's turn and time, and its partition's. -/
def State.markIssue (s : State) (c slot : Nat) : State :=
  s.updCore c (fun k =>
    let k := match k.group slot with
      | some g => k.setGroup slot (some { g with last := k.turns + 1, issued := s.now })
      | none => k
    { k with turns := k.turns + 1, issuedAt := SMap.put 0 k.issuedAt (slot % 4) (s.now + 1) })

/-- What follows an issue (R86, R609): nothing where the group is held at its instruction. -/
def State.afterIssue (s : State) (c slot lanes : Nat) : State :=
  match (s.core c).group slot with
  | some g => if g.hold then s else (s.countIssue c slot lanes).markIssue c slot
  | none => (s.countIssue c slot lanes).markIssue c slot

/-- Has the partition (or, for the thread port, the core) issued nothing for 128 ns, so that every unit it uses is free (R87, R102, R187)? -/
def Core.quietFor (k : Core) (now slot : Nat) (port : Bool) : Bool :=
  (List.range 4).all (fun p => (!port && decide (p ≠ slot % 4)) || SMap.get 0 k.issuedAt p = 0 || decide (SMap.get 0 k.issuedAt p + 127 ≤ now))

/-- Is a group ready beyond doubt (R85): nothing of it is outstanding, no latency of R87 or R187 can be left after 128 ns, and no unit can hold
up its next instruction, a register instruction, a control transfer or a scratchpad access? Latencies below that are no state of
the model (log 90). -/
def Core.sure (k : Core) (now slot : Nat) (g : Group) : Bool :=
  k.canIssue g && !g.hold && k.loads.all (fun l => !decide (l.slot = slot)) &&
    k.mx.drains.all (fun d => !decide (d.group = slot)) && (g.last = 0 || decide (g.issued + 128 ≤ now)) &&
    (match k.word g.pc with
      | none => false
      | some w =>
        let n := fld w 63 57
        ((decide (n < 0x10) || (decide (0x30 ≤ n) && decide (n ≤ 0x33))) && k.quietFor now slot false) ||
          ((n = 0x20 || n = 0x21 || n = 0x24) && k.quietFor now slot true))

/-- Does the partition's choice let a group issue (R86)? No group of the partition that is ready beyond doubt has its last issue further in the
past, or as far in a lower slot. -/
def Core.turnOf (k : Core) (now slot : Nat) (g : Group) : Bool :=
  k.groupList.all (fun e =>
    e.1 = slot || decide (e.1 % 4 ≠ slot % 4) || !(decide (e.2.last < g.last) || (e.2.last = g.last && decide (e.1 < slot))) ||
      !k.sure now e.1 e.2)

/-- Is a word an instruction that accesses memory, a semaphore or the points unit, or reads operands for the array? -/
def isAccess (w : Word) : Bool :=
  let n := fld w 63 57
  (decide (0x20 ≤ n) && decide (n ≤ 0x26)) || [0x36, 0x37, 0x38, 0x40, 0x41, 0x43].contains n

/-- Has a group an acquire load whose value is not there yet, so that no later access of it may be performed (R339)? -/
def Core.acquiring (k : Core) (slot : Nat) : Bool :=
  k.loads.any (fun l => l.slot = slot && decide (l.acq ≠ 0) && !l.want.isEmpty)

/-- Issue an instruction of a group: its word is fetched; a miss leaves the group waiting for its line (R85, R126); an access behind an
acquire that is not performed waits (R339). A word of another row leaves the state as it is, and so does a group that cannot
issue, or that its partition does not choose (R86). -/
def State.issue (s : State) (c slot : Nat) (row : Word → Bool) (act : Group → Word → State) : State :=
  let k := s.core c
  match k.group slot with
  | none => s
  | some g =>
    if !k.canIssue g || !k.turnOf s.now slot g then s
    else match k.word g.pc with
      | none => s.setGroup c slot { g with stat := .waiting, wait := 9, hold := true, fetching := some g.pc }
      | some w =>
        if !row w then s
        else if isAccess w && k.acquiring slot then s.holdAt c slot g 4
        else (act g w).afterIssue c slot (vectorLanes g w)

/-- Registers of a group that a load, atomic or drain has still to write (R134), uniform ones from 256 up; with each
the reason of R126. -/
def Core.busy (k : Core) (slot : Nat) : List (Nat × Nat) :=
  (k.loads.filter (fun l => l.slot = slot)).flatMap (fun l =>
    (List.range l.regs).map (fun i => ((if l.uni then 256 else 0) + l.dest + i, 4))) ++
  (k.mx.drains.filter (fun d => d.group = slot && d.target = 1)).flatMap (fun d =>
    (List.range (if d.ofmt = 2 then 24 else if d.ofmt ≤ 4 then 12 else 6)).map (fun i => (d.dest + i, 7)))

/-- The wait reason of an instruction that names a register still to be written, 0 when there is none. -/
def Core.blocked (k : Core) (slot : Nat) (regs : List Nat) : Nat :=
  ((k.busy slot).filter (fun e => regs.contains e.1)).foldl (fun a e => if a = 0 || e.2 < a then e.2 else a) 0

/-- The wait reason that shows (R126): the lowest one, and a source that a load has still to write is within its producer's latency as well.
`srcs` are the sources among the registers `regs` that the instruction names. -/
def Core.why (k : Core) (slot : Nat) (srcs regs : List Nat) : Nat :=
  let n := k.blocked slot regs
  if n ≠ 0 && (k.busy slot).any (fun e => e.2 = 4 && srcs.contains e.1 && regs.contains e.1) then 1 else n

/-- ILLEGAL_OPCODE at the group's instruction, for the lanes of its execution mask (R143). -/
def State.illegal (s : State) (c slot : Nat) (g : Group) (w : Word) : State :=
  s.faultGroup c slot 0x07 (execMask g (iFields w)) 0

/-- A register instruction: its decode checks (R143), the registers it waits for (R134), then its effect. A register or
datapath word that stays bad after its replays faults the group with DATA_POISON; a corrected one is repeated, counted,
and changes nothing (R556 to R558). -/
def State.regRow (s : State) (c slot : Nat) (upset : Upset) (row : Word → Bool)
    (dec : Group → Word → Option RegEffect) : State :=
  s.issue c slot row fun g w =>
    match dec g w with
    | none => s.illegal c slot g w
    | some e =>
      let why := (s.core c).why slot e.srcs e.regs
      let m := execMask g (iFields w)
      if why ≠ 0 then s.holdAt c slot g why
      else match upset with
        | .lost => (((s.detect 1 c 0 upset).partEvent 3 c)).faultGroup c slot 0x06 m 0
        | _ =>
          let s := if upset = .corrected then (s.detect 1 c 0 upset).partEvent 3 c else s
          s.withFree fun r s => s.setGroup c slot ((e.run m r g).next 8)

/-- A row by its major opcode. -/
def isMajor (n : Nat) (w : Word) : Bool := fld w 63 57 = n

end Sys2Proof.Machine
end

