-- ==== Sys2Proof/Machine/Access.lean ====
section
/-! DEFINITION. What loads, stores, atomics, locks and fences share: lane addresses, fault choice, the store buffer,
L1, releases and acquires (spec 03 R99 to R103, 04 R138, R145, R161 to R170, 09 R332 to R346, R355 to R359). -/

namespace Sys2Proof.Machine

/-- The place of a fault code in the order of R145. -/
def faultRank (code : Nat) : Nat :=
  match code with
  | 0x07 => 0 | 0x02 => 1 | 0x0B => 2 | 0x0A => 3 | 0x01 => 4 | 0x09 => 5 | 0x08 => 6 | 0x06 => 7 | 0x05 => 8 | _ => 9

/-- Lane faults: lane, code and address. The first code of R145 among them, its lanes, and the lowest lane's address. -/
def pickFault (l : List (Nat × Nat × Nat)) : Option (Nat × Half × Nat) :=
  match l with
  | [] => none
  | f :: t =>
    let code := t.foldl (fun a e => if faultRank e.2.1 < faultRank a then e.2.1 else a) f.2.1
    let hit := l.filter (fun e => e.2.1 = code)
    some (code, laneMask (fun i => hit.any (fun e => e.1 = i)), (hit.head?.map (fun e => e.2.2)).getD 0)

/-- A scratchpad address (R161). -/
def scratchAddr (g : Group) (f : IFields) (m : FmtM) (l : Nat) : Nat :=
  wrapI 32 ((g.read (opd m.ua f.srcA 1) l : Int) + m.off)

/-- A global address: 48 bits of a pair plus the offset, modulo 2^48 (R132, R161). -/
def globalAddr (g : Group) (f : IFields) (m : FmtM) (l : Nat) : Nat :=
  wrapI 48 (((g.read (opd m.ua f.srcA 2) l) % 2 ^ 48 : Nat) + m.off)

/-- The lanes that act: those of the mask, or its lowest one when the operation is uniform (R90, R163, R167). -/
def actLanes (m : Half) (uni : Bool) : List Nat := if uni then (lanesOf m).take 1 else lanesOf m

/-- Misaligned lanes (R100, R161). -/
def misaligned (lanes : List Nat) (addr : Nat → Nat) (size : Nat) : List (Nat × Nat × Nat) :=
  (lanes.filter (fun l => addr l % size ≠ 0)).map (fun l => (l, 0x02, addr l))

/-- Lanes outside the block's allocation (R101). -/
def outOfBounds (lanes : List Nat) (addr : Nat → Nat) (size limit : Nat) : List (Nat × Nat × Nat) :=
  (lanes.filter (fun l => limit < addr l + size)).map (fun l => (l, 0x0A, addr l))

/-- The allocation of a group's block: base and size (R84). -/
def Core.alloc (k : Core) (g : Group) : Nat × Nat :=
  match k.block g.block with | some b => (b.base, b.size) | none => (0, 0)

/-- Does a scratchpad read of a group touch what a drain of the group has still to write (R194)? -/
def Core.drainHolds (k : Core) (slot : Nat) (lanes : List Nat) (addr : Nat → Nat) (size : Nat) : Bool :=
  k.mx.drains.any fun d =>
    decide (d.group = slot) && decide (d.target = 0) && d.fault.isNone &&
      lanes.any (fun l => decide (addr l < d.base + d.addr + 768 * elemBits d.ofmt) && decide (d.base + d.addr < addr l + size))

/-- Lanes that would read a poisoned scratchpad word (R560). -/
def Core.scratchFaults (k : Core) (lanes : List Nat) (addr : Nat → Nat) (base size : Nat) : List (Nat × Nat × Nat) :=
  (lanes.filter (fun l => k.scratchBad (base + addr l) size)).map (fun l => (l, 0x06, addr l))

/-- A lane's translated access: lane, virtual and physical address, region. -/
structure LanePa where
  lane : Nat
  va : Nat
  pa : Nat
  region : Nat
  deriving DecidableEq, Repr

/-- Is the crossing between a core and the fabric fenced (R64, R70)? -/
def State.coreCut (s : State) (c : Nat) : Bool := s.cutOff (dieOfCore c) c

/-- Does a core's access to local memory at an offset need the west-east link while it is down (R52)? -/
def State.linkCut (s : State) (c off : Nat) : Bool := s.cutOff 9 0 && decide (homeDie off ≠ dieOfCore c)

/-- Translate the lanes' addresses as requester class compute (R304, R328): accesses, and faults. Behind a fenced crossing, or across the
west-east link while it is down, a read meets poison (R52, R70). -/
def State.xlateLanes (s : State) (c ctx : Nat) (lanes : List Nat) (addr : Nat → Nat) (need : Need) :
    List LanePa × List (Nat × Nat × Nat) × State :=
  lanes.foldl (fun (acc : List LanePa × List (Nat × Nat × Nat) × State) l =>
    if s.coreCut c && decide (need ≠ needW) then (acc.1, acc.2.1 ++ [(l, 0x06, addr l)], acc.2.2)
    else match acc.2.2.xlate (.core c) 0 ctx (addr l) need with
    | (.ok pa r, t) =>
      if decide (need ≠ needW) && decide (t.placeOf pa = .localMem) && t.linkCut c (paOffset pa) then
        (acc.1, acc.2.1 ++ [(l, 0x06, addr l)], t)
      else (acc.1 ++ [⟨l, addr l, pa, r⟩], acc.2.1, t)
    | (.fault cause _, t) => (acc.1, acc.2.1 ++ [(l, causeCode cause, addr l)], t)) ([], [], s)

/-- The key slot of an access (R584). -/
def State.slotFor (s : State) (ctx va : Nat) : Nat := s.keySlotOf ctx va

/-- The core's own stores over bytes just read: the youngest entry that holds a byte supplies it (R334, R336). -/
def forwarded (stores : List StoreEntry) (pa : Nat) (b : List Byte) : List Byte :=
  (List.range b.length).map (fun i =>
    stores.foldl (fun x e =>
      if e.place = .localMem && e.line = (pa + i) / 128 then (SMap.get none e.data ((pa + i) % 128)).getD x else x)
      (b.getD i 0))

/-- A load's bytes from local memory (R334, R342, R357, R166): the L1 line where it may be looked up and hits, else the
home slice; the core's own stores on top. NO_L1 alone looks none up; NO_ALLOC allocates none. Answers the bytes, poison, and the line to
fill. -/
def State.loadLocal (s : State) (c pa size region hint slot : Nat) (wide : Bool) :
    List Byte × Bool × Option Nat × State :=
  let off := paOffset pa
  let k := s.core c
  let look := decide (region = 0) && decide (hint ≠ 1) && !wide
  let hit := if look then SMap.get none k.l1 (off / 128) else none
  match hit with
  | some ln =>
    (forwarded k.stores off ((ln.bytes.drop (off % 128)).take size),
      decide (Nat.land ln.poison (sectorsOf (off % 128) size) ≠ 0), none, s.hit c 0x21 1)
  | none =>
    let s := if look then s.hit c 0x22 1 else s
    let alloc := decide (region ≤ 1) && decide (hint ≠ 3)
    let (b, bad, s) := s.lineRead off size 0 slot alloc (decide (hint = 2))
    (forwarded k.stores off b, bad, if look && decide (hint ≠ 3) then some (off / 128) else none, s)

/-- Fill an L1 line from what the load read at its home slice, with the core's own stores on top (R357). The set has 8 ways; which line it
replaces is open (log 1) beyond the hint of the lowest priority, `first` (R166). -/
def State.l1Fill (s : State) (c line slot : Nat) (first : Bool) : State :=
  let (x, s) := s.lineNow line slot
  let k := s.core c
  let sets := if SMap.get 0 s.con.split c = 1 then 256 else 128
  let all := k.l1.filter (fun e => e.1 % sets = line % sets && e.1 ≠ line)
  let low := all.filter (fun e => match e.2 with | some y => y.first | none => false)
  let peers := (if low.isEmpty then all else low).map Prod.fst
  let ln : L1Line := ⟨forwarded k.stores (128 * line) x.bytes, x.poison, s.now, first⟩
  if all.length < 8 then s.setCore c { k with l1 := SMap.put none k.l1 line (some ln) }
  else s.withFree fun r s =>
    s.setCore c { k with l1 := SMap.put none (SMap.put none k.l1 (peers.getD (r % peers.length) 0) none) line (some ln) }

/-- Where the core's stores go into its store buffer (R336): a NORMAL or STREAM store merges into the youngest open
entry of its line, a remote one only when that is the youngest entry of all (R344); others take an entry of their own. -/
def putStore (l : List StoreEntry) (e : StoreEntry) : List StoreEntry :=
  let fits (x : StoreEntry) : Bool :=
    x.open_ && decide (x.line = e.line) && decide (x.place = e.place) && decide (x.region = e.region) &&
      decide (x.keySlot = e.keySlot) && decide (x.ctx = e.ctx)
  let merge (x : StoreEntry) : StoreEntry :=
    { x with data := e.data.foldl (fun d b => SMap.put none d b.1 b.2) x.data, launch := e.launch, hint := e.hint,
              parts := x.parts ++ e.parts }
  if e.region ≤ 1 && decide (e.place ≠ .host) then
    match l.reverse with
    | [] => l ++ [e]
    | last :: rest =>
      if fits last then (merge last :: rest).reverse
      else if e.place = .remote then l ++ [e]
      else
        let young := (l.filter (fun x => decide (x.line = e.line) && decide (x.place = e.place))).getLast?
        match young with
        | some y => if fits y then l.map (fun x => if x = y then merge x else x) else l ++ [e]
        | none => l ++ [e]
  else l ++ [e]

/-- Is the release condition of a scope met by the core's earlier accesses (R338)? -/
def State.released (s : State) (c scope : Nat) : Bool :=
  let k := s.core c
  let local_ := k.stores.filter (fun e => e.place = .localMem)
  decide (scope ≤ 1) ||
  (k.loads.all (fun l => l.want.isEmpty) &&
    (if scope = 2 then local_.all (fun e => decide (homeDie (128 * e.line) ≠ dieOfCore c))
     else k.stores.isEmpty && s.cores.all (fun e => e.2.stores.all (fun x => !x.linked)) &&
       (decide (scope = 3) || s.mln.unacked.all (fun u => !decide (u.core = c)))))

/-- A release takes place: nothing later merges into an entry before it, and at .d the west-east link accepts the
stores homed on the other die (R336, R338). -/
def Core.release (k : Core) (scope : Nat) : Core :=
  { k with stores := k.stores.map (fun e =>
      { e with open_ := false, linked := e.linked || (decide (scope = 2) && decide (e.place = .localMem)) }) }

/-- Perform an entry of a core at its home slice (R332): a write into the sealed pool is discarded (R414), and the launches that
stored end with PROGRAM_SEALED; one that needs the west-east link while it is down is discarded and counted (R52, R70). -/
def State.performLocal (s : State) (c : Nat) (e : StoreEntry) : State :=
  if s.linkCut c (128 * e.line) then s.rled 3 1
  else if s.inPool (128 * e.line) 128 then e.parts.foldl (fun s p => s.stopLaunch p.launch 0x09 0x300) s
  else s.lineWrite e.line e.data 0 e.keySlot (decide (e.region ≤ 1) && decide (e.hint ≠ 3)) (decide (e.hint = 2))

/-- Perform the core's entries for a line before an atomic on it (R334, R355), oldest first. -/
def State.drainLine (s : State) (c line : Nat) : State :=
  let mine (e : StoreEntry) : Bool := decide (e.place = .localMem) && decide (e.line = line)
  let k := s.core c
  (((k.stores.filter mine).foldl (fun s e => (s.rled 5 1).performLocal c e)
    (s.setCore c (k.keepStores (fun e => !mine e))))).settleFaults c

/-- Must an access wait for DEVICE stores in the core's buffer (R315, R336): it is a DEVICE one itself, or its line has one? They are performed in
core order and one at a time. -/
def Core.behindDevice (k : Core) (pas : List LanePa) : Bool :=
  k.stores.any (fun e => decide (e.region = 2) &&
    pas.any (fun p => decide (p.region = 2) || (decide (e.place = .localMem) && decide (e.line = paOffset p.pa / 128))))

/-- The stores of a group that are younger than a turn leave the buffer (R119), and its L1 lines with them. -/
def State.dropYounger (s : State) (c slot turn : Nat) : State :=
  let k := s.core c
  let old (p : StorePart) : Bool := !(decide (p.slot = slot) && decide (turn < p.turn))
  let lines := (k.stores.filter (fun e => e.place = .localMem && !e.parts.all old)).map StoreEntry.line
  let n := (k.stores.filter (fun e => !e.parts.any old)).length
  let k := k.keepStores (fun e => e.parts.any old)
  let k := { k with
    stores := k.stores.map (fun e =>
      if e.parts.all old then e
      else { e with
        parts := e.parts.filter old,
        data := (e.parts.filter old).foldl (fun d p => p.data.foldl (fun d b => SMap.put none d b.1 b.2) d) [] }),
    l1 := lines.foldl (fun m n => SMap.put none m n none) k.l1 }
  ((s.setCore c k).rled 7 n).settleFaults c

/-- The atomic operations of R167 on a word of `w` bits: the new word, given the old one, the operand, the value CAS
compares, and a free number for a NaN. -/
def atomicOp (op aty w old x cmp r : Nat) : Nat :=
  let sgn := decide (aty = 1)
  match op with
  | 0 => if aty = 2 then fpOp fmtF32 0 .rn false false false false old x 0 r else (old + x) % 2 ^ w
  | 1 => if aty = 2 then fMinMax fmtF32 false old x else if valW w sgn x < valW w sgn old then x else old
  | 2 => if aty = 2 then fMinMax fmtF32 true old x else if valW w sgn old < valW w sgn x then x else old
  | 3 => Nat.land old x
  | 4 => Nat.lor old x
  | 5 => Nat.xor old x
  | 6 => x
  | _ => if old = cmp then x else old

/-- Is an atomic's OP and ATYPE defined (R167)? -/
def atomicOk (m : FmtM) : Bool :=
  decide (m.aty ≤ 2) && !(decide (m.aty = 2) && m.wide) &&
    (if m.op ≤ 2 then true else if m.op ≤ 5 then decide (m.aty = 0) else decide (m.aty ≠ 1))

/-- The value of a lock word held by a lane (R104). -/
def lockWord (ctx core slot lane tag : Nat) : Nat :=
  2 ^ 63 + ctx * 2 ^ 51 + core * 2 ^ 43 + slot * 2 ^ 37 + lane * 2 ^ 32 + tag % 2 ^ 32

/-- One lane of ATOM.ACQ on the word as the lanes before it left it (R106): result code and new word. The lock is free
while HELD is 0. A lane after the one that was granted finds its own group's identity there. -/
def lockAcquire (w ctx core slot lane tag : Nat) : Nat × Nat :=
  if !w.testBit 63 then (0, lockWord ctx core slot lane tag)
  else if decide (nfld w 62 51 = ctx) && decide (nfld w 50 43 = core) && decide (nfld w 42 37 = slot) then (2, w)
  else (1, w)

/-- One lane of ATOM.REL (R107). -/
def lockRelease (w ctx core slot lane : Nat) : Nat × Nat :=
  if w.testBit 63 && decide (nfld w 62 51 = ctx) && decide (nfld w 50 43 = core) && decide (nfld w 42 37 = slot) &&
    decide (nfld w 36 32 = lane) then (3, 0) else (4, w)

/-- The self-lock count after a lock instruction (R109). -/
def selfLockNext (acq : Bool) (n : Nat) (codes : List Nat) : Nat :=
  if acq then (if codes.contains 0 then 0 else if codes.contains 2 then n + 1 else n)
  else if codes.contains 3 then 0 else n

end Sys2Proof.Machine
end

