-- ==== Sys2Proof/Machine/ThreadCtl.lean ====
section
/-! DEFINITION. Meanings of branches, calls, EXIT, barriers, TCOPY, local semaphore operations, points submissions,
trace marks and instruction fetch (spec 03 R85, R91 to R98, R112 to R117, R127 to R129, 04 R172 to R180). -/

namespace Sys2Proof.Machine

/-- A word of a format-B major with a MINOR; MINOR values above `top` are not defined and go to MINOR 0 (R143). -/
def isMinor (major minor top : Nat) (w : Word) : Bool :=
  isMajor major w && (if minor = 0 then decide (fld w 28 21 = 0) || decide (top < fld w 28 21)
    else decide (fld w 28 21 = minor))

/-- Taken as BRA.ANY is: some live lane has (PRED xor PINV) set (R91, R173). -/
def takenAny (g : Group) (f : IFields) : Bool := execMask g f ≠ 0

/-- The target of BRA and CALL (R172). -/
def relTarget (g : Group) (w : Word) : Nat := wrapI 48 ((g.pc : Int) + 8 * sx 21 (fld w 20 0))

/-- The group goes on at `pc`. -/
def Group.goto (g : Group) (pc : Nat) : Group := { g with pc := pc % 2 ^ 48, stat := .ready, wait := 0, hold := false }

/-- BRA (R91, R172): `form` 0 ANY, 1 ALL, 2 U. -/
def State.branchRow (s : State) (c slot form : Nat) : State :=
  s.issue c slot (isMinor 0x30 form 2) fun g w =>
    let f := iFields w
    let ok := decide (Machine.fld w 28 21 ≤ 2) && decide (f.dest = 0) && decide (f.srcB = 0) &&
      (if form = 2 then decide (f.srcA < 64) && decide (f.pred = 7) else decide (f.srcA = 0))
    let why := (s.core c).why slot [256 + f.srcA] (if form = 2 then [256 + f.srcA] else [])
    if !ok then s.illegal c slot g w
    else if why ≠ 0 then s.holdAt c slot g why
    else
      let cond := if f.pinv then ~~~g.getP f.pred else g.getP f.pred
      let taken := match form with
        | 0 => takenAny g f
        | 1 => decide (g.live &&& ~~~cond = 0)
        | _ => decide (g.getU f.srcA ≠ 0) != f.pinv
      (if taken then s.hit c 0x2A 1 else s).setGroup c slot (if taken then g.goto (relTarget g w) else g.next 8)

/-- BRA.ANY (R91). -/
def execBraAny (c slot : Nat) (s : State) : Answer := .next (s.branchRow c slot 0)

/-- BRA.ALL (R91). -/
def execBraAll (c slot : Nat) (s : State) : Answer := .next (s.branchRow c slot 1)

/-- BRA.U (R91). -/
def execBraU (c slot : Nat) (s : State) : Answer := .next (s.branchRow c slot 2)

/-- CALL (R173): not taken, it leaves DEST unchanged. -/
def execCall (c slot : Nat) (s : State) : Answer :=
  .next (s.issue c slot (isMajor 0x31) fun g w =>
    let f := iFields w
    let why := (s.core c).why slot [] [256 + f.dest, 257 + f.dest]
    if !(decide (fld w 28 21 = 0) && decide (f.srcA = 0) && decide (f.srcB = 0) && (Opd.u f.dest 2).ok g.decl) then
      s.illegal c slot g w
    else if why ≠ 0 then s.holdAt c slot g why
    else s.setGroup c slot
      (if takenAny g f then (g.setUs f.dest 2 ((g.pc + 8) % 2 ^ 48)).goto (relTarget g w) else g.next 8))

/-- RET (R173): an address that is no multiple of 8 faults at the RET. -/
def execRet (c slot : Nat) (s : State) : Answer :=
  .next (s.issue c slot (isMajor 0x32) fun g w =>
    let f := iFields w
    let why := (s.core c).why slot [256 + f.srcA, 257 + f.srcA] [256 + f.srcA, 257 + f.srcA]
    if !(decide (fld w 28 0 = 0) && decide (f.dest = 0) && decide (f.srcB = 0) && (Opd.u f.srcA 2).ok g.decl) then
      s.illegal c slot g w
    else if why ≠ 0 then s.holdAt c slot g why
    else if takenAny g f then
      let a := g.read (.u f.srcA 2) 0 % 2 ^ 48
      if a % 8 = 0 then s.setGroup c slot (g.goto a) else s.faultGroup c slot 0x02 (execMask g f) a
    else s.setGroup c slot (g.next 8))

/-! ### Barriers -/

/-- Named barrier `n` of a block, at first expecting every group (R94). -/
def Block.bar (b : Block) (n : Nat) : Barrier :=
  SMap.get ⟨b.groups, [], [], [], 0, none, none⟩ b.bars n

/-- Replace a named barrier. -/
def Block.setBar (b : Block) (n : Nat) (x : Barrier) : Block :=
  { b with bars := SMap.put ⟨b.groups, [], [], [], 0, none, none⟩ b.bars n x }

/-- A group waits at a barrier from time `t` on; the guard watches from the earliest (R98). -/
def Barrier.watch (x : Barrier) (slot t : Nat) : Barrier :=
  match x.since with
  | some _ => x
  | none => { x with since := some t, earliest := some slot }

/-- One arrival (R94, R96): a group that has already arrived in the phase waits to arrive again. -/
def Barrier.arrive (x : Barrier) (slot t : Nat) (sync : Bool) : Barrier :=
  if x.arrived.contains slot then { x.watch slot t with again := x.again ++ [(slot, sync)] }
  else if sync then { x.watch slot t with arrived := x.arrived ++ [slot], waiting := x.waiting ++ [slot] }
  else { x with arrived := x.arrived ++ [slot] }

/-- The phase completes when arrivals equal the expected count (R94, R96, R97): the waiting groups are released, a new
phase starts with the arrivals that waited for it. Answers the groups released, and those that arrived again without
waiting; twice at most, since a phase of waiting arrivals can complete at once. -/
def Barrier.settle (x : Barrier) (t : Nat) : Nat → Barrier × List Nat
  | 0 => (x, [])
  | fuel + 1 =>
    if x.arrived.length ≠ x.expected || x.arrived.isEmpty then (x, [])
    else
      let fresh : Barrier := ⟨x.expected - x.dropNext, [], [], [], 0, none, none⟩
      let y := x.again.foldl (fun y a => y.arrive a.1 t a.2) fresh
      let pass := (x.again.filter (fun a => !a.2)).map Prod.fst
      let (z, more) := y.settle t fuel
      (z, x.waiting ++ pass ++ more)

/-- The groups released from a barrier pass the instruction they waited at (R94, R95). -/
def Core.pass (k : Core) (slots : List Nat) : Core :=
  slots.foldl (fun k i => match k.group i with
    | some g => if g.fault.isSome || g.stopped then k else k.setGroup i (some (g.next 8))
    | none => k) k

/-- A barrier changes and settles. -/
def State.barStep (s : State) (c set n : Nat) (f : Barrier → Barrier) : State :=
  match (s.core c).block set with
  | none => s
  | some b =>
    let (x, out) := (f (b.bar n)).settle s.now 2
    s.setCore c (((s.core c).setBlock set (some (b.setBar n x))).pass out)

/-- BAR (R93 to R96, R175): p7 with PINV clear, a barrier number in IMM21. The arrival is a release at .c (R95, R338): nothing later merges into an
entry before it (R336). -/
def State.barRow (s : State) (c slot : Nat) (sync : Bool) : State :=
  s.issue c slot (isMinor 0x34 (if sync then 0 else 1) 1) fun g w =>
    let f := iFields w
    let n := Machine.fld w 3 0
    if !(decide (f.pred = 7) && !f.pinv && decide (Machine.fld w 28 21 ≤ 1) && decide (Machine.fld w 20 4 = 0) &&
        decide (f.dest = 0) && decide (f.srcA = 0) && decide (f.srcB = 0)) then s.illegal c slot g w
    else
      match (s.core c).block g.block with
      | none => s
      | some b =>
        let t := (s.updCore c (fun k => k.release 1)).setGroup c slot
          (if sync || (b.bar n).arrived.contains slot then { g with stat := .waiting, wait := 2, hold := false } else g.next 8)
        t.barStep c g.block n (fun x => x.arrive slot s.now sync)

/-- BAR.SYNC (R94). -/
def execBarSync (c slot : Nat) (s : State) : Answer := .next (s.barRow c slot true)

/-- BAR.ARRIVE (R94). -/
def execBarArrive (c slot : Nat) (s : State) : Answer := .next (s.barRow c slot false)

/-- A group leaves a barrier as it ends (R97). -/
def Barrier.leave (x : Barrier) (slot : Nat) : Barrier :=
  if x.arrived.contains slot then { x with dropNext := x.dropNext + 1 } else { x with expected := x.expected - 1 }

/-- Points-unit records of an ended group no longer name its slot. -/
def State.forgetSlot (s : State) (c slot : Nat) : State :=
  let u := s.unit (clusterOf c)
  s.setUnit (clusterOf c) { u with
    queue := u.queue.map (fun r => if r.core = c && r.slot = slot then { r with slot := 64 } else r) }

/-- Matrix work of an ended group belongs to no group (R209). -/
def Matrix.forget (m : Matrix) (slot : Nat) : Matrix :=
  { m with
    queue := m.queue.map (fun t => if t.group = slot then { t with group := 64 } else t),
    flight := m.flight.map (fun t => if t.group = slot then { t with group := 64 } else t),
    drains := m.drains.map (fun t => if t.group = slot then { t with group := 64 } else t),
    mv := m.mv.map (fun t => if t.group = slot then { t with group := 64 } else t),
    faults := m.faults.map (fun t => if t.group = slot then { t with group := 64 } else t) }

/-- A group ends (R92, R97): slot and registers are free, what it still had outstanding is discarded, and it leaves its
block's barriers; the block ends by BLOCK_END. -/
def State.endGroup (s : State) (c slot : Nat) : State :=
  match (s.core c).group slot with
  | none => s
  | some g =>
    let k := (s.core c).setGroup slot none
    let k := { k with loads := k.loads.filter (fun l => !decide (l.slot = slot)), mx := k.mx.forget slot,
                      lost := k.lost.filter (fun x => !decide (x = slot)) }
    let k := match k.block g.block with
      | some b => k.setBlock g.block (some { b with ended := b.ended ++ [g.index] })
      | none => k
    (List.range 16).foldl (fun s n => s.barStep c g.block n (fun x => x.leave slot)) ((s.setCore c k).forgetSlot c slot)

/-- EXIT (R92, R174). -/
def execExit (c slot : Nat) (s : State) : Answer :=
  .next (s.issue c slot (isMajor 0x33) fun g w =>
    let f := iFields w
    if Machine.fld w 52 0 ≠ 0 then s.illegal c slot g w
    else
      let live := g.live &&& ~~~execMask g f
      let s := s.setGroup c slot { g.next 8 with live := live }
      if live = 0 then s.endGroup c slot else s)

/-- BARRIER_STALL (R98, R121, R124): a barrier whose earliest waiting group has waited longer than the guard in force for
its launch (values below 0x1_0000 act as 0x1_0000), two core cycles to a tick, faults every group of its block. -/
def execBarrierStall (c set n : Nat) (s : State) : Answer :=
  .next (match (s.core c).block set with
    | none => s
    | some b =>
      match (b.bar n).since, (b.bar n).earliest with
      | some t, some slot =>
        let guard := if b.barGuard < 0x10000 then 0x10000 else b.barGuard
        if b.stopped || 2 * (s.now - t) ≤ guard then s
        else
          let s := (s.guardFault c 1 slot n).surveyTrigger 1 (clusterOf c)
          (((s.core c).groupList.filter (fun e => e.2.block = set)).foldl
            (fun s e => s.faultGroup c e.1 0x04 e.2.live 0) s).traceTrigger 2
      | _, _ => s)

/-! ### Instruction fetch -/

/-- A fetched line enters the instruction cache of 512 lines; which one it replaces is open (log 1). The groups that
waited for it may issue, or stop once nothing of theirs is outstanding (R672). -/
def State.icachePut (s : State) (c line : Nat) (b : List Byte) : State :=
  s.withFree fun r s =>
    let k := s.core c
    let cache := if k.icache.length < 512 then k.icache else k.icache.eraseIdx (r % 512)
    let k := { k with icache := SMap.put none cache line (some b) }
    s.setCore c (k.groupList.foldl (fun k e =>
      if e.2.fetching.map (· / 128) = some line then
        (k.setGroup e.1 (some { e.2 with
          fetching := none, stat := if e.2.stat = .waiting then .ready else e.2.stat, wait := 0, hold := false })).settled e.1
      else k) k)

/-- A fetch that fails faults its group at the address that could not be fetched (R128, R560); a group that was to stop stops once nothing
of it is outstanding (R672). -/
def State.fetchFault (s : State) (c slot code : Nat) : State :=
  match (s.core c).group slot with
  | none => s
  | some g =>
    let pc := g.fetching.getD g.pc
    let s := s.updCore c (fun k => (k.setGroup slot (some { g with fetching := none })).settled slot)
    if g.stopping then s else s.faultAt c slot code pc g.live pc

/-- ICACHE_FILL (R85, R127, R128): the fetch a group waits for. -/
def execIcacheFill (c slot : Nat) (s : State) : Answer :=
  .next (match (s.core c).group slot with
    | none => s
    | some g =>
      match g.fetching with
      | none => s
      | some pc =>
        let ctx := s.viewOf ((s.core c).groupLaunch g) ((s.core c).groupCtx g)
        if s.coreCut c then s.fetchFault c slot 0x06
        else match s.xlate (.core c) 0 ctx pc needX with
        | (.fault cause _, s) => s.fetchFault c slot (causeCode cause)
        | (.ok pa region, s) =>
          match s.placeOf pa with
          | .remote => s.fetchFault c slot 0x01
          | .host =>
            let tag := s.pci.nextTag
            if s.pci.reqs.any (fun q => q.who = .fetch c slot (pc / 128)) || 768 ≤ s.pci.reqs.length then s
            else
              let a := s.hostAddr ctx (pa / 128 * 128)
              let q : HostReq := ⟨tag, s.tenantOf ctx, a, 128, .fetch c slot (pc / 128), s.now⟩
              { s with pci := { s.pci with reqs := s.pci.reqs ++ [q], nextTag := tag + 1 } }.emit
                (.hostRead tag (s.tenantOf ctx) a 128)
          | .localMem =>
            let off := paOffset pa / 128 * 128
            if s.linkCut c off then s.fetchFault c slot 0x06
            else
            let (b, bad, s) := s.lineRead off 128 0 (s.keySlotOf ctx pc) (decide (region ≤ 1)) false
            if bad then s.fetchFault c slot 0x06 else s.icachePut c (pc / 128) b)

/-! ### Tensor copies -/

/-- Are the unused fields of a format-B operation zero? -/
def unusedZero (w : Word) (dest srcA srcB imm : Bool) : Bool :=
  let f := iFields w
  (dest || decide (f.dest = 0)) && (srcA || decide (f.srcA = 0)) && (srcB || decide (f.srcB = 0)) &&
    (imm || decide (fld w 20 0 = 0))

/-- A TCOPY descriptor from its 64 bytes (R112). -/
def tcopyOf (b : List Byte) (block base size ctx launch : Nat) : TSlot :=
  let n (off len : Nat) : Nat := leNat ((b.drop off).take len)
  { block := block, op := n 0 1, elem := n 1 1, dims := n 2 1, flags := n 3 1, src := n 8 8, dst := n 0x10 8,
    ext0 := n 0x18 4, ext1 := (if n 2 1 ≤ 1 then 1 else n 0x1C 4), ext2 := (if n 2 1 ≤ 2 then 1 else n 0x20 4),
    sstr1 := sx 32 (n 0x28 4), sstr2 := sx 32 (n 0x2C 4), dstr1 := sx 32 (n 0x30 4), dstr2 := sx 32 (n 0x34 4),
    sem := n 0x38 4, flagAddr := n 0x3C 4, base := base, size := size, ctx := ctx, launch := launch,
    pos := 0, fault := none }

/-- Is a descriptor well formed (R114)? An ELEM above 3, to which R112 gives no meaning, is malformed (log 91). -/
def tcopyOk (b : List Byte) (t : TSlot) : Bool :=
  decide (t.op ≤ 6) && decide (t.elem ≤ 3) && decide (1 ≤ t.dims) && decide (t.dims ≤ 3) && decide (t.flags ≤ 3) &&
    decide (leNat ((b.drop 4).take 4) = 0) && decide (leNat ((b.drop 0x24).take 4) = 0) &&
    decide (nfld t.sem 30 16 = 0) && decide (1 ≤ t.ext0) && decide (1 ≤ t.ext1) && decide (1 ≤ t.ext2) &&
    decide (t.ext0 * t.ext1 * t.ext2 * 2 ^ t.elem ≤ 2 ^ 30)

/-- The slot in a TCOPY engine. -/
def Core.tslot (k : Core) (n : Nat) : Option TSlot := SMap.get none k.tcopy n

/-- TCOPY.GO (R113, R114, R177): the lowest free slot takes a copy of the descriptor. -/
def execTcopyGo (c slot : Nat) (s : State) : Answer :=
  .next (s.issue c slot (isMinor 0x36 0 1) fun g w =>
    let f := iFields w
    let k := s.core c
    let m := execMask g f
    let a := g.getU f.srcA
    let (base, limit) := k.alloc g
    let why := k.why slot [256 + f.srcA] [256 + f.dest, 256 + f.srcA]
    if !(decide (fld w 28 21 = 0) && unusedZero w true true false false && decide (f.dest < 64) && decide (f.srcA < 64)) then
      s.illegal c slot g w
    else if why ≠ 0 then s.holdAt c slot g why
    else if m = 0 then s.setGroup c slot (g.next 8)
    else if a % 64 ≠ 0 then s.faultGroup c slot 0x02 m a
    else if limit < a + 64 then s.faultGroup c slot 0x0A m a
    else
      let b := k.scratch.bytes (base + a) 64
      let t := tcopyOf b g.block base limit (k.groupCtx g) (k.groupLaunch g)
      if !tcopyOk b t then s.faultGroup c slot 0x0B m a
      else if k.scratchBad (base + a) 64 then s.faultGroup c slot 0x06 m a
      else
        match (List.range 8).find? (fun n => (k.tslot n).isNone) with
        | none => s.holdAt c slot g 5
        | some n =>
          s.setCore c ({ k with tcopy := SMap.put none k.tcopy n (some t) }.setGroup slot
            (some ((g.setU f.dest n).next 8))))

/-- A slot is done for a block: complete, faulted, or not the block's (R117). -/
def Core.tdone (k : Core) (set n : Nat) : Bool :=
  match k.tslot n with
  | none => true
  | some t => decide (t.block ≠ set) || t.fault.isSome

/-- Is a slot taken for a block? -/
def Core.tmine (k : Core) (set n : Nat) : Bool := (k.tslot n).any (fun t => t.block = set)

/-- TCOPY.WAIT (R117): the lowest faulted slot of the mask gives its code, and the faulted slots named are free. -/
def execTcopyWait (c slot : Nat) (s : State) : Answer :=
  .next (s.issue c slot (isMinor 0x36 1 1) fun g w =>
    let f := iFields w
    let k := s.core c
    let m := execMask g f
    let why := k.why slot [256 + f.srcA] [256 + f.srcA]
    let named := (List.range 8).filter (fun n => (g.getU f.srcA).testBit n)
    let mine := named.filter (k.tmine g.block)
    if !(unusedZero w false true false false && decide (f.srcA < 64)) then s.illegal c slot g w
    else if why ≠ 0 then s.holdAt c slot g why
    else if m = 0 then s.setGroup c slot (g.next 8)
    else if !named.all (fun n => k.tdone g.block n) then s.holdAt c slot g 5
    else
      match mine.findSome? (fun n => (k.tslot n).bind (fun t => t.fault)) with
      | none => s.setGroup c slot (g.next 8)
      | some code =>
        let s := s.setCore c { k with tcopy := mine.foldl (fun t n => SMap.put none t n none) k.tcopy }
        s.faultGroup c slot code m 0)

/-! ### Semaphores of this package -/

/-- The semaphore operand of R178: number, and node when it is remote; `none` where its other bits are not zero. -/
def semOperand (x : Nat) : Option (Nat × Option Nat) :=
  if nfld x 30 24 ≠ 0 || (!x.testBit 31 && decide (nfld x 23 16 ≠ 0)) || decide (2 ^ 32 ≤ x) then none
  else some (nfld x 15 0, if x.testBit 31 then some (nfld x 23 16) else none)

/-- A SEM form: its checks, then its effect on the operand, node and count (R176, R178). -/
def State.semRow (s : State) (c slot minor : Nat) (act : Group → Half → IFields → Nat → Option Nat → Nat → State) : State :=
  s.issue c slot (isMinor 0x37 minor 3) fun g w =>
    let f := iFields w
    let m := execMask g f
    let read := decide (minor = 3)
    let regs := [256 + f.dest, 256 + f.srcA] ++ (if read then [257 + f.dest] else [256 + f.srcB])
    let why := (s.core c).why slot ([256 + f.srcA] ++ (if read then [] else [256 + f.srcB])) regs
    let ok := decide (Machine.fld w 28 21 ≤ 3) && unusedZero w true true (!read) false && decide (f.srcA < 64) &&
      (if read then (Opd.u f.dest 2).ok g.decl else decide (f.dest < 64) && decide (f.srcB < 64))
    if !ok then s.illegal c slot g w
    else if why ≠ 0 then s.holdAt c slot g why
    else if m = 0 then s.setGroup c slot (g.next 8)
    else match semOperand (g.getU f.srcA) with
      | none => s.faultGroup c slot 0x07 m 0
      | some (n, node) =>
        if node.isSome && decide (minor ≠ 0) then s.faultGroup c slot 0x01 m 0
        else act g m f n node (if read then 0 else g.getU f.srcB)

/-- Who signals for a group (R423): KIND 1, its context, queue, node and the cookie of its command. -/
def State.groupSignaller (s : State) (c : Nat) (g : Group) (kind : Nat) : Signaller :=
  let k := s.core c
  let ctx := k.groupCtx g
  let (cookie, queue) := s.launchTag (k.groupLaunch g)
  ⟨kind, s.tenantOf ctx, ctx, queue, s.con.node, cookie⟩

/-- SEM.WAIT (R178, R427, R428): ends at once, or joins the semaphore's list; OK acquires at .p. -/
def execSemWait (c slot : Nat) (s : State) : Answer :=
  .next (s.semRow c slot 1 fun g _ f n _ count =>
    let w : Waiter := ⟨0, (s.core c).groupCtx g, 64 * c + slot, count, s.now, f.dest⟩
    match s.semWait n (s.tenantOf ((s.core c).groupCtx g)) w with
    | (some st, s) =>
      let k := (s.core c).setGroup slot (some ((g.setU f.dest st).next 8))
      s.setCore c (if st = stOk then k.acquire else k)
    | (none, s) => s.setGroup c slot { g with stat := .waiting, wait := 6, hold := false })

/-- SEM.DEC (R178, R353, R427): one that ends OK acquires at .p. -/
def execSemDec (c slot : Nat) (s : State) : Answer :=
  .next (s.semRow c slot 2 fun g _ f n _ count =>
    let (st, s) := s.semDec n count (s.tenantOf ((s.core c).groupCtx g))
    let k := (s.core c).setGroup slot (some ((g.setU f.dest st).next 8))
    s.setCore c (if st = stOk then k.acquire else k))

/-- SEM.READ (R178, R427): the value into the pair at uDEST. -/
def execSemRead (c slot : Nat) (s : State) : Answer :=
  .next (s.semRow c slot 3 fun g _ f n _ _ =>
    let (_, v, s) := s.semRead n (s.tenantOf ((s.core c).groupCtx g))
    s.setGroup c slot ((g.setUs f.dest 2 v).next 8))

/-! ### Points submissions and trace marks -/

/-- Bytes of a score (R236). -/
def scoreBytes (sfmt : Nat) : Nat := if sfmt = 2 then 4 else 2

/-- Is a record's reserved part zero (R239)? -/
def recordOk (b : List Byte) : Bool :=
  let n (off len : Nat) : Nat := leNat ((b.drop off).take len)
  decide (n 0 8 < 2 ^ 48) && decide (n 0xC 4 < 2 ^ 20) && decide (n 0x18 8 = 0)

/-- PTS.SUB (R176, R179, R238, R239): the batch is checked whole, then the unit reads it while the group waits. -/
def execPtsSub (c slot : Nat) (s : State) : Answer :=
  .next (s.issue c slot (isMinor 0x38 0 0) fun g w =>
    let f := iFields w
    let k := s.core c
    let m := execMask g f
    let a := g.getU f.srcA
    let count := g.getU f.srcB
    let (base, limit) := k.alloc g
    let why := k.why slot [256 + f.srcA, 256 + f.srcB] [256 + f.dest, 256 + f.srcA, 256 + f.srcB]
    let ok := decide (fld w 28 21 = 0) && unusedZero w true true true false && decide (f.dest < 64) &&
      decide (f.srcA < 64) && decide (f.srcB < 64)
    if !ok then s.illegal c slot g w
    else if why ≠ 0 then s.holdAt c slot g why
    else if m = 0 then s.setGroup c slot (g.next 8)
    else match s.pts.steps.find? (fun p => p.launch = k.groupLaunch g) with
      | none => s.faultGroup c slot 0x0B m a
      | some p =>
        if a % 16 ≠ 0 || count = 0 || 4096 < count then s.faultGroup c slot 0x0B m a
        else if limit < a + 16 then s.faultGroup c slot 0x0A m a
        else
          let rec_ := k.scratch.nat (base + a) 4
          let sco := k.scratch.nat (base + a + 4) 4
          let str := k.scratch.nat (base + a + 8) 4
          let bad := rec_ % 32 ≠ 0 || sco % 16 ≠ 0 || str % 16 ≠ 0 || str < p.dests * scoreBytes p.sfmt ||
            k.scratch.nat (base + a + 12) 4 ≠ 0
          let out := limit < rec_ + 32 * count || limit < sco + (count - 1) * str + p.dests * scoreBytes p.sfmt
          let inner := (List.range count).all (fun i =>
            limit < rec_ + 32 * i + 32 || recordOk (k.scratch.bytes (base + rec_ + 32 * i) 32))
          if bad || !inner then s.faultGroup c slot 0x0B m a
          else if out then s.faultGroup c slot 0x0A m a
          else if k.scratchBad (base + a) 16 then s.faultGroup c slot 0x06 m a
          else
            let u := s.unit (clusterOf c)
            let b : Submission := ⟨c, slot, g.block, k.groupLaunch g, k.groupCtx g, base + rec_, base + sco, str, count,
              0, 0, f.dest⟩
            let s := s.setUnit (clusterOf c) { u with subs := u.subs ++ [b] }
            s.setGroup c slot { g with stat := .waiting, wait := 10, hold := false })

/-- TRACE.MARK (R180, R620, R623). -/
def execTraceMark (c slot : Nat) (s : State) : Answer :=
  .next (s.issue c slot (isMinor 0x39 0 0) fun g w =>
    let f := iFields w
    let carry := bit w 16
    let why := (s.core c).why slot [256 + f.srcA] (if carry then [256 + f.srcA] else [])
    let ok := decide (fld w 28 21 = 0) && unusedZero w false carry false true && decide (f.srcA < 64) &&
      decide (fld w 20 17 = 0)
    if !ok then s.illegal c slot g w
    else if why ≠ 0 then s.holdAt c slot g why
    else
      let s' := s.setGroup c slot (g.next 8)
      if execMask g f = 0 then s'
      else
        let k := s.core c
        let mark := fld w 15 0
        let r : TraceRec := ⟨0x01, 0, c, k.groupCtx g, (s.launchTag (k.groupLaunch g)).2, fld w 16 0,
          if carry then g.getU f.srcA else 0⟩
        let t := s'.trace r
        if mark = t.fld R.dbgTraceTrigMark 15 0 then t.traceTrigger 3 else t)

end Sys2Proof.Machine
end

