-- ==== Sys2Proof/Machine/Bar.lean ====
section
/-! DEFINITION. Who reaches which register of BAR0, and when (spec 00 R5, 01 R32, 13 R480 to R482, 14 R516, 20 R634, R641). -/

namespace Sys2Proof.Machine

/-- The bounds of the blocks of BAR0 that a rule names. -/
def inBlock (off lo hi : Nat) : Bool := decide (lo ≤ off) && decide (off < hi)

/-- The blocks that NO_CONSIST serves (R32): GLB, CON, SEC, MGT and RAS. -/
def noConsistBlock (off : Nat) : Bool :=
  inBlock off 0 0x20000 || inBlock off 0x40000 0x70000

/-- The blocks whose reads a drained package answers (R641): GLB, PWR and MGT. -/
def drainedBlock (off : Nat) : Bool :=
  inBlock off 0 0x10000 || inBlock off 0x30000 0x40000 || inBlock off 0x50000 0x60000

/-- OWNER of a queue pair: from its record in force, or the port's OWNER for a raw one, as a function (R482, R490). -/
def State.qpFunc (s : State) (q : Nat) : Option Nat :=
  if q < 2 then some (s.fld (R.ethPortCfg q) 63 58)
  else (SMap.get none s.eth.qps q).map (fun x => s.tenantOf x.owner)

/-- May virtual function `fn` reach the register at `off` (R482, R516)? -/
def State.vfReach (s : State) (fn off : Nat) (write : Bool) : Bool :=
  let slot (base stride : Nat) : Nat := (off - base) / stride
  if off < 0x10000 then !write
  else if inBlock off 0x400000 0x800000 then
    s.fld (R.queCfg (slot 0x400000 0x100)) 37 32 = fn && !(write && (off - 0x400000) % 0x100 = 0)
  else if inBlock off 0x800000 0xA00000 then
    let n := slot 0x800000 0x200
    let r := (off - 0x800000) % 0x200
    s.tenantOf n = fn && decide (s.fld (R.ctxCfg n) 63 62 ≠ 0) && (!write || r = 0x10 || r = 0x50)
  else if inBlock off 0xD01000 0xD02000 then slot 0xD01000 64 = fn
  else if inBlock off 0x1401000 0x1402000 then slot 0x1401000 64 = fn
  else if inBlock off 0x1500000 0x1509000 then true
  else if inBlock off 0x1210000 0x1220000 then
    decide ((off - 0x1210000) % 16 = 8) && s.qpFunc (slot 0x1210000 16) = some fn && !write
  else if inBlock off 0x1220000 0x1230000 then s.qpFunc (slot 0x1220000 16) = some fn
  else false

/-- An access that R482 refuses: counted, and ACCESS_DENIED set. -/
def State.denied (s : State) (fn : Nat) : State := (s.count (R.pciFnDenied fn) 32 1).raiseCause fn 2

/-- Does the part answer memory requests at all: a consist has been loaded and applied, or none could be (R32, R634), and no reset has
stopped the link (R637)? -/
def State.answers (s : State) : Bool := decide (s.fld R.conStatus 3 0 ≠ 1) && !s.boot.stopped

/-- Has the orderly power-down ended (R641)? -/
def State.drained (s : State) : Bool := s.flag R.pwrDrain 1

/-- The physical function's AER logs a request as an Unsupported Request (R480). -/
def State.aerLog (s : State) : State := { s with pci := { s.pci with aer := s.pci.aer + 1 } }

/-- What becomes of a BAR0 access: nothing answers it, its function does not exist, Unsupported Request, it is not its function's own and
reads zero, it is refused by R421 or by R482, or it acts. -/
inductive Reach where
  | absent | noFunction | unsupported | foreign | semRefused | refused | acts
  deriving DecidableEq, Repr

/-- A BAR0 access of function `fn` to the register at `off` (R5, R32, R480 to R482, R634, R641). A function reaches only its own instance
of range maintenance (R367); a write of a SEM instance of another tenant has a flag of its own (R421). -/
def State.reach (s : State) (fn off : Nat) (write : Bool) : Reach :=
  if !s.answers then .absent
  else if !s.fnExists fn then .noFunction
  else if SMap.get false s.pci.d3 fn then .absent
  else if s.fld R.conStatus 3 0 = 0 && !noConsistBlock off then .unsupported
  else if s.drained && (write || !drainedBlock off) then .absent
  else if fn = 0 then (if inBlock off 0xD01040 0xD02000 then .foreign else .acts)
  else if inBlock off 0xA00000 0xC00000 then
    let n := (off - 0xA00000) / 32
    if s.fld (R.semCfg n) 59 54 = fn && !(write && (off - 0xA00000) % 32 = 0) then .acts
    else if write then .semRefused
    else .refused
  else if s.vfReach fn off write then .acts
  else .refused

/-- Does an access of the MGT block meet a fenced crossing between the control domain and the management controller's (R64, R70)? -/
def State.mgtCut (s : State) (off : Nat) : Bool := s.mem.fenced.contains (6, 0) && inBlock off 0x50000 0x60000

/-- A BAR0 access that acts by `act` where it is served, and is refused and counted otherwise. Across a fenced crossing a read meets poison
and a write is discarded and counted. -/
def State.mmio (s : State) (fn off : Nat) (write : Bool) (act : State → State) : State :=
  match s.reach fn off write with
  | .acts => if !s.mgtCut off then act s else if write then s.rled 3 1 else s.emit (.poisoned off)
  | .unsupported => s.emit .unsupported
  | .semRefused => s.setFlag R.dbgSemStatus 0
  | .refused => s.denied fn
  | .absent => s
  | .noFunction => if write then s.aerLog else s.aerLog.emit .unsupported
  | .foreign => s

end Sys2Proof.Machine
end

