-- ==== Sys2Proof/Machine/Tickets.lean ====
section
/-! DEFINITION. Tickets: the record in its cache or table, the side-table word, the lowest FREE ticket, the flush
(spec 06 R258 to R263, R267). -/

namespace Sys2Proof.Machine

/-- Where ticket `t`'s record and side-table word lie (R258). -/
def State.tktAddr (s : State) (t : Nat) : Nat := s.fld R.tktTableBase 55 0 + 64 * t
def State.sideAddr (s : State) (t : Nat) : Nat := s.fld R.tktSideBase 55 0 + 4 * t

/-- A cached record. -/
def State.tktLine (s : State) (t : Nat) : Option TktLine := SMap.get none s.pts.tickets t

/-- Replace a cached record. -/
def State.setTkt (s : State) (t : Nat) (x : Option TktLine) : State :=
  { s with pts := { s.pts with tickets := SMap.put none s.pts.tickets t x } }

/-- Write a modified record back to the table (R263); the mark of an uncorrectable record goes with it, so that only FREE and
retirement, which rewrite the record whole, clear it (R561). -/
def State.tktBack (s : State) (t : Nat) : State :=
  match s.tktLine t with
  | some x =>
    if x.dirty then
      let s := (s.memWrite (s.tktAddr t) x.bytes 2 0 true).setTkt t (some { x with dirty := false })
      if x.poison then { s with mem := s.mem.poisonRange (s.tktAddr t) 64 } else s
    else s
  | none => s

/-- Put a record into the cache of 8,192; the one that leaves is the oldest (DESIGN CHOICE, log 14), written back. -/
def State.tktPut (s : State) (t : Nat) (x : TktLine) : State :=
  let s := if (s.tktLine t).isSome || decide (s.pts.tickets.length < 8192) then s
    else
      match s.pts.tickets.foldl (fun (a : Option (Nat × Nat)) e => match e.2, a with
          | some y, none => some (e.1, y.stamp)
          | some y, some (k, st) => if y.stamp < st then some (e.1, y.stamp) else some (k, st)
          | none, a => a) none with
      | some (k, _) => (s.tktBack k).setTkt k none
      | none => s
  let s := s.setTkt t (some { x with stamp := s.pts.clock })
  { s with pts := { s.pts with clock := s.pts.clock + 1 } }

/-- The record of a ticket through the cache, and whether it is poisoned (R561). -/
def State.tktRead (s : State) (t : Nat) : List Byte × Bool × State :=
  match s.tktLine t with
  | some x => (x.bytes, x.poison, s)
  | none =>
    let s := s.count R.tktCacheMiss 32 1
    let (b, bad, s) := s.memRead (s.tktAddr t) 64 2 0 true
    (b, bad, s.tktPut t ⟨b, false, 0, bad⟩)

/-- Replace the record of a ticket; a record rewritten whole loses its poison. -/
def State.tktWrite (s : State) (t : Nat) (b : List Byte) (whole : Bool) : State :=
  let bad := match s.tktLine t with | some x => x.poison && !whole | none => false
  s.tktPut t ⟨b, true, 0, bad⟩

/-- A field of a record. -/
def tktFld (b : List Byte) (off len : Nat) : Nat := leNat ((b.drop off).take len)

/-- A record with a field replaced. -/
def tktSet (b : List Byte) (off len v : Nat) : List Byte := b.take off ++ leBytes len v ++ b.drop (off + len)

/-- Write the side-table word that a record stands for (R259). -/
def State.sideWrite (s : State) (t : Nat) (b : List Byte) : State :=
  let w := if tktFld b 2 1 = 1 then tktFld b 0 2 % 4096 + 2 ^ 12 + 2 ^ 13 * (tktFld b 0x20 1 % 2) else 0
  s.memWrite (s.sideAddr t) (leBytes 4 w) 2 0 true

/-- STATUS of a ticket, without disturbing the cache. -/
def State.tktStatus (s : State) (t : Nat) : Nat :=
  match s.tktLine t with
  | some x => tktFld x.bytes 2 1
  | none => tktFld (s.memRead (s.tktAddr t) 64 2 0 false).1 2 1

/-- The lowest FREE ticket from `t` upward (R263). -/
def State.tktFree (s : State) (t : Nat) : Nat → Option Nat
  | 0 => none
  | fuel + 1 => if s.tktStatus t = 0 then some t else State.tktFree s (t + 1) fuel

/-- Does a record belong to a context (R260)? -/
def tktOwned (b : List Byte) (ctx : Nat) : Bool := tktFld b 2 1 = 1 && tktFld b 0 2 % 4096 = ctx

/-- Return a ticket to FREE (R260, R263). -/
def State.tktRelease (s : State) (t : Nat) : State :=
  let z := leBytes 64 0
  let s := ((s.tktWrite t z true).sideWrite t z).count R.tktFrees 64 1
  s.wr R.tktActive (BitVec.ofNat 64 ((s.rd R.tktActive).toNat - 1))

/-- Every modified record of the cache is written back (R263). -/
def State.tktFlushAll (s : State) : State := s.pts.tickets.foldl (fun s e => s.tktBack e.1) s

/-- TKT_FLUSH (R263, R267): a write of TKT_FLUSH. -/
def execTktFlush (fn : Nat) (s : State) : Answer := .next (s.mmio fn R.tktFlush true State.tktFlushAll)

end Sys2Proof.Machine
end

