-- ==== Sys2Proof/Machine/Cmds.lean ====
section
/-! DEFINITION. Questions and marks over the commands in flight: who runs, which flows a program lists, who completes
with GUARANTEE_VOID (spec 10 R404, R417, 12 R457, 15 R542, R548). -/

namespace Sys2Proof.Machine

/-- The entries fetched and not retired, by number. -/
def State.cmdList (s : State) : List (Nat × Cmd) := s.dsp.cmds.filterMap (fun e => e.2.map (fun c => (e.1, c)))

/-- The launches that have started and not completed. -/
def State.launchList (s : State) : List (Nat × Launch) := s.dsp.launches.filterMap (fun e => e.2.map (fun c => (e.1, c)))

/-- Is an entry between its START and its END (R382, R403)? A lane-admitted one has started at its reserved start. -/
def Cmd.inService (c : Cmd) : Bool := c.stage = .running || (c.stage = .cleared && c.lane.isSome)

/-- Has an entry started (R382)? A best-effort program has from its first instruction on. -/
def State.serving (s : State) (c : Cmd) : Bool :=
  c.inService && (c.lane.isSome || match c.thr.bind s.thread with | some th => !th.fresh | none => true)

/-- The flow list of the stored program an entry has pinned (R417). -/
def State.cmdFlows (s : State) (c : Cmd) : List Nat :=
  match c.pin with
  | some (slot, _) => ((SMap.get none s.dsp.slots slot).map PSlot.flows).getD []
  | none => []

/-- Set GUARANTEE_VOID in every command between its START and its END that satisfies a test (R404, R542, R548). -/
def State.voidCmds (s : State) (p : Nat → Cmd → Bool) : State :=
  { s with dsp := { s.dsp with cmds := SMap.mapv none (fun n x =>
      x.map (fun c => if s.serving c && p n c then { c with void := true } else c)) s.dsp.cmds } }

/-- The flows that a command's remote messages may take (R453): those its program lists, once the command is
lane-admitted. -/
def State.flowsOf (s : State) (cmd : Nat) : List Nat :=
  match s.cmd cmd with
  | some c => if c.lane.isSome then s.cmdFlows c else []
  | none => []

/-- A signal of an engine was refused (R426): the command completes with that status unless it ends otherwise. The first
refusal stands. -/
def State.signalRefused (s : State) (cmd st : Nat) : State :=
  match s.cmd cmd with
  | some c => if st = stSemForeign || st = stSemBroken then s.setCmd cmd (some { c with refused := c.refused.or (some st) }) else s
  | none => s

end Sys2Proof.Machine
end

