-- ==== Sys2Proof/Machine/Mainline.lean ====
section
/-! DEFINITION. Mainline: routes, ledgers, acceptance and reception of messages, lost destinations and flows
(spec 12). -/

namespace Sys2Proof.Machine

/-! ### Routes -/

/-- x and y of a node (R301, R423). -/
def nodeX (n : Nat) : Nat := nfld n 7 4
def nodeY (n : Nat) : Nat := nfld n 3 0

/-- The direction in which a message at `n` for `d` leaves (R443, R444): 0 north, 1 east, 2 south, 3 west. -/
def dirOf (n d : Nat) : Option Nat :=
  if nodeX n < nodeX d then some 1 else if nodeX d < nodeX n then some 3
  else if nodeY n < nodeY d then some 0 else if nodeY d < nodeY n then some 2 else none

/-- The neighbour in a direction (R440). -/
def stepTo (n dir : Nat) : Nat :=
  match dir with
  | 0 => n + 1
  | 1 => n + 16
  | 2 => n - 1
  | _ => n - 16

/-- The nodes and directions of the route from `n` to `d`; a route has at most 30 hops. -/
def routeFrom : Nat → Nat → Nat → List (Nat × Nat)
  | 0, _, _ => []
  | fuel + 1, n, d => match dirOf n d with
    | none => []
    | some dir => (n, dir) :: routeFrom fuel (stepTo n dir) d

/-- The route of R443. -/
def route (n d : Nat) : List (Nat × Nat) := routeFrom 31 n d

/-- Hops to the destination (R431). -/
def hopsTo (n d : Nat) : Nat := (route n d).length

/-- STATE of a port (R475). -/
def State.portState (s : State) (p : Nat) : Nat := s.fld (R.mlnPortStatus p) 3 0

/-- Is a port UP? -/
def State.portUp (s : State) (p : Nat) : Bool := s.portState p = 2

/-- Is a port in service or waiting out a retrain (R466, R467: traffic waits and is not lost)? -/
def State.portUsable (s : State) (p : Nat) : Bool := s.portState p = 2 || (s.portState p = 1 && s.mln.retraining.contains p)

/-- Would a port's neighbour lie inside the mesh (R440, R441)? -/
def State.facesMesh (s : State) (p : Nat) : Bool :=
  match p / 2 with
  | 0 => decide (nodeY s.con.node + 1 < s.con.meshH)
  | 1 => decide (nodeX s.con.node + 1 < s.con.meshW)
  | 2 => decide (0 < nodeY s.con.node)
  | _ => decide (0 < nodeX s.con.node)

/-- Is a link direction lost, as far as this package knows (R443, R469): its own ports DISABLED or DOWN, or both links of it named as down at either
end? A port that trains may still come UP. -/
def State.linkLost (s : State) (h : Nat × Nat) : Bool :=
  let far (b : Nat) : Nat × Nat := (stepTo h.1 h.2, (2 * h.2 + b + 4) % 8)
  (List.range 2).all fun b =>
    if h.1 = s.con.node then s.portState (2 * h.2 + b) = 0 || s.portState (2 * h.2 + b) = 3
    else s.mln.links.contains (h.1, 2 * h.2 + b) || s.mln.links.contains (far b)

/-- Is a destination lost (R469)? -/
def State.destLost (s : State) (d : Nat) : Bool :=
  s.mln.peers.contains d || (route s.con.node d).any s.linkLost

/-- Is a node marked in MLN_DEAD_MAP? -/
def State.dead (s : State) (d : Nat) : Bool := s.flag (R.mlnDeadMap (d / 64)) (d % 64)

/-- Is a destination unreachable now (R443): lost, or its route leaves this package in a direction in which no port is UP? -/
def State.unreachable (s : State) (d : Nat) : Bool :=
  s.dead d || (match dirOf s.con.node d with
    | some dir => !s.portUsable (2 * dir) && !s.portUsable (2 * dir + 1)
    | none => false)

/-- The nodes of the mesh other than this one (R47). -/
def State.meshNodes (s : State) : List Nat :=
  (List.range 256).filter (fun n =>
    decide (nodeX n < s.con.meshW) && decide (nodeY n < s.con.meshH) && decide (n ≠ s.con.node))

/-- Parity of the eight bits of a byte. -/
def parity8 (n : Nat) : Nat := ones 8 n % 2

/-- The flow entry of this package's timetable. -/
def State.flow? (s : State) (f : Nat) : Option Flow := s.mln.flows.find? (fun x => x.num = f)

/-- The port by which a message leaves (R444): its flow's unless the flow is UNSERVED here, else by direction and parity. -/
def State.outPort (s : State) (m : Msg) : Option Nat :=
  let own := match s.flow? m.flow with
    | some f => if f.state ≠ 3 && decide (f.outPort < 8) && decide (m.cls = 1) then some f.outPort else none
    | none => none
  match own with
  | some p => if s.portUsable p then some p else none
  | none =>
    match dirOf s.con.node m.dst with
    | none => none
    | some d =>
      let b := parity8 (Nat.xor m.src m.dst)
      [2 * d + b, 2 * d + (1 - b)].find? s.portUp |>.or ([2 * d + b, 2 * d + (1 - b)].find? s.portUsable)

/-! ### Messages and ledgers -/

/-- Bytes a message occupies (R460, R461). -/
def Msg.size (m : Msg) : Nat := 32 + roundUp m.data.length 16

/-- An empty header. -/
def Msg.blank (typ cls src dst : Nat) : Msg := ⟨typ, cls, false, false, src, dst, 0, 0, 0, 0, 0, 0, 0, 0, []⟩

/-- Add to count `i` of ledger `k` (R472). -/
def State.led (s : State) (k i n : Nat) : State := s.count (R.mlnLedger (4 * k + i)) 64 n

/-- Take from the held count of a ledger. -/
def State.unhold (s : State) (k n : Nat) : State :=
  s.wr (R.mlnLedger (4 * k + 2)) (BitVec.ofNat 64 ((s.rd (R.mlnLedger (4 * k + 2))).toNat - n))

/-- Replace Mainline's own part. -/
def State.setMln (s : State) (m : MlnState) : State := { s with mln := m }

/-- The buffer of a port that a message occupies (R445, R450): its class's, or its flow's. -/
def Msg.lane (m : Msg) : Nat := if m.cls = 1 then 4 + m.flow else m.cls

/-- Units of 16 bytes that a buffer holds (R450; the other classes' sizes are not stated, log 101). -/
def laneUnits (lane : Nat) : Nat := if 4 ≤ lane then 1400 else Config.portBuffer lane

/-- The port by which a message has arrived (R443, R444): its flow's, or the one that faces the package before this one, 8 where there is none. -/
def State.inPortOf (s : State) (m : Msg) : Nat :=
  match (if m.cls = 1 then s.flow? m.flow else none), (route m.src s.con.node).getLast? with
  | some f, _ => f.inPort
  | none, some h =>
    let b := parity8 (Nat.xor m.src m.dst)
    let at_ (i : Nat) : Nat := (2 * h.2 + i + 4) % 8
    if s.portUp (at_ b) then at_ b else at_ (1 - b)
  | none, none => 8

/-- A buffer of a port is freed of some units: their link credits are to be returned (R445, R463). -/
def State.owe (s : State) (p lane n : Nat) : State :=
  if p < 8 then s.setMln { s.mln with owed := SMap.upd 0 s.mln.owed (8 * lane + p) (· + n) } else s

/-- An arrived message frees the buffer it filled. -/
def State.freed (s : State) (m : Msg) : State := s.owe (s.inPortOf m) m.lane (m.size / 16)

/-- A message arrives and frees its buffer at once (R472). -/
def State.passed (s : State) (m : Msg) : State := ((s.led 3 0 (m.size / 16)).led 3 1 (m.size / 16)).freed m

/-- A message that was to leave is discarded (R470, R472). -/
def State.discard (s : State) (l : Leaving) : State :=
  let u := l.msg.size / 16
  let s := if l.credit then (s.led 1 3 u).unhold 1 u else s
  if l.transit then ((s.led 3 3 u).unhold 3 u).owe l.from_ l.lane u else s

/-- Queue a message for the port it leaves by; it is discarded where no port of its way is UP (R470). -/
def State.queueOut (s : State) (m : Msg) (credit transit : Bool) (from_ lane : Nat) : State :=
  match s.outPort m with
  | some p => s.setMln { s.mln with leaving := s.mln.leaving ++ [⟨p, m, credit, transit, from_, lane⟩] }
  | none => s.discard ⟨8, m, credit, transit, from_, lane⟩

/-- A message of this package leaves, with its TIME (R460). -/
def State.leave (s : State) (m : Msg) (credit : Bool) : State := s.queueOut { m with time := s.time40 } credit false 8 0

/-- A message that arrived as `m` goes on to another package as `out` (R444, R472). -/
def State.passOn (s : State) (m out : Msg) : State :=
  let u := m.size / 16
  ((s.led 3 0 u).led 3 2 u).queueOut out false true (s.inPortOf m) m.lane

/-- A NOTICE to one package (R461). -/
def State.notice (s : State) (kind dst node port flow epoch : Nat) : State :=
  s.leave { Msg.blank 6 0 s.con.node dst with
    data := leBytes 1 kind ++ leBytes 1 0 ++ leBytes 1 node ++ leBytes 1 port ++ leBytes 2 flow ++ leBytes 4 epoch ++
      leBytes 6 0 ++ leBytes 8 (s.fld R.mlnFrame 47 0) ++ leBytes 8 0 } false

/-- A NOTICE to every package that is reachable (R452, R468). -/
def State.noticeAll (s : State) (kind node port epoch : Nat) : State :=
  (s.meshNodes.filter (fun n => !s.dead n)).foldl (fun s n => s.notice kind n node port 0 epoch) s

/-- The message's flow at its source (R453): the lowest of the command's that is SERVED and joins source and
destination. A SIGNAL is of class SIG and takes none (log 102). -/
def State.pickFlow (s : State) (flows : List Nat) (dst : Nat) : Option Flow :=
  s.mln.flows.foldl (fun (a : Option Flow) f =>
    if flows.contains f.num && f.state = 1 && f.src = s.con.node && f.dst = dst then
      match a with
      | some b => if f.num < b.num then some f else a
      | none => some f
    else a) none

/-- Injection credit a flow has taken (R454). -/
def State.flowTaken (s : State) (f : Nat) : Nat :=
  (s.mln.leaving.filter (fun l => l.credit && l.msg.flow = f)).foldl (fun a l => a + l.msg.size) 0

/-- Messages to a destination that await acknowledgement (R464). -/
def State.unackedTo (s : State) (d : Nat) : Nat := (s.mln.unacked.filter (fun u => u.dest = d)).length

/-- The writes of a core that were surrendered are reported to the fences of its groups (R171, R346). -/
def State.tellLost (s : State) (core : Nat) : State :=
  if core < 192 then
    s.updCore core (fun k => { k with lost := k.groupList.foldl (fun a e => if a.contains e.1 then a else a ++ [e.1]) k.lost })
  else s

/-- A port controller accepts a WRITE, READ or SIGNAL of this package (R453, R454, R463, R464, R470), or `none` while it
has to wait. A message to a destination that is unreachable (R443), or across a fenced crossing (R70), is discarded and counted as surrendered. -/
def State.mlnAccept (s : State) (m : Msg) (core : Nat) (flows : List Nat) : Option State :=
  if s.unreachable m.dst || s.cutOff 5 0 then some (((s.led 0 0 1).led 0 3 1).tellLost core)
  else if s.mln.needReset.contains m.dst || decide (1024 ≤ s.unackedTo m.dst) then none
  else
    let f := if m.typ = 4 then none else s.pickFlow flows m.dst
    let room := match f with | some f => decide (s.flowTaken f.num + m.size ≤ 11200) | none => true
    if !room then none
    else
      let seq := SMap.get 0 s.mln.nextSeq m.dst
      let msg := { m with
        cls := if m.typ = 4 then 0 else if f.isSome then 1 else 2,
        seq := seq,
        flow := if m.typ = 4 then 0 else (f.map Flow.num).getD 0xFFFF }
      let s := s.setMln { s.mln with
        nextSeq := SMap.put 0 s.mln.nextSeq m.dst ((seq + 1) % 2 ^ 16),
        unacked := s.mln.unacked ++ [⟨m.dst, seq, core⟩] }
      let s := ((s.led 0 0 1).led 0 2 1).hit 213 (if m.typ = 4 then 0x5022 else if f.isSome then 0x5020 else 0x5021) 1
      let s := if f.isSome then (s.led 1 0 (m.size / 16)).led 1 2 (m.size / 16) else s
      some (s.leave msg f.isSome)

/-! ### Flows -/

/-- The nodes of a flow's path. -/
def Flow.nodes (f : Flow) : List Nat := (route f.src f.dst).map Prod.fst ++ [f.dst]

/-- Does a flow need a port of this package? -/
def Flow.uses (f : Flow) (p : Nat) : Bool := f.inPort = p || f.outPort = p

/-- Why a flow cannot be served now (R452, R457, R471): 0 when it can, else REASON of R476. -/
def State.flowReason (s : State) (f : Flow) : Nat :=
  let ports := (List.range 8).filter f.uses
  let epoch (n : Nat) : Nat := if n = s.con.node then s.fld R.mlnEpoch 31 0 else SMap.get 0 s.mln.epochs n
  if s.mln.impaired.contains f.num then 2
  else if ports.any (fun p => !s.portUp p) || (route f.src f.dst).any s.linkLost || f.nodes.any (fun n => decide (n ≠ s.con.node) && s.dead n) then 3
  else if ports.any (fun p => decide (s.fld (R.mlnPortStatus p) 11 8 < 8)) then 2
  else if ports.any (fun p => s.flag (R.mlnPortStatus p) 5) || f.nodes.any (fun n => epoch n ≠ s.fld R.mlnEpoch 31 0) then 1
  else if !s.flag R.mlnStatus 0 then 5
  else 0

/-- Replace a flow. -/
def State.setFlow (s : State) (f : Flow) : State :=
  s.setMln { s.mln with flows := s.mln.flows.map (fun x => if x.num = f.num then f else x) }

/-- A flow becomes LATE or UNSERVED (R457): a move away from SERVED is declared, that is counted, shown, and marks the running commands
that list it; the package where the cause arises tells the others of the path. -/
def State.declareFlow (s : State) (num state reason : Nat) (origin : Bool) : State :=
  match s.flow? num with
  | none => s
  | some f =>
    if state ≤ f.state then s
    else
      let s := s.setFlow { f with
        state := state,
        reason := reason,
        late := if f.declared then f.late else min 0xFFFF (f.late + 1),
        declared := true }
      let s := if f.state ≠ 1 then s
        else ((s.count R.mlnLateCount 32 1).setFlag R.mlnStatus 14).voidCmds (fun _ c => (s.cmdFlows c).contains num)
      if origin then
        (f.nodes.filter (fun n => n ≠ s.con.node && !s.dead n)).foldl (fun s n =>
          s.notice (if state = 2 then 4 else 5) n s.con.node 0 num 0) s
      else s

/-- Declare every flow that a change has left without service. -/
def State.declareFlows (s : State) (origin : Bool) : State :=
  s.mln.flows.foldl (fun s f =>
    let r := s.flowReason f
    if r = 0 then s
    else
      let s := if r = 2 && !s.mln.impaired.contains f.num then s.setMln { s.mln with impaired := s.mln.impaired ++ [f.num] } else s
      s.declareFlow f.num 3 r origin) s

/-- EPOCH_MISMATCH of the ports UP follows the epochs of both ends (R38, R442, R475). -/
def State.matchEpochs (s : State) : State :=
  ((List.range 8).filter s.portUp).foldl (fun s p =>
    s.putFlag (R.mlnPortStatus p) 5
      (decide (SMap.get 0 s.mln.epochs (stepTo s.con.node (p / 2)) ≠ s.fld R.mlnEpoch 31 0))) s

/-- Flows that were not served for want of agreement or alignment are, once both hold (R452). -/
def State.reviveFlows (s : State) : State :=
  s.mln.flows.foldl (fun s f =>
    if f.state = 3 && (f.reason = 1 || f.reason = 5) && s.flowReason f = 0 then s.setFlow { f with state := 1, reason := 0 } else s) s

/-! ### Lost destinations -/

/-- The remote reads of a reader end: what still comes is not awaited, and answers that wait behind an earlier chunk are discarded (R116). -/
def State.dropReads (s : State) (who : MlnReader) : State :=
  let held := (s.mln.reads.filter (fun r => r.who = who)).filterMap MlnRead.got
  let u := held.foldl (fun a m => a + m.size / 16) 0
  held.foldl State.freed
    (((s.setMln { s.mln with reads := s.mln.reads.filter (fun r => !decide (r.who = who)) }).unhold 3 u).led 3 1 u)

/-- A TCOPY slot holds its first fault (R116), and what it still asked for does not arrive; the slot of a block that has ended is free at
once, and its launch ends with the code (R117). -/
def State.slotFault (s : State) (c n code : Nat) : State :=
  let s := s.dropReads (.tcopy c n)
  match SMap.get none (s.core c).tcopy n with
  | none => s
  | some t =>
    let put (x : Option TSlot) : State := s.updCore c (fun k => { k with tcopy := SMap.put none k.tcopy n x })
    if t.block = 64 then (put none).launchFault t.launch code 0
    else put (some { t with fault := t.fault.or (some code) })

/-- A reader's remote read ends with a fault code and nothing delivered: a TCOPY slot holds it (R116), a hub copy ends
with it. -/
def State.readFails (s : State) (w : MlnReader) (code : Nat) : State :=
  match w with
  | .tcopy c n => s.slotFault c n code
  | .copy n =>
    let s := s.dropReads (.copy n)
    match SMap.get none s.dsp.copies n with
    | some x => { s with dsp := { s.dsp with copies := SMap.put none s.dsp.copies n (some { x with failed := x.failed.or (some code) }) } }
    | none => s

/-- A destination is marked lost (R470): cause 1 by its route, 2 by PEER_DOWN. What other packages send to it goes on to where its next hop is
DOWN. -/
def State.loseNode (s : State) (d cause : Nat) : State :=
  let gone := s.mln.unacked.filter (fun u => u.dest = d)
  let mine (l : Leaving) : Bool := l.msg.dst = d && !l.transit
  let left := s.mln.leaving.filter mine
  let held := s.mln.hold.filter (fun m => m.src = d)
  let units := held.foldl (fun a m => a + m.size / 16) 0
  let reads := s.mln.reads.filter (fun r => r.dest = d && r.got.isNone)
  let s := s.setMln { s.mln with
    unacked := s.mln.unacked.filter (fun u => !decide (u.dest = d)),
    leaving := s.mln.leaving.filter (fun l => !mine l),
    hold := s.mln.hold.filter (fun m => !decide (m.src = d)) }
  let s := (s.led 0 3 gone.length).unhold 0 gone.length
  let s := left.foldl State.discard s
  let s := held.foldl State.freed ((s.led 3 3 units).unhold 3 units)
  let s := gone.foldl (fun s u => s.tellLost u.core) s
  let s := reads.foldl (fun s r => s.readFails r.who 0x05) s
  let s := (s.setFlag (R.mlnDeadMap (d / 64)) (d % 64)).setFlag R.mlnStatus 15
  let s := s.fillLog R.mlnPeerLog (BitVec.ofNat 64 (2 ^ 63 + d * 2 ^ 55 + cause * 2 ^ 52 + s.time40))
  let s := (s.declareFlows true).raiseCause 0 11
  s.traceEvent ⟨0x0F, 7, 0, 0, 0, d, 0⟩ 6

/-- Mark every destination that is now lost (R469). -/
def State.markLost (s : State) (cause : Nat) : State :=
  s.meshNodes.foldl (fun s d => if s.destLost d && !s.dead d then s.loseNode d cause else s) s

/-- Destinations whose route is UP again become reachable: their pair awaits PAIR_RESET (R471), and they hear the epoch in force (R452). -/
def State.markFound (s : State) : State :=
  s.meshNodes.foldl (fun s d =>
    if s.dead d && !s.destLost d then
      let s := s.clrFlag (R.mlnDeadMap (d / 64)) (d % 64)
      let s := s.setMln { s.mln with needReset := s.mln.needReset ++ [d] }
      (s.notice 7 d s.con.node 0 0 0).notice 6 d s.con.node 0 0 (s.fld R.mlnEpoch 31 0)
    else s) s

/-! ### Reception -/

/-- Does a message break the tables of R460 and R461? -/
def Msg.malformed (m : Msg) : Bool :=
  let flowOk := if m.cls = 1 then decide (m.flow < 0x1000) else decide (m.flow = 0xFFFF)
  let zero (l : List Nat) : Bool := l.all (fun x => x = 0)
  let rw := decide (1 ≤ m.len) && decide (m.len ≤ 512) && (m.cls = 1 || m.cls = 2) && flowOk && decide (m.addr < 2 ^ 48) &&
    decide (m.tenant < 64)
  !(match m.typ with
    | 1 => rw && decide (m.data.length = m.len) && decide (m.addr % 512 + m.len ≤ 512) && zero [m.status, m.tag]
    | 2 => rw && m.data.isEmpty && zero [m.status]
    | 3 => m.cls = 3 && zero [m.seq, m.flow, m.tenant] && decide (m.status ≤ 3) && decide (m.len ≤ 512) && decide (m.data.length = if m.status = 0 then m.len else 0)
    | 4 => m.cls = 0 && decide (m.data.length = 32) && decide (m.tenant < 64) && zero [m.flow, m.addr, m.len, m.status, m.tag] &&
        decide (leNat (m.data.drop 20) = 0)
    | 5 => m.cls = 0 && m.data.isEmpty && zero [m.flow, m.addr, m.status, m.tag, m.tenant]
    | 6 => m.cls = 0 && decide (m.data.length = 32) && zero [m.seq, m.flow, m.addr, m.len, m.status, m.tag, m.tenant] &&
        decide (1 ≤ leNat (m.data.take 1)) && decide (leNat (m.data.take 1) ≤ 7) &&
        decide (leNat ((m.data.drop 1).take 1) = 0) && decide (leNat ((m.data.drop 10).take 6) = 0) && decide (leNat (m.data.drop 24) = 0)
    | _ => false)

/-- STATUS of a received WRITE or READ (R462): 0 when it may be performed. -/
def State.rxStatus (s : State) (m : Msg) (write : Bool) : Nat :=
  if localEnd < m.addr + m.len then 3
  else
    let ok := (List.range 64).any fun w =>
      let cfg := s.inForce (R.mlnRxWinCfg w)
      let base := 4096 * Machine.fld (s.inForce (R.mlnRxWinBase w)) 47 12
      bit cfg 48 && decide (Machine.fld cfg 45 40 = m.tenant) && bit cfg (if write then 47 else 46) &&
        decide (base ≤ m.addr) && decide (m.addr + m.len ≤ base + 4096 * Machine.fld cfg 35 0)
    if ok then 0 else 1

/-- A cumulative ACK to a source (R464). -/
def State.ackTo (s : State) (src : Nat) : State :=
  let e := SMap.get 0 s.mln.expect src
  let m := { Msg.blank 5 0 s.con.node src with
    seq := (e + 0xFFFF) % 2 ^ 16,
    len := SMap.get 0 s.mln.refused src % 2 ^ 16 }
  let s := s.setMln { s.mln with
    performed := SMap.put 0 s.mln.performed src 0,
    refused := SMap.put 0 s.mln.refused src 0 }
  s.leave m false

/-- Count a refused WRITE, READ or SIGNAL for the next ACK (R462). -/
def State.refuseFrom (s : State) (src : Nat) : State :=
  s.setMln { s.mln with refused := SMap.put 0 s.mln.refused src (SMap.get 0 s.mln.refused src + 1) }

/-- Perform a WRITE at its home slice under the tenant's key (R462); one into the sealed pool is discarded (R414). A
remote write has no requester class of R362 and allocates nothing. -/
def State.performWrite (s : State) (m : Msg) : State :=
  match s.rxStatus m true with
  | 0 => if s.inPool m.addr m.len then s else if s.cutOff 5 0 then s.rled 3 1 else s.memWrite m.addr m.data 5 m.tenant false
  | _ => (s.count R.mlnRxRefused 32 1).refuseFrom m.src

/-- Answer a READ (R461, R462). -/
def State.performRead (s : State) (m : Msg) : State :=
  let rsp (st : Nat) (d : List Byte) : Msg :=
    { Msg.blank 3 3 s.con.node m.src with addr := m.addr, len := m.len, tag := m.tag, status := st, data := d }
  match s.rxStatus m false with
  | 0 =>
    let (b, bad, s) := s.memRead m.addr m.len 5 m.tenant false
    s.leave (if bad || s.cutOff 5 0 then rsp 2 [] else rsp 0 b) false
  | st => ((s.count R.mlnRxRefused 32 1).refuseFrom m.src).leave (rsp st []) false

/-- Apply a remote signal (R432). -/
def State.performSignal (s : State) (m : Msg) : State :=
  let n (off len : Nat) : Nat := leNat ((m.data.drop off).take len)
  let sem := n 0 2
  let st := if s.semState sem ≠ 0 && !s.flag (R.semCfg sem) 61 then stSemForeign else s.semCheck sem m.tenant
  if st = 0 then (s.semSignal sem (n 2 6) ⟨4, m.tenant, n 8 2 % 2 ^ 12, n 10 2 % 2 ^ 14, m.src, n 12 8⟩).2
  else (s.semRefuse st).count R.dbgSemRemoteRefused 32 1

/-- Perform one message whose turn it is, and return an ACK after 64 (R463, R464). -/
def State.performMsg (s : State) (m : Msg) : State :=
  let s := match m.typ with
    | 1 => s.performWrite m
    | 2 => s.performRead m
    | _ => s.performSignal m
  let p := SMap.get 0 s.mln.performed m.src + 1
  let s := s.setMln { s.mln with
    expect := SMap.put 0 s.mln.expect m.src ((m.seq + 1) % 2 ^ 16),
    performed := SMap.put 0 s.mln.performed m.src p }
  let s := (s.led 3 1 (m.size / 16)).freed m
  if 64 ≤ p then s.ackTo m.src else s

/-- Perform the held messages of a source whose turn has come. -/
def State.performHeld (s : State) (src : Nat) : Nat → State
  | 0 => s
  | fuel + 1 =>
    match s.mln.hold.find? (fun m => m.src = src && m.seq = SMap.get 0 s.mln.expect src) with
    | none => s
    | some m =>
      let s := s.setMln { s.mln with hold := s.mln.hold.erase m }
      State.performHeld ((s.unhold 3 (m.size / 16)).performMsg m) src fuel

/-- A WRITE, READ or SIGNAL for this package arrives (R461 to R463, R471): discarded where it breaks the table or its pair
awaits PAIR_RESET, performed in its turn, held ahead of it. A sequence number already performed is not performed again. -/
def State.receive (s : State) (typ : Nat) (m : Msg) : State :=
  if m.typ ≠ typ || m.dst ≠ s.con.node then s
  else if m.malformed then (s.count R.mlnRxMalformed 32 1).freed m
  else if s.mln.needReset.contains m.src then ((s.led 3 0 (m.size / 16)).led 3 3 (m.size / 16)).freed m
  else
    let e := SMap.get 0 s.mln.expect m.src
    let ahead := (m.seq + 2 ^ 16 - e) % 2 ^ 16
    let s := s.led 3 0 (m.size / 16)
    if ahead = 0 then (s.performMsg m).performHeld m.src s.mln.hold.length
    else if ahead < 2 ^ 15 && !s.mln.hold.any (fun h => h.src = m.src && h.seq = m.seq) then
      (s.led 3 2 (m.size / 16)).setMln { s.mln with hold := s.mln.hold ++ [m] }
    else (s.led 3 1 (m.size / 16)).freed m

end Sys2Proof.Machine
end

