-- ==== Sys2Proof/Machine/Vm.lean ====
section
/-! DEFINITION. How the units other than the thread port move memory: reads and writes by virtual address, host memory,
remote chunks, and transfers between two sides, as TCOPY slots and hub copies make them (spec 03 R112 to R118, 08 R301
to R304, 10 R398 to R400, 12 R461). -/

namespace Sys2Proof.Machine

/-- Why an access by virtual address ended (R398, R414): a thread fault code with the cause of R328, or a write into the
sealed pool. -/
inductive VmFault where
  | code (code cause : Nat)
  | sealed
  deriving DecidableEq, Repr

/-- Who accesses: its place in the translation path, its class in R329, its class in R362 and its context. -/
structure VmUser where
  req : Req
  cls : Nat
  mem : Nat
  ctx : Nat
  deriving DecidableEq, Repr

/-- Does a user's access meet a fenced crossing (R70)? -/
def State.userCut (s : State) (u : VmUser) : Bool := match u.req with | .core c => s.coreCut c | _ => false

/-- Does a user's access to local memory at an offset need the west-east link while it is down (R52)? -/
def State.userFar (s : State) (u : VmUser) (off : Nat) : Bool := match u.req with | .core c => s.linkCut c off | _ => false

/-- A write to host memory (R302, R332): sent for the context's function. -/
def State.hostWrite (s : State) (ctx a : Nat) (b : List Byte) : State :=
  s.emit (.hostWrite (s.tenantOf ctx) a b)

/-- Read bytes of one page by virtual address: bytes, or a fault; remote memory is not read this way (R302). -/
def State.pageRead (s : State) (u : VmUser) (va len : Nat) : (List Byte ⊕ VmFault) × State :=
  if s.userCut u then (.inr (.code 0x06 0), s.consumedPoison)
  else match s.xlate u.req u.cls u.ctx va needR with
  | (.fault cause _, s) => (.inr (.code (causeCode cause) cause), s)
  | (.ok pa region, s) =>
    match s.placeOf pa with
    | .remote => (.inr (.code 0x01 0), s)
    | .host =>
      let (b, bad, s) := s.busRead (s.tenantOf u.ctx) 1 (u.ctx % 4096) (s.hostAddr u.ctx pa) len
      if bad then (.inr (.code 0x06 0), s) else (.inl b, s)
    | .localMem =>
      if s.userFar u (paOffset pa) then (.inr (.code 0x06 0), s.consumedPoison)
      else
        let (b, bad, s) := s.memRead (paOffset pa) len u.mem (s.keySlotOf u.ctx va) (decide (region ≤ 1))
        if bad then (.inr (.code 0x06 0), s.consumedPoison) else (.inl b, s)

/-- Write bytes of one page by virtual address to local or host memory. -/
def State.pageWrite (s : State) (u : VmUser) (va : Nat) (b : List Byte) : Option VmFault × State :=
  if s.userCut u then (none, s.rled 3 1)
  else match s.xlate u.req u.cls u.ctx va needW with
  | (.fault cause _, s) => (some (.code (causeCode cause) cause), s)
  | (.ok pa region, s) =>
    match s.placeOf pa with
    | .remote => (some (.code 0x01 0), s)
    | .host => (none, s.hostWrite u.ctx (s.hostAddr u.ctx pa) b)
    | .localMem =>
      if s.userFar u (paOffset pa) then (none, s.rled 3 1)
      else if s.inPool (paOffset pa) b.length then (some .sealed, s)
      else (none, s.memWrite (paOffset pa) b u.mem (s.keySlotOf u.ctx va) (decide (region ≤ 1)))

/-- The pieces of a range that lie in one page each: address, length, position. -/
def pagePieces (a len : Nat) : List (Nat × Nat × Nat) :=
  if len = 0 then [] else
  (List.range ((a + len - 1) / 4096 + 1 - a / 4096)).map (fun i =>
    let lo := if i = 0 then a else 4096 * (a / 4096 + i)
    let hi := min (a + len) (4096 * (a / 4096 + i + 1))
    (lo, hi - lo, lo - a))

/-- Read any range by virtual address. -/
def State.vaRead (s : State) (u : VmUser) (va len : Nat) : (List Byte ⊕ VmFault) × State :=
  (pagePieces va len).foldl (fun (acc : (List Byte ⊕ VmFault) × State) p =>
    match acc.1 with
    | .inr f => (.inr f, acc.2)
    | .inl b =>
      match acc.2.pageRead u p.1 p.2.1 with
      | (.inl c, s) => (.inl (b ++ c), s)
      | (.inr f, s) => (.inr f, s)) (.inl [], s)

/-- Write any range by virtual address. -/
def State.vaWrite (s : State) (u : VmUser) (va : Nat) (b : List Byte) : Option VmFault × State :=
  (pagePieces va b.length).foldl (fun (acc : Option VmFault × State) p =>
    match acc.1 with
    | some f => (some f, acc.2)
    | none => acc.2.pageWrite u p.1 ((b.drop p.2.2).take p.2.1)) (none, s)

/-- One side of a transfer: a block's scratchpad range, by core, base and size, or virtual addresses. -/
inductive Side where
  | scratch (core base size : Nat)
  | va
  deriving DecidableEq, Repr

/-- A transfer between two sides (R112, R399): who moves it, bytes in all and in one contiguous row, and where row `r`
starts on each side: base, rows per plane, row and plane strides. -/
structure Xfer where
  user : VmUser
  total : Nat
  row : Nat
  rows : Nat
  src : Side
  srcBase : Nat
  srcRow : Int
  srcPlane : Int
  dst : Side
  dstBase : Nat
  dstRow : Int
  dstPlane : Int
  deriving DecidableEq, Repr

/-- The address on one side of the byte at position `p`. -/
def sideAddr (side : Side) (base row rows : Nat) (sr sp : Int) (p : Nat) : Int :=
  let r := p / row
  let a : Int := base + (r % rows : Nat) * sr + (r / rows : Nat) * sp + (p % row : Nat)
  match side with
  | .va => (wrapI 48 a : Int)
  | .scratch _ _ _ => a

def Xfer.srcAt (x : Xfer) (p : Nat) : Int := sideAddr x.src x.srcBase x.row x.rows x.srcRow x.srcPlane p
def Xfer.dstAt (x : Xfer) (p : Nat) : Int := sideAddr x.dst x.dstBase x.row x.rows x.dstRow x.dstPlane p

/-- Bytes moved in one step from position `p`: up to the row's end and the next 512-byte block of either side. -/
def Xfer.chunk (x : Xfer) (p : Nat) : Nat :=
  let left := x.row - p % x.row
  let room (a : Int) : Nat := (512 - a % 512).toNat
  min left (min (room (x.srcAt p)) (room (x.dstAt p)))

/-- What the next step of a transfer is; `wait` where earlier stores of the core hold it (R335). -/
inductive XStep where
  | fault (f : VmFault)
  | moved (len : Nat)
  | wait
  | askRead (node off len : Nat)
  | sendWrite (node off : Nat) (device : Bool) (data : List Byte)
  deriving Repr

/-- Write bytes on the destination side at position `p`, or say which remote write does it (R302). Writes to device
memory invalidate the matching L1 lines of a copying core (R335). -/
def State.xferPut (s : State) (x : Xfer) (p : Nat) (b : List Byte) : XStep × State :=
  match x.dst with
  | .scratch c base size =>
    let a := x.dstAt p
    if a < 0 || (size : Int) < a + b.length then (.fault (.code 0x0A 0), s)
    else (.moved b.length, s.updCore c (fun k => k.scratchWrite (base + a.toNat) b))
  | .va =>
    let va := (x.dstAt p).toNat
    match s.xlate x.user.req x.user.cls x.user.ctx va needW with
    | (.fault cause _, s) => (.fault (.code (causeCode cause) cause), s)
    | (.ok pa region, s) =>
      match s.placeOf pa with
      | .remote => (.sendWrite (paNode pa) (paOffset pa) (decide (region = 2)) b, s)
      | _ =>
        match s.pageWrite x.user va b with
        | (some f, s) => (.fault f, s)
        | (none, s) =>
          let s := match x.user.req, s.placeOf pa with
            | .core c, .localMem => (linePieces (paOffset pa) b.length).foldl (fun s p =>
                s.updCore c (fun k => { k with l1 := SMap.put none k.l1 (p.1 / 128) none })) s
            | _, _ => s
          (.moved b.length, s)

/-- The core's own earlier stores over a range are performed before an engine of the core reads it (R335). -/
def State.settleStores (s : State) (q : Req) (off len : Nat) : State :=
  match q with
  | .core c => (linePieces off len).foldl (fun s p => s.drainLine c (p.1 / 128)) s
  | _ => s

/-- Has the core an earlier store in its buffer over a physical range that a read of its engine has to wait for (R335)? Stores to local memory
are performed before the read, all but DEVICE ones, which keep their own order (R336). -/
def State.readHeld (s : State) (q : Req) (pa len : Nat) : Bool :=
  match q with
  | .core c => (s.core c).stores.any fun e =>
      let a := if e.place = .localMem then paOffset pa else pa
      decide (e.place = s.placeOf pa) && (decide (e.place ≠ .localMem) || decide (e.region = 2)) &&
        decide (a / 128 ≤ e.line) && decide (e.line ≤ (a + len - 1) / 128)
  | _ => false

/-- The next step of a transfer at position `p`, of at most `room` bytes. -/
def State.xferStep (s : State) (x : Xfer) (p room : Nat) : XStep × State :=
  let n := min room (x.chunk p)
  match x.src with
  | .scratch c base size =>
    let a := x.srcAt p
    if a < 0 || (size : Int) < a + n then (.fault (.code 0x0A 0), s)
    else if (s.core c).scratchBad (base + a.toNat) n then (.fault (.code 0x06 0), s.consumedPoison)
    else s.xferPut x p ((s.core c).scratch.bytes (base + a.toNat) n)
  | .va =>
    let va := (x.srcAt p).toNat
    match s.xlate x.user.req x.user.cls x.user.ctx va needR with
    | (.fault cause _, s) => (.fault (.code (causeCode cause) cause), s)
    | (.ok pa _, s) =>
      if s.readHeld x.user.req pa n then (.wait, s)
      else match s.placeOf pa with
      | .remote => (.askRead (paNode pa) (paOffset pa) n, s)
      | place =>
        let s := if place = .localMem then s.settleStores x.user.req (paOffset pa) n else s
        match s.pageRead x.user va n with
        | (.inr f, s) => (.fault f, s)
        | (.inl b, s) => s.xferPut x p b

/-- Move what can be moved without Mainline from position `p` up to `stop`: where it stands, and the fault that stopped it. -/
def State.xferRun (s : State) (x : Xfer) (stop p : Nat) : Nat → Nat × Option VmFault × State
  | 0 => (p, none, s)
  | fuel + 1 =>
    if stop ≤ p then (p, none, s)
    else match s.xferStep x p (stop - p) with
      | (.fault f, t) => (p, some f, t)
      | (.moved n, t) => State.xferRun t x stop (p + n) fuel
      | (.wait, t) => (p, none, t)
      | (.askRead d _ _, t) => (p, if t.unreachable d then some (.code 0x05 0) else none, t)
      | (.sendWrite d _ _ _, t) => (p, if t.unreachable d then some (.code 0x05 0) else none, t)

/-- Has a transfer a remote read outstanding? -/
def State.awaitsRead (s : State) (who : MlnReader) : Bool := s.mln.reads.any (fun r => r.who = who)

/-- A WRITE of this package. -/
def State.writeMsg (s : State) (tenant dst off : Nat) (device : Bool) (data : List Byte) : Msg :=
  { Msg.blank 1 2 s.con.node dst with
    addr := off, len := data.length, tenant := tenant, device := device, data := data }

/-- A READ of this package. -/
def State.readMsg (s : State) (tenant dst off len tag : Nat) : Msg :=
  { Msg.blank 2 2 s.con.node dst with addr := off, len := len, tenant := tenant, tag := tag }

/-- A SIGNAL of this package (R461). -/
def State.signalMsg (s : State) (q : Signaller) (dst sem count : Nat) : Msg :=
  { Msg.blank 4 0 s.con.node dst with
    tenant := q.tenant,
    data := leBytes 2 sem ++ leBytes 6 count ++ leBytes 2 q.ctx ++ leBytes 2 q.queue ++ leBytes 8 q.cookie ++ leBytes 12 0 }

/-- What a port controller makes of a transfer's next chunk (R454): the new position and state, a fault, or `none` where
the chunk is not remote or has to wait; a write waits for what its transfer still reads (R116). -/
def State.xferAccept (s : State) (x : Xfer) (p core : Nat) (who : MlnReader) (flows : List Nat) :
    Option (Nat × Option VmFault × State) :=
  let tenant := s.tenantOf x.user.ctx
  if x.total ≤ p then none
  else match s.xferStep x p 512 with
    | (.askRead d off n, s) =>
      if s.unreachable d then some (p, some (.code 0x05 0), s)
      else
        let tag := s.mln.nextTag
        if s.cutOff 5 0 then some (p, some (.code 0x06 0), s.consumedPoison)
        else (s.mlnAccept (s.readMsg tenant d off n tag) 192 flows).map (fun s =>
          (p + n, none, s.setMln { s.mln with
            nextTag := (tag + 1) % 2 ^ 32, reads := s.mln.reads ++ [⟨tag, d, who, p, n, none⟩] }))
    | (.sendWrite d off dev b, s) =>
      if s.unreachable d then some (p, some (.code 0x05 0), s)
      else if s.awaitsRead who then none
      else (s.mlnAccept (s.writeMsg tenant d off dev b) core flows).map (fun s => (p + b.length, none, s))
    | _ => none

/-- The fault of a READ_RSP status (R462). -/
def rspFault (st : Nat) : VmFault := if st = 1 then .code 0x09 3 else if st = 2 then .code 0x06 0 else .code 0x08 8

end Sys2Proof.Machine
end

