-- ==== Sys2Proof/Machine/Points.lean ====
section
/-! DEFINITION. The points units: opening a step, reading and ranking records, placing choices, closing a step
(spec 06 R236 to R257). -/

namespace Sys2Proof.Machine

/-! ### Steps and platforms -/

/-- The step of a launch. -/
def State.stepOf (s : State) (l : Nat) : Option RouteStep := s.pts.steps.find? (fun p => p.launch = l)

/-- Replace the step of its launch. -/
def State.setStep (s : State) (p : RouteStep) : State :=
  { s with pts := { s.pts with steps := s.pts.steps.map (fun q => if q.launch = p.launch then p else q) } }

/-- The platforms that a route table names, each once. -/
def namedPlats (route : List Nat) : List Nat :=
  (List.range 1024).filter (fun p => route.contains p)

/-- PTS_PLAT_CFG in force, and fields of it (R265). -/
def State.platCfg (s : State) (p : Nat) : Word := s.inForce (R.ptsPlatCfg p)
def State.platOwner (s : State) (p : Nat) : Nat := Machine.fld (s.platCfg p) 63 52
def State.platKind (s : State) (p : Nat) : Nat := Machine.fld (s.platCfg p) 49 48
def State.platCap (s : State) (p : Nat) : Nat := Machine.fld (s.inForce (R.ptsPlatCap p)) 19 0
def State.platBase (s : State) (p : Nat) : Nat := Machine.fld (s.inForce (R.ptsPlatBase p)) 47 0

/-- Is a platform enabled and owned by a context (R237, R264)? -/
def State.platOk (s : State) (p ctx : Nat) : Bool :=
  bit (s.platCfg p) 51 && decide (s.platCap p ≠ 0) && decide (s.platOwner p = ctx)

/-- A points unit as a user of virtual memory. -/
def ptsUser (u ctx : Nat) : VmUser := ⟨.cluster u, 3, 3, ctx⟩

/-- The unit that makes a platform's accesses at the opening and closing of a step; which one does is open (log 95). -/
def platUnit (n : Nat) : Nat := n % 16

/-- A points unit updates a platform's line in the state table (R248, R299). The layout of the table is open, so its bytes are (log 60); the
counter itself is PTS_PLAT_OCC and PTS_PLAT_HELD. -/
def State.tableLine (s : State) (n : Nat) : State :=
  s.withFree fun r s => s.memWrite (s.fld R.ptsTableBase 55 0 + 64 * n) (leBytes 64 r) 3 0 true

/-- Every class B register of the points units takes its written value: a step opens (R264, R265). -/
def State.adoptPts (s : State) : State :=
  { s with force := s.force.filter (fun e => !(decide (R.ptsPlatCfg 0 ≤ e.1) && decide (e.1 < R.ptsPlatCfg 1024))) }

/-- The hub as a user of virtual memory: dispatcher and control cores (R398). -/
def hubUser (ctx : Nat) : VmUser := ⟨.hub, 2, 2, ctx⟩

/-- An entry (R245). -/
def entryBytes (row token tags score stepLo user : Nat) : List Byte :=
  leBytes 8 row ++ leBytes 4 token ++ leBytes 4 tags ++ leBytes 4 score ++ leBytes 4 stepLo ++ leBytes 8 user

/-- Add to a counter of 64 bits. -/
def State.tally (s : State) (off n : Nat) : State := s.count off 64 n

/-- Take from a count register. -/
def State.less (s : State) (off n : Nat) : State := s.wr off (BitVec.ofNat 64 ((s.rd off).toNat - n))

/-- A held choice that is not placed again is dropped (R254). -/
def RouteStep.dropHeld (p : RouteStep) (n : Nat) (fault : Bool) : RouteStep :=
  let p := if fault then { p with dropFault := p.dropFault + 1 } else { p with dropFull := p.dropFull + 1 }
  { p with platDropped := SMap.upd 0 p.platDropped n (· + 1) }

/-- Offer the held choices of a platform again (R254). -/
def State.reoffer (s : State) (p : RouteStep) (n : Nat) : RouteStep × State :=
  let base := s.platBase n
  let cap := s.platCap n
  let held := s.fld (R.ptsPlatHeld n) 19 0
  let s := s.setFld (R.ptsPlatOcc n) 19 0 0
  let s := if s.platKind n = 1 then s else s.tableLine n
  let u := ptsUser (platUnit n) (s.viewOf p.launch p.ctx)
  let lost (p : RouteStep) (s : State) : RouteStep × State :=
    (p.dropHeld n true, (s.tally R.ptsDropped 1).setFlag (R.ptsStatus (platUnit n)) 31)
  let (p, s) := (List.range held).foldl (fun (a : RouteStep × State) i =>
    let (p, s) := a
    let p := { p with carriedIn := p.carriedIn + 1 }
    let occ := s.fld (R.ptsPlatOcc n) 19 0
    let s := s.less R.ptsHeld 1
    if cap ≤ occ then (p.dropHeld n false, s.tally R.ptsDropped 1)
    else match s.vaRead u (base + 64 + 32 * cap + 32 * i) 32 with
      | (.inr _, s) => lost p s
      | (.inl b, s) =>
        let b := b.take 0x14 ++ leBytes 4 p.step ++ b.drop 0x18
        match s.vaWrite u (base + 64 + 32 * occ) b with
        | (some _, s) => lost p s
        | (none, s) =>
          ({ p with placed := p.placed + 1, platCarried := SMap.upd 0 p.platCarried n (· + 1) },
            ((s.setFld (R.ptsPlatOcc n) 19 0 (occ + 1)).tableLine n).tally R.ptsPlaced 1)) (p, s)
  (p, s.setFld (R.ptsPlatHeld n) 19 0 0)

/-- Open the step of a router launch (R236, R237, R254): the fault that keeps it shut, or the step open, with what was written to the class B
registers of the points units in force (R264), and the held choices of its platforms offered again. -/
def State.openStep (s : State) (l ctx va : Nat) : Option VmFault × State :=
  let u := hubUser (s.viewOf l ctx)
  let bad : Option VmFault := some (.code 0x0B 0)
  match s.vaRead u va 64 with
  | (.inr f, s) => (some f, s)
  | (.inl d, s) =>
    let n (off len : Nat) : Nat := leNat ((d.drop off).take len)
    let dests := n 0xC 2
    let k := n 0xE 1
    let sfmt := n 0xF 1
    if va % 64 ≠ 0 || dests = 0 || 1024 < dests || k = 0 || 8 < k || !([2, 3, 4].contains sfmt) || 2 ^ 48 ≤ n 0x10 8 ||
      2 ^ 48 ≤ n 0x18 8 || n 0x18 8 % 64 ≠ 0 || leNat (d.drop 0x20) ≠ 0 then (bad, s)
    else match s.vaRead u (n 0x10 8) (2 * dests) with
      | (.inr f, s) => (some f, s)
      | (.inl r, s) =>
        let route := (List.range dests).map (fun i => leNat ((r.drop (2 * i)).take 2))
        if route.any (fun p => decide (p ≠ 0xFFFF) && (decide (1023 < p) || !s.adoptPts.platOk p ctx)) ||
          decide ((route.filter (fun p => decide (p ≠ 0xFFFF))).length < k) then (bad, s)
        else match s.xlate .hub 2 (s.viewOf l ctx) (n 0x18 8) needW with
          | (.fault c _, s) => (some (.code (causeCode c) c), s)
          | (.ok _ _, s) =>
            let s := s.adoptPts
            let p : RouteStep := {
              launch := l, ctx := ctx, step := n 0 8, layer := n 8 4, dests := dests, k := k,
              sfmt := sfmt, route := route, result := n 0x18 8, accepted := 0, excluded := 0, foreign_ := 0,
              carriedIn := 0, placed := 0, placedAlt := 0, deferred := 0, dropFull := 0, dropExhausted := 0,
              dropDeferFull := 0, dropFault := 0, platDropped := [], platCarried := [], copies := [], closing := false }
            let old (e : Nat × Nat) : Bool := !(namedPlats route).contains (e.1 / 2 ^ 16)
            let s := { s with pts := { s.pts with copies := s.pts.copies.filter old, copyDrops := s.pts.copyDrops.filter old } }
            let (p, s) := (namedPlats route).foldl (fun (a : RouteStep × State) n => a.2.reoffer a.1 n) (p, s)
            (none, { s with pts := { s.pts with steps := s.pts.steps ++ [p] } })

/-! ### Records -/

/-- A score as FP32 (R245); a converted NaN is 0x7FC00000 (R282). -/
def scoreF32 (sfmt x : Nat) : Nat :=
  match sfmt with
  | 2 => x
  | 3 => fmtF32.round .rn false (fmtF16.decode x)
  | _ => if 0x7F80 < x % 2 ^ 15 then 0x7FC00000 else x * 2 ^ 16

/-- The place of a score in the order of R242: NaN lowest, −0 equal to +0. -/
def scoreKey (f32 : Nat) : Int :=
  let mag : Nat := f32 % 2 ^ 31
  if 0x7F800000 < mag then -8589934592 else if f32.testBit 31 then -(mag : Int) else (mag : Int)

/-- Insert a destination into a ranking (R242): higher scores first, ties by lower destination. -/
def rankIn (x : Nat × Nat) : List (Nat × Nat) → List (Nat × Nat)
  | [] => [x]
  | y :: t =>
    if scoreKey y.2 < scoreKey x.2 || (scoreKey y.2 = scoreKey x.2 && decide (x.1 < y.1)) then x :: y :: t
    else y :: rankIn x t

/-- The choices of a record (R242, R243): up to eight ranked destinations with distinct platforms. -/
def choicesOf (route : List Nat) (score : Nat → Nat) : List Choice :=
  let dests := (List.range route.length).filter (fun d => decide (route.getD d 0xFFFF ≠ 0xFFFF))
  let ranked := dests.foldl (fun l d => rankIn (d, score d) l) []
  let picked := ranked.foldl (fun (a : List (Nat × Nat)) x =>
    let p := route.getD x.1 0xFFFF
    if a.any (fun y => y.1 = p) then a else a ++ [(p, x.2)]) []
  (List.range (min 8 picked.length)).map (fun i =>
    let x := picked.getD i (0, 0)
    { rank := i, plat := x.1, score := x.2 })

/-- The submission has been read whole: its group takes the count and goes on (R240). -/
def State.endSubmission (s : State) (b : Submission) : State :=
  match (s.core b.core).group b.slot with
  | some g => s.setGroup b.core b.slot ((g.setU b.dest b.accepted).next 8)
  | none => s

/-- A record as it is ranked (R242, R243), read from its core's scratchpad. -/
def rankRecord (p : RouteStep) (b : Submission) (k : Core) : RankedRec :=
  let a := b.records + 32 * b.next
  let sa := b.scores + b.next * b.stride
  let sz := scoreBytes p.sfmt
  let cs := choicesOf p.route (fun d => scoreF32 p.sfmt (k.scratch.nat (sa + sz * d) sz))
  let primary := cs.take p.k
  { core := b.core, slot := b.slot, set := b.set, launch := b.launch, ctx := b.ctx,
    row := k.scratch.nat a 8, token := k.scratch.nat (a + 8) 4, ticket := k.scratch.nat (a + 0xC) 4 % 2 ^ 20,
    user := k.scratch.nat (a + 0x10) 8, primary := primary, alts := cs.drop p.k, missing := p.k - primary.length }

/-- An accepted record is ranked, counted and queued (R240 to R243). -/
def State.acceptRecord (s : State) (u : Nat) (p : RouteStep) (b : Submission) (k : Core) : State :=
  let r := rankRecord p b k
  let s := s.setStep { p with accepted := p.accepted + 1, dropExhausted := p.dropExhausted + r.missing }
  let s := ((s.tally R.ptsEntered p.k).tally R.ptsDropped r.missing).tally (R.ptsRecords u) 1
  let s := (s.hit (192 + u) 0x1002 1).hit (192 + u) 0x1004 r.missing
  let y := s.unit u
  if r.primary.isEmpty then s else s.setUnit u { y with queue := y.queue ++ [r] }

/-- POINTS_RECORD_READ (R240 to R243, R560): the unit reads the next record of the submission whose turn it is, unless 512
ranked records wait. A poisoned granule makes it FOREIGN; `upset` is an error the read finds in the scratchpad. -/
def execPointsRecordRead (u : Nat) (upset : Upset) (s : State) : Answer :=
  .next (
    let x := s.unit u
    match x.subs with
    | [] => s
    | b :: rest =>
      if 512 ≤ x.queue.length then s
      else match s.stepOf b.launch with
      | none => s.setUnit u { x with subs := rest }
      | some p =>
        let k := s.core b.core
        let a := b.records + 32 * b.next
        let sa := b.scores + b.next * b.stride
        let sz := scoreBytes p.sfmt
        let t := k.scratch.nat (a + 0xC) 4 % 2 ^ 20
        let (w, badW, s) := s.memRead (s.sideAddr t) 4 3 0 true
        let s := s.detect 9 b.core a upset
        let bad := badW || k.scratchBad a 32 || k.scratchBad sa (sz * p.dests) || decide (upset = .lost)
        let s := s.poisonIf bad
        let word := leNat w
        let exited := word.testBit 13
        let refused := bad || decide (word % 4096 ≠ b.ctx) || !word.testBit 12
        let b' := { b with next := b.next + 1, accepted := if refused || exited then b.accepted else b.accepted + 1 }
        let done := decide (b.count ≤ b'.next)
        let s := s.setUnit u { x with subs := if done then rest else rest ++ [b'] }
        let s := if done then s.endSubmission b' else s
        if refused then s.setStep { p with foreign_ := p.foreign_ + 1 }
        else if exited then s.setStep { p with excluded := p.excluded + 1 }
        else
          s.acceptRecord u p b k)

/-! ### Placement -/

/-- Why a choice was dropped (R246, R247, R252). -/
inductive DropCause where
  | full | exhausted | deferFull | fault
  deriving DecidableEq, Repr

/-- The key of a scratchpad platform's copy (R249): platform, core and barrier set. -/
def copyKey (plat core set : Nat) : Nat := plat * 2 ^ 16 + core * 2 ^ 6 + set

/-- Count a dropped choice of a platform, and of the record's copy of it. -/
def State.dropChoice (s : State) (u : Nat) (r : RankedRec) (plat : Nat) (c : DropCause) : State :=
  match s.stepOf r.launch with
  | none => s
  | some p =>
    let p := { p with platDropped := SMap.upd 0 p.platDropped plat (· + 1) }
    let p := match c with
      | .full => { p with dropFull := p.dropFull + 1 }
      | .exhausted => { p with dropExhausted := p.dropExhausted + 1 }
      | .deferFull => { p with dropDeferFull := p.dropDeferFull + 1 }
      | .fault => { p with dropFault := p.dropFault + 1 }
    let s := ((s.setStep p).tally R.ptsDropped 1).hit (192 + u) 0x1004 1
    let s := if s.platKind plat = 1 then
        { s with pts := { s.pts with copyDrops := SMap.upd 0 s.pts.copyDrops (copyKey plat r.core r.set) (· + 1) } }
      else s
    if c = .fault then s.setFlag (R.ptsStatus u) 31 else s

/-- Entries placed in a platform, or in the record's copy of it. -/
def State.platOcc (s : State) (r : RankedRec) (plat : Nat) : Nat :=
  if s.platKind plat = 1 then SMap.get 0 s.pts.copies (copyKey plat r.core r.set) else s.fld (R.ptsPlatOcc plat) 19 0

/-- Can the record's choices go to this platform at all (R247, R249)? A scratchpad platform takes those of a block of the step's launch. -/
def State.platReach (s : State) (r : RankedRec) (plat : Nat) : Bool :=
  s.platOk plat r.ctx &&
    (if s.platKind plat = 1 then
      decide (Machine.fld (s.platCfg plat) 45 38 = r.core) &&
        (match (s.core r.core).block r.set with
          | some b => decide (b.launch = r.launch) && decide (s.platBase plat + 64 + 32 * s.platCap plat ≤ b.size)
          | none => false)
    else true)

/-- The outcome of one attempt at a platform. -/
inductive Placing where
  | placed (s : State)
  | full
  | fault (s : State)
  | wait

/-- Try to place a choice (R246, R247, R249, R250): `alt` marks an alternate. -/
def State.tryPlace (s : State) (u : Nat) (p : RouteStep) (r : RankedRec) (c : Choice) (alt : Bool) : Placing :=
  if !s.platReach r c.plat then .fault s
  else
    let occ := s.platOcc r c.plat
    if s.platCap c.plat ≤ occ then .full
    else
      let tags := r.ticket + 2 ^ 20 * c.rank + (if alt then 2 ^ 23 else 0)
      let e := entryBytes r.row r.token tags c.score p.step r.user
      let at_ := s.platBase c.plat + 64 + 32 * occ
      let fin (s : State) : State :=
        let s := s.setFld (R.ptsPlatOcc c.plat) 19 0 (s.fld (R.ptsPlatOcc c.plat) 19 0 + 1)
        let s := if s.platKind c.plat = 1 then
            { s with pts := { s.pts with copies := SMap.put 0 s.pts.copies (copyKey c.plat r.core r.set) (occ + 1) } }
          else s.tableLine c.plat
        let s := (s.tally R.ptsPlaced 1).hit (192 + u) 0x1003 1
        match s.stepOf r.launch with
        | some p => s.setStep { p with placed := p.placed + 1, placedAlt := if alt then p.placedAlt + 1 else p.placedAlt }
        | none => s
      if s.platKind c.plat = 1 then
        match (s.core r.core).block r.set with
        | none => .fault s
        | some b =>
          let s := s.updCore r.core (fun k => (k.scratchWrite (b.base + at_) e).scratchWrite (b.base + s.platBase c.plat) (leBytes 4 (occ + 1)))
          .placed (fin s)
      else
        match s.xlate (.cluster u) 3 (s.viewOf r.launch r.ctx) at_ needW with
        | (.fault _ _, s) => .fault s
        | (.ok pa region, s) =>
          match s.placeOf pa with
          | .remote =>
            if s.unreachable (paNode pa) then .fault s
            else
              let cmd := ((s.launch r.launch).map Launch.cmd).getD 0
              match s.mlnAccept (s.writeMsg (s.tenantOf r.ctx) (paNode pa) (paOffset pa) (decide (region = 2)) e) 192 (s.flowsOf cmd) with
              | some s => .placed (fin s)
              | none => .wait
          | _ =>
            match s.pageWrite (ptsUser u (s.viewOf r.launch r.ctx)) at_ e with
            | (some _, s) => .fault s
            | (none, s) => .placed (fin s)

/-- The first alternate with room takes the choice (R246): what is left of the alternates, and the state. -/
def State.tryAlts (s : State) (u : Nat) (p : RouteStep) (r : RankedRec) (plat : Nat) (before : List Choice) :
    List Choice → Option (List Choice × State)
  | [] => some (before, s.dropChoice u r plat .exhausted)
  | a :: t =>
    match s.tryPlace u p r a true with
    | .placed s => some (before ++ t, s)
    | .full => State.tryAlts s u p r plat (before ++ [a]) t
    | .fault s => some (before ++ t, s.dropChoice u r a.plat .fault)
    | .wait => none

/-- Hold a choice in its platform's defer area (R246). -/
def State.deferChoice (s : State) (u : Nat) (p : RouteStep) (r : RankedRec) (c : Choice) : State :=
  let held := s.fld (R.ptsPlatHeld c.plat) 19 0
  let cap := s.platCap c.plat
  if cap ≤ held then s.dropChoice u r c.plat .deferFull
  else
    let tags := r.ticket + 2 ^ 20 * c.rank + 2 ^ 24
    let at_ := s.platBase c.plat + 64 + 32 * cap + 32 * held
    match s.vaWrite (ptsUser u (s.viewOf r.launch r.ctx)) at_ (entryBytes r.row r.token tags c.score p.step r.user) with
    | (some _, s) => s.dropChoice u r c.plat .fault
    | (none, s) =>
      let s := ((s.setFld (R.ptsPlatHeld c.plat) 19 0 (held + 1)).tableLine c.plat).tally R.ptsHeld 1
      match s.stepOf r.launch with
      | some p => s.setStep { p with deferred := p.deferred + 1 }
      | none => s

/-- The choice is settled: its record keeps its further choices and what is left of its alternates, or leaves the queue. -/
def State.afterChoice (s : State) (u : Nat) (r : RankedRec) (cs : List Choice) (rest : List RankedRec) (alts : List Choice) : State :=
  let x := s.unit u
  s.setUnit u { x with queue := if cs.isEmpty then rest else { r with primary := cs, alts := alts } :: rest }

/-- CHOICE_PLACE (R246 to R250): the next choice of the unit's oldest ranked record is placed, deferred or dropped; a write
that Mainline cannot accept yet waits. -/
def execChoicePlace (u : Nat) (s : State) : Answer :=
  .next (
    let x := s.unit u
    match x.queue with
    | [] => s
    | r :: rest =>
      match s.stepOf r.launch, r.primary with
      | none, _ => s.setUnit u { x with queue := rest }
      | some _, [] => s.setUnit u { x with queue := rest }
      | some p, c :: cs =>
        let left (alts : List Choice) (s : State) : State := s.afterChoice u r cs rest alts
        match s.tryPlace u p r c false with
        | .placed s => left r.alts s
        | .fault s => left r.alts (s.dropChoice u r c.plat .fault)
        | .wait => s
        | .full =>
          match Machine.fld (s.platCfg c.plat) 47 46 with
          | 1 => left r.alts (s.deferChoice u p r c)
          | 2 => left r.alts (s.dropChoice u r c.plat .full)
          | _ =>
            match s.tryAlts u p r c.plat [] r.alts with
            | some (alts, s) => left alts s
            | none => s)

/-! ### Closing -/

/-- Submissions are given up, and the choices of ranked records that are not placed are dropped with cause FAULT (R253). -/
def State.dropWhere (s : State) (rec_ : RankedRec → Bool) (sub : Submission → Bool) : State :=
  (List.range 16).foldl (fun s u =>
    let x := s.unit u
    let s := s.setUnit u { x with queue := x.queue.filter (fun r => !rec_ r), subs := x.subs.filter (fun b => !sub b) }
    (x.queue.filter rec_).foldl (fun s r => r.primary.foldl (fun s c => s.dropChoice u r c.plat .fault) s) s) s

/-- Every choice of a stopped launch that is not placed is dropped with cause FAULT (R253). -/
def State.dropRest (s : State) (l : Nat) : State :=
  s.dropWhere (fun r => decide (r.launch = l)) (fun b => decide (b.launch = l))

/-- Has a block records that are not read, or choices that are not placed, deferred or dropped (R251)? -/
def State.pointsOf (s : State) (c set : Nat) : Bool :=
  let x := s.unit (clusterOf c)
  x.subs.any (fun b => decide (b.core = c) && decide (b.set = set)) || x.queue.any (fun r => decide (r.core = c) && decide (r.set = set))

/-- A block ends: the copies of its step's scratchpad platforms keep what their headers will say (R249, R251), and their counters
restart for the set's next block (log 96). -/
def State.endCopies (s : State) (c set : Nat) (b : Block) : State :=
  match s.stepOf b.launch with
  | none => s
  | some p =>
    let fits (n : Nat) : Bool := decide (s.platKind n = 1) && decide (Machine.fld (s.platCfg n) 45 38 = c) &&
      decide (s.platBase n + 64 + 32 * s.platCap n ≤ b.size)
    let ended := ((namedPlats p.route).filter fits).map (fun n =>
      (⟨n, c, b.base + s.platBase n, SMap.get 0 s.pts.copies (copyKey n c set), SMap.get 0 s.pts.copyDrops (copyKey n c set)⟩ : PlatCopy))
    let other (e : Nat × Nat) : Bool := decide (e.1 % 2 ^ 16 ≠ copyKey 0 c set)
    let s := s.setStep { p with copies := p.copies ++ ended }
    { s with pts := { s.pts with copies := s.pts.copies.filter other, copyDrops := s.pts.copyDrops.filter other } }

/-- A platform's header (R244). -/
def headerBytes (count held step dropped carried : Nat) : List Byte :=
  leBytes 4 count ++ leBytes 4 held ++ leBytes 8 step ++ leBytes 4 dropped ++ leBytes 4 carried ++ leBytes 40 0

/-- The header of a copy (R244, R249), where its bytes still are the context's and no resident block has them (log 96). -/
def State.copyHeader (s : State) (p : RouteStep) (y : PlatCopy) : State :=
  let k := s.core y.core
  if k.ctx ≠ some p.ctx || k.blockList.any (fun b => decide (b.2.base < y.start + 64) && decide (y.start < b.2.base + b.2.size)) then s
  else s.updCore y.core (fun k => k.scratchWrite y.start (headerBytes y.count 0 p.step y.dropped 0))

/-- The header of a platform at step close (R244), or `none` while Mainline cannot accept it. -/
def State.writeHeader (s : State) (p : RouteStep) (n : Nat) : Option State :=
  if s.platKind n = 1 then some ((p.copies.filter (fun y => y.plat = n)).foldl (fun s y => s.copyHeader p y) s)
  else
    let h := headerBytes (s.fld (R.ptsPlatOcc n) 19 0) (s.fld (R.ptsPlatHeld n) 19 0) p.step (SMap.get 0 p.platDropped n)
      (SMap.get 0 p.platCarried n)
    let u := ptsUser (platUnit n) (s.viewOf p.launch p.ctx)
    match s.xlateQuiet u.req u.ctx (s.platBase n) needW with
    | (.ok pa region, t) =>
      if s.placeOf pa = .remote then
        let cmd := ((s.launch p.launch).map Launch.cmd).getD 0
        t.mlnAccept (t.writeMsg (t.tenantOf p.ctx) (paNode pa) (paOffset pa) (decide (region = 2)) h) 192 (t.flowsOf cmd)
      else some (s.vaWrite u (s.platBase n) h).2
    | (.fault _ _, _) => some (s.vaWrite u (s.platBase n) h).2

/-- The signal of a platform at step close (R251, R426). -/
def State.platSignal (s : State) (p : RouteStep) (n : Nat) : Option State :=
  let cfg := s.platCfg n
  if !bit cfg 50 then some s
  else
    let (cookie, queue) := s.launchTag p.launch
    let q : Signaller := ⟨2, s.tenantOf p.ctx, p.ctx, queue, s.con.node, cookie⟩
    let sem := Machine.fld cfg 15 0
    let cmd := ((s.launch p.launch).map Launch.cmd).getD 0
    if s.platKind n = 2 then s.mlnAccept (s.signalMsg q (Machine.fld cfg 37 30) sem 1) 192 (s.flowsOf cmd)
    else
      let (st, s) := s.semSignal sem 1 q
      some (s.signalRefused cmd st)

/-- All drops of a step. -/
def RouteStep.drops (p : RouteStep) : Nat := p.dropFull + p.dropExhausted + p.dropDeferFull + p.dropFault

/-- The step result record (R252). -/
def RouteStep.resultBytes (p : RouteStep) : List Byte :=
  leBytes 8 p.step ++ leBytes 4 p.layer ++ leBytes 4 p.accepted ++ leBytes 4 p.excluded ++ leBytes 4 p.foreign_ ++
    leBytes 4 p.carriedIn ++ leBytes 4 p.placed ++ leBytes 4 p.placedAlt ++ leBytes 4 p.deferred ++ leBytes 4 p.dropFull ++
    leBytes 4 p.dropExhausted ++ leBytes 4 p.dropDeferFull ++ leBytes 4 p.dropFault ++ leBytes 8 0

/-- Has a launch placed all it will place, and have its blocks ended? -/
def Launch.quiet (l : Launch) : Bool :=
  l.running = 0 && (l.stop.isSome || decide (l.gx * l.gy * l.gz ≤ l.nextBlock))

/-- A step closes (R251 to R255): what is not placed is dropped, then headers, semaphores and the result record are written. A remote header or
signal that Mainline cannot accept yet leaves the step open. -/
def State.closeStep (s : State) (l : Nat) : State :=
  let t := s.dropRest l
  match t.stepOf l with
  | none => s
  | some p =>
    let ns := namedPlats p.route
    let a := ns.foldl (fun (a : Option State) n => a.bind (fun s => s.writeHeader p n)) (some t)
    let a := ns.foldl (fun (a : Option State) n => a.bind (fun s => s.platSignal p n)) a
    match a with
    | none => s
    | some s =>
      let s := (s.vaWrite (ptsUser 0 (s.viewOf p.launch p.ctx)) p.result p.resultBytes).2
      let s := { s with pts := { s.pts with steps := s.pts.steps.filter (fun q => !decide (q.launch = l)) } }
      let cmd := ((s.launch l).map Launch.cmd).getD 0
      let s := match s.cmd cmd with
        | some c => if p.drops = 0 then s else s.setCmd cmd (some { c with dropped := true })
        | none => s
      let (_, queue) := s.launchTag l
      s.trace ⟨0x09, 4, 0, p.ctx, queue, p.step, p.placed + 2 ^ 32 * p.drops⟩

/-- STEP_CLOSE (R251 to R255): the launch's blocks have ended; the command carries DROPPED_TOKENS when any choice was dropped. -/
def execStepClose (l : Nat) (s : State) : Answer :=
  .next (match s.launch l with
    | some x => if x.quiet then s.closeStep l else s
    | none => s)

end Sys2Proof.Machine
end

