-- ==== Sys2Proof/Machine/Host.lean ====
section
/-! DEFINITION. Writes to host memory by bus address (spec 13 R490). -/

namespace Sys2Proof.Machine

/-- A posted write to host memory at a bus address, for a function; none leaves while a warm reset runs (R637). -/
def State.busWrite (s : State) (fn a : Nat) (b : List Byte) : State :=
  if s.boot.stopped then s
  else s.emit (.hostWrite fn a b)

end Sys2Proof.Machine
end

