-- ==== Sys2Proof/Machine/Queue.lean ====
section
/-! DEFINITION. Queues: doorbells, enabling, fetching and checking entries, the entries that need no program, completions
and events (spec 10 R371 to R388, R409, R418 to R420). -/

namespace Sys2Proof.Machine

/-! ### A queue's registers -/

def State.qEnable (s : State) (q : Nat) : Bool := s.flag (R.queCfg q) 63
def State.qAdmin (s : State) (q : Nat) : Bool := s.flag (R.queCfg q) 62
def State.qSched (s : State) (q : Nat) : Bool := s.flag (R.queCfg q) 61
def State.qFunc (s : State) (q : Nat) : Nat := s.fld (R.queCfg q) 37 32
def State.sqSize (s : State) (q : Nat) : Nat := 2 ^ s.fld (R.queCfg q) 28 24
def State.cqSize (s : State) (q : Nat) : Nat := 2 ^ s.fld (R.queCfg q) 20 16

/-- DEPTH of R419: 0 acts as 1, above 64 as 64. -/
def State.qDepth (s : State) (q : Nat) : Nat :=
  let d := s.fld (R.queCfg q) 6 0
  if d = 0 then 1 else min d 64

def State.qInflight (s : State) (q : Nat) : Nat := s.fld (R.queInflight q) 6 0

/-- Does a queue read STOPPED (R420)? -/
def State.qStopped (s : State) (q : Nat) : Bool := !s.qEnable q && s.qInflight q = 0

/-- Free entries of the completion ring (R375). -/
def State.cqFree (s : State) (q : Nat) : Nat :=
  let n := s.cqSize q
  n - 1 - (s.fld (R.queCqTail q) 15 0 + n - s.fld (R.queCqHead q) 15 0) % n

/-- Is fetching held by HOLD, an overlay switch or an orderly drain (R35, R409, R641)? -/
def State.holding (s : State) : Bool :=
  s.flag R.dspControl 0 || s.fld R.conStatus 3 0 = 3 || s.fld R.conStatus 3 0 = 4

/-- Unfetched entries of a queue. -/
def State.unfetched (s : State) (q : Nat) : Nat :=
  (s.fld (R.queSqTail q) 15 0 + s.sqSize q - s.fld (R.queSqHead q) 15 0) % s.sqSize q

/-- May the dispatcher fetch from a queue (R375, R388)? An admin queue is not held by HOLD or an overlay switch (R35, R409); what it may
fetch then is decided on the entry. -/
def State.mayFetch (s : State) (q : Nat) : Bool :=
  s.qEnable q && decide (0 < s.unfetched q) && decide (s.qInflight q < s.qDepth q) &&
    decide (s.qInflight q < s.cqFree q) && !s.flag (R.queStatus q) 4 && !s.flag (R.queStatus q) 5 &&
    (s.queue q).owed = 0 && s.fld R.conStatus 3 0 ≠ 1 && (s.qAdmin q || !s.holding) && !s.dsp.draining

/-- The kind in which queues are served: admin, scheduled, best-effort (R375). -/
def State.qRank (s : State) (q : Nat) : Nat := if s.qAdmin q then 0 else if s.qSched q then 1 else 2

/-- How far a queue stands from the one after the queue of its kind served last (R375; from queue 0 at reset, log 53). -/
def State.qTurn (s : State) (q : Nat) : Nat := (q + 16384 - SMap.get 0 s.dsp.served (s.qRank q)) % 16384

/-- The queues with ENABLE set. -/
def State.enabledQueues (s : State) : List Nat :=
  (s.regs.filter (fun e => decide (R.queCfg 0 ≤ e.1) && decide (e.1 < R.queCfg 16384) && decide (e.1 % 256 = 0) &&
    bit e.2 63)).map (fun e => (e.1 - R.queCfg 0) / 256)

/-! ### Doorbells and enabling -/

/-- QUE_STATUS.CFG_BUSY and DB_ERROR. -/
def State.qBusy (s : State) (q : Nat) : State := s.setFlag (R.queStatus q) 7
def State.dbError (s : State) (q : Nat) : State := s.setFlag (R.queStatus q) 6

/-- A doorbell write reaches its queue: from a function that exists, of 8 bytes, and from the owner (R373, R480, R485); the part ignores
it where no consist runs, after a drain and in a warm reset (R32, R634, R637, R641). -/
def State.doorbell (s : State) (fn q size : Nat) (act : State → State) : State :=
  if s.fld R.conStatus 3 0 ≤ 1 || s.drained || s.boot.stopped then s
  else if !s.fnExists fn then s.aerLog
  else if SMap.get false s.pci.d3 fn then s
  else if size ≠ 8 then s.count R.pciDbMalformed 32 1
  else if s.qFunc q ≠ fn then s.count R.dspDbForeign 32 1
  else act s

/-- SQ_TAIL (R373): a new submission tail. -/
def execSqTail (fn q size : Nat) (v : Word) (s : State) : Answer :=
  .next (s.doorbell fn q size fun s =>
    let n := s.sqSize q
    let tail := v.toNat
    if !s.qEnable q || decide (n ≤ tail) then s.dbError q
    else if (tail + n - s.fld (R.queSqHead q) 15 0) % n < s.unfetched q then s.dbError q
    else s.wr (R.queSqTail q) (BitVec.ofNat 64 tail))

/-- A new completion head after its checks (R373). -/
def State.cqHead (s : State) (q : Nat) (v : Word) : State :=
  let n := s.cqSize q
  let head := v.toNat
  let used := (s.fld (R.queCqTail q) 15 0 + n - s.fld (R.queCqHead q) 15 0) % n
  if !s.qEnable q || decide (n ≤ head) then s.dbError q
  else if used < (head + n - s.fld (R.queCqHead q) 15 0) % n then s.dbError q
  else s.wr (R.queCqHead q) (BitVec.ofNat 64 head)

/-- CQ_HEAD (R373, R418): by doorbell, or by a write of QUE_CQ_HEAD of the physical function or the queue's own. -/
def execCqHead (fn q size : Nat) (reg : Bool) (v : Word) (s : State) : Answer :=
  .next (if reg then s.mmio fn (R.queCqHead q) true fun s => s.cqHead q v
    else s.doorbell fn q size fun s => s.cqHead q v)

/-- MSI-X table size of a function (R24, R480). -/
def State.msixSize (s : State) (f : Nat) : Nat := if f = 0 then s.con.pfVectors else s.con.vfVectors

/-- Is a QUE_CFG value one that R371 and R419 accept for queue `q`? -/
def State.queCfgOk (s : State) (q : Nat) (v : Word) : Bool :=
  decide (4 ≤ Machine.fld v 28 24) && decide (Machine.fld v 28 24 ≤ 16) && decide (4 ≤ Machine.fld v 20 16) &&
    decide (Machine.fld v 20 16 ≤ 16) && decide (Machine.fld v 58 48 < s.msixSize (Machine.fld v 37 32)) &&
    !(bit v 63 && bit v 62 && s.enabledQueues.any (fun r =>
      decide (r ≠ q) && s.qAdmin r && decide (s.qFunc r = Machine.fld v 37 32)))

/-- QUE_CFG without its reserved bits (R419). -/
def queCfgMask (v : Word) : Word := v &&& 0xFFFF003F1F1F007F

/-- QUEUE_ENABLE (R371, R374, R419): a write of QUE_CFG by the physical function that takes ENABLE from 0 to 1. -/
def execQueueEnable (fn q : Nat) (v : Word) (s : State) : Answer :=
  .next (s.mmio fn (R.queCfg q) true fun s =>
    if s.qEnable q || !bit v 63 then s
    else if !s.qStopped q || !s.queCfgOk q v then s.qBusy q
    else
      let s := s.wr (R.queCfg q) (queCfgMask v)
      let s := ((s.wr (R.queSqTail q) 0).wr (R.queSqHead q) 0).wr (R.queCqTail q) 0x10000
      let s := (((s.wr (R.queCqHead q) 0).wr (R.queInflight q) 0).wr (R.queCompleted q) 0).wr (R.queLost q) 0
      s.setQueue q ⟨0, [], none, none, 0⟩)

/-- Forget an entry whose completion is written or discarded: its pin is released (R413) and the queue's count falls. -/
def State.dropCmd (s : State) (q id : Nat) : State :=
  let s := match s.cmd id with | some c => s.unpin c | none => s
  let s := s.setCmd id none
  s.setFld (R.queInflight q) 6 0 (s.qInflight q - 1)

/-- ENABLE goes from 1 to 0 (R374, R388): fetching stops; where completions are blocked, the overflow entry and the held
ones are discarded into QUE_LOST, and those that end later are too. -/
def State.queueOff (s : State) (q : Nat) : State :=
  let s := s.clrFlag (R.queCfg q) 63
  if !s.flag (R.queStatus q) 4 then s
  else
    let x := s.queue q
    let gone := x.overflow.toList ++ x.done
    let s := (s.setQueue q { x with overflow := none, done := [] }).clrFlag (R.queStatus q) 4
    let s := gone.foldl (fun s id => s.dropCmd q id) s
    (s.count (R.queLost q) 32 gone.length).rled (4 * 2 + 3) gone.length

/-- QUEUE_DISABLE (R374, R388). -/
def execQueueDisable (fn q : Nat) (s : State) : Answer :=
  .next (s.mmio fn (R.queCfg q) true fun s => if s.qEnable q then s.queueOff q else s)

/-! ### Events -/

/-- An event record (R386). -/
def eventBytes (cookie queue kind status : Nat) : List Byte :=
  leBytes 8 cookie ++ leBytes 2 queue ++ leBytes 1 kind ++ leBytes 1 status ++ leBytes 4 0

/-- Raise an event for a queue (R386): the record unless there is no address, then the vector. -/
def State.raiseEvent (s : State) (q addr cookie kind status : Nat) : State :=
  let f := s.qFunc q
  let s := if addr = 0 then s else s.busWrite f addr (eventBytes cookie q kind status)
  if kind = 0 then s.sendVector f (s.fld (R.queCfg q) 58 48) else s.raiseCause f 0

/-! ### Fetching and checking -/

/-- Bits of a 48-bit virtual address or other operand outside its field. -/
def Cmd.word0Bad (c : Cmd) : Bool :=
  let w := c.words.getD 0 0
  decide (nfld w 47 32 / 4096 ≠ 0) || decide (nfld w 63 48 ≠ 0) || decide (c.flags / 16 ≠ 0) || decide (c.words.getD 7 0 ≠ 0)

/-- The fields that an opcode does not name are zero (R379). -/
def Cmd.unusedBad (c : Cmd) (ctx prog args dl o0 o1 : Bool) : Bool :=
  (!ctx && decide (nfld (c.words.getD 0 0) 47 32 ≠ 0)) || (!prog && decide (c.words.getD 1 0 ≠ 0)) ||
    (!args && decide (c.args ≠ 0)) || (!dl && (decide (c.deadline ≠ 0) || c.dlRel)) || (!o0 && decide (c.op0 ≠ 0)) ||
    (!o1 && decide (c.op1 ≠ 0))

/-- The layout of R178 in a 64-bit operand. -/
def semLayoutBad (x : Nat) : Bool :=
  decide (2 ^ 32 ≤ x) || decide (nfld x 30 24 ≠ 0) || (!x.testBit 31 && decide (nfld x 23 16 ≠ 0))

/-- Lengths and alignments of PROGRAM_PATCH (R411). -/
def Cmd.patchBad (c : Cmd) : Bool :=
  let off := nfld c.op0 31 0
  let len := nfld c.op0 63 32
  decide (4 ≤ c.op1) || (match c.op1 with
    | 0 => decide (off % 8 ≠ 0) || decide (len % 8 ≠ 0) || decide (len < 8) || decide (65536 < off + len)
    | 1 => decide (off ≠ 0) || decide (len % 8 ≠ 0) || decide (len < 24) || decide (65552 < len)
    | 2 => decide (off ≠ 0) || decide (len ≠ 0)
    | _ => true)

/-- Does an entry break a check of R380 with ILLEGAL_OPCODE? -/
def Cmd.illegal (c : Cmd) (admin : Bool) : Bool :=
  let progBad := decide (nfld (c.words.getD 1 0) 15 12 ≠ 0) || decide (nfld (c.words.getD 1 0) 63 32 ≠ 0)
  let classBad := decide (nfld (c.words.getD 0 0) 15 11 ≠ 0)
  c.word0Bad || (c.srcHost && decide (c.opcode ≠ 5)) ||
  (match c.opcode with
    | 0 => c.unusedBad false false false false false false
    | 1 => c.unusedBad true true true true false false || progBad || classBad
    | 2 => c.unusedBad true false true true false false || classBad
    | 3 => c.unusedBad true false false false true true || semLayoutBad c.op0 || decide (2 ^ 48 ≤ c.op1)
    | 4 => c.unusedBad true false false false true true || semLayoutBad c.op0 || decide (2 ^ 48 ≤ c.op1)
    | 5 => c.unusedBad true true true true true true || progBad || classBad || c.patchBad
    | 6 => c.unusedBad false false false false false false
    | 7 => c.unusedBad true false false false true false || !admin || decide (2 ^ 12 ≤ c.op0)
    | _ => true)

/-- Does an opcode use CONTEXT (R379)? -/
def usesContext (op : Nat) : Bool := decide (1 ≤ op) && decide (op ≤ 7) && decide (op ≠ 6)

/-- STATE of a context (R513). -/
def State.ctxState (s : State) (n : Nat) : Nat := s.fld (R.ctxCfg n) 63 62

/-- What the checks of R380 and R528 make of a fetched entry: the outcome with which it ends at once. -/
def State.entryCheck (s : State) (q : Nat) (c : Cmd) : Option Outcome :=
  if c.illegal (s.qAdmin q) then some ⟨0x05, mkDetail 0xFFFF 0 0x07⟩
  else if usesContext c.opcode && (decide (s.tenantOf c.ctx ≠ s.qFunc q) || s.ctxState c.ctx = 0 || s.ctxState c.ctx = 3) then
    some ⟨0x04, mkDetail 0xFFFF 0 0x10⟩
  else if usesContext c.opcode && s.ctxState c.ctx = 2 then some ⟨0x06, mkDetail 0xFFFF 0 0⟩
  else if s.qSched q && laneOpcode c.opcode && c.deadline = 0 then some ⟨0x01, mkDetail 0xFFFF 0 0x4⟩
  else none

/-- An entry as it is fetched: what R418 takes with it, and nothing done yet. -/
def State.entryOf (s : State) (q : Nat) (words : List Nat) : Cmd :=
  let t := s.inForce (R.queTimeout q)
  { queue := q, index := (s.queue q).seq, words := words, ctx := nfld (words.getD 0 0) 43 32, number := 0,
    evt := (s.inForce (R.queEvtAddr q)).toNat,
    timeout := if Machine.fld t 31 0 = 0 then s.con.queTimeout else Machine.fld t 31 0, fetched := s.now, stage := .held,
    started := false, lane := none, start := 0, fin := 0, pin := none, waiting := false, thr := none, engine := 0,
    endT := 0, held := 0, outcome := none, refused := none, void := false, dropped := false, boundary := false,
    order := 0 }

/-- What a fetch moves (R375, R418, R419, R623): the registers of the S class are taken over, the head advances, INFLIGHT
and the counts rise, and the next entry has the next number. -/
def State.fetched (s : State) (q : Nat) : State :=
  let x := s.queue q
  let s := ((s.adopt (R.queTimeout q)).adopt (R.queEvtAddr q)).hit 212 0x4000 1
  let s := (s.setFld (R.queSqHead q) 15 0 ((s.fld (R.queSqHead q) 15 0 + 1) % s.sqSize q)).setFld (R.queInflight q) 6 0 (s.qInflight q + 1)
  let s := (s.setQueue q { x with seq := x.seq + 1 }).rled (4 * 2) 1
  { s with dsp := { s.dsp with nextCmd := s.dsp.nextCmd + 1 } }

/-- Take an entry into the command table (R375, R380, R418, R525). -/
def State.takeEntry (s : State) (q : Nat) (words : List Nat) : State :=
  let id := s.dsp.nextCmd
  let c := s.entryOf q words
  let s := s.fetched q
  match s.entryCheck q c with
  | some o =>
    let s := if o.status = 0x06 then s.count (R.ctxAborted c.ctx) 32 1 else s
    (s.setCmd id (some c)).endCmd id o.status o.detail
  | none =>
    if usesContext c.opcode then
      let n := (s.rd (R.ctxEpochFetched c.ctx)).toNat + 1
      (s.count (R.ctxEpochFetched c.ctx) 64 1).setCmd id (some { c with number := n })
    else s.setCmd id (some c)

/-- A fetch failed (R375): SQ_FAULT, an event, the error vector; the head stays. -/
def State.sqFault (s : State) (q : Nat) : State :=
  (s.setFlag (R.queStatus q) 5).raiseEvent q (s.inForce (R.queEvtAddr q)).toNat 0 2 0

/-- Is an entry of an admin queue one that a switch or HOLD lets through (R35, R409)? -/
def switchLets (words : List Nat) : Bool :=
  let op := nfld (words.getD 0 0) 7 0
  op = 0 || op = 7

/-- The eight words of an entry are taken, but for one that a switch or HOLD holds (R35, R409). -/
def State.takeWords (s : State) (q : Nat) (b : List Byte) : State :=
  let words := (List.range 8).map (fun i => leNat ((b.drop (8 * i)).take 8))
  if s.holding && !switchLets words then s else s.takeEntry q words

/-- The dispatcher serves a queue: no eligible queue is of a kind served earlier, or stands before it in its kind's rotation (R375). -/
def State.nextQueue (s : State) (q : Nat) : Bool :=
  s.mayFetch q && !s.enabledQueues.any (fun r =>
    (decide (s.qRank r < s.qRank q) || (s.qRank r = s.qRank q && decide (s.qTurn r < s.qTurn q))) && s.mayFetch r)

/-- The queue has had its turn. -/
def State.serve (s : State) (q : Nat) : State :=
  { s with dsp := { s.dsp with served := SMap.put 0 s.dsp.served (s.qRank q) (q + 1) } }

/-- ENTRY_FETCH (R375, R380): the next entry of the queue whose turn it is. From
host memory the entry comes with the command, with how its read ended; from device memory it is read at its home
slice. -/
def execEntryFetch (q : Nat) (data : BitVec 512) (e : HostEnd) (s : State) : Answer :=
  .next (
    if !s.nextQueue q then s
    else
      let s := s.serve q
      let at_ := (s.rd (R.queSqBase q)).toNat + 64 * s.fld (R.queSqHead q) 15 0
      if s.flag (R.queCfg q) 60 then
        if e = .ok then s.takeWords q (leBytes 64 data.toNat)
        else (s.hostError (s.qFunc q) 0 0 at_ e).sqFault q
      else if localEnd < at_ + 64 then s.sqFault q
      else
        let (b, bad, t) := s.memRead at_ 64 2 0 true
        if bad then (t.consumedPoison).sqFault q else t.takeWords q b)

/-- SQ_FAULT_CLEAR (R375, R420). -/
def execSqFaultClear (fn q : Nat) (s : State) : Answer :=
  .next (s.mmio fn (R.queStatus q) true fun s => s.clrFlag (R.queStatus q) 5)

/-! ### Starting entries -/

/-- May an entry start under R376? Each earlier entry of its queue has completed, or has started with PIPE and is no WAIT: an entry between
them that was refused at its fetch lets nothing past. -/
def State.mayStart (s : State) (c : Cmd) : Bool :=
  s.cmdList.all (fun e =>
    let p := e.2
    decide (p.queue ≠ c.queue) || decide (c.index ≤ p.index) || p.stage = .ended ||
      (p.started && p.pipe && decide (p.opcode ≠ 4)))

/-- An entry's work starts (R382, R457, R620): its time, its trace record, and GUARANTEE_VOID where a flow it lists was
declared in this frame. -/
def State.startCmd (s : State) (id : Nat) (c : Cmd) : State :=
  let late := (s.cmdFlows c).any (fun f => match s.mln.flows.find? (fun x => x.num = f) with
    | some x => x.declared | none => false)
  let s := s.setCmd id (some { c with
    stage := .running, started := true, start := if c.lane.isSome then c.start else s.now,
    void := c.void || late || decide (s.fld R.pwrEmergStep 19 4 ≠ 0) })
  s.trace ⟨0x03, 3, 0, c.ctx, c.queue, c.cookie, c.opcode⟩

/-- A held entry of an opcode that needs no admission starts, once R376 lets it. -/
def State.simpleEntry (s : State) (id op : Nat) (act : Cmd → State → State) : State :=
  match s.cmd id with
  | none => s
  | some c =>
    if c.opcode ≠ op || c.stage ≠ .held || !s.mayStart c then s
    else act c (s.startCmd id c)

/-- NOP_ENTRY (R379). -/
def execNopEntry (id : Nat) (s : State) : Answer := .next (s.simpleEntry id 0 fun _ s => s.endCmd id 0 (mkDetail 0xFFFF 0 0))

/-- A submission entry as a signaller (R423). -/
def State.cmdSignaller (s : State) (c : Cmd) : Signaller :=
  ⟨3, s.tenantOf c.ctx, c.ctx, c.queue, s.con.node, c.cookie⟩

/-- SIGNAL_ENTRY (R379, R425): a local signal, or a remote one once a port controller accepts it. -/
def execSignalEntry (id : Nat) (s : State) : Answer :=
  .next (s.simpleEntry id 3 fun c t =>
    let sem := c.op0 % 2 ^ 16
    let node := nfld c.op0 23 16
    if c.op0.testBit 31 && decide (node ≠ s.con.node) then
      match t.mlnAccept (t.signalMsg (t.cmdSignaller c) node sem c.op1) 192 [] with
      | some t => t.endCmd id 0 (mkDetail 0xFFFF 6 0)
      | none => s
    else
      let (st, t) := t.semSignal sem c.op1 (t.cmdSignaller c)
      t.endCmd id st (mkDetail 0xFFFF 6 0))

/-- WAIT_ENTRY (R379, R425, R427): ends at once or joins the list; a remote semaphore cannot be waited on. -/
def execWaitEntry (id : Nat) (s : State) : Answer :=
  .next (s.simpleEntry id 4 fun c s =>
    if c.op0.testBit 31 && decide (nfld c.op0 23 16 ≠ s.con.node) then s.endCmd id 0x05 (mkDetail 0xFFFF 0 0x01)
    else
      match s.semWait (c.op0 % 2 ^ 16) (s.tenantOf c.ctx) ⟨2, c.ctx, id, c.op1, s.now, 0⟩ with
      | (some st, s) => s.endCmd id st (mkDetail 0xFFFF 6 0)
      | (none, s) => match s.cmd id with
        | some c => s.setCmd id (some { c with waiting := true })
        | none => s)

/-- FENCE_ENTRY (R379): once every earlier entry of its queue has completed. -/
def execFenceEntry (id : Nat) (s : State) : Answer :=
  .next (match s.cmd id with
    | none => s
    | some c =>
      if s.cmdList.any (fun e => e.2.queue = c.queue && decide (e.2.index < c.index) && e.2.stage ≠ .ended) then s
      else s.simpleEntry id 6 fun _ s => s.endCmd id 0 (mkDetail 0xFFFF 0 0))

/-! ### Completions -/

/-- A completion entry (R381, R382). -/
def State.cqBytes (s : State) (q : Nat) (c : Cmd) : List Byte :=
  let o := c.outcome.getD ⟨0, 0⟩
  let flags := (if s.flag (R.queCqTail q) 16 then 128 else 0) + (if c.dropped then 4 else 0) + (if c.boundary then 2 else 0) +
    (if c.void then 1 else 0)
  leBytes 8 c.cookie ++ leBytes 1 o.status ++ leBytes 1 flags ++ leBytes 2 (s.fld (R.queSqHead q) 15 0) ++
    leBytes 4 o.detail ++ leBytes 6 c.start ++ leBytes 6 c.endT ++ leBytes 4 (min (c.engine / 1000) 0xFFFFFFFF)

/-- A completion counts as written (R385, R386, R388, R620, R623): the tail moves, the phase toggles at the wrap, the entry
leaves the command table, and its event is raised. -/
def State.cqWritten (s : State) (q id : Nat) : State :=
  match s.cmd id with
  | none => s
  | some c =>
    let o := c.outcome.getD ⟨0, 0⟩
    let t := s.rd (R.queCqTail q)
    let flags := (if bit t 16 then 128 else 0) + (if c.dropped then 4 else 0) + (if c.boundary then 2 else 0) +
      (if c.void then 1 else 0)
    let tail := (Machine.fld t 15 0 + 1) % s.cqSize q
    let phase := if tail = 0 then !bit t 16 else bit t 16
    let s := s.wr (R.queCqTail q) (BitVec.ofNat 64 (tail + if phase then 2 ^ 16 else 0))
    let s := ((s.count (R.queCompleted q) 64 1).rled (4 * 2 + 1) 1).dropCmd q id
    let s := s.setQueue q { s.queue q with owed := (s.queue q).owed - 1 }
    let s := s.trace ⟨0x04, 3, 0, c.ctx, q, c.cookie, o.status + 2 ^ 8 * flags + 2 ^ 16 * o.detail⟩
    let s := if c.void then s.traceTrigger 4 else s
    if c.event then s.raiseEvent q c.evt c.cookie 0 o.status else s

/-- Write a completion: in device memory it counts at once, in host memory once its read-back returns (R385). -/
def State.cqWrite (s : State) (q id : Nat) : State :=
  match s.cmd id with
  | none => s
  | some c =>
    let a := (s.rd (R.queCqBase q)).toNat + 32 * s.fld (R.queCqTail q) 15 0
    let b := s.cqBytes q c
    if s.flag (R.queCfg q) 59 then
      let s := s.busWrite (s.qFunc q) a b
      s.setQueue q { s.queue q with writing := some id }
    else (s.memWrite a b 2 0 true).cqWritten q id

/-- COMPLETION_WRITE (R376, R385, R387): the queue's next completion in the order of their ends. -/
def execCompletionWrite (q : Nat) (s : State) : Answer :=
  .next (
    let x := s.queue q
    match x.done with
    | [] => s
    | id :: rest =>
      if x.writing.isSome || s.flag (R.queStatus q) 4 || s.boot.stopped then s
      else (s.setQueue q { x with done := rest }).cqWrite q id)

/-- COMPLETION_READBACK (R385, R387): the read-back returns, and the entry counts as written; or it fails, and the entry
goes into the overflow slot with CQ_BLOCKED. A queue disabled meanwhile discards it (R388). -/
def execCompletionReadback (q : Nat) (e : HostEnd) (s : State) : Answer :=
  .next (
    let x := s.queue q
    match x.writing with
    | none => s
    | some id =>
      let s := s.setQueue q { x with writing := none }
      if e = .ok then s.cqWritten q id
      else
        let a := (s.rd (R.queCqBase q)).toNat + 32 * s.fld (R.queCqTail q) 15 0 + 24
        let s := (s.hostError (s.qFunc q) 0 0 a e).setFlag (R.queStatus q) 4
        let s := s.setQueue q { s.queue q with overflow := some id }
        match s.cmd id with
        | some c => s.raiseEvent q c.evt c.cookie 1 ((c.outcome.map Outcome.status).getD 0)
        | none => s)

/-- CQ_RETRY (R388): the overflow entry is written again; the held ones follow, and fetching resumes after them. -/
def execCqRetry (fn q : Nat) (s : State) : Answer :=
  .next (s.mmio fn (R.queStatus q) true fun s =>
    let x := s.queue q
    if !s.flag (R.queStatus q) 4 then s
    else
      let s := (s.clrFlag (R.queStatus q) 4).setQueue q { x with overflow := none, owed := x.overflow.toList.length + x.done.length }
      match x.overflow with
      | some id => s.cqWrite q id
      | none => s)

/-- HOLD (R409): a write of DSP_CONTROL. -/
def execHold (fn : Nat) (on : Bool) (s : State) : Answer :=
  .next (s.mmio fn R.dspControl true fun s => s.wr R.dspControl (if on then 1 else 0))

end Sys2Proof.Machine
end

