-- ==== Sys2Proof/Machine/Translate.lean ====
section
/-! DEFINITION. Walks, invalidation of translations, and cache maintenance by range and by set and way
(spec 08 R304 to R328, 09 R364 to R370). -/

namespace Sys2Proof.Machine

/-- The requester of a walk. -/
def WalkFor.req : WalkFor → Req
  | .core c => .core c
  | .cluster n => .cluster n
  | .hub => .hub

/-- The permissions of an access. -/
def Perm.need : Perm → Need
  | .r => needR
  | .w => needW
  | .rw => needRW
  | .x => needX

/-- PAGE_WALK (R304, R306, R310 to R314, R325, R328, R491): a walker serves a TLB miss of a requester; `host` is what the host
answered in MIRROR mode. -/
def execPageWalk (q : WalkFor) (cls ctx va : Nat) (p : Perm) (host : HostData) (s : State) : Answer :=
  .next (s.withHost host fun s => (s.xlate q.req cls (s.viewNow ctx) va p.need).2)

/-! ### Invalidation -/

/-- Does an entry that maps `size` bytes from `va` overlap an invalidated range (R321)? -/
def Inval.hits (i : Inval) (tag va size : Nat) : Bool :=
  decide (tag = i.tag) && (decide (i.pages = 0) || (decide (va < i.va + 4096 * i.pages) && decide (i.va < va + size)))

/-- Remove what an invalidation names from every TLB and walk cache (R321). -/
def State.invalidate (s : State) (i : Inval) : State :=
  let keep (l : List TlbEntry) : List TlbEntry := l.filter (fun e => !i.hits e.tag e.va e.size)
  let keepW (l : List WalkEntry) : List WalkEntry :=
    l.filter (fun e => !i.hits e.tag (e.vaPrefix * pageSize e.level) (pageSize e.level))
  let s := s.mapCores (fun _ k => { k with tlb := keep k.tlb })
  { s with trn := { s.trn with
      cluster := SMap.mapv [] (fun _ l => keep l) s.trn.cluster,
      hub := keep s.trn.hub,
      walk := SMap.mapv [] (fun _ l => keepW l) s.trn.walk } }

/-- Empty every TLB and walk cache (R326, R327). -/
def State.flushTlbs (s : State) : State :=
  let s := s.mapCores (fun _ k => { k with tlb := [] })
  { s with trn := { s.trn with cluster := [], hub := [], walk := [] } }

/-- The turns of a core's accesses that have translated through a removed entry and are not performed yet (R322): a store in the store
buffer, or a load whose lanes may be read again from their home slice (R357). Loads from host space have been sent, and others
have been performed, when they issue. No store goes to a model page (R309). -/
def Core.translated (k : Core) (i : Inval) : List Nat :=
  let loads := k.loads.filter fun l => l.again && l.lanes.any (fun x => x.off.isSome &&
    i.hits (if l.keySlot = 64 then 4096 else match k.group l.slot with | some g => k.groupCtx g | none => 4097) x.va l.size)
  let parts := k.stores.flatMap fun e => e.parts.filter (fun p => i.hits e.ctx p.va p.data.length)
  loads.map Load.turn ++ parts.map StorePart.turn

/-- Does a core still hold an access of a turn? -/
def Core.holdsTurn (k : Core) (turn : Nat) : Bool :=
  k.loads.any (fun l => l.turn = turn) || k.stores.any (fun e => e.parts.any (fun p => p.turn = turn))

/-- TLB_INVALIDATE (R321, R322): a write of GO to TRN_INV_CMD, which only the physical function reaches (R482). -/
def execTlbInvalidate (fn : Nat) (s : State) : Answer :=
  .next (s.mmio fn R.trnInvCmd true fun s => if s.flag R.trnStatus 3 then s.setFlag R.trnStatus 2
    else
      let ctx := s.fld R.trnInvCtx 11 0
      let i : Inval :=
        ⟨if s.flag R.trnInvCtx 12 then 4096 else ctx, s.fld R.trnInvVa 47 12 * 4096, s.fld R.trnInvPages 35 0, []⟩
      let i := { i with waits := s.cores.flatMap (fun e => (e.2.translated i).map (fun t => (e.1, t))) }
      let s := (s.invalidate i).setFlag R.trnStatus 3
      { s with trn := { s.trn with inval := some i } })

/-- INVALIDATE_DONE (R322): the last access through a removed entry has been performed, accepted or sent. -/
def execInvalidateDone (s : State) : Answer :=
  .next (match s.trn.inval with
    | none => s
    | some i =>
      if i.waits.any (fun w => (s.core w.1).holdsTurn w.2) then s
      else { s with trn := { s.trn with inval := none } }.clrFlag R.trnStatus 3)

/-! ### Cache maintenance -/

/-- What maintenance does to a line (R364). -/
structure MaintOp where
  clean : Bool
  inval : Bool
  l1Only : Bool
  deriving DecidableEq, Repr

/-- Apply an operation to one line: dirty data written back and counted, L2 and L1 copies dropped. -/
def State.maintLine (s : State) (o : MaintOp) (n : Nat) : State :=
  let dirty := match s.mem.line n with | some x => x.dirty | none => false
  let s := if o.clean && !o.l1Only && dirty then
      (s.setMem (s.mem.cleanLine n)).count R.cchMaintLines 64 1 else s
  if !o.inval then s
  else
    let s := if o.l1Only then s else { s with mem := s.mem.dropLine n }
    s.mapCores (fun _ k => { k with l1 := SMap.put none k.l1 n none })

/-- What a range operation needs in the segment (R364): W only to discard L2 lines. -/
def MaintOp.need (o : MaintOp) : Need := if o.inval && !o.clean && !o.l1Only then needW else needR

/-- Apply an operation to a range of virtual addresses of a context (R364): pages that fail are skipped. -/
def State.maintRange (s : State) (o : MaintOp) (ctx va len : Nat) : Bool × State :=
  if len = 0 || (o.clean && !o.inval && o.l1Only) then (false, s)
  else
    let lo := va / 128 * 128
    let hi := roundUp (va + len) 128
    (List.range ((hi - 1) / 4096 + 1 - lo / 4096)).foldl (fun (a : Bool × State) i =>
      let p := (lo / 4096 + i) * 4096
      let b := if p < lo then lo else p
      let e := if hi < p + 4096 then hi else p + 4096
      match a.2.xlateQuiet .hub ctx b o.need with
      | (.fault _ _, t) => (true, t)
      | (.ok pa _, t) =>
        if t.placeOf pa ≠ .localMem then (a.1, t)
        else (a.1, (List.range ((e - b) / 128)).foldl (fun t j => t.maintLine o (paOffset pa / 128 + j)) t)) (false, s)

/-- A range GO of function `f` (R364, R365). -/
def State.maintGo (s : State) (f : Nat) (o : MaintOp) : State :=
  let ctx := s.fld (R.cchMaintCtx f) 11 0
  if s.flag (R.cchMaintStatus f) 0 then s.setFlag (R.cchMaintStatus f) 1
  else if s.tenantOf ctx ≠ f then s.setFlag (R.cchMaintStatus f) 3
  else
    let (skipped, s) := s.maintRange o (s.viewNow ctx) (s.fld (R.cchMaintVa f) 47 0) (s.fld (R.cchMaintLen f) 47 0)
    let s := s.setFlag (R.cchMaintStatus f) 0
    if skipped then s.setFlag (R.cchMaintStatus f) 2 else s

/-- MAINT_CLEAN (R364): OP 1. -/
def execMaintClean (fn : Nat) (l1Only : Bool) (s : State) : Answer :=
  .next (s.mmio fn (R.cchMaintCmd fn) true fun s => s.maintGo fn ⟨true, false, l1Only⟩)

/-- MAINT_INVALIDATE (R364): OP 2. -/
def execMaintInvalidate (fn : Nat) (l1Only : Bool) (s : State) : Answer :=
  .next (s.mmio fn (R.cchMaintCmd fn) true fun s => s.maintGo fn ⟨false, true, l1Only⟩)

/-- MAINT_CLEAN_INVALIDATE (R364): OP 3. -/
def execMaintCleanInvalidate (fn : Nat) (l1Only : Bool) (s : State) : Answer :=
  .next (s.mmio fn (R.cchMaintCmd fn) true fun s => s.maintGo fn ⟨true, true, l1Only⟩)

/-- MAINT_DONE (R365). -/
def execMaintDone (f : Nat) (s : State) : Answer := .next (s.clrFlag (R.cchMaintStatus f) 0)

/-- The lines a set/way command names (R366, R369): one way of a set, or all of a die. -/
def State.setwayLines (s : State) (all : Bool) (die slice set way : Nat) : List Nat :=
  (s.mem.l2.filter (fun e =>
    let a := 128 * e.1
    match e.2 with
    | none => false
    | some x => decide (homeDie a = die) &&
        (all || (decide (homeSlice a = slice) && decide (l2Set a = set) && decide (x.way = some way))))).map Prod.fst

/-- A write of CCH_SETWAY_CMD (R366): from another function than the physical one it is discarded and sets MAINT_DENIED too. -/
def State.setwayWrite (s : State) (fn : Nat) (act : State → State) : State :=
  let t := s.mmio fn R.cchSetwayCmd true act
  if fn ≠ 0 && s.fnExists fn && s.answers && !SMap.get false s.pci.d3 fn then t.setFlag (R.cchMaintStatus fn) 3 else t

/-- A set/way operation on one line (R366, R369). -/
def State.setwayLine (s : State) (o : MaintOp) (n : Nat) : State :=
  let dirty := match s.mem.line n with | some x => x.dirty | none => false
  let s := if o.clean && dirty then (s.setMem (s.mem.cleanLine n)).count R.cchMaintLines 64 1 else s
  if o.inval then { s with mem := s.mem.dropLine n } else s

/-- A set/way GO (R366, R369). -/
def State.setwayGo (s : State) (o : MaintOp) (all : Bool) (die slice set way : Nat) : State :=
  if s.flag R.cchStatus 0 || (!all && decide (767 < set)) then s.setFlag R.cchStatus 1
  else ((s.setwayLines all die slice set way).foldl (fun t n => t.setwayLine o n) s).setFlag R.cchStatus 0

/-- SETWAY_CLEAN (R366). -/
def execSetwayClean (fn : Nat) (all : Bool) (die slice set way : Nat) (s : State) : Answer :=
  .next (s.setwayWrite fn fun s => s.setwayGo ⟨true, false, false⟩ all die slice set way)

/-- SETWAY_INVALIDATE (R366). -/
def execSetwayInvalidate (fn : Nat) (all : Bool) (die slice set way : Nat) (s : State) : Answer :=
  .next (s.setwayWrite fn fun s => s.setwayGo ⟨false, true, false⟩ all die slice set way)

/-- SETWAY_CLEAN_INVALIDATE (R366). -/
def execSetwayCleanInvalidate (fn : Nat) (all : Bool) (die slice set way : Nat) (s : State) : Answer :=
  .next (s.setwayWrite fn fun s => s.setwayGo ⟨true, true, false⟩ all die slice set way)

/-- SETWAY_DONE (R366). -/
def execSetwayDone (s : State) : Answer := .next (s.clrFlag R.cchStatus 0)

end Sys2Proof.Machine
end

