-- ==== Sys2Proof/Machine/TcopyRows.lean ====
section
/-! DEFINITION. Meanings of TCOPY slots, kernel signals, the store buffer's entries, and of what Mainline accepts and
answers for copies (spec 03 R115 to R118, 04 R178, 09 R332, R336, 12 R454, R461). -/

namespace Sys2Proof.Machine

/-- A TCOPY slot as a transfer: its source and destination sides by OP (R112). Bits 63:48 of a virtual address are not looked at: the spec does not
say whether they must be zero (DESIGN CHOICE, log 91). -/
def TSlot.xfer (t : TSlot) (s : State) (c : Nat) : Xfer :=
  let es := 2 ^ t.elem
  let sp : Side := .scratch c t.base t.size
  { user := ⟨.core c, 1, 1, s.viewOf t.launch t.ctx⟩, total := es * t.ext0 * t.ext1 * t.ext2, row := es * t.ext0, rows := t.ext1,
    src := (if t.op = 1 || t.op = 3 then sp else .va),
    srcBase := (if t.op = 1 || t.op = 3 then t.src else t.src % 2 ^ 48), srcRow := t.sstr1, srcPlane := t.sstr2,
    dst := (if t.op = 0 || t.op = 5 then sp else .va),
    dstBase := (if t.op = 0 || t.op = 5 then t.dst else t.dst % 2 ^ 48), dstRow := t.dstr1, dstPlane := t.dstr2 }

/-- Replace a TCOPY slot. -/
def State.setTslot (s : State) (c n : Nat) (t : Option TSlot) : State :=
  s.updCore c (fun k => { k with tcopy := SMap.put none k.tcopy n t })

/-- A slot stops with a fault (R116); a write into the sealed pool ends its launch with PROGRAM_SEALED (R414). -/
def State.tcopyFails (s : State) (c n : Nat) (t : TSlot) (f : VmFault) : State :=
  match f with
  | .code code _ => s.slotFault c n code
  | .sealed => ((s.dropReads (.tcopy c n)).setTslot c n none).stopLaunch t.launch 0x09 0x300

/-- The node that a completed PUT went to: that of its last destination address, this one where it is not remote. -/
def State.putNode (s : State) (c : Nat) (t : TSlot) : Nat :=
  let x := t.xfer s c
  match x.dst with
  | .scratch _ _ _ => s.con.node
  | .va => match s.xlateQuiet x.user.req x.user.ctx (x.dstAt (x.total - 1)).toNat needW with
    | (.ok pa _, _) => paNode pa
    | (.fault _ _, _) => s.con.node

/-- The completion actions of a slot, flag then signal (R115), or `none` while the signal is not accepted: it waits for the core's earlier
remote writes to the node (R430). A refused signal goes into the command's completion (R426). -/
def State.tcopyActions (s : State) (c n : Nat) (t : TSlot) : Option State :=
  if t.flags.testBit 1 && decide (t.size < t.flagAddr + 4) then some (s.tcopyFails c n t (.code 0x0A 0))
  else
    let s := if t.flags.testBit 1 then s.updCore c (fun k => k.scratchWrite (t.base + t.flagAddr) (leBytes 4 1)) else s
    let free (s : State) : State := s.setTslot c n none
    if !t.flags.testBit 0 then some (free s)
    else
      let (cookie, queue) := s.launchTag t.launch
      let q : Signaller := ⟨2, s.tenantOf t.ctx, t.ctx, queue, s.con.node, cookie⟩
      let sem := t.sem % 2 ^ 16
      let node := s.putNode c t
      let cmd := ((s.launch t.launch).map Launch.cmd).getD 0
      if t.sem.testBit 31 && decide (node ≠ s.con.node) then
        if (s.core c).stores.any (fun e => e.place = .remote && paNode (128 * e.line) = node) then none
        else (s.mlnAccept (s.signalMsg q node sem 1) c (s.flowsOf cmd)).map free
      else
        let (st, s) := s.semSignal sem 1 q
        some (free (s.signalRefused cmd st))

/-- A slot's turn in the rotation of R118: up to the end of the 128-byte unit it is in, as far as no Mainline is needed and nothing it has asked for is
still to come (R116). How far it stands then, and the fault it met. -/
def State.tcopyTurn (s : State) (c n : Nat) (t : TSlot) : Nat × Option VmFault × State :=
  if s.awaitsRead (.tcopy c n) then (t.pos, none, s)
  else
    let x := t.xfer s c
    let (p, f, s) := s.xferRun x (min x.total (t.pos / 128 * 128 + 128)) t.pos 129
    let s := if p = t.pos then s else s.hit c 0x25 1
    (p, f, s.setTslot c n (some { t with pos := p }))

/-- Would a slot's next unit read host memory? -/
def State.tcopyAsks (s : State) (c : Nat) (t : TSlot) : Bool :=
  let x := t.xfer s c
  match x.src with
  | .scratch _ _ _ => false
  | .va => match s.xlateQuiet x.user.req x.user.ctx (x.srcAt t.pos).toNat needR with
    | (.ok pa _, _) => decide (s.placeOf pa = .host)
    | (.fault _ _, _) => false

/-- The turns of the core's other active slots, in ascending order from the one after `n` (R118). One that would fault or that reads host memory
stands until a command of its own. -/
def State.tcopyOthers (s : State) (c n : Nat) : State :=
  ((List.range 7).map (fun i => (n + 1 + i) % 8)).foldl (fun s i =>
    match (s.core c).tslot i with
    | none => s
    | some t =>
      if t.fault.isSome || decide ((t.xfer s c).total ≤ t.pos) || s.tcopyAsks c t then s
      else match s.tcopyTurn c i t with
        | (_, none, r) => r
        | (_, some _, _) => s) s

/-- The rotation (R118) until slot `n` has moved all that needs no Mainline: the slot, and the fault that stopped it. -/
def State.tcopyRun (s : State) (c n : Nat) (t : TSlot) : Nat → TSlot × Option VmFault × State
  | 0 => (t, none, s)
  | fuel + 1 =>
    match s.tcopyTurn c n t with
    | (p, some f, r) => ({ t with pos := p }, some f, r)
    | (p, none, r) =>
      if p = t.pos then (t, none, r) else State.tcopyRun (r.tcopyOthers c n) c n { t with pos := p } fuel

/-- Turns that are enough for a slot. -/
def TSlot.turns (t : TSlot) : Nat := 2 ^ t.elem * t.ext0 * t.ext1 * t.ext2 / 128 + 2

/-- TCOPY_SLOT_COMPLETE (R115, R118, R335): the slot moves what is left and, when every element is written, performs its
completion actions and frees. `host` is what the host answers. -/
def execTcopySlotComplete (c n : Nat) (host : HostData) (s : State) : Answer :=
  .next (s.withHost host fun s => match (s.core c).tslot n with
    | none => s
    | some t =>
      if t.fault.isSome then s
      else
        let (u, f, r) := s.tcopyRun c n t t.turns
        if f.isSome then s
        else if u.pos < (u.xfer r c).total || r.awaitsRead (.tcopy c n) then r
        else (r.tcopyActions c n u).getD r)

/-- TCOPY_SLOT_FAULT (R116, R491, R558): the slot stops at the element that faults, or at the one whose data the part lost
(`upset`), and holds the code. -/
def execTcopySlotFault (c n : Nat) (host : HostData) (upset : Upset) (s : State) : Answer :=
  .next (s.withHost host fun s => match (s.core c).tslot n with
    | none => s
    | some t =>
      if t.fault.isSome then s
      else if upset = .lost then ((s.detect 2 c 0 upset).consumedPoison).tcopyFails c n t (.code 0x06 0)
      else
        match s.tcopyRun c n t t.turns with
        | (_, none, _) => s
        | (u, some f, r) => (if upset = .corrected then r.detect 2 c 0 upset else r).tcopyFails c n u f)

/-- A hub copy as a transfer (R399, R400). -/
def Copy.xfer (x : Copy) : Xfer :=
  { user := ⟨.hub, 2, 2, x.view⟩, total := x.len, row := x.len, rows := 1,
    src := .va, srcBase := x.src, srcRow := 0, srcPlane := 0, dst := .va, dstBase := x.dst, dstRow := 0, dstPlane := 0 }

/-- The thread fault code a copy ends with, the pool's seal as 0x100. -/
def VmFault.num : VmFault → Nat
  | .code c cause => c + 2 ^ 16 * cause
  | .sealed => 0x100

/-- Replace a hub copy. -/
def State.setCopy (s : State) (n : Nat) (x : Option Copy) : State :=
  { s with dsp := { s.dsp with copies := SMap.put none s.dsp.copies n x } }

/-- A hub copy by its number. -/
def State.copy? (s : State) (n : Nat) : Option Copy := SMap.get none s.dsp.copies n

/-- What a hub copy can move without Mainline, once what it has asked for has come: where it stands, and the fault that stopped it. -/
def State.copyRun (s : State) (n : Nat) (x : Copy) : Nat × Option VmFault × State :=
  if s.awaitsRead (.copy n) then (x.pos, none, s) else s.xferRun x.xfer x.len x.pos (x.len + 1)

/-- The transfer of the reader that a remote read serves. -/
def State.readerXfer (s : State) (w : MlnReader) : Option Xfer :=
  match w with
  | .tcopy c n => ((s.core c).tslot n).map (fun t => t.xfer s c)
  | .copy n => (s.copy? n).map Copy.xfer

/-- A reader's transfer fails. -/
def State.readerFails (s : State) (w : MlnReader) (f : VmFault) : State :=
  match w with
  | .tcopy c n => match (s.core c).tslot n with | some t => s.tcopyFails c n t f | none => s
  | .copy n => s.readFails (.copy n) f.num

/-- What a refused remote read leaves beside its fault (R329, R462): poison is counted, a segment or translation cause recorded. -/
def State.rspRecord (s : State) (x : Xfer) (pos : Nat) (f : VmFault) : State :=
  match f with
  | .code 0x06 _ => s.consumedPoison
  | .code _ cause => s.logXlat x.user.req.walker cause 0 x.user.cls x.user.ctx (x.srcAt pos).toNat
  | .sealed => s

/-- The answer of a reader's read goes to its destination, or its transfer ends with the mapped fault (R461, R462); `none` while a write to another
package is not accepted. -/
def State.rspPut (s : State) (r : MlnRead) (m : Msg) : Option State :=
  let u := m.size / 16
  let t := (s.setMln { s.mln with reads := s.mln.reads.filter (fun x => !decide (x.tag = r.tag)) }).unhold 3 u |>.led 3 1 u |>.freed m
  match t.readerXfer r.who with
  | none => some t
  | some x =>
    if m.status ≠ 0 then some ((t.rspRecord x r.pos (rspFault m.status)).readerFails r.who (rspFault m.status))
    else
      match t.xferPut x r.pos m.data with
      | (.fault f, t) => some (t.readerFails r.who f)
      | (.sendWrite d off dev b, t) =>
        let (core, flows) := match r.who with
          | .tcopy c n => (c, t.flowsOf ((((s.core c).tslot n).bind (fun x => (s.launch x.launch).map Launch.cmd)).getD 0))
          | .copy n => (192, t.flowsOf (((s.copy? n).map Copy.cmd).getD 0))
        t.mlnAccept (t.writeMsg (t.tenantOf x.user.ctx) d off dev b) core flows
      | (_, t) => some t

/-- A reader takes its answers in the order of its reads, so that nothing after an element that faults is written (R116). -/
def State.rspRun (s : State) (who : MlnReader) : Nat → State
  | 0 => s
  | fuel + 1 =>
    match s.mln.reads.find? (fun r => r.who = who) with
    | none => s
    | some r =>
      match r.got with
      | none => s
      | some m => match s.rspPut r m with
        | none => s
        | some t => State.rspRun t who fuel

/-- READ_RSP (R461, R462): the data go to the reader's destination, or its copy ends with the mapped fault, recorded for a
segment or translation cause. Data wait while an earlier chunk of the reader is awaited, and those for another package until a port controller
accepts the write. -/
def execReadRsp (m : Msg) (s : State) : Answer :=
  .next (
    if m.typ ≠ 3 || m.dst ≠ s.con.node then s
    else if m.malformed then (s.count R.mlnRxMalformed 32 1).freed m
    else
      match s.mln.reads.find? (fun r => r.tag = m.tag && r.dest = m.src && r.got.isNone) with
      | none => s.passed m
      | some r =>
        let u := m.size / 16
        let t := ((s.led 3 0 u).led 3 2 u).setMln { s.mln with
          reads := s.mln.reads.map (fun x => if x.tag = m.tag then { x with got := some m } else x) }
        t.rspRun r.who s.mln.reads.length)

/-- MESSAGE_ACCEPT (R302, R344, R453, R454): a port controller accepts the next remote message of a TCOPY slot or a hub
copy, once what precedes it has moved; a lost destination ends the copy with PEER_LOST (R470). -/
def execMessageAccept (src : MlnSource) (s : State) : Answer :=
  .next (match src with
    | .tcopy c n =>
      let s := s.rspRun (.tcopy c n) s.mln.reads.length
      match (s.core c).tslot n with
      | none => s
      | some t =>
        if t.fault.isSome then s
        else
          let (t, _, r) := s.tcopyRun c n t t.turns
          let cmd := ((r.launch t.launch).map Launch.cmd).getD 0
          match r.xferAccept (t.xfer r c) t.pos c (.tcopy c n) (r.flowsOf cmd) with
          | none => s
          | some (p, none, r) => r.setTslot c n (some { t with pos := p })
          | some (_, some f, r) => r.tcopyFails c n t f
    | .copy n =>
      let s := s.rspRun (.copy n) s.mln.reads.length
      match s.copy? n with
      | none => s
      | some x =>
        if x.failed.isSome then s
        else
          let (p, _, r) := s.copyRun n x
          match r.xferAccept x.xfer p 192 (.copy n) (r.flowsOf x.cmd) with
          | none => s
          | some (p, none, r) => r.setCopy n (some { x with pos := p })
          | some (p, some f, r) => r.setCopy n (some { x with pos := p, failed := some f.num }))

/-- An error that the semaphore store finds in a semaphore's words (R556, R561): corrected, or the semaphore is BROKEN at once, its value and
its last-signaller record gone (log 26). -/
def State.semUpset (s : State) (n : Nat) (u : Upset) : State :=
  let s := s.detect 0x0D 0 0 u
  if u ≠ .lost then s
  else
    let s := ((s.semBreak n none).setFld (R.semValue n) 47 0 0).wr (R.semLast n) 0
    { s.wr (R.semLastCookie n) 0 with sem := { s.sem with lastTime := SMap.put 0 s.sem.lastTime n 0 } }

/-- A group signals (R178, R353, R427, R433): a release at .p; a local signal is applied with its status, a remote one is accepted by a port
controller with status OK. `upset` is an error that the store finds in the semaphore (R561). -/
def signalRow (c slot : Nat) (upset : Upset) (s : State) : Answer :=
  .next (s.semRow c slot 0 fun g _ f n node count =>
    let q := s.groupSignaller c g 1
    if !s.released c 3 then
      s.setCore c (((s.core c).release 3).setGroup slot (some { g with stat := .waiting, wait := 4, hold := true }))
    else
      let s := s.updCore c (fun k => k.release 3)
      let remote := node.filter (fun d => decide (d ≠ s.con.node))
      match remote with
      | some d =>
        let cmd := ((s.launch ((s.core c).groupLaunch g)).map Launch.cmd).getD 0
        match s.mlnAccept (s.signalMsg q d n count) c (s.flowsOf cmd) with
        | some s => s.setGroup c slot ((g.setU f.dest stOk).next 8)
        | none => s.holdAt c slot g 4
      | none =>
        let (st, s) := (s.semUpset n upset).semSignal n count q
        s.setGroup c slot (((((s.core c).group slot).getD g).setU f.dest st).next 8))

/-- SEM.SIG (R178, R561). -/
def execSemSig (c : Nat) (i : SigSlot) (s : State) : Answer := signalRow c i.slot i.upset s

/-- The runs of adjacent bytes of a store-buffer entry: offset and bytes. -/
def byteRuns (d : SMap (Option Byte)) : List (Nat × List Byte) :=
  d.foldl (fun (l : List (Nat × List Byte)) e =>
    match e.2 with
    | none => l
    | some b =>
      match l.reverse with
      | (o, r) :: t => if e.1 = o + r.length then ((o, r ++ [b]) :: t).reverse else l ++ [(e.1, [b])]
      | [] => [(e.1, [b])]) []

/-- Do two entries touch one 8-byte word? -/
def StoreEntry.shares (a b : StoreEntry) : Bool :=
  a.place = b.place && a.line = b.line && a.data.any (fun x => b.data.any (fun y => x.1 / 8 = y.1 / 8))

/-- Must an entry wait for an earlier one (R336)? -/
def State.storeBehind (s : State) (e x : StoreEntry) : Bool :=
  x.shares e || (e.region = 2 && x.region = 2) ||
  (e.place = .host && x.place = .host && s.tenantOf e.ctx = s.tenantOf x.ctx) ||
  (e.place = .remote && x.place = .remote && paNode (128 * e.line) = paNode (128 * x.line))

/-- Perform entry `n` of a core's store buffer (R332, R336, R344, R346): at its home slice, as a posted write to the host, or as
remote writes that a port controller accepts; a write to a lost peer, or behind a fenced crossing (R70), is discarded and counted. While a warm reset
runs host writes are discarded (R637). `none` while an earlier entry holds it back or no port controller accepts it. -/
def State.performStore (s : State) (c n : Nat) : Option State :=
  match (s.core c).stores[n]? with
  | none => none
  | some e =>
    if ((s.core c).stores.take n).any (fun x => s.storeBehind e x) then none
    else
      let r := s.updCore c (fun k => k.eraseStore n)
      let done := if s.coreCut c then some (r.rled 7 1)
        else match e.place with
        | .localMem => some ((r.rled 5 1).performLocal c e)
        | .host =>
          if s.boot.stopped then some ((r.rled 7 1).resetLog 1 0)
          else some ((byteRuns e.data).foldl (fun s x =>
            s.hostWrite e.ctx (s.hostAddr (s.viewOf e.launch e.ctx) (128 * e.line + x.1)) x.2) (r.rled 5 1))
        | .remote =>
          let d := paNode (128 * e.line)
          let cmd := ((s.launch e.launch).map Launch.cmd).getD 0
          let msg (x : Nat × List Byte) : Msg :=
            s.writeMsg (s.tenantOf e.ctx) d (paOffset (128 * e.line + x.1)) (decide (e.region = 2)) x.2
          ((byteRuns e.data).foldl (fun (a : Option State) x =>
            a.bind (fun s => s.mlnAccept (msg x) c (s.flowsOf cmd))) (some r)).map
              (fun t =>
                let t := t.rled (if s.unreachable d then 7 else 5) 1
                if s.unreachable d && (s.boot.stopped || s.dsp.draining) then t.resetLog 0 1 else t)
      done.map (fun t => t.settleFaults c)

/-- STORE_PERFORM (R332, R336): entry `n` of a core's store buffer. -/
def execStorePerform (c n : Nat) (s : State) : Answer := .next ((s.performStore c n).getD s)

end Sys2Proof.Machine
end

