-- ==== Sys2Proof/Machine/Settle.lean ====
section
/-! DEFINITION. How a command is stopped and how it ends once its launches and copies have gone (spec 10 R393, R398, R400,
R403, R407, 14 R528). -/

namespace Sys2Proof.Machine

/-- STATUS and DETAIL.CODE of an access that failed (R384, R398, R414). -/
def VmFault.ends : VmFault → Nat × Nat
  | .sealed => (0x09, 0)
  | .code c cause =>
    if c = 0x08 then (0x03, cause)
    else if c = 0x09 then (0x04, cause)
    else if c = 0x06 then (0x0A, 0)
    else if c = 0x05 then (0x07, 0)
    else (0x05, c)

/-- A fault that a copy kept as a number (see `VmFault.num`). -/
def vmFaultOf (n : Nat) : VmFault := if n = 0x100 then .sealed else .code (n % 2 ^ 16) (n / 2 ^ 16)

/-- The launches and the copies of a command that are not over. -/
def State.launchesOf (s : State) (id : Nat) : List Nat := (s.launchList.filter (fun e => e.2.cmd = id)).map Prod.fst
def State.copiesOf (s : State) (id : Nat) : List Nat :=
  (s.dsp.copies.filter (fun e => match e.2 with | some x => x.cmd = id | none => false)).map Prod.fst

/-- The dispatch threads that run a program. -/
def State.threadList (s : State) : List (Nat × Thread) := s.dsp.threads.filterMap (fun e => e.2.map (fun c => (e.1, c)))

/-- A program is over: its thread is free, and a wait of it leaves its semaphore (R434). -/
def State.dropThread (s : State) (id : Nat) : State :=
  (s.threadList.filter (fun e => e.2.cmd = id)).foldl (fun s e =>
    (s.setThread e.1 none).semLeave (fun w => w.kind = 1 && w.place = e.1)) s

/-- A command whose outcome is fixed ends once its launches and copies are over (R382, R393). -/
def State.settleCmd (s : State) (id : Nat) : State :=
  match s.cmd id with
  | none => s
  | some c =>
    match c.outcome with
    | none => s
    | some o =>
      if c.stage = .ended || !(s.launchesOf id).isEmpty || !(s.copiesOf id).isEmpty then s
      else s.endCmd id o.status o.detail

/-- The pages that a patch of this command took return to the pool (R412). -/
def State.dropPatch (s : State) (id : Nat) : State :=
  let p := s.dsp.patching.filter (fun e => match e.2 with | some x => !decide (x.cmd = id) | none => false)
  { s with dsp := { s.dsp with patching := p } }.poolCount

/-- A command is stopped with a status and a detail (R393, R403, R405, R407, R528): its first cause stands. Its program ends
at its current instruction, its unstarted launches and its copies are discarded, its launches stop, and a WAIT leaves
its semaphore. `source` and `code` are those of R383; WORD names the program's instruction. -/
def State.stopCmd (s : State) (id status source code : Nat) : State :=
  match s.cmd id with
  | none => s
  | some c =>
    if c.stage = .ended || c.outcome.isSome then s
    else
      let word := match s.threadList.find? (fun e => e.2.cmd = id) with
        | some e => e.2.pc % 2 ^ 16
        | none => 0xFFFF
      let s := s.setCmd id (some { c with outcome := some ⟨status, mkDetail word source code⟩ })
      let s := (s.dropThread id).dropPatch id
      let s := if c.waiting then s.semLeave (fun w => w.kind = 2 && w.place = id) else s
      let s := (s.copiesOf id).foldl (fun s n => s.setCopy n none) s
      let s := (s.launchesOf id).foldl (fun s l => s.stopLaunch l status (2 ^ 8 * source + code)) s
      s.settleCmd id

/-- A program ends (R396 to R398) with a status, SOURCE DISPATCH_CODE and a code. -/
def State.endProgram (s : State) (t status code : Nat) : State :=
  match s.thread t with
  | some x => s.stopCmd x.cmd status 2 code
  | none => s

/-- A program ends because an access of it failed (R398). -/
def State.programFault (s : State) (t : Nat) (f : VmFault) : State := s.endProgram t f.ends.1 f.ends.2

/-! ### Shares (R521) -/

/-- The virtual time of a context with its 16 fraction bits (R520). -/
def State.vtime (s : State) (n : Nat) : Nat := 2 ^ 16 * (s.rd (R.ctxVtime n)).toNat + SMap.get 0 s.dsp.vfrac n

/-- Set a virtual time. -/
def State.setVtime (s : State) (n v : Nat) : State :=
  { s with dsp := { s.dsp with vfrac := SMap.put 0 s.dsp.vfrac n (v % 2 ^ 16) } }.wr (R.ctxVtime n)
    (BitVec.ofNat 64 (v / 2 ^ 16))

/-- The least virtual time of a list of contexts. -/
def State.leastVtime (s : State) (l : List Nat) : Option Nat :=
  l.foldl (fun (a : Option Nat) n => match a with
    | none => some (s.vtime n)
    | some v => some (min v (s.vtime n))) none

/-- A choice by share (R521): contexts newly eligible are raised to the least virtual time of the others, then the least
one is picked, the lowest number on a tie. `old` are those eligible at the last choice. -/
def State.sharePick (s : State) (old eligible : List Nat) : Option Nat × State :=
  let s := eligible.foldl (fun s n =>
    if old.contains n then s
    else match s.leastVtime (eligible.filter (fun m => !decide (m = n))) with
      | some v => if s.vtime n < v then s.setVtime n v else s
      | none => s) s
  (eligible.foldl (fun (a : Option Nat) n => match a with
    | none => some n
    | some m => if s.vtime n < s.vtime m || (s.vtime n = s.vtime m && decide (n < m)) then some n else some m) none, s)

/-- Insert a number into an ascending list without repeats. -/
def addOnce (l : List Nat) (n : Nat) : List Nat :=
  match l with
  | [] => [n]
  | m :: t => if n < m then n :: m :: t else if n = m then m :: t else m :: addOnce t n

end Sys2Proof.Machine
end

