-- ==== Sys2Proof/Machine/ThreadInt.lean ====
section
/-! DEFINITION. Meanings of the register-to-register thread instructions (spec 04 R142 to R160). -/

namespace Sys2Proof.Machine

/-- NOP (R142): format B with no operand; issues and does nothing. -/
def execNop (c slot : Nat) (s : State) : Answer :=
  .next (s.issue c slot (isMajor 0x00) fun g w =>
    if fld w 52 0 = 0 then s.setGroup c slot (g.next 8) else s.illegal c slot g w)

/-- IALU (R146). A word whose major opcode R142 reserves, 0x7F among them, faults here (R129, R143). -/
def execIalu (c slot : Nat) (upset : Upset) (s : State) : Answer :=
  .next (s.regRow c slot upset (fun w => isMajor 0x01 w || !majors.contains (fld w 63 57))
    (fun g w => if isMajor 0x01 w then decIalu g w else none))

/-- IALU.I (R146). -/
def execIaluI (c slot : Nat) (s : State) : Answer := .next (s.regRow c slot .none (isMajor 0x02) decIaluI)

/-- IMUL (R147). -/
def execImul (c slot : Nat) (s : State) : Answer := .next (s.regRow c slot .none (isMajor 0x03) decImul)

/-- IMUL.I (R147). -/
def execImulI (c slot : Nat) (s : State) : Answer := .next (s.regRow c slot .none (isMajor 0x04) decImulI)

/-- ICMP (R148). -/
def execIcmp (c slot : Nat) (s : State) : Answer := .next (s.regRow c slot .none (isMajor 0x05) decIcmp)

/-- ICMP.I (R148). -/
def execIcmpI (c slot : Nat) (s : State) : Answer := .next (s.regRow c slot .none (isMajor 0x06) decIcmpI)

/-- PLOP (R149). -/
def execPlop (c slot : Nat) (s : State) : Answer := .next (s.regRow c slot .none (isMajor 0x07) decPlop)

/-- FALU (R150). -/
def execFalu (c slot : Nat) (upset : Upset) (s : State) : Answer :=
  .next (s.regRow c slot upset (isMajor 0x08) (fun g w => decFp g w falufmt))

/-- FALU.I (R150, R137). -/
def execFaluI (c slot : Nat) (s : State) : Answer := .next (s.regRow c slot .none (isMajor 0x09) decFaluI)

/-- HALU (R151). -/
def execHalu (c slot : Nat) (s : State) : Answer :=
  .next (s.regRow c slot .none (isMajor 0x0A) (fun g w => decFp g w halufmt))

/-- FCMP (R152). -/
def execFcmp (c slot : Nat) (s : State) : Answer := .next (s.regRow c slot .none (isMajor 0x0B) decFcmp)

/-- SFU (R153). -/
def execSfu (c slot : Nat) (s : State) : Answer := .next (s.regRow c slot .none (isMajor 0x0C) decSfu)

/-- The generator of lane `l` of slot `slot` in a core, as the draw of R278 leaves it. -/
def Core.drawn (k : Core) (slot l : Nat) : Nat := genNext (SMap.get genReset k.gens (32 * slot + l)).toNat

/-- Advance the generators of the lanes of a mask once (R158, R278). -/
def Core.advance (k : Core) (slot : Nat) (m : Half) : Core :=
  { k with gens := (lanesOf m).foldl (fun a l =>
      SMap.put genReset a (32 * slot + l) (BitVec.ofNat 32 (k.drawn slot l))) k.gens }

/-- The rounding of a conversion's lane: RN, RZ, or RS with the lane's next draw (R155, R280). -/
def Core.cvtMode (k : Core) (v : CvtFields) (slot l : Nat) : RMode :=
  match v.rnd with
  | 1 => .rz
  | 2 => .rs (genBits (k.drawn slot l))
  | _ => .rn

/-- CVT (R155 to R158, R276 to R283): with RS each lane of the mask draws once from its generator. -/
def execCvt (c slot : Nat) (s : State) : Answer :=
  .next (s.issue c slot (isMajor 0x0D) fun g w =>
    let f := iFields w
    let v := cvtFields w
    let k := s.core c
    let dest := opd v.ud f.dest 1
    let src := opd v.ua f.srcA 1
    let m := execMask g f
    let why := k.why slot src.regs (dest.regs ++ src.regs)
    if !cvtOk g w then s.illegal c slot g w
    else if why ≠ 0 then s.holdAt c slot g why
    else
      let g' := g.write dest m (fun l => cvtVal v (k.cvtMode v slot l) (g.read src l) (g.read dest l))
      let k := if v.rnd = 2 then k.advance slot m else k
      let s := if v.rnd = 2 then s.hit c 0x28 (lanesOf m).length else s
      s.setCore c (k.setGroup slot (some (g'.next 8))))

/-- XLANE (R159). -/
def execXlane (c slot : Nat) (s : State) : Answer := .next (s.regRow c slot .none (isMajor 0x0E) decXlane)

/-- The special registers of R160, but for LANE. -/
def State.special (s : State) (c slot : Nat) (g : Group) (m : Half) (n : Nat) : Nat :=
  let k := s.core c
  let b := k.block g.block
  let x := s.launch (k.groupLaunch g)
  match n with
  | 0x01 => slot
  | 0x02 => c
  | 0x03 => clusterOf c
  | 0x04 => s.con.node
  | 0x05 => k.groupCtx g
  | 0x06 => s.now % 2 ^ 32
  | 0x07 => g.tsHi.toNat
  | 0x08 => g.live.toNat
  | 0x09 => m.toNat
  | 0x0A => match x with | some x => x.gx | none => 0
  | 0x0B => match x with | some x => x.gy | none => 0
  | 0x0C => match x with | some x => x.gz | none => 0
  | 0x0D => match b with | some b => b.threads | none => 0
  | _ => (s.inForce (R.ctxSeed (k.groupCtx g))).toNat % 2 ^ 32

/-- SREG (R160). A TS_LO read with an empty mask writes nothing and so latches nothing (R89, R90). -/
def execSreg (c slot : Nat) (s : State) : Answer :=
  .next (s.issue c slot (isMajor 0x0F) fun g w =>
    let f := iFields w
    let a := fmtA w
    let dest := opd a.ud f.dest 1
    let m := execMask g f
    let why := (s.core c).why slot [] dest.regs
    if !sregOk g w then s.illegal c slot g w
    else if why ≠ 0 then s.holdAt c slot g why
    else
      let g' := g.write dest m (fun l => if a.minor = 0 then l else s.special c slot g m a.minor)
      let g' := if a.minor = 0x06 && m ≠ 0 then { g' with tsHi := BitVec.ofNat 32 (s.now / 2 ^ 32) } else g'
      s.setGroup c slot (g'.next 8))

end Sys2Proof.Machine
end

