-- ==== Sys2Proof/Machine/Launches.lean ====
section
/-! DEFINITION. Launches: starting, placing blocks, switching cores, the end of blocks and launches (spec 03 R76 to R84,
R122, R123, 07 R279, 10 R390 to R394, R405, 14 R518, R519, R521). -/

namespace Sys2Proof.Machine

/-! ### Clusters and room -/

/-- The clusters of all lanes. -/
def State.laneMask (s : State) : Nat :=
  (List.range 8).foldl (fun a l => a ||| s.fld (R.dspLaneClusters l) 15 0) 0

/-- Has a lane a command admitted? -/
def State.laneBusy (s : State) (l : Nat) : Bool :=
  s.cmdList.any (fun e => e.2.lane = some l && decide (e.2.stage ≠ .ended))

/-- The clusters a launch may use (R392), as a mask; `ever` counts every lane cluster that it may borrow (R80). -/
def State.allowed (s : State) (x : Launch) (ever : Bool) : Nat :=
  let lane := (s.cmd x.cmd).bind Cmd.lane
  match lane with
  | some l => s.fld (R.dspLaneClusters l) 15 0
  | none =>
    let want := if x.clusters = 0 then 0xFFFF else x.clusters
    let lanes := s.laneMask
    let base := (List.range 16).foldl (fun a n => if want.testBit n && !lanes.testBit n then a + 2 ^ n else a) 0
    if !x.borrow then base
    else (List.range 8).foldl (fun a l =>
      if ever || !s.laneBusy l then a ||| (s.fld (R.dspLaneClusters l) 15 0 &&& want) else a) base

/-- Bytes of a core's scratchpad (R20). -/
def State.scratchBytes (s : State) (c : Nat) : Nat := if SMap.get 0 s.con.split c = 1 then 393216 else 524288

/-- Registers per lane as allocated (R77). -/
def regsAlloc (decl : Nat) : Nat := roundUp decl 8

/-- Groups of a block of a launch, and its scratchpad allocation (R80). -/
def Launch.groups (x : Launch) : Nat := (x.threads + 31) / 32
def Launch.bytes (x : Launch) : Nat := roundUp x.scratch 4096
def Launch.blocks (x : Launch) : Nat := x.gx * x.gy * x.gz

/-- The lowest contiguous free range of a scratchpad (R80). -/
def freeRange (used : List (Nat × Nat)) (size total : Nat) : Option Nat :=
  let starts := (0 :: used.map (fun u => u.1 + u.2)).filter (fun a =>
    decide (a + size ≤ total) && used.all (fun u => decide (a + size ≤ u.1) || decide (u.1 + u.2 ≤ a) || size = 0))
  starts.foldl (fun (a : Option Nat) x => match a with
    | none => some x
    | some y => some (min x y)) none

/-- Where a block would go on a core (R80, R81): barrier set, scratchpad base and the slot of each group. -/
structure Room where
  set : Nat
  base : Nat
  slots : List Nat
  deriving DecidableEq, Repr

/-- The groups of a partition, and the registers per lane they hold. -/
def Core.partition (k : Core) (p : Nat) : List Group := (k.groupList.filter (fun e => e.1 % 4 = p)).map Prod.snd
def Core.bank (k : Core) (p : Nat) : Nat := ((k.partition p).map (fun g => regsAlloc g.decl)).sum

/-- The partition with the fewest resident groups, the lowest on a tie (R81). -/
def Core.thinnest (k : Core) : Nat :=
  (List.range 4).foldl (fun a p => if (k.partition p).length < (k.partition a).length then p else a) 0

/-- The slots of a block's groups (R81), when they fit with their registers. -/
def Core.slotsFor (k : Core) (n decl : Nat) : Option (List Nat) :=
  let b := k.thinnest
  let take (p : Nat) : Nat := ((List.range n).filter (fun i => (b + i) % 4 = p)).length
  let free (p : Nat) : List Nat := ((List.range 16).map (fun j => 4 * j + p)).filter (fun g => (k.group g).isNone)
  if (List.range 4).any (fun p => decide ((free p).length < take p) || decide (1024 < k.bank p + take p * regsAlloc decl)) then none
  else some ((List.range n).map (fun i => (free ((b + i) % 4)).getD (i / 4) 0))

/-- Can a core take a block of a launch now (R80, R518)? The lowest free barrier set is taken (DESIGN CHOICE, log 20). -/
def State.roomOn (s : State) (c : Nat) (x : Launch) : Option Room :=
  let k := s.core c
  if k.blockList.any (fun b => decide (b.2.ctx ≠ x.ctx)) then none
  else
    match (List.range 64).find? (fun b => (k.block b).isNone),
      freeRange (k.blockList.map (fun b => (b.2.base, b.2.size))) x.bytes (s.scratchBytes c),
      k.slotsFor x.groups x.vregs with
    | some set, some base, some slots => some ⟨set, base, slots⟩
    | _, _, _ => none

/-- The core of a cluster that takes the block (R392, R519): own current context first, then fewest groups, then lowest. -/
def State.coreFor (s : State) (n : Nat) (x : Launch) : Option (Nat × Room) :=
  let key (c : Nat) : Nat := (if (s.core c).ctx = some x.ctx then 0 else 2 ^ 20) + 2 ^ 8 * (s.core c).groupList.length + c % 12
  (List.range 12).foldl (fun (a : Option (Nat × Room)) i =>
    let c := 12 * n + i
    match s.roomOn c x, a with
    | none, a => a
    | some r, none => some (c, r)
    | some r, some (d, q) => if key c < key d then some (c, r) else some (d, q)) none

/-- The next place of a launch's rotation (R392): the lowest allowed cluster first, then the first one after the previous
block's, that can place it. -/
def State.placeFor (s : State) (x : Launch) : Option (Nat × Nat × Room) :=
  let from_ := match x.lastCluster with | some n => n + 1 | none => 0
  let mask := s.allowed x false
  (List.range 16).foldl (fun (a : Option (Nat × Nat × Room)) i =>
    let n := (from_ + i) % 16
    match a with
    | some r => some r
    | none => if mask.testBit n then (s.coreFor n x).map (fun r => (n, r.1, r.2)) else none) none

/-- The thread fault code of a launch that no core could ever take (R77, R80). A register count out of range is judged before the
scratchpad, and a launch that may use no core at all exceeds every scratchpad it may use (log 92). -/
def State.neverFits (s : State) (x : Launch) : Option Nat :=
  let may := s.allowed x true
  let cores := (List.range 192).filter (fun c => may.testBit (clusterOf c))
  let perPart := (x.groups + 3) / 4
  if x.vregs = 0 || 255 < x.vregs then some 0x07
  else if cores.all (fun c => decide (s.scratchBytes c < x.bytes)) then some 0x0A
  else if 32 < x.groups || min 16 (1024 / regsAlloc x.vregs) < perPart then some 0x07
  else none

/-- Is a launch best-effort, and what lane is it on? -/
def State.launchLane (s : State) (x : Launch) : Option Nat := (s.cmd x.cmd).bind Cmd.lane

/-- Has a launch blocks left to place? -/
def Launch.unplaced (x : Launch) : Bool := x.stop.isNone && decide (x.nextBlock < x.blocks)

/-- Does a launch that started earlier go first (R521): one of the same lane, or best-effort like it? -/
def State.olderFirst (s : State) (x : Launch) : Bool :=
  s.launchList.any (fun e => decide (e.2.order < x.order) && e.2.unplaced && s.launchLane e.2 = s.launchLane x)

/-! ### Starting -/

/-- COUNT of a platform's header (R256). -/
def State.platCount (s : State) (u : VmUser) (p : Nat) : (Nat ⊕ VmFault) × State :=
  match s.vaRead u (s.platBase p) 4 with
  | (.inl b, s) => (.inl (leNat b), s)
  | (.inr f, s) => (.inr f, s)

/-- Drop the platforms at the front of a range whose COUNT is 0, reading each header (R256, R394): the position and COUNT of
the first that is not empty, or the fault of a header read. -/
def State.nextPlat (s : State) (u : VmUser) (r : PlatRange) : Nat → (Option (Nat × Nat) ⊕ VmFault) × State
  | 0 => (.inl none, s)
  | fuel + 1 =>
    if r.count ≤ r.pos then (.inl none, s)
    else match s.platCount u (r.first + r.pos) with
      | (.inr f, s) => (.inr f, s)
      | (.inl 0, s) => s.nextPlat u { r with pos := r.pos + 1 } fuel
      | (.inl n, s) => (.inl (some (r.pos, n)), s)

/-- What the head of a thread's launch queue is: nothing left of its range, or a launch, with what stays in the queue. -/
def State.headLaunch (s : State) (view : Nat) (x : Launch) :
    (Option (Launch × Option Launch) ⊕ VmFault) × State :=
  match x.plat with
  | none => (.inl (some (x, none)), s)
  | some r =>
    match s.nextPlat (hubUser view) r (r.count + 1) with
    | (.inr f, s) => (.inr f, s)
    | (.inl none, s) => (.inl none, s)
    | (.inl (some (pos, n)), s) =>
      let one := { x with
        plat := none, gx := (n + r.tpb - 1) / r.tpb, gy := 1, gz := 1, args := x.args + pos * r.stride }
      let rest := if r.count ≤ pos + 1 then none
        else some { x with plat := some { r with pos := pos + 1 }, overlap := true }
      (.inl (some (one, rest)), s)

/-- May the head launch of a thread start under R391 and, for a router launch, R238? -/
def State.turn (s : State) (x : Launch) : Bool :=
  (x.overlap || (s.launchesOf x.cmd).isEmpty) && (!x.router || !s.pts.steps.any (fun p => p.ctx = x.ctx))

/-- The best-effort contexts with a launch whose turn it is and with room to start it (R521). -/
def State.launchers (s : State) : List Nat :=
  s.threadList.foldl (fun l e => match e.2.queue with
    | x :: _ =>
      if (s.launchLane x).isNone && s.turn x && !s.olderFirst { x with order := s.dsp.nextOrder } && (s.placeFor x).isSome then
        addOnce l x.ctx
      else l
    | [] => l) []

/-- The context's pending seed takes effect at its launch boundary, and its cores reseed at theirs (R279, R514). -/
def State.adoptSeed (s : State) (ctx : Nat) : State :=
  if !s.flag (R.ctxStatus ctx) 3 then s
  else
    ((s.adopt (R.ctxSeed ctx)).clrFlag (R.ctxStatus ctx) 3).mapCores
      (fun _ k => if k.ctx = some ctx then { k with reseed := true } else k)

/-- A launch starts (R306, R392, R620): it is numbered, counted and traced; its router step opens (R236, R237). -/
def State.beginLaunch (s : State) (x : Launch) : State :=
  let id := s.dsp.nextLaunch
  let (view, s) := (s.adoptSeed x.ctx).takeView x.ctx
  let x := { x with order := s.dsp.nextOrder, view := view }
  let s := { s with dsp := { s.dsp with nextLaunch := id + 1, nextOrder := x.order + 1 } }.setLaunch id (some x)
  let s := s.count (R.ctxLaunches x.ctx) 64 1
  let (cookie, queue) := s.launchTag id
  let s := s.trace ⟨0x05, 3, 0, x.ctx, queue, cookie, x.blocks⟩
  if x.stop.isSome || !x.router then s
  else match s.openStep id x.ctx x.stepVa with
    | (none, s) => s
    | (some f, s) => s.stopLaunch id f.ends.1 (2 ^ 8 * 5 + f.ends.2)

/-- What a launch ends with: status, SOURCE and CODE. -/
def Launch.result (x : Launch) : Nat × Nat × Nat :=
  match x.stop with
  | some (st, code) => (st, code / 2 ^ 8, code % 2 ^ 8)
  | none => (0, 0, 0)

/-- A launch is complete (R393): a status other than OK ends its program at the next instruction. -/
def State.launchOver (s : State) (l : Nat) (x : Launch) : State :=
  let s := s.setLaunch l none
  let s := s.mapCores (fun _ k => { k with
    launches := k.launches.filter (fun y => !decide (y = l)),
    tcopy := k.tcopy.filter (fun e => match e.2 with | some t => decide (t.launch ≠ l) | none => false) })
  let (st, src, code) := x.result
  let s := if st = 0 then s else s.stopCmd x.cmd st src code
  s.settleCmd x.cmd

/-- LAUNCH_START (R391, R392, R394, R521): the launch at the head of a thread's queue starts once its turn has come and some
allowed core has room for its first block. A grid with a zero dimension runs no block and is complete at once (R390), whatever its other
fields (log 92); a launch that no core could ever take, or whose step does not open, completes without running one. -/
def execLaunchStart (t : Nat) (host : HostData) (s : State) : Answer :=
  .next (s.withHost host fun s => match s.thread t with
    | none => s
    | some th =>
      match th.queue with
      | [] => s
      | x :: more =>
        if !s.turn x then s
        else
          match s.headLaunch th.view x with
          | (.inr f, r) => r.programFault t f
          | (.inl none, r) => r.setThread t (some { th with queue := more })
          | (.inl (some (y, rest)), r) =>
            let r := r.setThread t (some { th with queue := rest.toList ++ more })
            if y.blocks = 0 then
              let r := r.beginLaunch { y with stop := some (0, 0) }
              r.launchOver (r.dsp.nextLaunch - 1) { y with stop := some (0, 0) }
            else
              match r.neverFits y with
              | some code => r.beginLaunch { y with stop := some (0x05, 0x300 + code) }
              | none =>
                if (r.placeFor y).isNone then s
                else match r.launchLane y with
                  | some _ => r.beginLaunch y
                  | none =>
                    if s.olderFirst { y with order := s.dsp.nextOrder } then s
                    else
                      let el := s.launchers
                      match s.sharePick s.dsp.eligibleL el with
                      | (some n, q) =>
                        let fix (r : State) : State := { r with dsp := { r.dsp with eligibleL := el } }
                        if n = y.ctx then
                          fix ((el.foldl (fun (r : State) m => r.setVtime m (q.vtime m)) r).beginLaunch y)
                        else s
                      | (none, _) => s)

/-! ### Placing -/

/-- The seeding of a core's generator (R279). -/
def seedGen (seed core h : Nat) : Half :=
  let lo : Half := BitVec.ofNat 32 seed
  let hi : Half := BitVec.ofNat 32 (seed / 2 ^ 32)
  let s := lo ^^^ hi.rotateLeft 16 ^^^ (BitVec.ofNat 32 core * 0x9E3779B9#32) ^^^ (BitVec.ofNat 32 h * 0x85EBCA6B#32)
  let s := s ^^^ (s >>> 16)
  let s := s * 0x7FEB352D#32
  let s := s ^^^ (s >>> 15)
  let s := s * 0x846CA68B#32
  let s := s ^^^ (s >>> 16)
  if s = 0 then 0x6D2B79F5#32 else s

/-- All generators of a core seeded from a context's seed in force (R279). -/
def State.seedCore (s : State) (c ctx : Nat) : State :=
  let seed := (s.inForce (R.ctxSeed ctx)).toNat
  let gens : SMap Half := (List.range 2048).foldl (fun (m : SMap Half) i =>
    SMap.put genReset m (2047 - i) (seedGen seed c (2047 - i))) []
  s.updCore c (fun k => { k with gens := gens, reseed := false })

/-- What a core clears when it changes context (R122): everything its blocks could read; its instruction cache is invalid. -/
def Core.clear (k : Core) : Core :=
  { k with
    groups := [], blocks := [], scratch := [], scratchPoison := [], icache := [], l1 := [], tcopy := [], loads := [],
    launches := [], late := [],
    mx := { k.mx with acc := [], accPoison := [], queue := [], flight := [], drains := [], mv := [], faults := [] } }

/-- A core takes another context (R518): cleared, reseeded, switching for 1,024 core cycles. -/
def State.switchCore (s : State) (c ctx : Nat) : State :=
  let s := s.updCore c (fun k => { k.clear with ctx := some ctx, switching := true })
  (s.seedCore c ctx).count R.dspSwitches 64 1

/-- The starting state of a group (R82, R83). A core that switches holds it with wait reason SWITCH (R126). -/
def startGroup (x : Launch) (set index block : Nat) (switching : Bool) : Group :=
  let lanes := (List.range 32).filter (fun l => decide (32 * index + l < x.threads))
  let g : Group := {
    block := set, index := index, decl := x.vregs, stat := if switching then .waiting else .ready,
    wait := if switching then 12 else 0, hold := switching,
    live := BitVec.ofNat 32 ((lanes.map (fun l => 2 ^ l)).sum), pc := x.entry % 2 ^ 48, v := [], u := [], p := [],
    tsHi := 0, selfLock := 0, stopping := false, stopped := false, fetching := none, fault := none, last := 0, issued := 0 }
  let u := [block % x.gx, block / x.gx % x.gy, block / (x.gx * x.gy), index, x.groups, x.args % 2 ^ 32, nfld x.args 47 32]
  let g := (List.range 7).foldl (fun g i => g.setU i (u.getD i 0)) g
  (List.range 32).foldl (fun g l => g.setV 0 l (32 * index + l)) g

/-- The guards of a launch on a cluster (R123): taken at its first block there. -/
def State.guardsFor (s : State) (l : Nat) (x : Launch) (n : Nat) : (Nat × Nat) × State :=
  match SMap.get none x.guards n with
  | some g => (g, s)
  | none =>
    let s := (s.adopt (R.seqBarGuard n)).adopt (R.seqLockGuard n)
    let g := (s.fld (R.seqBarGuard n) 31 0, s.fld (R.seqLockGuard n) 31 0)
    (g, match s.launch l with
      | some x => s.setLaunch l (some { x with guards := SMap.put none x.guards n (some g) })
      | none => s)

/-- Restart a counter set (R612). -/
def State.restartSet (s : State) (set : Nat) : State :=
  let s := (List.range 24).foldl (fun s i => s.wr (R.dbgFix set i) 0) s
  { s with dbg := { s.dbg with sat := SMap.put false s.dbg.sat set false, cycBase := SMap.put 0 s.dbg.cycBase set s.now } }

/-- The clock of a counter set in MHz (R57, R609). -/
def setMHz (set : Nat) : Nat :=
  if set < 208 then 2000 else if set < 210 then 1600 else if set < 212 then 1000 else if set = 212 then 2000 else 1000

/-- CYCLES of a set (R609, R610): the cycles of its clock since it restarted. -/
def State.cycles (s : State) (set : Nat) : Nat :=
  min (2 ^ 48 - 1) ((s.now - SMap.get 0 s.dbg.cycBase set) * setMHz set / 1000)

/-- Events that happen below what the model holds: waits for weights, units on the west–east link, row activations, PCIe requests (log 22). -/
def uncountedCodes : List Nat := [0x27, 0x2004, 0x3002, 0x4007]

/-- The event that programmable counter `i` of a set counts (R610, R632). -/
def State.ctrCode (s : State) (set i : Nat) : Nat := s.fld (R.dbgEvsel set (i / 4)) (16 * (i % 4) + 15) (16 * (i % 4))

/-- Does some counter of a set count an event? -/
def State.selects (s : State) (set code : Nat) : Bool := (List.range 16).any (fun i => s.ctrCode set i = code)

/-- IDLE of a core's set (R201, R609): its cycles that are in no other class. -/
def State.fixIdle (s : State) (set : Nat) : Nat :=
  s.cycles set - ((List.range 5).map (fun i => (s.rd (R.dbgFix set (i + 2))).toNat)).sum

/-- Counter `i` of a set as it stands, the fixed ones first (R609, R610): CYCLES follows the clock, IDLE what the other classes leave. -/
def State.setCount (s : State) (set i : Nat) : Word :=
  if i = 0 then BitVec.ofNat 64 (s.cycles set)
  else if i = 7 && decide (set < 192) then BitVec.ofNat 64 (s.fixIdle set)
  else if decide (8 ≤ i) && uncountedCodes.contains (s.ctrCode set (i - 8)) then
    BitVec.ofNat 64 (Config.uncounted set (s.ctrCode set (i - 8)) s.now % 2 ^ 48)
  else s.rd (R.dbgFix set i)

/-- The counters of a set (R615). -/
def State.setVals (s : State) (set : Nat) : List Word := (List.range 24).map (s.setCount set)

/-- The entry of a core's oldest resident block (R612). -/
def State.oldestOwner (s : State) (c : Nat) : Option Nat :=
  ((s.core c).blockList.foldl (fun (a : Option (Nat × Nat)) b =>
    match a with
    | none => some (b.2.born, b.2.launch)
    | some x => if b.2.born < x.1 then some (b.2.born, b.2.launch) else some x) none).bind
      (fun x => (s.launch x.2).map Launch.cmd)

/-- The owning command of a core changes (R612, R613): in PER_COMMAND its counters restart, and what they held is kept for a
sample of this cycle. -/
def State.ownCore (s : State) (c : Nat) : State :=
  match s.oldestOwner c with
  | none => s
  | some id =>
    let old := SMap.get none s.dbg.owners c
    if old.map Owner.cmd = some id then s
    else
      let x := s.cmd id
      let o : Owner := ⟨id, (x.map Cmd.cookie).getD 0, (x.map Cmd.ctx).getD 0, (x.map Cmd.queue).getD 0, false⟩
      let per := s.flag (R.dbgSetCfg c) 0
      let p : PastOwner := ⟨s.now, old, SMap.get false s.dbg.sat c, s.setVals c⟩
      let s := { s with dbg := { s.dbg with
        owners := SMap.put none s.dbg.owners c (some o),
        past := if per then SMap.put none s.dbg.past c (some p) else s.dbg.past } }
      if per then s.restartSet c else s

/-- A block of another entry than the owner's shares the core: its events count for the owner (R612, R615). -/
def State.markShared (s : State) (c cmd : Nat) : State :=
  match SMap.get none s.dbg.owners c with
  | none => s
  | some o =>
    if o.cmd = cmd then s
    else { s with dbg := { s.dbg with owners := SMap.put none s.dbg.owners c (some { o with shared := true }) } }

/-- Does a cluster or core take no block now: gated until its wake (R540, R72), or in a unit reset (R645)? -/
def State.shut (s : State) (n c : Nat) : Bool :=
  s.pwr.gated.contains n || s.boot.unit = some (1, c) || s.boot.unit = some (2, n)

/-- Place a block on a core (R80 to R84, R352, R518); under a core step its command is marked (R542). -/
def State.placeBlock (s : State) (l : Nat) (x : Launch) (n c : Nat) (r : Room) : State :=
  let s := if (s.core c).ctx = some x.ctx then s else s.switchCore c x.ctx
  let first := !(s.core c).launches.contains l
  let s := if first then s.updCore c (fun k => { k with l1 := [], icache := [], launches := k.launches ++ [l] }) else s
  let s := if first && (s.core c).reseed then s.seedCore c x.ctx else s
  let ((bar, lock), s) := s.guardsFor l x n
  let born := s.dsp.nextOrder
  let b : Block := {
    launch := l, ctx := x.ctx, index := x.nextBlock, base := r.base, size := x.bytes, groups := x.groups,
    threads := x.threads, ended := [], bars := [], barGuard := bar, lockGuard := lock, fault := none, stopped := false,
    borrowed := (s.launchLane x).isNone && s.laneMask.testBit n, due := 0, born := born }
  let k := s.core c
  let k := k.setBlock r.set (some b)
  let k := (List.range x.groups).foldl (fun k i =>
    k.setGroup (r.slots.getD i 0) (some (startGroup x r.set i x.nextBlock k.switching))) k
  let s := s.setCore c k
  let s := { s with dsp := { s.dsp with nextOrder := born + 1 } }
  let s : State := match s.launch l with
    | some y => s.setLaunch l (some { y with nextBlock := y.nextBlock + 1, lastCluster := some n, running := y.running + 1 })
    | none => s
  let gated := decide (State.fld s R.pwrEmergStep 21 20 ≠ 0 ∨ State.fld s R.pwrEmergStep (2 * dieOfCore c + 1) (2 * dieOfCore c) ≠ 0)
  let s := if gated then s.voidCmds (fun id _ => id = x.cmd) else s
  ((s.ownCore c).markShared c (x.cmd)).hit (192 + n) 0x1000 1

/-- BLOCK_PLACE (R80 to R84, R392, R518, R519): the next block of a started launch is placed on the core that R392 and R519
name. -/
def execBlockPlace (l : Nat) (s : State) : Answer :=
  .next (match s.launch l with
    | none => s
    | some x =>
      if !x.unplaced || s.olderFirst x then s
      else match s.placeFor x with
        | some (n, c, r) => if s.shut n c then s else s.placeBlock l x n c r
        | none => s)

/-- CORE_SWITCH_END (R518): the groups that waited for the switch may issue. -/
def execCoreSwitchEnd (c : Nat) (s : State) : Answer :=
  .next (s.updCore c (fun k =>
    if !k.switching then k
    else { k with
      switching := false,
      groups := SMap.mapv none (fun _ g => g.map (fun g =>
        if g.wait = 12 then { g with stat := .ready, wait := 0, hold := false } else g)) k.groups }))

/-! ### Ends -/

/-- Has a core matrix work of a block left (R210)? -/
def Matrix.busyFor (m : Matrix) (set : Nat) : Bool :=
  m.queue.any (fun t => t.block = set) || m.flight.any (fun t => t.block = set) || m.drains.any (fun d => d.block = set) ||
    m.mv.any (fun o => o.block = set)

/-- Is a group still at work? A stopped or faulted group with nothing outstanding is not. -/
def Core.live (k : Core) (slot : Nat) (g : Group) : Bool :=
  !(g.stopped || g.fault.isSome) || k.outstanding slot

/-- A TCOPY slot belongs to no block any more, and is free if it has faulted (R117). -/
def Core.orphan (k : Core) (set : Nat) : Core :=
  { k with tcopy := SMap.mapv none (fun _ t => t.bind (fun t =>
      if t.block ≠ set then some t else if t.fault.isSome then none else some { t with block := 64 })) k.tcopy }

/-- A block is gone: its groups, barrier set and scratchpad are free (R92, R210), its launch counts it. -/
def State.blockGone (s : State) (c set : Nat) (b : Block) : State :=
  let k := s.core c
  let slots := (k.groupList.filter (fun e => e.2.block = set)).map Prod.fst
  let k := slots.foldl (fun k g => { (k.setGroup g none) with
    loads := k.loads.filter (fun l => !decide (l.slot = g)), lost := k.lost.filter (fun x => !decide (x = g)) }) k
  let k := { k with mx := { k.mx with faults := k.mx.faults.filter (fun f => !decide (f.block = set)) } }
  let s := s.setCore c ((k.setBlock set none).orphan set)
  let s := slots.foldl (fun s g => s.forgetSlot c g) s
  let s := match s.launch b.launch with
    | some x => s.setLaunch b.launch (some { x with running := x.running - 1 })
    | none => s
  let s := { s with pwr := { s.pwr with lastBlock := SMap.put 0 s.pwr.lastBlock (clusterOf c) s.now } }
  s.ownCore c

/-- The first fault of a block that no group of it received (R117, R210): of the matrix array or path, then of a TCOPY slot. -/
def Core.unreported (k : Core) (set : Nat) : Option Nat :=
  match k.mx.faults.find? (fun f => f.block = set) with
  | some f => some f.code
  | none => (k.tcopy.find? (fun e => match e.2 with | some t => t.block = set && t.fault.isSome | none => false)).bind
      (fun e => e.2.bind TSlot.fault)

/-- BLOCK_END (R92, R120, R210, R251): every group has ended or stopped, its faults are recorded (R354), and its matrix work and the choices
of its records are over; those of a stopped block are dropped (R253). -/
def execBlockEnd (c set : Nat) (s : State) : Answer :=
  .next (
    let k := s.core c
    match k.block set with
    | none => s
    | some b =>
      if k.groupList.any (fun e => e.2.block = set && k.live e.1 e.2) || k.mx.busyFor set || k.late.any (fun e => e.set = set) ||
        (!b.stopped && s.pointsOf c set) then s
      else
        let fault := if b.stopped || b.fault.isSome then none else k.unreported set
        let s := s.dropWhere (fun r => decide (r.core = c) && decide (r.set = set)) (fun x => decide (x.core = c) && decide (x.set = set))
        let s := (s.endCopies c set b).blockGone c set b
        match fault with
        | some code => s.launchFault b.launch code 0
        | none => s)

/-- Are a launch's stores, copies, drains and points work performed (R352)? -/
def State.launchSettled (s : State) (l : Nat) : Bool :=
  s.cores.all (fun e =>
    e.2.stores.all (fun x => x.parts.all (fun p => !decide (p.launch = l))) &&
      e.2.tcopy.all (fun t => match t.2 with | some t => decide (t.launch ≠ l) || t.fault.isSome | none => true)) &&
    (s.stepOf l).isNone

/-- LAUNCH_COMPLETE (R121, R352, R393): all its blocks have ended and all it wrote is performed. -/
def execLaunchComplete (l : Nat) (s : State) : Answer :=
  .next (match s.launch l with
    | none => s
    | some x => if !x.quiet || !s.launchSettled l then s else s.launchOver l x)

/-- BORROW_OVERRUN (R405): a block of a launch still lies on a borrowed lane cluster at its limit. -/
def execBorrowOverrun (l : Nat) (s : State) : Answer :=
  .next (
    let late := s.cores.any (fun e => e.2.blockList.any (fun b =>
      b.2.launch = l && decide (b.2.due ≠ 0) && decide (b.2.due - 1 ≤ s.now)))
    if late then s.stopLaunch l 0x02 0x03 else s)

end Sys2Proof.Machine
end

