-- ==== Sys2Proof/Machine/Admit.lean ====
section
/-! DEFINITION. Admission to lanes, best-effort grants, reserved starts and limits, and the entries that need a stored program
or a copy (spec 10 R389, R400 to R413, 15 R538, R542). -/

namespace Sys2Proof.Machine

/-! ### Power (R538) -/

/-- P_W and T_US of an energy class. -/
def State.classW (s : State) (e : Nat) : Nat := s.fld (R.pwrClass (e % 8)) 31 0
def State.classNs (s : State) (e : Nat) : Nat := 1000 * s.fld (R.pwrClass (e % 8)) 63 32

/-- Does an entry hold a reservation, or a grant? -/
def Cmd.reserved (c : Cmd) : Bool := c.lane.isSome && c.powered
def Cmd.granted (c : Cmd) : Bool := c.lane.isNone && laneOpcode c.opcode && (c.stage = .cleared || c.stage = .running)

/-- Watts reserved at an instant, by reservations whose half-open interval contains it. -/
def State.reservedAt (s : State) (t : Nat) : Nat :=
  ((s.cmdList.filter (fun e => e.2.reserved && decide (e.2.start ≤ t) && decide (t < e.2.fin))).map
    (fun e => s.classW e.2.eclass)).sum

/-- pwr_reserve of R402: the class fits at every instant of [st, fin). -/
def State.reserveFits (s : State) (cls st fin : Nat) : Bool :=
  let points := st :: ((s.cmdList.filter (fun e => e.2.reserved && decide (st < e.2.start) && decide (e.2.start < fin))).map
    (fun e => e.2.start))
  points.all (fun t => decide (s.reservedAt t + s.classW cls ≤ s.fld R.pwrPartition 31 16))

/-- Watts granted to best-effort commands. -/
def State.grantedW (s : State) : Nat := ((s.cmdList.filter (fun e => e.2.granted)).map (fun e => s.classW e.2.eclass)).sum

/-- Is a power step above 0 in force (R542)? -/
def State.emergency (s : State) : Bool := decide (s.rd R.pwrEmergStep ≠ 0)

/-- Are fetched entries held by an overlay switch (R37)? -/
def State.switching (s : State) : Bool := s.fld R.conStatus 3 0 = 3 || s.fld R.conStatus 3 0 = 4

/-! ### Stored programs (R410 to R413) -/

/-- Are the slot table and the pool set (R410)? -/
def State.programsSet (s : State) : Bool := s.dsp.tableSet && s.dsp.poolSet && decide (s.rd R.dspPoolPages ≠ 0)

/-- The version a RUN_PROGRAM may run (R411): the slot in service and of the queue's tenant. -/
def State.runnable (s : State) (c : Cmd) : Option Version :=
  if !s.programsSet then none
  else match s.pslot c.slot with
    | some p => if p.deleting || p.tenant ≠ s.qFunc c.queue then none else p.versions.getLast?
    | none => none

/-- MODE, OFFSET and LENGTH of a PROGRAM_PATCH (R411). -/
def Cmd.patchMode (c : Cmd) : Nat := c.op1 % 4
def Cmd.patchOff (c : Cmd) : Nat := nfld c.op0 31 0
def Cmd.patchLen (c : Cmd) : Nat := nfld c.op0 63 32

/-- The words of the new version, and the pages of it that must be fresh (R412). -/
def State.patchShape (s : State) (c : Cmd) : Nat × List Nat :=
  let len := c.patchLen
  if c.patchMode = 1 then ((len - 16) / 8, List.range ((len - 16 + 4095) / 4096))
  else
    let old := (((s.pslot c.slot).bind (fun p => p.versions.getLast?)).map Version.size).getD 0
    let size := max old ((c.patchOff + len) / 8)
    (size, (List.range ((8 * size + 4095) / 4096)).filter (fun p =>
      (decide (c.patchOff < 4096 * (p + 1)) && decide (4096 * p < c.patchOff + len)) || decide ((8 * old + 4095) / 4096 ≤ p)))

/-- Why a PROGRAM_PATCH is refused (R410 to R412): SLOT, VERSIONS before POOL. -/
def State.patchRefused (s : State) (c : Cmd) : Option Nat :=
  if !s.programsSet then some 0x6
  else
    let slot := s.pslot c.slot
    let mine := match slot with | some p => !p.deleting && decide (p.tenant = s.qFunc c.queue) | none => false
    if c.patchMode = 1 then
      if slot.isSome then some 0x8
      else if s.fld R.dspPoolFree 16 0 < (s.patchShape c).2.length then some 0x6 else none
    else if !mine then some 0x8
    else if c.patchMode = 2 then none
    else if 4 ≤ ((slot.map PSlot.versions).getD []).length then some 0x7
    else if s.fld R.dspPoolFree 16 0 < (s.patchShape c).2.length then some 0x6
    else none

/-! ### Admission (R402) -/

/-- The deadline as a CLK_TS value (R377, R402). -/
def Cmd.due (c : Cmd) : Nat := if c.dlRel then c.fetched + c.deadline else c.deadline

/-- Does a lane hold borrowed blocks (R405)? -/
def State.laneBorrowed (s : State) (l : Nat) : Bool :=
  let mask := s.fld (R.dspLaneClusters l) 15 0
  s.cores.any (fun e => mask.testBit (clusterOf e.1) && e.2.blockList.any (fun b => b.2.borrowed))

/-- DSP_BORROW_LIMIT in force at this admission, in ns (R415). -/
def State.borrowNs (s : State) : Nat := 1000 * s.fld R.dspBorrowLimit 31 0

/-- The lane with the earliest start, the lowest on a tie, with that start (R402). -/
def State.bestLane (s : State) : Option (Nat × Nat) :=
  (List.range 8).foldl (fun (a : Option (Nat × Nat)) l =>
    if s.fld (R.dspLaneClusters l) 15 0 = 0 then a
    else
      let st := max s.now (s.rd (R.dspLaneEnd l)).toNat
      let st := if s.laneBorrowed l then max st (s.now + s.borrowNs) else st
      match a with
      | none => some (l, st)
      | some b => if st < b.2 then some (l, st) else some b) none

/-- flow_served (R402, R457): in the timetable, SERVED or LATE. -/
def State.flowServed (s : State) (f : Nat) : Bool :=
  match s.mln.flows.find? (fun x => x.num = f) with
  | some x => decide (x.state = 1 || x.state = 2)
  | none => false

/-- The decision of R402 and R542: a refusal's code, or lane, start and finish. -/
def State.laneDecision (s : State) (c : Cmd) : Nat ⊕ (Nat × Nat × Nat) :=
  if s.emergency then .inl 0x2
  else if c.due ≤ s.now then .inl 0x5
  else
    let first : Option Nat :=
      if c.opcode = 1 then
        match s.runnable c, s.pslot c.slot with
        | some _, some p => if p.flows.any (fun f => decide (f ≠ 0xFFFF) && !s.flowServed f) then some 0x3 else none
        | _, _ => some 0x8
      else if c.opcode = 5 then s.patchRefused c
      else none
    match first with
    | some code => .inl code
    | none =>
      match s.bestLane with
      | none => .inl 0x1
      | some (l, st) =>
        let fin := st + s.classNs c.eclass
        if c.due < fin then .inl 0x1
        else if !s.reserveFits c.eclass st fin then .inl 0x2
        else .inr (l, st, fin)

/-- Borrowed blocks of a lane must be off it by the limit (R405). -/
def State.claimLane (s : State) (l : Nat) : State :=
  let mask := s.fld (R.dspLaneClusters l) 15 0
  let due := s.now + s.borrowNs + 1
  s.mapCores (fun c k => if mask.testBit (clusterOf c) then
      { k with blocks := SMap.mapv none (fun _ b => b.map (fun b =>
          if b.borrowed && b.due = 0 then { b with due := due } else b)) k.blocks }
    else k)

/-- Pin the version an entry runs (R413). -/
def State.pinCmd (s : State) (id : Nat) (c : Cmd) : State :=
  match s.runnable c with
  | some v => (s.pinBy c.slot v.num (· + 1)).setCmd id (some { c with pin := some (c.slot, v.num) })
  | none => s.setCmd id (some c)

/-- An entry is admitted to lane `l` for [st, fin) (R402, R405, R413): a program's version is pinned, lane_end and the counts move. -/
def State.admitTo (s : State) (id : Nat) (c : Cmd) (l st fin : Nat) : State :=
  let n := s.dsp.nextGrant
  let c := { c with stage := .admitted, lane := some l, start := st, fin := fin, order := n }
  let s := { s with dsp := { s.dsp with nextGrant := n + 1 } }
  let s := if c.opcode = 1 then s.pinCmd id c else s.setCmd id (some c)
  let s := ((s.wr (R.dspLaneEnd l) (BitVec.ofNat 64 fin)).count R.dspAdmitted 64 1).rled (4 * 6) 1
  (s.claimLane l).hit 212 0x4001 1

/-- ADMISSION (R402, R405, R413, R542): a held lane-admitted entry of a scheduled-class queue, whose turn in its queue has
come, is admitted or refused. -/
def execAdmission (id : Nat) (s : State) : Answer :=
  .next (match s.cmd id with
    | none => s
    | some c =>
      if c.stage ≠ .held || !s.qSched c.queue || !laneOpcode c.opcode || !s.mayStart c || s.switching || s.dsp.draining then s
      else
        let s := s.adopt R.dspBorrowLimit
        match s.laneDecision c with
        | .inl code => (s.endCmd id 0x01 (mkDetail 0xFFFF 1 code)).hit 212 0x4002 1
        | .inr (l, st, fin) => s.admitTo id c l st fin)

/-- Is a dispatch thread free (R389)? -/
def State.threadFree (s : State) (t : Nat) : Bool :=
  (s.thread t).isNone && !s.cmdList.any (fun e => e.2.thr = some t && decide (e.2.stage ≠ .ended))

/-- ENTRY_START (R403, R389): an admitted entry reaches its reserved start; a program needs its lane's thread free. -/
def execEntryStart (id : Nat) (s : State) : Answer :=
  .next (match s.cmd id with
    | none => s
    | some c =>
      match c.lane with
      | none => s
      | some l =>
        if c.stage ≠ .admitted || s.now < c.start || (c.opcode = 1 && !s.threadFree (17 * l)) then s
        else s.setCmd id (some { c with stage := .cleared, thr := if c.opcode = 1 then some (17 * l) else none }))

/-! ### Best-effort grants (R406, R521, R538) -/

/-- The lowest thread a best-effort program may take (R389; the spec does not say which: DESIGN CHOICE, log 20). -/
def State.freeThread (s : State) : Option Nat :=
  (List.range 128).find? (fun t => decide (t / 16 ≠ t % 16) && s.threadFree t)

/-- Does a held entry wait for a best-effort grant, its turn in its queue having come? -/
def State.awaitsGrant (s : State) (c : Cmd) : Bool :=
  c.stage = .held && laneOpcode c.opcode && !s.qSched c.queue && s.mayStart c

/-- Is there room to start it: power, and a thread for a program? -/
def State.grantRoom (s : State) (c : Cmd) : Bool :=
  decide (s.grantedW + s.classW c.eclass ≤ s.fld R.pwrPartition 47 32) && (c.opcode ≠ 1 || s.freeThread.isSome)

/-- Contexts with an entry that a grant could start now (R521). -/
def State.grantees (s : State) : List Nat :=
  s.cmdList.foldl (fun l e => if s.awaitsGrant e.2 && s.grantRoom e.2 then addOnce l e.2.ctx else l) []

/-- BE_GRANT (R406, R521, R538, R542): a held best-effort entry of the context that the share picks receives its grant and,
for a program, a dispatch thread. -/
def execBeGrant (id : Nat) (s : State) : Answer :=
  .next (match s.cmd id with
    | none => s
    | some c =>
      if !s.awaitsGrant c || !s.grantRoom c || s.emergency || s.switching || s.dsp.draining then s
      else
        let el := s.grantees
        match s.sharePick s.dsp.eligibleT el with
        | (some n, r) =>
          if n ≠ c.ctx then s
          else
            let g := r.dsp.nextGrant
            let r := { r with dsp := { r.dsp with eligibleT := el, nextGrant := g + 1 } }
            (r.setCmd id (some { c with
              stage := .cleared, order := g, thr := if c.opcode = 1 then r.freeThread else none })).rled (4 * 6) 1
        | (none, _) => s)

/-! ### The entries with a reservation or a grant -/

/-- An entry that may begin its work, of one opcode. -/
def State.cleared (s : State) (id op : Nat) (act : Cmd → State) : State :=
  match s.cmd id with
  | some c => if c.stage = .cleared && c.opcode = op then act c else s
  | none => s

/-- The registers that a program starts with (R389). -/
def Cmd.runArgs (c : Cmd) : SMap Word :=
  [(1, c.args), (2, if c.deadline = 0 then 0 else c.due), (3, c.queue), (4, c.ctx), (5, c.cookie)].foldl
    (fun (m : SMap Word) e => SMap.put 0 m e.1 (BitVec.ofNat 64 e.2)) []

/-- A program starts on thread `t` (R306, R389): version `ver` of its slot, from its entry point, with no launch queued. -/
def State.startProgram (s : State) (id : Nat) (c : Cmd) (slot ver t : Nat) : State :=
  let (view, s) := (s.startCmd id c).takeView c.ctx
  s.setThread t (some {
    cmd := id, ctx := c.ctx, slot := slot, version := ver, pc := c.entry, x := c.runArgs, stack := [], queue := [],
    hold := .none, dest := 0, fresh := c.lane.isNone, view := view, quick := true })

/-- RUN_PROGRAM (R379, R389, R406, R410, R413): the program starts on its dispatch thread. A best-effort one pins its version now,
and is refused with SLOT where there is none; its START is its first instruction. -/
def execRunProgram (id : Nat) (s : State) : Answer :=
  .next (s.cleared id 1 fun c =>
    let s := match c.pin with | some _ => s | none => s.pinCmd id c
    match s.cmd id with
    | none => s
    | some c =>
      match c.pin, c.thr with
      | some (slot, ver), some t => s.startProgram id c slot ver t
      | _, _ => s.endCmd id 0x01 (mkDetail 0xFFFF 1 0x8))

/-- Copies in progress (R400: at most eight). -/
def State.copyCount (s : State) : Nat := s.dsp.copies.length

/-- A copy descriptor's fields, when it is well formed (R399). -/
def copyDescr (b : List Byte) : Option (Nat × Nat × Nat) :=
  let w (i : Nat) : Nat := leNat ((b.drop (8 * i)).take 8)
  if 2 ^ 48 ≤ w 0 || 2 ^ 48 ≤ w 1 || w 2 = 0 || 2 ^ 40 < w 2 || w 3 ≠ 0 then none else some (w 0, w 1, w 2)

/-- Begin a copy for a command (R399, R400): `none` while eight run; a bad descriptor is a fault. -/
def State.beginCopy (s : State) (id : Nat) (thread : Option Nat) (ctx view word va : Nat) :
    Option ((Nat ⊕ VmFault) × State) :=
  if 8 ≤ s.copyCount then none
  else if va % 32 ≠ 0 then some (.inr (.code 0x02 0), s)
  else match s.vaRead (hubUser view) va 32 with
    | (.inr f, s) => some (.inr f, s)
    | (.inl b, s) =>
      match copyDescr b with
      | none => some (.inr (.code 0x07 0), s)
      | some (src, dst, len) =>
        let n := s.dsp.nextCopy
        let x : Copy := {
          cmd := id, thread := thread, ctx := ctx, src := src, dst := dst, len := len, word := word, pos := 0,
          failed := none, view := view }
        some (.inl n, { s with dsp := { s.dsp with nextCopy := n + 1 } }.setCopy n (some x))

/-- COPY_ENTRY (R379, R399, R400): the copy starts once the engine has room; `host` is what the host answers. -/
def execCopyEntry (id : Nat) (host : HostData) (s : State) : Answer :=
  .next (s.withHost host fun s => s.cleared id 2 fun c =>
    let (view, r) := s.takeView c.ctx
    match r.beginCopy id none c.ctx view 0xFFFF c.args with
    | none => s
    | some (.inl _, r) => match r.cmd id with
      | some c => r.startCmd id c
      | none => r
    | some (.inr f, r) => match r.cmd id with
      | some c => (r.startCmd id c).endCmd id f.ends.1 (mkDetail 0xFFFF 4 f.ends.2)
      | none => r)

/-- A copy has failed or moved its last byte (R400): the thread that waits for it goes on, or its command ends. -/
def State.copyOver (s : State) (n : Nat) (x : Copy) (f : Option VmFault) : State :=
  let s := s.setCopy n none
  match x.thread, f with
  | none, none => s.endCmd x.cmd 0 (mkDetail 0xFFFF 4 0)
  | none, some f => s.endCmd x.cmd f.ends.1 (mkDetail 0xFFFF 4 f.ends.2)
  | some t, none =>
    let s := match s.thread t with
      | some th => if decide (th.hold = Hold.copy n) then s.setThread t (some { th with hold := .none, pc := th.pc + 1 }) else s
      | none => s
    s.settleCmd x.cmd
  | some _, some f => (s.stopCmd x.cmd f.ends.1 4 f.ends.2).settleCmd x.cmd

/-- COPY_DONE (R400): the copy moves what is left; it ends when every byte is written, or at the line that faults. A remote read
outstanding keeps it. -/
def execCopyDone (n : Nat) (host : HostData) (s : State) : Answer :=
  .next (s.withHost host fun s => match s.copy? n with
    | none => s
    | some x =>
      match x.failed with
      | some f => s.copyOver n x (some (vmFaultOf f))
      | none =>
        let (p, f, r) := s.copyRun n x
        let r := r.hit 212 0x4004 ((p - x.pos + 127) / 128)
        let r := r.setCopy n (some { x with pos := p })
        match f with
        | some f => r.copyOver n x (some f)
        | none => if p < x.len || r.awaitsRead (.copy n) then r else r.copyOver n x none)

/-! ### Patching (R411 to R413) -/

/-- The address of a page of the pool. -/
def State.poolPage (s : State) (p : Nat) : Nat := s.fld R.dspProgPool 55 0 + 4096 * p

/-- The lowest free pages of the pool (which ones is private to the dispatcher). -/
def State.freshPages (s : State) (n : Nat) : List Nat :=
  ((List.range (s.fld R.dspPoolPages 16 0)).filter (fun p => !s.poolUsed.contains p)).take n

/-- Is it the turn of a patch of its slot: none being written, none granted earlier (R412)? -/
def State.patchTurn (s : State) (c : Cmd) : Bool :=
  (SMap.get none s.dsp.patching c.slot).isNone &&
    !s.cmdList.any (fun e => e.2.opcode = 5 && decide (e.2.slot = c.slot) && decide (e.2.order < c.order) &&
      (e.2.stage = .admitted || e.2.stage = .cleared || e.2.stage = .running))

/-- The source bytes of a patch (R411): by virtual address, or from the host by bus address. -/
def State.patchSource (s : State) (c : Cmd) : (List Byte ⊕ VmFault) × State :=
  if c.srcHost then
    let (b, bad, s) := s.busRead (s.qFunc c.queue) 0 c.ctx c.args c.patchLen
    if bad then (.inr (.code 0x06 0), s) else (.inl b, s)
  else
    let (view, s) := s.takeView c.ctx
    s.vaRead (hubUser view) c.args c.patchLen

/-- The pages of the new version in order (R412): a fresh one for each page in `need`, the old version's for the rest. -/
def patchPages (old : Version) (size : Nat) (need fresh : List Nat) : List Nat :=
  (List.range ((8 * size + 4095) / 4096)).map (fun p =>
    match need.findIdx? (fun q => q = p) with
    | some i => fresh.getD i 0
    | none => old.pages.getD p 0)

/-- Write the `i`th fresh page (R412): page `need[i]` of the old version, or zeros, with `code` laid over it from byte `off`. -/
def State.writePage (s : State) (old : Version) (need fresh : List Nat) (off : Nat) (code : List Byte) (i : Nat) : State :=
  let p := need.getD i 0
  let (was, _, s) := if p < old.pages.length then s.memRead (s.poolPage (old.pages.getD p 0)) 4096 2 0 true
    else (leBytes 4096 0, false, s)
  let page := (List.range 4096).map (fun j =>
    let a := 4096 * p + j
    if off ≤ a && a < off + code.length then code.getD (a - off) 0 else was.getD j 0)
  s.memPut (s.poolPage (fresh.getD i 0)) page 2 0 true

/-- The new version of a patch or creation is written (R411, R412): not yet in service. The first 16 bytes of a creation's source are its
flow list. -/
def State.writeVersion (s : State) (id mode : Nat) (c : Cmd) (src : List Byte) : State :=
  let (size, need) := s.patchShape c
  let fresh := s.freshPages need.length
  let old := ((s.pslot c.slot).bind (fun p => p.versions.getLast?)).getD ⟨0, 0, [], 0⟩
  let off := if mode = 1 then 0 else c.patchOff
  let code := if mode = 1 then src.drop 16 else src
  let flows := (List.range 8).map (fun i => leNat ((src.drop (2 * i)).take 2))
  let s := (List.range need.length).foldl (fun s i => s.writePage old need fresh off code i) s
  let x : Patching := ⟨id, size, patchPages old size need fresh, fresh, if mode = 1 then some flows else none⟩
  { s with dsp := { s.dsp with patching := SMap.put none s.dsp.patching c.slot (some x) } }.poolCount

/-- A PATCH or CREATE of `mode` begins (R412): it takes its pages, reads the source and writes the new pages; nothing is in
service until PATCH_COMMIT. -/
def State.patchRow (s : State) (id mode : Nat) (host : HostData) : State :=
  s.withHost host fun s => s.cleared id 5 fun c =>
    if c.patchMode ≠ mode || !s.patchTurn c then s
    else
      let s := s.startCmd id c
      match s.patchRefused c with
      | some code => s.endCmd id 0x01 (mkDetail 0xFFFF 1 code)
      | none =>
        match s.patchSource c with
        | (.inr f, s) => s.endCmd id f.ends.1 (mkDetail 0xFFFF 0 f.ends.2)
        | (.inl src, s) => s.writeVersion id mode c src

/-- PATCH (R411, R412). -/
def execPatch (id : Nat) (host : HostData) (s : State) : Answer := .next (s.patchRow id 0 host)

/-- CREATE (R411, R412). -/
def execCreate (id : Nat) (host : HostData) (s : State) : Answer := .next (s.patchRow id 1 host)

/-- The new version of slot `slot` becomes its current one (R411, R413); a slot that was EMPTY comes into service for tenant `fn`. -/
def State.commitVersion (s : State) (slot fn : Nat) (x : Patching) : State :=
  match s.pslot slot with
  | none =>
    let v : Version := ⟨1, x.size, x.pages, 0⟩
    let p : PSlot := ⟨fn, x.flows.getD [], [v], false, (0, 0)⟩
    s.setPslot slot (some p)
  | some p =>
    let num := ((p.versions.getLast?).map Version.num).getD 0 + 1
    let v : Version := ⟨num, x.size, x.pages, 0⟩
    s.setPslot slot (some { p with versions := p.versions ++ [v] })

/-- PATCH_COMMIT (R411 to R413): the new version becomes current in one cycle, and the entry ends there. -/
def execPatchCommit (slot : Nat) (s : State) : Answer :=
  .next (match SMap.get none s.dsp.patching slot with
    | none => s
    | some x =>
      let s := { s with dsp := { s.dsp with patching := SMap.put none s.dsp.patching slot none } }
      let fn := match s.cmd x.cmd with | some c => s.qFunc c.queue | none => 0
      let s := s.commitVersion slot fn x
      (s.reapSlot slot).endCmd x.cmd 0 (mkDetail 0xFFFF 0 0))

/-- DELETE (R411, R417): the slot becomes DELETING, and EMPTY once no version is pinned. -/
def execDelete (id : Nat) (s : State) : Answer :=
  .next (s.cleared id 5 fun c =>
    if c.patchMode ≠ 2 || !s.patchTurn c then s
    else
      let s := s.startCmd id c
      match s.patchRefused c with
      | some code => s.endCmd id 0x01 (mkDetail 0xFFFF 1 code)
      | none =>
        let s := match s.pslot c.slot with
          | some p =>
            let v := (p.versions.getLast?).getD ⟨0, 0, [], 0⟩
            s.setPslot c.slot (some { p with deleting := true, atDelete := (v.size, v.num) })
          | none => s
        (s.reapSlot c.slot).endCmd id 0 (mkDetail 0xFFFF 0 0))

/-! ### Limits -/

/-- CLASS_OVERRUN (R403, R408): an admitted entry still at work T[c] after its start. What ends in the limit's own cycle has ended first (log
100). -/
def execClassOverrun (id : Nat) (s : State) : Answer :=
  .next (match s.cmd id with
    | none => s
    | some c =>
      if c.lane.isNone || !c.inService || c.outcome.isSome || s.now ≤ c.fin then s
      else (s.surveyTrigger 4 c.queue).stopCmd id 0x02 0 0x2)

/-- QUEUE_TIMEOUT (R407, R408): an entry that is not lane-admitted has reached its limit, time held under R37 or HOLD not counted. What ends
in the limit's own cycle has ended first (log 100). -/
def execQueueTimeout (id : Nat) (s : State) : Answer :=
  .next (match s.cmd id with
    | none => s
    | some c =>
      if c.stage = .ended || c.outcome.isSome || c.lane.isSome || (s.qSched c.queue && laneOpcode c.opcode) ||
        s.now - c.fetched - c.held ≤ 1000 * c.timeout then s
      else (s.surveyTrigger 3 c.queue).stopCmd id 0x02 0 0x1)

end Sys2Proof.Machine
end

