-- ==== Sys2Proof/Machine/Rdma.lean ====
section
/-! DEFINITION. The RDMA engine: queue pairs, posting, sending, completing, errors, and what peers ask of regions
(spec 13 R494 to R505). -/

namespace Sys2Proof.Machine

/-! ### Queue pairs -/

/-- A queue pair out of RESET. -/
def State.qp (s : State) (q : Nat) : Option Qp := SMap.get none s.eth.qps q

/-- Is work of the engine at hand (R505)? -/
def EthState.busy (e : EthState) : Bool :=
  e.qps.any (fun x => match x.2 with | some y => !y.flight.isEmpty | none => false)

/-- Replace a queue pair; RDMA_IDLE follows (R505). -/
def State.setQp (s : State) (q : Nat) (x : Option Qp) : State :=
  let e := { s.eth with qps := SMap.put none s.eth.qps q x }
  ({ s with eth := e }).putFlag R.ethStatus 0 (!e.busy)

/-- STATE of a queue pair: 0 RESET, 1 READY, 2 ERROR; and its consumer indices (R509). -/
def State.qpState (s : State) (q : Nat) : Nat := s.fld (R.ethQpStatus q) 63 62
def State.sqCi (s : State) (q : Nat) : Nat := s.fld (R.ethQpStatus q) 47 32
def State.rqCi (s : State) (q : Nat) : Nat := s.fld (R.ethQpStatus q) 31 16

/-- The port a queue pair uses. -/
def Qp.port (x : Qp) : Nat := x.flags % 2

/-- Packet sequence numbers have 24 bits. -/
def psnAdd (a n : Nat) : Nat := (a + n) % 2 ^ 24

/-- Is `a` at or before `b` in sequence? -/
def psnLe (a b : Nat) : Bool := decide ((b + 2 ^ 24 - a) % 2 ^ 24 < 2 ^ 23)

/-- Send a RoCE packet, an event of R611. -/
def State.send1 (s : State) (o : Out) : State := (s.hit 212 0x4005 1).emit o

/-- Where a queue pair's packets go; the entry of the address table is taken as it stands when the packet starts (R497, R509). -/
def State.path (s : State) (x : Qp) : RdmaPath :=
  let g := 16 * x.port + x.gid
  { src := (s.rd (R.ethGidLo g)).toNat + 2 ^ 64 * (s.rd (R.ethGidHi g)).toNat, dst := x.peerIp, mac := x.peerMac, vlan := x.vlan,
    dscp := x.dscp }

/-- An acknowledgement or a NAK of a queue pair (R502). -/
def State.ack (s : State) (x : Qp) (psn nak : Nat) : State := s.send1 (.rdmaAck x.port (some (s.path x)) x.peer psn nak)

/-- Packets of a message (R497): one at least. -/
def Qp.packets (x : Qp) (len : Nat) : Nat :=
  let m := 1024 * 2 ^ x.pmtu
  max 1 ((len + m - 1) / m)

/-- The engine as a user of a context's memory (R499, R362). -/
def rdmaUser (view : Nat) : VmUser := ⟨.hub, 4, 4, view⟩

/-- Read a range for a queue pair: the owner's context, or host memory of the port's OWNER for a raw one (R490, R497). -/
def State.qpRead (s : State) (q : Nat) (x : Qp) (a len : Nat) : Option (List Byte) × State :=
  if q < 2 then
    let (b, bad, s) := s.busRead (s.fld (R.ethPortCfg q) 63 58) 3 0 a len
    (if bad then none else some b, s)
  else match s.vaRead (rdmaUser (s.viewNow x.owner)) a len with
    | (.inl b, s) => (some b, s)
    | (.inr _, s) => (none, s)

/-- Write a range for a queue pair; whether it could. -/
def State.qpWrite (s : State) (q : Nat) (x : Qp) (a : Nat) (b : List Byte) : Bool × State :=
  if q < 2 then (true, s.busWrite (s.fld (R.ethPortCfg q) 63 58) a b)
  else match s.vaWrite (rdmaUser (s.viewNow x.owner)) a b with
    | (none, s) => (true, s)
    | (some _, s) => (false, s)

/-- Ring addresses (R497, R498). -/
def Qp.sqAt (x : Qp) (i : Nat) : Nat := x.sqBase + 64 * i
def Qp.rqAt (x : Qp) (i : Nat) : Nat := x.rqBase + 32 * i

/-- A DONE word (R498). -/
def State.doneWord (s : State) (status : Nat) : List Byte := leBytes 8 (2 ^ 63 + status * 2 ^ 48 + s.time40)

/-- The entries of a ring from index `i` up to the producer index. -/
def ringFrom (i pi log : Nat) : List Nat :=
  (List.range ((pi + 2 ^ log - i) % 2 ^ log)).map (fun k => (i + k) % 2 ^ log)

/-- Complete send entry `i` with a status: its DONE word, the consumer index, and its vector when EVENT is set (R500). -/
def State.sendDone (s : State) (q : Nat) (x : Qp) (i status : Nat) (event : Bool) : State :=
  let (_, s) := s.qpWrite q x (x.sqAt i + 0x38) (s.doneWord status)
  let s := s.setFld (R.ethQpStatus q) 47 32 ((i + 1) % 2 ^ x.sqLog)
  if event then s.sendVector ((s.qpFunc q).getD 0) x.vector else s

/-- Complete receive entry `i` with a status (R498, R503). -/
def State.recvDone (s : State) (q : Nat) (x : Qp) (i status : Nat) : State :=
  let (_, s) := s.qpWrite q x (x.rqAt i + 0x18) (s.doneWord status)
  s.setFld (R.ethQpStatus q) 31 16 ((i + 1) % 2 ^ x.rqLog)

/-- Does a posted send entry ask for an event (R498, R500)? An entry that has not started is read for it. -/
def State.wantsEvent (s : State) (q : Nat) (x : Qp) (i : Nat) : Bool × State :=
  match x.flight.find? (fun w => w.index = i) with
  | some w => (w.flags.testBit 0, s)
  | none => match s.qpRead q x (x.sqAt i) 8 with
    | (some b, s) => ((leNat ((b.drop 1).take 1)).testBit 0, s)
    | (none, s) => (false, s)

/-- The entry that fails when a queue pair enters ERROR (R504): a send entry by its index, the next receive entry, or none. -/
inductive Failing where
  | send (i : Nat)
  | receive
  | nothing
  deriving DecidableEq, Repr

/-- Every posted entry completes: the failing one with `code`, every other one as flushed (R504). What a send entry that started before the
failing one and is not acknowledged ends with is not stated: the model flushes it (DESIGN CHOICE, log 106). -/
def State.qpFlush (s : State) (q : Nat) (x : Qp) (code : Nat) (fail : Failing) : State :=
  let recvs := ringFrom (s.rqCi q) x.rqPi x.rqLog
  let s := (ringFrom (s.sqCi q) x.sqPi x.sqLog).foldl (fun s i =>
    let (e, s) := s.wantsEvent q x i
    s.sendDone q x i (if fail = .send i then code else 6) e) s
  recvs.foldl (fun s i => s.recvDone q x i (if fail = .receive && recvs.head? = some i then code else 6)) s

/-- A queue pair enters ERROR (R504): every posted entry completes, the code is recorded and the owner's cause raised. -/
def State.qpError (s : State) (q code : Nat) (fail : Failing) : State :=
  match s.qp q with
  | none => s
  | some x =>
    if s.qpState q ≠ 1 then s
    else
      let s := s.qpFlush q x code fail
      let s := (s.setFld (R.ethQpStatus q) 63 62 2).setFld (R.ethQpStatus q) 61 54 code
      let s := s.setQp q (some { x with flight := [], sqNext := x.sqPi })
      s.raiseCause ((s.qpFunc q).getD 0) 3

/-- The entries at the head of the flight that are acknowledged complete in ring order (R500). -/
def State.qpRetire (s : State) (q : Nat) : Nat → State
  | 0 => s
  | fuel + 1 =>
    match s.qp q with
    | none => s
    | some x =>
      match x.flight with
      | w :: rest =>
        if !w.acked then s
        else
          let s := s.sendDone q x w.index 0 (w.flags.testBit 0)
          State.qpRetire (s.setQp q (some { x with flight := rest, tries := 0, rnrTries := 0 })) q fuel
      | [] => s

/-! ### Commands of the queue pair -/

/-- Is a record one that READY accepts (R494, R497, R509)? -/
def State.qpOk (s : State) (q : Nat) (b : List Byte) : Bool :=
  let n (off len : Nat) : Nat := leNat ((b.drop off).take len)
  let port := n 2 1 % 2
  let tenant := if q < 2 then s.fld (R.ethPortCfg q) 63 58 else s.tenantOf (n 0 2)
  let reserved := s.flag (R.ethPortCfg 1) 56
  let storage := (n 2 1).testBit 1
  let gid := s.rd (R.ethGidCfg (16 * port + n 3 1))
  decide (n 0 2 < 4096) && decide (n 2 1 < 16) && decide (n 3 1 < 16) && decide (n 4 1 ≤ 2) && decide (n 5 1 < 128) &&
    !(n 5 1).testBit 3 && decide (n 6 1 ≤ 20) && decide (n 7 1 < 64) && decide (n 8 4 < 2 ^ 24) &&
    decide (n 0xC 2 < 2 ^ 16) && decide (n 0x20 8 < 2 ^ 48) && decide (n 0x28 4 < 2 ^ 24) && decide (n 0x2C 4 < 2 ^ 24) &&
    decide (n 0x30 8 % 4096 = 0) && decide (n 0x38 8 % 4096 = 0) && decide (n 0x40 8 % 8 = 0) &&
    decide (4 ≤ n 0x48 1) && decide (n 0x48 1 ≤ 12) && decide (4 ≤ n 0x49 1) && decide (n 0x49 1 ≤ 12) &&
    decide (n 0x4A 54 = 0) && (q ≥ 2 || port = q) && s.flag (R.ethPortCfg port) 55 &&
    decide (n 0xE 2 < (if tenant = 0 then s.con.pfVectors else s.con.vfVectors)) &&
    (q < 2 || (bit gid 31 && decide (Machine.fld gid 29 24 = tenant) &&
      (!reserved || (storage && port = 1) || (!storage && port = 0))))

/-- The queue pair that a record makes (R497). -/
def qpOf (b : List Byte) (now : Nat) : Qp :=
  let n (off len : Nat) : Nat := leNat ((b.drop off).take len)
  { owner := n 0 2, flags := n 2 1, pmtu := n 4 1, retry := n 5 1, timeout := n 6 1, vector := n 0xE 2, peer := n 8 4,
    gid := n 3 1, dscp := n 7 1, vlan := n 0xC 2, peerIp := n 0x10 16, peerMac := n 0x20 8,
    sqBase := n 0x30 8, rqBase := n 0x38 8, piAddr := n 0x40 8, sqLog := n 0x48 1, rqLog := n 0x49 1,
    sendPsn := n 0x28 4, recvPsn := n 0x2C 4, sqPi := 0, rqPi := 0, sqNext := 0, flight := [], tries := 0, rnrTries := 0,
    rate := 400000, rateAt := now }

/-- QP_READY (R497, R509): a write of 1 to ETH_QP_CMD by the physical function; a queue pair in RESET takes its record, or
the command is refused. -/
def execQpReady (fn qp : Nat) (s : State) : Answer :=
  .next (s.mmio fn (R.ethQpCmd qp) true fun s =>
    let a := s.fld R.ethQpTable 55 0 + 128 * qp
    let (b, bad, t) := s.memRead a 128 4 0 true
    if s.qpState qp ≠ 0 || bad || !s.qpOk qp b then s.setFlag R.ethStatus 2
    else
      (t.wr (R.ethQpStatus qp) (BitVec.ofNat 64 (2 ^ 62))).setQp qp (some (qpOf b t.now)))

/-- QP_RESET (R497, R504): the queue pair is flushed and moves to RESET. -/
def execQpReset (fn qp : Nat) (s : State) : Answer :=
  .next (s.mmio fn (R.ethQpCmd qp) true fun s =>
    match s.qp qp with
    | none => s.wr (R.ethQpStatus qp) 0
    | some x =>
      let s := if s.qpState qp = 1 then s.qpFlush qp x 6 .nothing else s
      (s.setQp qp none).wr (R.ethQpStatus qp) 0)

/-- Take producer indices (R499): each names an entry of its ring, or is ignored and counted; entries posted in ERROR are
flushed. -/
def State.post (s : State) (q sq rq : Nat) : State :=
  match s.qp q with
  | none => s
  | some x =>
    let okS := decide (sq < 2 ^ x.sqLog)
    let okR := decide (rq < 2 ^ x.rqLog)
    let s := if okS then s else s.count R.ethRxDenied 32 1
    let s := if okR then s else s.count R.ethRxDenied 32 1
    let y := { x with sqPi := if okS then sq else x.sqPi, rqPi := if okR then rq else x.rqPi }
    if s.qpState q = 1 then s.setQp q (some y)
    else
      (s.qpFlush q y 6 .nothing).setQp q (some { y with sqNext := y.sqPi })

/-- QP_DOORBELL (R482, R499): a write of ETH_QP_DB. -/
def execQpDoorbell (fn qp : Nat) (db : BitVec 32) (s : State) : Answer :=
  .next (s.mmio fn (R.ethQpDb qp) true fun s => s.post qp (nfld db.toNat 15 0) (nfld db.toNat 31 16))

/-- PRODUCER_POLL (R499): the word at PI_ADDR of a POLL queue pair; a fault of it puts the pair into ERROR (R504). -/
def execProducerPoll (qp : Nat) (host : HostData) (s : State) : Answer :=
  .next (s.withHost host fun s => match s.qp qp with
    | none => s
    | some x =>
      if s.qpState qp ≠ 1 || !x.flags.testBit 2 then s
      else match s.qpRead qp x x.piAddr 8 with
        | (some b, s) => s.post qp (leNat (b.take 2)) (leNat ((b.drop 2).take 2))
        | (none, s) => s.qpError qp 4 .nothing)

/-! ### Sending -/

/-- Does the peer pause a priority of a port (R495)? -/
def State.prioPaused (s : State) (port prio : Nat) : Bool := (SMap.get none s.eth.paused (8 * port + prio)).isSome

/-- The priority of a raw frame (R495): that of its IEEE 802.1Q tag, and 0 for an untagged one (DESIGN CHOICE, log 105). -/
def framePrio (f : List Byte) : Nat :=
  if beNat ((f.drop 12).take 2) = 0x8100 then beNat ((f.drop 14).take 1) / 32 else 0

/-- May the engine start the next entry of a queue pair: posted, no hold, link up and priority not paused (R494, R495, R505)? -/
def State.maySend (s : State) (q : Nat) (x : Qp) : Bool :=
  s.qpState q = 1 && decide (x.sqNext ≠ x.sqPi) && !s.flag R.ethControl 0 && s.flag R.ethStatus (8 + x.port) &&
    (q < 2 || !s.prioPaused x.port (s.fld (R.ethPortCfg x.port) 50 48))

/-- Internet checksum over bytes taken two by two, most significant first. -/
def onesSum : List Byte → Nat
  | [] => 0
  | [a] => 256 * a.toNat
  | a :: b :: t => 256 * a.toNat + b.toNat + onesSum t

def inetSum (n : Nat) : Nat :=
  let f (n : Nat) : Nat := n % 65536 + n / 65536
  65535 - f (f (f n))

/-- Replace bytes of a list. -/
def splice (l : List Byte) (off : Nat) (b : List Byte) : List Byte := l.take off ++ b ++ l.drop (off + b.length)

/-- A frame with its IPv4 header checksum and UDP checksum inserted (R498 CSUM), behind at most one tag. -/
def withCsum (f : List Byte) : List Byte :=
  let be (off len : Nat) : Nat := beNat ((f.drop off).take len)
  let l3 := if be 12 2 = 0x8100 then 18 else 14
  if be (l3 - 2) 2 ≠ 0x0800 || be l3 1 / 16 ≠ 4 then f
  else
    let ihl := 4 * (be l3 1 % 16)
    let w (n : Nat) : List Byte := [BitVec.ofNat 8 (n / 256), BitVec.ofNat 8 n]
    let f1 := splice f (l3 + 10) [0, 0]
    let f2 := splice f1 (l3 + 10) (w (inetSum (onesSum ((f1.drop l3).take ihl))))
    if be (l3 + 9) 1 ≠ 17 then f2
    else
      let l4 := l3 + ihl
      let len := be (l4 + 4) 2
      let f3 := splice f2 (l4 + 6) [0, 0]
      let sum := onesSum ((f3.drop (l3 + 12)).take 8) + 17 + len + onesSum ((f3.drop l4).take len)
      let c := inetSum sum
      splice f3 (l4 + 6) (w (if c = 0 then 65535 else c))

/-- A send entry's bytes as the engine takes them. -/
def wqeOf (x : Qp) (b : List Byte) (now : Nat) : Wqe :=
  let n (off len : Nat) : Nat := leNat ((b.drop off).take len)
  { index := x.sqNext, op := n 0 1, flags := n 1 1, imm := n 4 4, addr := n 8 8, len := n 0x10 4, rkey := n 0x14 4,
    remote := n 0x18 8, first := x.sendPsn, last := psnAdd x.sendPsn (x.packets (n 0x10 4) - 1), sent := now, acked := false }

/-- Is an entry well formed for its queue pair (R498)? -/
def wqeOk (q : Nat) (b : List Byte) (w : Wqe) : Bool :=
  let n (off len : Nat) : Nat := leNat ((b.drop off).take len)
  decide (n 2 2 = 0) && decide (n 0x20 24 = 0) &&
    (if q < 2 then w.op = 0 && decide (w.flags < 16) && decide (64 ≤ w.len) && decide (w.len ≤ 9216)
     else decide (w.op ≤ 4) && decide (w.flags < 4) && decide (w.len ≤ 2 ^ 30))

/-- Send what an entry asks for. -/
def State.sendWqe (s : State) (x : Qp) (w : Wqe) (data : List Byte) : State :=
  (s.hit 212 0x4005 (if w.op = 4 then 1 else x.packets w.len)).emit (.rdma x.port (s.path x) x.peer w.op w.first w.imm w.rkey w.remote w.len data)

/-- A send entry of one opcode starts (R498, R499, R504): a READ with FENCE once all before it is acknowledged. An entry or buffer that
cannot be read, or an entry that R498 does not allow, puts the pair into ERROR. A raw frame completes as it leaves. -/
def State.sendRow (s : State) (q op : Nat) (host : HostData) : State :=
  s.withHost host fun s => match s.qp q with
  | none => s
  | some x =>
    if !s.maySend q x then s
    else match s.qpRead q x (x.sqAt x.sqNext) 64 with
      | (none, t) => if op = 0 then t.qpError q 4 (.send x.sqNext) else s
      | (some b, t) =>
        let w := wqeOf x b t.now
        if !wqeOk q b w then (if op = 0 then t.qpError q 4 (.send x.sqNext) else s)
        else if w.op ≠ op || (op = 4 && w.flags.testBit 1 && !x.flight.isEmpty) then s
        else
          let next := (x.sqNext + 1) % 2 ^ x.sqLog
          if q < 2 then
            match t.qpRead q x w.addr w.len with
            | (none, t) => t.qpError q 4 (.send x.sqNext)
            | (some f, t) =>
              if s.prioPaused x.port (framePrio f) then s
              else
              let t := t.emit (.frame x.port (if w.flags.testBit 3 then withCsum f else f))
              (t.sendDone q x w.index 0 (w.flags.testBit 0)).setQp q (some { x with sqNext := next })
          else
            let y := { x with sqNext := next, sendPsn := psnAdd w.last 1, flight := x.flight ++ [w] }
            if op = 4 then (t.sendWqe x w []).setQp q (some y)
            else match t.qpRead q x w.addr w.len with
              | (none, t) => t.qpError q 4 (.send x.sqNext)
              | (some d, t) => (t.sendWqe x w d).setQp q (some y)

/-- SEND (R498). -/
def execSend (qp : Nat) (host : HostData) (s : State) : Answer := .next (s.sendRow qp 0 host)

/-- SEND_IMM (R498). -/
def execSendImm (qp : Nat) (host : HostData) (s : State) : Answer := .next (s.sendRow qp 1 host)

/-- RDMA_WRITE (R498). -/
def execRdmaWrite (qp : Nat) (host : HostData) (s : State) : Answer := .next (s.sendRow qp 2 host)

/-- WRITE_IMM (R498). -/
def execWriteImm (qp : Nat) (host : HostData) (s : State) : Answer := .next (s.sendRow qp 3 host)

/-- RDMA_READ (R498). -/
def execRdmaRead (qp : Nat) (host : HostData) (s : State) : Answer := .next (s.sendRow qp 4 host)

/-- RDMA_ACK (R500): the peer acknowledges every packet up to `psn`; entries other than READs that it covers complete, in ring
order. -/
def execRdmaAck (qp psn : Nat) (s : State) : Answer :=
  .next (match s.qp qp with
    | none => s
    | some x =>
      if s.qpState qp ≠ 1 then s
      else
        let s := s.hit 212 0x4006 1
        let fl := x.flight.map (fun w => if decide (w.op ≠ 4) && psnLe w.last psn then { w with acked := true } else w)
        (s.setQp qp (some { x with flight := fl })).qpRetire qp fl.length)

/-- RDMA_READ_RESPONSE (R500): the data of the oldest READ that waits is performed locally. -/
def execRdmaReadResponse (qp : Nat) (data : List Byte) (s : State) : Answer :=
  .next (match s.qp qp with
    | none => s
    | some x =>
      match x.flight.find? (fun w => w.op = 4 && !w.acked) with
      | none => s
      | some w =>
        if s.qpState qp ≠ 1 || data.length ≠ w.len then s
        else match (s.hit 212 0x4006 (x.packets data.length)).qpWrite qp x w.addr data with
          | (false, s) => s.qpError qp 4 (.send w.index)
          | (true, s) =>
            let fl := x.flight.map (fun v => if v.index = w.index then { v with acked := true } else v)
            (s.setQp qp (some { x with flight := fl })).qpRetire qp fl.length)

/-- The oldest send entry at work, as the one that fails. -/
def Qp.oldest (x : Qp) : Failing := match x.flight with | w :: _ => .send w.index | [] => .nothing

/-- Send every entry at work again (R497). -/
def State.resend (s : State) (q : Nat) (x : Qp) : State :=
  let s := x.flight.foldl (fun s w =>
    if w.acked then s
    else if w.op = 4 then s.sendWqe x w []
    else match s.qpRead q x w.addr w.len with
      | (some d, s) => s.sendWqe x w d
      | (none, s) => s.qpError q 4 (.send w.index)) s
  match s.qp q with
  | some y => if s.qpState q = 1 then s.setQp q (some { y with flight := y.flight.map (fun w => { w with sent := s.now }) }) else s
  | none => s

/-- ACK_TIMEOUT (R497, R504): the oldest entry waited 4.096 µs × 2^TIMEOUT; it is sent again, or its retries ran out. -/
def execAckTimeout (qp : Nat) (host : HostData) (s : State) : Answer :=
  .next (s.withHost host fun s => match s.qp qp with
    | none => s
    | some x =>
      match x.flight.find? (fun w => !w.acked) with
      | none => s
      | some w =>
        if s.qpState qp ≠ 1 || s.now < w.sent + 4096 * 2 ^ x.timeout then s
        else if x.retry % 8 ≤ x.tries then s.qpError qp 1 (.send w.index)
        else (s.setQp qp (some { x with tries := x.tries + 1 })).resend qp x)

/-- RNR_NAK_RECEIVE (R497, R504): the peer had no receive entry; the entry is sent again, or its retries ran out; 7 retries without
limit. -/
def execRnrNakReceive (qp : Nat) (host : HostData) (s : State) : Answer :=
  .next (s.withHost host fun s => match s.qp qp with
    | none => s
    | some x =>
      let lim := x.retry / 16 % 8
      if s.qpState qp ≠ 1 || !x.flight.any (fun w => !w.acked) then s
      else
      let s := s.hit 212 0x4006 1
      if decide (lim ≠ 7) && decide (lim ≤ x.rnrTries) then s.qpError qp 5 (x.oldest)
      else (s.setQp qp (some { x with rnrTries := x.rnrTries + 1 })).resend qp x)

/-- REMOTE_ACCESS_NAK (R504): the peer refused access, or called the request invalid. -/
def execRemoteAccessNak (qp : Nat) (invalid : Bool) (s : State) : Answer :=
  .next (match s.qp qp with
    | none => s
    | some x => if x.flight.isEmpty then s else (s.hit 212 0x4006 1).qpError qp (if invalid then 3 else 2) x.oldest)

/-! ### Receiving -/

/-- A CE mark draws a congestion notification, one per queue pair per 50 µs (R495). -/
def State.notify (s : State) (m : Inbound) (x : Qp) : State :=
  let due := match SMap.get none s.eth.cnpAt m.qp with | some t => decide (t + 50000 ≤ s.now) | none => true
  if m.ce && due then
    let e := { s.eth with cnpAt := SMap.put none s.eth.cnpAt m.qp (some s.now) }
    (({ s with eth := e }).count R.ethCnpSent 32 1).send1 (.cnp m.port (s.path x) x.peer)
  else s

/-- Where a packet of a peer ends: at a state that takes no more of it, or at the queue pair that may take it. A bad ICRC is dropped and
counted; a packet on the wrong port or against the storage reservation is discarded and counted; one for a pair that is not READY is
NAKed; a packet out of sequence is left for the peer to send again (R494, R495, R502). -/
def State.gate (s : State) (m : Inbound) : Option Qp × State :=
  let port : Nat := m.port
  if !s.flag (R.ethPortCfg port) 55 || !s.flag R.ethStatus (8 + port) || decide ((m.qp : Nat) < 2) then (none, s)
  else if !m.icrc then (none, (s.hit 212 0x4006 1).count R.ethRxIcrc 32 1)
  else
    match s.qp m.qp with
    | none => (none, ((s.hit 212 0x4006 1).count R.ethRxDenied 32 1).send1 (.rdmaAck port none 0 m.psn 1))
    | some x =>
      let t := s.hit 212 0x4006 (x.packets m.data.length)
      if x.port ≠ port || (s.flag (R.ethPortCfg 1) 56 && decide (x.flags.testBit 1 ≠ decide (port = 1))) then (none, t.count R.ethRxDenied 32 1)
      else if s.qpState m.qp ≠ 1 then (none, (t.count R.ethRxDenied 32 1).ack x m.psn 1)
      else if m.psn ≠ x.recvPsn then (none, t)
      else (some x, t.notify m x)

/-- A packet of a peer that may go on does what its row says. -/
def State.arrive (s : State) (m : Inbound) (act : Qp → State → State) : State :=
  match s.gate m with
  | (none, t) => t
  | (some x, t) => act x t

/-- A refused request (R502): a NAK, the count, and ERROR. -/
def State.refuseIn (s : State) (q : Nat) (x : Qp) (psn nak code : Nat) (fail : Failing) : State :=
  ((s.count R.ethRxDenied 32 1).ack x psn nak).qpError q code fail

/-- The cached record of a region (R501). -/
def State.region (s : State) (i : Nat) : List Byte × Bool × State :=
  match SMap.get none s.eth.regions i with
  | some b => (b, false, s)
  | none =>
    let (b, bad, s) := s.memRead (s.fld R.ethRegionBase 55 0 + 32 * i) 32 4 0 true
    if bad then (b, true, s)
    else (b, false, { s with eth := { s.eth with regions := SMap.put none s.eth.regions i (some b) } })

/-- Are the regions of a context refused: it has retired, or its retirement has done step 5 (R528)? -/
def State.regionsClosed (s : State) (ctx : Nat) : Bool :=
  s.fld (R.ctxCfg ctx) 63 62 = 3 || (match SMap.get none s.dsp.retiring ctx with | some r => decide (r.step = 6) | none => false)

/-- Checks 2 to 6 of R502 in order, for a range of a region: the view of the region's context (R306, R320),
or `none`. -/
def State.regionFor (s : State) (x : Qp) (rkey va len : Nat) (write : Bool) : Option Nat × State :=
  let (b, bad, s) := s.region (rkey % 65536)
  let n (off k : Nat) : Nat := leNat ((b.drop off).take k)
  let ctx := n 0 2 % 4096
  let base := n 8 8 % 2 ^ 48
  if bad || !(n 0 2).testBit 15 || n 4 2 ≠ rkey / 65536 then (none, s)
  else if s.tenantOf ctx ≠ s.tenantOf x.owner || s.regionsClosed ctx then (none, s)
  else if !(n 2 1).testBit (if write then 0 else 1) ||
    (s.flag (R.ethPortCfg 1) 56 && x.port = 1 && !(n 2 1).testBit 2) then (none, s)
  else if va < base || base + n 0x10 8 < va + len then (none, s)
  else
    let need := if write then needW else needR
    let (ok, s) := (pagePieces va len).foldl (fun (a : Bool × State) p =>
      if !a.1 then a
      else match a.2.xlate .hub 4 (s.viewNow ctx) p.1 need with
        | (.ok pa _, s) => (decide (s.placeOf pa ≠ .remote), s)
        | (.fault _ _, s) => (false, s)) (true, s)
    (if ok then some (s.viewNow ctx) else none, s)

/-- Consume the next receive entry (R502, R503): its data if any, BYTES, IMM, then DONE. -/
def State.consume (s : State) (q : Nat) (x : Qp) (psn : Nat) (data : List Byte) (imm : Option (BitVec 32)) (raw : Bool) :
    State :=
  let i := s.rqCi q
  if i = x.rqPi then (if raw then s else s.ack x psn 3)
  else match s.qpRead q x (x.rqAt i) 32 with
    | (none, s) => s.qpError q 4 .receive
    | (some b, s) =>
      let n (off k : Nat) : Nat := leNat ((b.drop off).take k)
      if n 8 4 < data.length then (if raw then s else s.refuseIn q x psn 2 3 .receive)
      else
        let (ok, s) := if data.isEmpty then (true, s) else s.qpWrite q x (n 0 8) data
        if !ok then s.qpError q 4 .receive
        else
          let (_, s) := s.qpWrite q x (x.rqAt i + 0x10)
            (leBytes 4 data.length ++ leBytes 4 ((imm.map BitVec.toNat).getD 0))
          let s := s.recvDone q x i 0
          if raw then s
          else
            let last := psnAdd psn (x.packets data.length - 1)
            (s.setQp q (some { x with recvPsn := psnAdd last 1 })).ack x last 0

/-- A WRITE of a peer, with or without an immediate value (R502, R503). -/
def State.writeIn (s : State) (m : Inbound) : State :=
  s.arrive m fun x s =>
    let q : Nat := m.qp
    match s.regionFor x m.rkey.toNat m.va.toNat m.data.length true with
    | (none, s) => s.refuseIn q x m.psn 1 2 .nothing
    | (some view, t) =>
      let (_, t) := t.vaWrite (rdmaUser view) m.va.toNat m.data
      let last := psnAdd m.psn (x.packets m.data.length - 1)
      match m.imm with
      | none => (t.setQp q (some { x with recvPsn := psnAdd last 1 })).ack x last 0
      | some _ => t.consume q x last [] m.imm false

/-- INBOUND_WRITE (R502). -/
def execInboundWrite (m : Inbound) (s : State) : Answer := .next (s.writeIn { m with imm := none })

/-- INBOUND_WRITE_IMM (R502): the data is placed and a receive entry consumed for the immediate value, with BYTES 0. -/
def execInboundWriteImm (m : Inbound) (s : State) : Answer :=
  .next (s.writeIn { m with imm := some (m.imm.getD 0) })

/-- INBOUND_READ (R502): answered from the region. -/
def execInboundRead (m : Inbound) (s : State) : Answer :=
  .next (s.arrive m fun x s =>
    let q : Nat := m.qp
    match s.regionFor x m.rkey.toNat m.va.toNat m.len false with
    | (none, s) => s.refuseIn q x m.psn 1 2 .nothing
    | (some ctx, s) =>
      match s.vaRead (rdmaUser ctx) m.va.toNat m.len with
      | (.inl b, s) =>
        let s := s.hit 212 0x4005 (x.packets m.len)
        (s.setQp q (some { x with recvPsn := psnAdd m.psn (x.packets m.len) })).emit (.rdmaRead x.port (s.path x) x.peer m.psn b)
      | (.inr _, s) => s.qpError q 4 .nothing)

/-- INBOUND_SEND (R502): the next receive entry takes the message. -/
def execInboundSend (m : Inbound) (s : State) : Answer :=
  .next (s.arrive m fun x s => s.consume m.qp x m.psn m.data m.imm false)

/-- Does a frame go to the port's raw queue pair (R493, R497)? One of 64 to 9,216 bytes to the port's MAC address, to broadcast or to
multicast, with a right IPv4 header checksum, unless it is RoCE traffic for a READY queue pair. Where a RoCE packet names its queue pair is
the RoCE version 2 layout (PRESUMED, log 105). -/
def State.rawFrame (s : State) (port : Nat) (f : List Byte) : Bool :=
  let be (off len : Nat) : Nat := beNat ((f.drop off).take len)
  let l3 := if be 12 2 = 0x8100 then 18 else 14
  let v4 := be (l3 - 2) 2 = 0x0800
  let v6 := be (l3 - 2) 2 = 0x86DD
  let ihl := 4 * (be l3 1 % 16)
  let udp := (v4 && be (l3 + 9) 1 = 17) || (v6 && be (l3 + 6) 1 = 17)
  let l4 := if v4 then l3 + ihl else l3 + 40
  let n := be (l4 + 13) 3
  let roce := udp && be (l4 + 2) 2 = 4791 && decide (0x1000 ≤ n) && decide (n < 0x2000) && s.qpState (n - 0x1000) = 1
  decide (64 ≤ f.length) && decide (f.length ≤ 9216) && (be 0 6 = (s.fld (R.ethPortMac port) 47 0) || be 0 1 % 2 = 1) &&
    (!v4 || inetSum (onesSum ((f.drop l3).take ihl)) = 0) && !roce

/-- RAW_FRAME_RECEIVE (R496, R497): a frame for the port's raw queue pair goes to a receive entry with its timestamp. -/
def execRawFrameReceive (port : Nat) (data : List Byte) (host : HostData) (s : State) : Answer :=
  .next (s.withHost host fun s =>
    if !s.flag (R.ethPortCfg port) 55 || !s.flag R.ethStatus (8 + port) || s.qpState port ≠ 1 || !s.rawFrame port data then s
    else match s.qp port with
      | some x => s.consume port x 0 data none true
      | none => s)

/-! ### Ports -/

/-- PFC_PAUSE_RECEIVE (R495): the peer pauses or resumes a priority that PFC_EN names, unless its pauses are ignored. -/
def execPfcPauseReceive (port prio : Nat) (on : Bool) (s : State) : Answer :=
  .next (
    let k := 8 * port + prio
    if !s.flag (R.ethPortCfg port) 55 || !s.flag (R.ethPortCfg port) (40 + prio) then s
    else if !on then { s with eth := { s.eth with paused := SMap.put none s.eth.paused k none } }
    else if s.now < SMap.get 0 s.eth.ignored k || (SMap.get none s.eth.paused k).isSome then s
    else { s with eth := { s.eth with paused := SMap.put none s.eth.paused k (some s.now) } })

/-- PFC_STORM (R495, R484): a priority paused for 100 ms without a break; its pauses are ignored for 100 ms. -/
def execPfcStorm (port prio : Nat) (s : State) : Answer :=
  .next (
    let k := 8 * port + prio
    match SMap.get none s.eth.paused k with
    | none => s
    | some t =>
      if s.now < t + 100000000 then s
      else
        let s := { s with eth := { s.eth with
          paused := SMap.put none s.eth.paused k none, ignored := SMap.put 0 s.eth.ignored k (s.now + 100000000) } }
        (s.count (R.ethPfcStorms port) 32 1).raiseCause 0 13)

/-- CNP_RECEIVE (R495): the queue pair's rate halves, down to 1 Gb/s. -/
def execCnpReceive (qp : Nat) (s : State) : Answer :=
  .next (match s.qp qp with
    | some x => (s.hit 212 0x4006 1).setQp qp (some { x with rate := max 1000 (x.rate / 2), rateAt := s.now })
    | none => s)

/-- CNP_RATE_INCREASE (R495): 55 µs without a notification raise the rate by 20 Gb/s, up to the line rate. -/
def execCnpRateIncrease (qp : Nat) (s : State) : Answer :=
  .next (match s.qp qp with
    | some x =>
      if s.now < x.rateAt + 55000 then s
      else s.setQp qp (some { x with rate := min 400000 (x.rate + 20000), rateAt := s.now })
    | none => s)

/-- ETH_LINK_CHANGE (R484): the link of an enabled port goes up or down. -/
def execEthLinkChange (port : Nat) (up : Bool) (s : State) : Answer :=
  .next (
    if !s.flag (R.ethPortCfg port) 55 || s.flag R.ethStatus (8 + port) = up then s
    else (s.putFlag R.ethStatus (8 + port) up).raiseCause 0 13)

/-! ### Regions and the hold -/

/-- REGION_INVALIDATE (R501): a write of ETH_REGION_INV with GO. -/
def execRegionInvalidate (fn : Nat) (index : BitVec 16) (s : State) : Answer :=
  .next (s.mmio fn R.ethRegionInv true fun s =>
    if s.flag R.ethStatus 3 then s.setFlag R.ethStatus 4
    else
      let e := { s.eth with regions := SMap.put none s.eth.regions index.toNat none, invalidating := some index.toNat }
      ({ s with eth := e }).setFlag R.ethStatus 3)

/-- REGION_INV_DONE (R501). From here no inbound request uses the old record. -/
def execRegionInvDone (s : State) : Answer :=
  .next (match s.eth.invalidating with
    | none => s
    | some i =>
      let e := { s.eth with regions := SMap.put none s.eth.regions i none, invalidating := none }
      ({ s with eth := e }).clrFlag R.ethStatus 3)

/-- RDMA_HOLD (R505): a write of ETH_CONTROL. A hold starts no further send entry and sends XOFF on RDMA_PRIO of both ports; its end
sends XON. -/
def execRdmaHold (fn : Nat) (on : Bool) (s : State) : Answer :=
  .next (s.mmio fn R.ethControl true fun s =>
    let was := s.flag R.ethControl 0
    let s := (s.wr R.ethControl (if on then 1 else 0)).putFlag R.ethStatus 1 on
    if was = on then s
    else [0, 1].foldl (fun s p =>
      if s.flag (R.ethPortCfg p) 55 then s.emit (.pause p (s.fld (R.ethPortCfg p) 50 48) on) else s) s)

end Sys2Proof.Machine
end

