-- ==== Sys2Proof/Machine/Contexts.lean ====
section
/-! DEFINITION. Contexts: activation, weight, freeing, seeds, census, retirement, and fresh memory keys (spec 14 R510 to R531, 17
R586). -/

namespace Sys2Proof.Machine

/-! ### CTX_CFG -/

/-- A discarded write to an instance (R514). -/
def State.ctxBusy (s : State) (n : Nat) : State := s.setFlag (R.ctxStatus n) 0

/-- Add to or take from a count that hardware keeps (R532). -/
def State.adjust (s : State) (off up down : Nat) : State := s.wr off (BitVec.ofNat 64 ((s.rd off).toNat + up - down))

/-- The counters and epochs of R512. -/
def ctxCounters (n : Nat) : List Nat :=
  [R.ctxEpochFetched n, R.ctxEpochDone n, R.ctxEngineNs n, R.ctxShareNs n, R.ctxVtime n, R.ctxLaunches n, R.ctxMapSmall n,
    R.ctxMapMedium n, R.ctxMapHuge n, R.ctxRetireEpoch n, R.ctxDiscarded n, R.ctxAborted n, R.ctxBroken n,
    R.ctxTicketsFreed n, R.ctxPtsSurrendered n]

/-- The counters of a context start at zero (R515). -/
def State.zeroCounters (s : State) (n : Nat) : State :=
  let s := (ctxCounters n).foldl (fun s r => s.wr r 0) s
  { s with dsp := { s.dsp with vfrac := SMap.put 0 s.dsp.vfrac n 0, doneAhead := SMap.put [] s.dsp.doneAhead n [] } }

/-- An 8-byte write of CTX_CFG by the physical function (R513, R515). -/
def State.ctxCfgWrite (s : State) (n : Nat) (v : Word) : State :=
  let st := s.fld (R.ctxCfg n) 63 62
  let to_ := Machine.fld v 63 62
  let tenant := Machine.fld v 61 56
  let weight := Machine.fld v 15 0
  if st = 0 && to_ = 1 && weight ≠ 0 && s.fnExists tenant then
    let s := (s.wr (R.ctxCfg n) (BitVec.ofNat 64 (2 ^ 62 + tenant * 2 ^ 56 + weight))).zeroCounters n
    let s := (s.clrFlag (R.ctxStatus n) 3).adopt (R.ctxSeed n)
    (s.wr (R.ctxSeed n) (SMap.get 0 s.con.seeds n)).adjust R.dspCtxActive 1 0
  else if st = 1 && to_ = 1 && weight ≠ 0 && tenant = s.tenantOf n then s.setFld (R.ctxCfg n) 15 0 weight
  else if st = 3 && to_ = 0 then
    let s := ((ctxRegs n) ++ [R.ctxCfg n, R.ctxStatus n, R.ctxSeed n]).foldl (fun s r => s.wr r 0) (s.adopt (R.ctxSeed n))
    s.zeroCounters n
  else s.ctxBusy n

/-- CONTEXT_ACTIVATE (R515, R516): a write of STATE 1 with TENANT and WEIGHT. -/
def execContextActivate (fn ctx tenant weight : Nat) (s : State) : Answer :=
  .next (s.mmio fn (R.ctxCfg ctx) true fun s =>
    s.ctxCfgWrite ctx (BitVec.ofNat 64 (2 ^ 62 + tenant % 64 * 2 ^ 56 + weight % 2 ^ 16)))

/-- CONTEXT_WEIGHT_CHANGE (R515): a write of STATE 1 with TENANT unchanged. -/
def execContextWeightChange (fn ctx weight : Nat) (s : State) : Answer :=
  .next (s.mmio fn (R.ctxCfg ctx) true fun s =>
    s.ctxCfgWrite ctx (BitVec.ofNat 64 (2 ^ 62 + s.tenantOf ctx * 2 ^ 56 + weight % 2 ^ 16)))

/-- CONTEXT_FREE (R515): a write of STATE 0. -/
def execContextFree (fn ctx : Nat) (s : State) : Answer :=
  .next (s.mmio fn (R.ctxCfg ctx) true fun s => s.ctxCfgWrite ctx 0)

/-- SEED_WRITE (R279, R514, R515): a write of CTX_SEED; on an ACTIVE context it waits for the next launch boundary. -/
def execSeedWrite (fn ctx : Nat) (v : Word) (s : State) : Answer :=
  .next (s.mmio fn (R.ctxSeed ctx) true fun s =>
    match s.fld (R.ctxCfg ctx) 63 62 with
    | 0 => s.wr (R.ctxSeed ctx) v
    | 1 => (s.wrLate (R.ctxSeed ctx) v).setFlag (R.ctxStatus ctx) 3
    | _ => s.ctxBusy ctx)

/-! ### Census -/

/-- CENSUS (R524): a GO on an ACTIVE context with no census running. -/
def execCensus (fn ctx : Nat) (s : State) : Answer :=
  .next (s.mmio fn (R.ctxCensus ctx) true fun s =>
    if s.fld (R.ctxCfg ctx) 63 62 ≠ 1 || s.flag (R.ctxStatus ctx) 1 then s.ctxBusy ctx
    else s.setFlag (R.ctxStatus ctx) 1)

/-- What a census counted: leaves of 4 KiB, 2 MiB and 1 GiB, and whether an entry was rejected. -/
structure Leaves where
  small : Nat
  medium : Nat
  huge : Nat
  bad : Bool
  deriving DecidableEq, Repr

/-- Count the leaves under a table of `level` (R312, R524); `fuel` bounds the levels. -/
def State.countLeaves (s : State) (a : Leaves) (level table : Nat) : Nat → Leaves × State
  | 0 => (a, s)
  | fuel + 1 =>
    (List.range 512).foldl (fun (x : Leaves × State) i =>
      let (e, bad, t) := x.2.pteRead (table + 8 * i)
      if bad || !bit e 0 then (x.1, t)
      else if t.badPte e level then ({ x.1 with bad := true }, t)
      else if bit e 1 then
        (match level with
          | 0 => { x.1 with small := x.1.small + 1 }
          | 1 => { x.1 with medium := x.1.medium + 1 }
          | _ => { x.1 with huge := x.1.huge + 1 }, t)
      else State.countLeaves t x.1 (level - 1) (4096 * Machine.fld e 55 12) fuel) (a, s)

/-- What a census writes when it ends (R524). -/
def State.censusCounted (s : State) (ctx : Nat) (a : Leaves) : State :=
  let s := (s.wr (R.ctxMapSmall ctx) (BitVec.ofNat 64 (a.small % 2 ^ 36))).wr (R.ctxMapMedium ctx)
    (BitVec.ofNat 64 (a.medium % 2 ^ 27))
  let s := s.wr (R.ctxMapHuge ctx) (BitVec.ofNat 64 (a.huge % 2 ^ 18))
  (s.clrFlag (R.ctxStatus ctx) 1).putFlag (R.ctxStatus ctx) 2 a.bad

/-- CENSUS_DONE (R524): the counts are written. It faults nothing and changes no TLB. -/
def execCensusDone (ctx : Nat) (host : HostData) (s : State) : Answer :=
  .next (
    if !s.flag (R.ctxStatus ctx) 1 then s
    else s.withHost host fun s =>
      let r := s.countLeaves ⟨0, 0, 0, false⟩ 3 (s.rootOf ctx false) 4
      r.2.censusCounted ctx r.1)

/-! ### Keys -/

/-- Write back and invalidate every L2 and siding line that carries a key slot (R586). -/
def MemSys.purge (m : MemSys) (slot : Nat) : MemSys :=
  (m.l2.filter (fun e => match e.2 with | some x => x.slot = slot | none => false)).foldl (fun m e => m.flushLine e.1) m

/-- A fresh key for a slot, its lines having been purged (R586). -/
def State.rekey (s : State) (slot : Nat) : State :=
  let m := s.mem.purge slot
  s.setMem { m with gen := SMap.put 0 m.gen slot (SMap.get 0 m.gen slot + 1) }

/-! ### Retirement -/

/-- Is work of a context not over: entries, launches, copies or dispatch threads (R528 step 2)? -/
def State.ctxWorks (s : State) (n : Nat) : Bool :=
  s.cmdList.any (fun e => e.2.ctx = n && decide (e.2.stage ≠ .ended)) || s.launchList.any (fun e => e.2.ctx = n) ||
    s.dsp.copies.any (fun e => match e.2 with | some x => x.ctx % 4096 = n | none => false)

/-- Stop an entry with ABORTED (R528), and say whether that is what it completes with. -/
def State.abortCmd (s : State) (id : Nat) : Bool × State :=
  match s.cmd id with
  | some c => (decide (c.stage ≠ .ended) && c.outcome.isNone, s.stopCmd id 0x06 0 0)
  | none => (false, s)

/-- Steps 1 and 2 of R528 for the entries of a context. -/
def State.abortCtx (s : State) (n : Nat) : State :=
  (s.cmdList.filter (fun e => e.2.ctx = n)).foldl (fun s e =>
    let (hit, s) := s.abortCmd e.1
    if hit then s.count (R.ctxAborted n) 32 1 else s) s

/-- Perform the stores in a core's buffer that satisfy a test, in order, as far as they can be. -/
def State.drainCore (s : State) (c : Nat) (p : StoreEntry → Bool) : Nat → Nat → State
  | _, 0 => s
  | i, fuel + 1 =>
    match (s.core c).stores[i]? with
    | none => s
    | some e =>
      if !p e then State.drainCore s c p (i + 1) fuel
      else match s.performStore c i with
        | some t => State.drainCore t c p i fuel
        | none => State.drainCore s c p (i + 1) fuel

/-- Do the store buffers still hold stores of a context? -/
def State.ctxStores (s : State) (n : Nat) : Bool := s.cores.any (fun e => e.2.stores.any (fun x => x.ctx = n))

/-- Step 3 of R528: the store buffers drain the context's stores; those to lost destinations are discarded and counted. -/
def State.drainCtx (s : State) (n : Nat) : State :=
  let gone := (s.cores.map (fun e => (e.2.stores.filter (fun x =>
    x.ctx = n && decide (x.place = .remote) && s.unreachable (paNode (128 * x.line)))).length)).sum
  let s := s.count (R.ctxDiscarded n) 32 gone
  s.cores.foldl (fun s e => s.drainCore e.1 (fun x => x.ctx = n) 0 (s.core e.1).stores.length) s

/-- The semaphores that are not FREE. -/
def State.semaphores (s : State) : List Nat :=
  (s.regs.filter (fun e => decide (R.semCfg 0 ≤ e.1) && decide (e.1 < R.semCfg 65536) && decide (e.1 % 32 = 0) &&
    decide (Machine.fld e.2 63 62 ≠ 0))).map (fun e => (e.1 - R.semCfg 0) / 32)

/-- Step 4 of R528 (R437): the context's ACTIVE semaphores become BROKEN. -/
def State.breakCtx (s : State) (n : Nat) : State :=
  (s.semaphores.filter (fun m => s.semState m = 1 && s.fld (R.semCfg m) 53 42 = n)).foldl
    (fun s m => (s.semBreak m (some n)).count (R.ctxBroken n) 17 1) s

/-- The tickets of a context by the side table (R258, R263). -/
def State.ticketsOf (s : State) (n : Nat) : List Nat :=
  if s.rd R.tktActive = 0 then []
  else (List.range 0x100000).filter (fun t =>
    let w := leNat (s.memRead (s.sideAddr t) 4 2 0 false).1
    w.testBit 12 && decide (w % 4096 = n))

/-- The platforms a context owns, and what retirement does to one (R254, R528): its held choices are surrendered, ENABLE becomes 0. -/
def State.platsOf (s : State) (n : Nat) : List Nat :=
  (List.range 1024).filter (fun p =>
    s.platOwner p = n && (bit (s.platCfg p) 51 || decide (s.fld (R.ptsPlatHeld p) 19 0 ≠ 0)))
def State.closePlat (s : State) (n p : Nat) : State :=
  let held := s.fld (R.ptsPlatHeld p) 19 0
  let s := ((s.setFld (R.ptsPlatHeld p) 19 0 0).less R.ptsHeld held).tally R.ptsSurrendered held
  let s := s.count (R.ctxPtsSurrendered n) 32 held
  (s.adopt (R.ptsPlatCfg p)).clrFlag (R.ptsPlatCfg p) 51

/-- Step 5 of R528. -/
def State.releaseCtx (s : State) (n : Nat) : State :=
  let ts := s.ticketsOf n
  let s := (ts.foldl (fun s t => s.tktRelease t) s).count (R.ctxTicketsFreed n) 21 ts.length
  let s := (s.platsOf n).foldl (fun s p => s.closePlat n p) s
  let s := (s.eth.qps.filter (fun e => decide (2 ≤ e.1) && (match e.2 with | some x => x.owner = n | none => false))).foldl
    (fun s e => s.qpError e.1 6 .nothing) s
  s.invalidate ⟨n, 0, 0, []⟩

/-- A retirement in progress. -/
def State.retire? (s : State) (n : Nat) : Option Retire := SMap.get none s.dsp.retiring n
def State.setRetire (s : State) (n : Nat) (x : Option Retire) : State :=
  { s with dsp := { s.dsp with retiring := SMap.put none s.dsp.retiring n x } }

/-- Steps 2 to 5 of R528 as far as they can go now: each begins when the one before it has finished. The cores that held the
context's blocks are cleared (R122). -/
def State.retireRun (s : State) (n : Nat) : State :=
  match s.retire? n with
  | none => s
  | some r =>
    if r.step ≠ 2 || s.ctxWorks n then s
    else
      let s := s.drainCtx n
      if s.ctxStores n then s
      else
        let s := s.mapCores (fun _ k => if k.ctx = some n then k.clear else k)
        ((s.breakCtx n).releaseCtx n).setRetire n (some { r with step := 6 })

/-- An ACTIVE context begins to retire (R528 step 1), for an entry or without one (R511). -/
def State.beginRetire (s : State) (n : Nat) (cmds : List Nat) : State :=
  let s := (s.setFld (R.ctxCfg n) 63 62 2).adjust R.dspCtxActive 0 1
  ((s.setRetire n (some ⟨cmds, 2⟩)).abortCtx n).retireRun n

/-- CONTEXT_RETIRE (R527, R528): the entry starts in ring order, and the retiring context is examined then. -/
def execContextRetire (id : Nat) (s : State) : Answer :=
  .next (s.simpleEntry id 7 fun c s =>
    let n := c.op0 % 4096
    if n = c.ctx then s.endCmd id 0x05 (mkDetail 0xFFFF 0 0x07)
    else if s.ctxState n = 0 || (s.qFunc c.queue ≠ 0 && s.tenantOf n ≠ s.qFunc c.queue) then
      s.endCmd id 0x04 (mkDetail 0xFFFF 0 0x10)
    else if s.ctxState n = 3 then s.endCmd id 0 (s.fld (R.ctxRetireEpoch n) 31 0)
    else match s.retire? n with
      | some r => s.setRetire n (some { r with cmds := r.cmds ++ [id] })
      | none => s.beginRetire n [id])

/-- Step 6 of R528. -/
def State.retired (s : State) (n : Nat) (r : Retire) : State :=
  let s := s.count R.dspRetireCount 64 1
  let e := s.rd R.dspRetireCount
  let s := (s.wr (R.ctxRetireEpoch n) e).setFld (R.ctxCfg n) 63 62 3
  let s := (s.wr (R.ctxEpochDone n) (s.rd (R.ctxEpochFetched n))).setRetire n none
  r.cmds.foldl (fun s id => s.endCmd id 0 (Machine.fld e 31 0)) s

/-- The ACTIVE contexts of a tenant, all of which begin to retire (R511). -/
def State.retireTenant (s : State) (f : Nat) : State :=
  ((List.range 4096).filter (fun n => s.ctxState n = 1 && s.tenantOf n = f)).foldl (fun s n => s.beginRetire n []) s

/-- Has every context of a tenant left ACTIVE and RETIRING? -/
def State.tenantQuiet (s : State) (f : Nat) : Bool :=
  (List.range 4096).all (fun n => decide (s.tenantOf n ≠ f) || s.ctxState n = 0 || s.ctxState n = 3)

end Sys2Proof.Machine
end

