-- ==== Sys2Proof/Machine/Image.lean ====
section
/-! DEFINITION. Images: container, signature, sections, field ranges, overlays (spec 01 R12 to R30, R669, 12 R448 to R450, 15 R536,
R545, 16 R569, 17 R577, R592). An image is the list of the bytes of its slot or buffer. -/

namespace Sys2Proof.Machine

/-! ### Reading -/

/-- The number in `len` bytes at `off`; bytes past the end read as zero. -/
def num (b : List Byte) (off len : Nat) : Nat := leNat ((b.drop off).take len)

/-- Are the bytes all zero (reserved fields)? -/
def zeroAt (b : List Byte) (off len : Nat) : Bool := ((b.drop off).take len).all (fun x => decide (x = 0))

/-- Cut a list into pieces of `n`, at most `fuel` of them. -/
def pieces {α : Type} (n : Nat) (l : List α) : Nat → List (List α)
  | 0 => []
  | fuel + 1 => if l.isEmpty then [] else l.take n :: pieces n (l.drop n) fuel

/-- The two-byte numbers of a byte list. -/
def halves : List Byte → List Nat
  | a :: b :: t => (a.toNat + 256 * b.toNat) :: halves t
  | _ => []

/-- A directory entry (R14). -/
structure Sect where
  id : Nat
  flags : Nat
  off : Nat
  size : Nat
  deriving DecidableEq, Repr

/-- The image's LENGTH (R13). -/
def imgLen (b : List Byte) : Nat := num b 0x10 4

/-- The section directory (R14). -/
def sections (b : List Byte) : List Sect :=
  (pieces 16 ((b.drop 0x40).take (16 * num b 0x14 2)) (num b 0x14 2)).map
    (fun e => ⟨num e 0 2, num e 4 4, num e 8 4, num e 12 4⟩)

/-- A section's bytes, none where the image lacks it. -/
def findSection (b : List Byte) (id : Nat) : Option (List Byte) :=
  ((sections b).find? (fun e => e.id = id)).map (fun e => (b.drop e.off).take e.size)

/-- A section's bytes. -/
def sectionOf (b : List Byte) (id : Nat) : List Byte := (findSection b id).getD []

/-! ### Keys -/

/-- KEY_ID of a public point (R577), as the number its bytes spell: the first 16 bytes of SHA-384 over X then Y. -/
def keyIdOf (point : Nat) : Nat := Config.sha384 ((leBytes 96 point).reverse) / 2 ^ 256

/-- Ochorn keys that are not revoked (R576, R671). -/
def Fuses.ochorn (f : Fuses) : List Nat := ((List.range 2).filter (fun i => !f.ochornRevoke.testBit i)).map Config.romKey

/-- Is an OWNER_HASH entry programmed? -/
def Fuses.enrolled (f : Fuses) : Bool := !f.ownerHash.isEmpty

/-- Owner keys that count as present (R577). -/
def SecState.owners (x : SecState) : List Nat :=
  x.ownerKeys.filter (fun k => ((List.range 8).zip x.fuses.ownerHash).any (fun e =>
    e.2 = Config.sha384 ((leBytes 96 k).reverse) && !x.fuses.ownerRevoke.testBit e.1))

/-- Accepted signers of a base consist (R577). -/
def SecState.baseSigners (x : SecState) : List Nat := if x.fuses.enrolled then x.owners else x.fuses.ochorn

/-- Accepted signers of an image by KIND, or of a token as KIND 2 (R577). -/
def State.signers (s : State) (kind : Nat) : List Nat :=
  if kind = 3 then s.sec.fuses.ochorn
  else if kind = 1 || s.con.accepted.isEmpty then s.sec.baseSigners
  else s.sec.baseSigners.filter (fun k => s.con.accepted.contains (keyIdOf k))

/-- Is a trailer's signature of a message valid under one of these signers (R15, R577)? -/
def signedBy (keys : List Nat) (msg trailer : List Byte) : Bool :=
  match keys.find? (fun k => keyIdOf k = beNat (trailer.take 16)) with
  | none => false
  | some k => Config.ecdsaOk k (Config.sha384 msg) (beNat ((trailer.drop 16).take 48)) (beNat ((trailer.drop 64).take 48))

/-! ### Sections -/

/-- The section IDs of a base (R17). -/
def baseIds : List Nat := [1, 2, 3, 4, 5, 6, 7, 8, 9, 0xA, 0xB, 0xC]

/-- The section IDs of a firmware image (R16). -/
def fwIds : List Nat := [0x100, 0x101, 0x102]

/-- Is SIZE what the section's layout gives (R669)? -/
def sizeOk (id : Nat) (b : List Byte) : Bool :=
  let n := b.length
  match id with
  | 1 => decide (n = 52)
  | 2 => decide (n = 192)
  | 3 => decide (n = 32)
  | 4 => decide (n = 16)
  | 5 => decide (n = 32)
  | 6 => decide (n = 16)
  | 7 => decide (n = 0x10020 + 16 * num b 4 2 + 16 * num b 6 2)
  | 8 => decide (n = 128)
  | 9 => decide (n = 48)
  | 0xA => decide (n = 32768)
  | 0xB => decide (n = 32)
  | 0xC => decide (n = 136)
  | 0x80 => decide (n ≠ 0) && decide (n % 16 = 0)
  | _ => true

/-- TOPOLOGY counts (R19). -/
def topologyOk (b : List Byte) : Bool :=
  (List.range 2).all fun d =>
    let sites := num b (2 + 2 * d) 2
    ones 9 sites = 8 && (List.range 9).all (fun i => !sites.testBit i || ones 13 (num b (0x10 + 18 * d + 2 * i) 2) = 12)

/-- A byte of MESH as the mesh it describes: node, width and height (R22). -/
def meshOf (b : List Byte) : Nat × Nat × Nat := (num b 0 1, num b 1 1 + 1, num b 2 1 + 1)

/-- Would a port's neighbour lie inside the mesh (R441)? -/
def portInside (node w h p : Nat) : Bool :=
  match p / 2 with
  | 0 => decide (nodeY node + 1 < h)
  | 1 => decide (nodeX node + 1 < w)
  | 2 => decide (0 < nodeY node)
  | _ => decide (0 < nodeX node)

/-- MESH (R22, R441). -/
def meshOk (b : List Byte) : Bool :=
  let (n, w, h) := meshOf b
  decide (w ≤ 16) && decide (h ≤ 16) && decide (nodeX n < w) && decide (nodeY n < h) && zeroAt b 3 1 && zeroAt b 12 4 &&
    (List.range 8).all (fun p => num b (4 + p) 1 = 0 || (num b (4 + p) 1 = 1 && portInside n w h p))

/-- ETHERNET (R23). -/
def ethernetOk (b pcie : List Byte) : Bool :=
  let n (o l : Nat) : Nat := num b o l
  decide (n 0 1 < 4) && decide (n 1 1 < 2) && (n 1 1 = 0 || (n 0 1).testBit 1) &&
    decide (n 2 1 ≤ num pcie 0 1) && decide (n 3 1 ≤ num pcie 0 1) && decide (n 4 1 < 8) && decide (n 5 1 < 8) &&
    decide (n 8 8 < 2 ^ 48) && !(n 8 8).testBit 40 && decide (n 0x10 8 < 2 ^ 48) && !(n 0x10 8).testBit 40 && zeroAt b 0x18 8

/-- PCIE (R24). -/
def pcieOk (b : List Byte) : Bool :=
  decide (num b 0 1 ≤ 63) && zeroAt b 1 1 && decide (2 ≤ num b 2 2) && decide (num b 2 2 ≤ 2048) && decide (1 ≤ num b 4 1) &&
    decide (num b 4 1 ≤ 64) && zeroAt b 5 11

/-- A flow of the FLOW table (R449). -/
structure FlowRec where
  num : Nat
  src : Nat
  dst : Nat
  slots : Nat
  inPort : Nat
  outPort : Nat
  zero : Bool
  deriving DecidableEq, Repr

/-- What a TIMETABLE section says (R448, R449): slots by port, flows, windows as channel, START, LENGTH. -/
structure TimetableSect where
  epoch : Nat
  activate : Nat
  slots : List (List Nat)
  flows : List FlowRec
  windows : List (Nat × Nat × Nat)
  zero : Bool
  deriving DecidableEq, Repr

/-- Read a TIMETABLE section. -/
def timetableOf (b : List Byte) : TimetableSect :=
  let nf := num b 4 2
  let nw := num b 6 2
  let fl := pieces 16 ((b.drop 0x10020).take (16 * nf)) nf
  let wi := pieces 16 ((b.drop (0x10020 + 16 * nf)).take (16 * nw)) nw
  { epoch := num b 0 4
    activate := num b 8 8
    slots := pieces 4096 (halves ((b.drop 0x20).take 65536)) 8
    flows := fl.map (fun e => ⟨num e 0 2, num e 2 1, num e 3 1, num e 4 2, num e 6 1, num e 7 1, zeroAt e 8 8⟩)
    windows := wi.map (fun e => (num e 0 2, num e 4 4, num e 8 4))
    zero := zeroAt b 0x10 16 && wi.all (fun e => zeroAt e 2 2 && zeroAt e 12 4) }

/-- The ports by which the route of a flow enters and leaves a node (R443): directions, 0xFF at an end; none when the route does
not pass. -/
def flowDirs (f : FlowRec) (node : Nat) : Option (Nat × Nat) :=
  let r := route f.src f.dst
  let out := if f.dst = node then some 0xFF else (r.find? (fun h => h.1 = node)).map Prod.snd
  let into := if f.src = node then some 0xFF
    else (r.find? (fun h => stepTo h.1 h.2 = node)).map (fun h => (h.2 + 2) % 4)
  match into, out with
  | some i, some o => some (i, o)
  | _, _ => none

/-- Does a port agree with a direction? -/
def portAgrees (port dir : Nat) : Bool := if dir = 0xFF then port = 0xFF else decide (port < 8) && port / 2 = dir

/-- Do two windows of a channel overlap in the frame (R545)? -/
def windowsMeet (a b : Nat × Nat × Nat) : Bool :=
  let f := 262144
  decide ((b.2.1 % f + f - a.2.1 % f) % f < a.2.2) || decide ((a.2.1 % f + f - b.2.1 % f) % f < b.2.2)

/-- Memory cycles that a channel's windows total. -/
def windowTotal (t : TimetableSect) (k : Nat) : Nat := ((t.windows.filter (fun w => w.1 = k)).map (fun w => w.2.2)).sum

/-- No element of a list stands in a relation to a later one. -/
def noPair {α : Type} (r : α → α → Bool) : List α → Bool
  | [] => true
  | a :: l => l.all (fun b => !r a b) && noPair r l

/-- TIMETABLE (R448 to R450, R545), beside the MESH section of its base. -/
def timetableOk (b mesh : List Byte) : Bool :=
  let t := timetableOf b
  let node := (meshOf mesh).1
  let port (p : Nat) : List Nat := t.slots.getD p []
  decide (t.epoch ≠ 0) && t.zero && decide (t.flows.length ≤ 1024) &&
    (List.range 8).all (fun p =>
      (port p).all (fun e => (decide (e < 0x1000) && t.flows.any (fun f => f.num = e && f.outPort = p)) || e = 0xFFFE || e = 0xFFFF) &&
        (num mesh (4 + p) 1 = 1 || (port p).all (fun e => e = 0xFFFF)) &&
        decide ((t.flows.filter (fun f => f.inPort = p)).length ≤ 64) && decide ((t.flows.filter (fun f => f.outPort = p)).length ≤ 64)) &&
    t.flows.all (fun f =>
      decide (f.num < 0x1000) && decide (1 ≤ f.slots) && decide (f.slots ≤ 4096) && f.zero && decide (f.src ≠ f.dst) &&
        (f.outPort = 0xFF || ((port f.outPort).filter (fun e => e = f.num)).length = f.slots) &&
        (match flowDirs f node with
          | some (i, o) => portAgrees f.inPort i && portAgrees f.outPort o
          | none => false)) &&
    noPair (fun f g => f.num = g.num) t.flows &&
    t.windows.all (fun w => decide (w.1 < 256)) &&
    (List.range 256).all (fun k => noPair windowsMeet (t.windows.filter (fun w => w.1 = k)) && decide (3933 ≤ windowTotal t k))

/-- The smallest share of a channel in units of 0.01 %, rounded down (R545). -/
def windowShare (t : TimetableSect) : Nat :=
  (List.range 256).foldl (fun a k => min a (windowTotal t k * 10000 / 262144)) 10000

/-- POWER (R536). -/
def powerOk (b : List Byte) : Bool :=
  let w (o : Nat) : Nat := num b o 4
  let lane (l : Nat) : Nat := num b (0x60 + 2 * l) 2
  decide (w 0 ≤ 1600) && decide (w 4 ≤ 2000) && decide (w 8 ≤ 10000) && zeroAt b 0x1C 4 && zeroAt b 0x70 16 &&
    decide (w 0xC + w 0x10 + w 0x14 ≤ w 0) &&
    (List.range 8).all (fun c => !(decide (w 0x10 < w (0x20 + 8 * c)) && decide (w 0x14 < w (0x20 + 8 * c))) && decide (w (0x24 + 8 * c) ≠ 0)) &&
    (List.range 8).all (fun i => (List.range i).all (fun j => Nat.land (lane i) (lane j) = 0))

/-- RAS (R569). -/
def rasOk (b : List Byte) : Bool :=
  (List.range 4).all (fun m =>
    let th := num b (8 * m) 2
    let ac := num b (8 * m + 2) 1
    let wi := num b (8 * m + 4) 4
    decide (1 ≤ th) && decide (th ≤ 64) && decide (ac ≤ (if m = 3 then 0 else 1)) && zeroAt b (8 * m + 3) 1 && decide (1 ≤ wi) &&
      decide (wi ≤ 2592000)) &&
    decide (1 ≤ num b 0x20 4) && decide (num b 0x20 4 ≤ 168) && zeroAt b 0x24 12

/-- DEFAULTS (R25). -/
def defaultsOk (b : List Byte) : Bool :=
  (decide (num b 0 1 ≤ 7) || num b 0 1 = 0xF) && zeroAt b 1 3 && decide (0x10000 ≤ num b 4 4) && decide (1 ≤ num b 8 4) &&
    decide (num b 0xC 1 < 4) && decide (num b 0xE 2 % 2 = 0) && zeroAt b 0x14 12

/-- SECURITY (R592). -/
def securityOk (b : List Byte) : Bool :=
  decide (num b 0 2 < 256) && (List.range 4).all (fun i => decide (nfld (num b 0 2) (2 * i + 1) (2 * i) ≠ 3)) &&
    decide (num b 2 2 = 64) && decide (num b 4 1 < 2) && zeroAt b 5 3

/-- Is every field of a section within its range (check 11 of R30)? `other` gives the sections that it is read beside. Bits of
CLUSTER_SITES and CORE_SITES that stand for no site (R18) must be zero (log 84). -/
def rangesOk (id : Nat) (b : List Byte) (other : Nat → List Byte) : Bool :=
  match id with
  | 1 => decide (num b 0 2 = 3) && zeroAt b 6 10 && decide (num b 2 2 < 512) && decide (num b 4 2 < 512) &&
      (List.range 18).all (fun i => decide (num b (0x10 + 2 * i) 2 < 2 ^ 13))
  | 2 => b.all (fun x => decide (x.toNat ≤ 1))
  | 4 => meshOk b
  | 5 => ethernetOk b (other 6)
  | 6 => pcieOk b
  | 7 => timetableOk b (other 4)
  | 8 => powerOk b
  | 9 => rasOk b
  | 0xB => defaultsOk b
  | 0xC => securityOk b
  | _ => true

/-! ### Overlays -/

/-- A patch record (R26). -/
structure PatchRec where
  target : Nat
  off : Nat
  width : Nat
  value : Nat
  zero : Bool
  deriving DecidableEq, Repr

/-- The records of a PATCH section. -/
def patchesOf (b : List Byte) : List PatchRec :=
  (pieces 16 b (b.length / 16)).map (fun e => ⟨num e 0 2, num e 2 2, num e 4 1, num e 8 8, zeroAt e 5 3⟩)

/-- Is a record's shape in range (R26)? -/
def PatchRec.shapeOk (p : PatchRec) : Bool :=
  [1, 2, 4, 8].contains p.width && p.zero && decide (p.value < 2 ^ (8 * p.width))

/-- The overlay-permitted fields of a section (R17, R20, R21, R25): offset and bytes. -/
def overlayFields (id : Nat) : List (Nat × Nat) :=
  match id with
  | 2 => (List.range 192).map (fun i => (i, 1))
  | 3 => (List.range 16).map (fun i => (2 * i, 2))
  | 0xA => (List.range 4096).map (fun i => (8 * i, 8))
  | 0xB => [(4, 4), (8, 4), (0xC, 1), (0xD, 1), (0xE, 2), (0x10, 4)]
  | _ => []

/-- Does a record lie wholly inside one permitted field (R27)? -/
def PatchRec.permitted (p : PatchRec) : Bool :=
  (overlayFields p.target).any (fun f => decide (f.1 ≤ p.off) && decide (p.off + p.width ≤ f.1 + f.2))

/-- Write a record into its section (R27: the later record takes effect). -/
def PatchRec.apply (p : PatchRec) (b : List Byte) : List Byte :=
  b.take p.off ++ leBytes p.width p.value ++ b.drop (p.off + p.width)

/-- A section in force: the base with at most one overlay (R29). -/
def effective (base : List Byte) (ovl : Option (List Byte)) (id : Nat) : List Byte :=
  let b := sectionOf base id
  match ovl with
  | none => b
  | some o =>
    match findSection o id with
    | some r => r
    | none => ((patchesOf (sectionOf o 0x80)).filter (fun p => p.target = id && p.permitted && p.shapeOk)).foldl (fun b p => p.apply b) b

/-- Slots that a port's map gives to maintenance. -/
def maintSlots (t : TimetableSect) (p : Nat) : Nat := ((t.slots.getD p []).filter (fun e => e = 0xFFFE)).length

/-- Does a replacement TIMETABLE keep the maintenance share of every channel and link, and a POWER section the budget (R28)? The section that
does not. -/
def overLimit (base o : List Byte) : Option Nat :=
  let bad7 := match findSection o 7 with
    | some r =>
      let t := timetableOf r
      let u := timetableOf (sectionOf base 7)
      (List.range 256).any (fun k => decide (windowTotal t k < windowTotal u k)) ||
        (List.range 8).any (fun p => decide (maintSlots t p < maintSlots u p))
    | none => false
  let bad8 := match findSection o 8 with
    | some r => decide (num (sectionOf base 8) 0 4 < num r 0 4)
    | none => false
  if bad7 then some 7 else if bad8 then some 8 else none

/-! ### Verification -/

/-- Check 2 of R30. -/
def headerOk (b : List Byte) (kind : Nat) : Bool :=
  let mode := num b 7 1
  let base := num b 0xC 4
  num b 0 4 = 0x53435A4B && num b 4 2 = 3 && num b 6 1 = kind && decide (num b 8 4 ≠ 0) && zeroAt b 0x28 24 &&
    (if kind = 2 then decide (1 ≤ mode) && decide (mode ≤ 4) && decide (base ≠ 0) else mode = 0 && base = 0)

/-- Check 7: the first section that does not lie inside the image between directory and trailer, at a multiple of 16, clear of those before it. -/
def boundsBad (b : List Byte) : Option Nat :=
  let lo := 0x40 + 16 * num b 0x14 2
  let hi := imgLen b - 112
  let go := (sections b).foldl (fun (a : List Sect × Option Nat) e =>
    match a.2 with
    | some _ => a
    | none =>
      if decide (e.off % 16 ≠ 0) || decide (e.off < lo) || decide (hi < e.off + e.size) ||
          a.1.any (fun x => decide (e.off < x.off + x.size) && decide (x.off < e.off + e.size)) then (a.1, some e.id)
      else (a.1 ++ [e], none)) ([], none)
  go.2

/-- Check 8: the first section ID that stands twice. -/
def duplicate (b : List Byte) : Option Nat :=
  let go := (sections b).foldl (fun (a : List Nat × Option Nat) e =>
    match a.2 with
    | some _ => a
    | none => if a.1.contains e.id then (a.1, some e.id) else (a.1 ++ [e.id], none)) ([], none)
  go.2

/-- Check 11 for a directory entry (R16, R669). -/
def entryBad (b : List Byte) (kind : Nat) (e : Sect) : Bool :=
  let body := (b.drop e.off).take e.size
  let other (id : Nat) : List Byte := sectionOf b id
  if kind = 1 then decide (e.flags ≠ 0) || !baseIds.contains e.id || !sizeOk e.id body || !rangesOk e.id body other
  else if kind = 3 then decide (e.flags ≠ 0) || !fwIds.contains e.id
  else !sizeOk e.id body

/-- Check 11 of an overlay beyond its directory: patch records in shape, and every section in range with the overlay applied. -/
def overlayRange (base b : List Byte) : Option Nat :=
  if (patchesOf (sectionOf b 0x80)).any (fun p => !p.shapeOk) then some 0x80
  else baseIds.find? (fun id => !rangesOk id (effective base (some b) id) (fun j => sectionOf base j))

/-- Check 12's entries and records (R27, R669). -/
def overlayField (b : List Byte) : Option Nat :=
  let e := (sections b).find? (fun e => !((e.id = 0x80 && e.flags = 0) || ((e.id = 7 || e.id = 8) && e.flags = 1)))
  (e.map Sect.id).or (((patchesOf (sectionOf b 0x80)).find? (fun p => !p.permitted)).map PatchRec.target)

/-- The checks of R30 in order on the bytes of a slot or buffer: the first failure as CODE of R44 and section, or none. `bad` says that the
flash read had an uncorrectable error, `room` what the slot holds, `counter` the rollback counter, `base` the base
that an overlay is checked against. A TOPOLOGY of the wrong size has no counts to check: it passes check 10 and fails check 11
(log 85). -/
def verifyImage (keys : List Nat) (b : List Byte) (bad : Bool) (room kind counter : Nat) (base : List Byte) : Option (Nat × Nat) :=
  let len := imgLen b
  let missing := (if kind = 1 then baseIds else if kind = 3 then fwIds else []).find? (fun id => (findSection b id).isNone)
  if bad then some (0x10, 0)
  else if !headerOk b kind then some (1, 0)
  else if decide (room < len) || decide (len < 0x40 + 16 * num b 0x14 2 + 112) then some (2, 0)
  else if !signedBy keys (b.take (len - 112)) ((b.drop (len - 112)).take 112) then some (3, 0)
  else if decide (num b 0x18 4 ≠ 0x9600) || decide (num b 0x16 2 ≠ 0xA2) then some (4, 0)
  else if num b 0x1C 4 < counter then some (5, 0)
  else match boundsBad b with
    | some id => some (8, id)
    | none => match duplicate b with
      | some id => some (7, id)
      | none => match missing with
        | some id => some (6, id)
        | none =>
          if kind = 2 && decide (num b 0xC 4 ≠ num base 8 4) then some (0xB, 0)
          else if kind = 1 && sizeOk 1 (sectionOf b 1) && !topologyOk (sectionOf b 1) then some (9, 1)
          else match (sections b).find? (entryBad b kind) with
            | some e => some (0xA, e.id)
            | none =>
              if kind ≠ 2 then none
              else match overlayRange base b with
                | some id => some (0xA, id)
                | none => match overlayField b with
                  | some id => some (0xC, id)
                  | none => (overLimit base b).map (fun id => (0xD, id))

/-! ### Flash -/

/-- A flash byte; erased flash reads 0xFF (log 4). -/
def flashByte (m : SMap Byte) (a : Nat) : Byte := SMap.get 0xFF m a

/-- Bytes of the flash. -/
def flashBytes (m : SMap Byte) (a : Nat) : Nat → List Byte
  | 0 => []
  | n + 1 => flashByte m a :: flashBytes m (a + 1) n

/-- The slots of the flash (R11): firmware, base, overlay. -/
def fwSlot (i : Nat) : Nat := 0x1000000 * i
def baseSlot (i : Nat) : Nat := 0x2000000 + 0x400000 * i
def ovlSlot (i : Nat) : Nat := 0x2800000 + 0x100000 * i

/-- The image bytes of a slot that matter: as many as its LENGTH says, at most the slot. -/
def slotImage (m : SMap Byte) (a room : Nat) : List Byte := flashBytes m a (min room (max 64 (num (flashBytes m a 64) 0x10 4)))

/-- Verify a flash slot (R30). -/
def State.verifySlot (s : State) (a room kind counter : Nat) (bad : Bool) : Option (Nat × Nat) :=
  verifyImage (s.signers kind) (slotImage s.mgt.flash a room) bad room kind counter (s.con.base.bytes 0 s.con.baseLen)

end Sys2Proof.Machine
end

