-- ==== Sys2Proof/Machine/MainlineRows.lean ====
section
/-! DEFINITION. Meanings of the Mainline rows but those of copies and TCOPY slots: ports, frames and control windows,
messages in transit and received, notices, link errors (spec 12, 15 R549). -/

namespace Sys2Proof.Machine

/-- The lanes of a port that may be in service (R467): 8, 4, or 0 when both halves hold a retired lane. -/
def State.portLanes (s : State) (p : Nat) : Nat :=
  let out (lo : Nat) : Bool := (List.range 4).any (fun i => SMap.get false s.ras.lanesOut (8 * p + lo + i))
  match out 0, out 4 with
  | false, false => 8
  | true, true => 0
  | _, _ => 4

/-- The write-only part of a port's status. -/
def State.setPort (s : State) (p state lanes : Nat) : State :=
  (s.setFld (R.mlnPortStatus p) 3 0 state).setFld (R.mlnPortStatus p) 11 8 lanes

/-- PORT_ROLE_WRITE (R441, R473): only a port that reads DISABLED or DOWN takes a role, and MESH only where its neighbour
lies inside the mesh; else CFG_BUSY. A reserved role is discarded in the same way. -/
def execPortRoleWrite (fn p role : Nat) (s : State) : Answer :=
  .next (s.mmio fn (R.mlnPortCfg p) true fun s =>
    let st := s.portState p
    if !(st = 0 || st = 3) || decide (1 < role) || (role = 1 && !s.facesMesh p) then s.setFlag R.mlnStatus 11
    else (s.wr (R.mlnPortCfg p) (BitVec.ofNat 64 role)).setPort p role 0)

/-- A port comes UP beside the neighbour it expects (R442, R452, R471): what it makes reachable hears LINK_UP, and the epoch in force (log 43). -/
def State.cameUp (s : State) (p : Nat) (q : Peer) : State :=
  let want := stepTo s.con.node (p / 2)
  let same := decide (q.epoch.toNat = s.fld R.mlnEpoch 31 0)
  let s := ((s.setPort p 2 (s.portLanes p)).clrFlag (R.mlnPortStatus p) 4).putFlag (R.mlnPortStatus p) 5 (!same)
  let s := s.setMln { s.mln with
    epochs := SMap.put 0 s.mln.epochs want q.epoch.toNat,
    replays := SMap.put 0 s.mln.replays p 0,
    retraining := s.mln.retraining.filter (fun x => !decide (x = p)),
    links := s.mln.links.filter (fun l => !decide (l = (s.con.node, p))) }
  let s := if same then s.noticeAll 2 s.con.node p 0 else s
  ((s.noticeAll 6 s.con.node 0 (s.fld R.mlnEpoch 31 0)).markFound).reviveFlows

/-- What a neighbour's report leaves (R442, R467, R471): `none` for a training that failed. -/
def State.trained (s : State) (p : Nat) (peer : Option Peer) : State :=
  match peer with
  | none => s.setPort p 3 0
  | some q =>
    let want := stepTo s.con.node (p / 2)
    let s := s.setFld (R.mlnPortStatus p) 23 16 q.node.toNat
    if q.node.toNat ≠ want || decide (q.port.val ≠ (p + 4) % 8) then
      ((s.setPort p 3 0).setFlag (R.mlnPortStatus p) 4).setFlag R.mlnStatus 12
    else if s.portLanes p = 0 then (s.setPort p 3 0).clrFlag (R.mlnPortStatus p) 4
    else s.cameUp p q

/-- Messages that waited for a port take the other one of their direction, or are discarded (R444, R470). -/
def State.reroute (s : State) (p : Nat) : State :=
  let gone := s.mln.leaving.filter (fun l => l.port = p)
  let s := s.setMln { s.mln with leaving := s.mln.leaving.filter (fun l => !decide (l.port = p)) }
  gone.foldl (fun s l =>
    match s.outPort l.msg with
    | some q => s.setMln { s.mln with leaving := s.mln.leaving ++ [{ l with port := q }] }
    | none => s.discard l) s

/-- The link credits that a port's transmitter has taken are written off, and what it owes its neighbour is forgotten (R472). -/
def State.writeOff (s : State) (p : Nat) : State :=
  let n := ((s.mln.taken.filter (fun e => e.1 % 8 = p)).map Prod.snd).sum
  ((s.led 2 3 n).unhold 2 n).setMln { s.mln with
    taken := s.mln.taken.filter (fun e => !decide (e.1 % 8 = p)), owed := s.mln.owed.filter (fun e => !decide (e.1 % 8 = p)) }

/-- A port goes DOWN (R457, R468): counted, its flows UNSERVED, its credits written off, its traffic moved, LINK_DOWN sent, and the
destinations whose routes cross a direction without a port UP are lost. -/
def State.portDown (s : State) (p : Nat) : State :=
  let up := s.portUp p
  let s := s.setPort p 3 0
  let s := if up then s.count (R.mlnPortDownCount p) 32 1 else s
  let s := s.setMln { s.mln with
    retraining := s.mln.retraining.filter (fun x => !decide (x = p)),
    lostSlots := s.mln.lostSlots + (if up then 4096 - min 4096 s.mln.slot else 0),
    links := if s.mln.links.contains (s.con.node, p) then s.mln.links else s.mln.links ++ [(s.con.node, p)] }
  ((((s.declareFlows true).writeOff p).reroute p).noticeAll 1 s.con.node p 0).markLost 1

/-- PORT_DOWN (R468): no valid control window for 4 µs, or a retrain that failed. -/
def execPortDown (p : Nat) (s : State) : Answer :=
  .next (if s.portUsable p then s.portDown p else s)

/-- A port leaves UP to retrain; its traffic waits (R466, R467). -/
def State.retrain (s : State) (p : Nat) : State :=
  (s.setPort p 1 0).setMln { s.mln with retraining := if s.mln.retraining.contains p then s.mln.retraining else s.mln.retraining ++ [p] }

/-- PORT_TRAINING_DONE (R442, R468): a port in training comes UP or is DOWN; one whose retrain fails goes DOWN. -/
def execPortTrainingDone (p : Nat) (peer : Option Peer) (s : State) : Answer :=
  .next (if s.portState p ≠ 1 then s
    else if s.portUsable p && !(s.trained p peer).portUp p then (s.portDown p).trained p peer
    else s.trained p peer)

/-- PORT_RETRAIN_ATTEMPT (R471): a DOWN port tries again; when it comes UP it sends LINK_UP. -/
def execPortRetrainAttempt (p : Nat) (peer : Option Peer) (s : State) : Answer :=
  .next (if s.portState p = 3 && s.fld (R.mlnPortCfg p) 1 0 = 1 then s.trained p peer else s)

/-- Adopt the receive windows (R473, R477). -/
def State.adoptWindows (s : State) : State :=
  (List.range 64).foldl (fun s w => (s.adopt (R.mlnRxWinBase w)).adopt (R.mlnRxWinCfg w)) s

/-- A flow at a frame boundary (R457, R471): a LATE one, and one whose path is whole again, is SERVED. -/
def State.flowNextFrame (s : State) (f : Flow) : Flow :=
  let back := s.flowReason f = 0 && (f.state = 2 || (f.state = 3 && f.reason = 3))
  { f with declared := false, state := if back then 1 else f.state, reason := if back then 0 else f.reason }

/-- The SLOT ledger settles for a frame (R472): the slots that the ports UP had, those that passed, and those lost. -/
def State.settleSlots (s : State) : State :=
  let ports := ((List.range 8).filter s.portUp).length
  let lost := min s.mln.lostSlots (4096 * ports)
  ((s.led 4 0 (4096 * ports)).led 4 1 (4096 * ports - lost)).led 4 3 lost

/-- FRAME_BOUNDARY (R446, R447, R457, R471 to R473): the frame number rises, LATE flows and flows whose path is whole
again are SERVED, window changes take effect, and the SLOT ledger settles for the frame. -/
def execFrameBoundary (s : State) : Answer :=
  .next (
    let s := s.settleSlots.count R.mlnFrame 48 1
    let s := if s.con.node = 0 then (s.setFlag R.mlnStatus 0).setFlag R.mlnStatus 1 else s
    let s := s.adoptWindows
    let s := s.setMln { s.mln with
      slot := 0, frameAt := s.now, used := 0, lostSlots := 0, flows := s.mln.flows.map s.flowNextFrame }
    s.reviveFlows)

/-- Rank of a direction when hop distances tie (R447): west, south, east, north. -/
def tieRank (p : Nat) : Nat := 3 - p / 2

/-- The reference neighbour among what was heard on ports UP (R447). -/
def State.reference (s : State) (l : List Heard) : Option Heard :=
  l.foldl (fun (a : Option Heard) h =>
    if !s.portUp h.port || decide (31 ≤ h.hops) then a
    else match a with
      | none => some h
      | some b =>
        if h.hops < b.hops || (h.hops = b.hops && (decide (tieRank h.port < tieRank b.port) ||
          (tieRank h.port = tieRank b.port && decide (h.port < b.port)))) then some h else some b) none

/-- A window of a port as it fills (R446): what leaves, what stays, the bytes left, the link credits taken, and who was served last, plus 1. -/
structure Window where
  out : List Leaving
  rest : List Leaving
  room : Nat
  taken : SMap Nat
  last : Nat
  deriving DecidableEq, Repr

/-- A message goes into a port's window if it fits, and the neighbour's buffer has room for it (R445, R446, R451). -/
def Window.take (w : Window) (p : Nat) (l : Leaving) : Option Window :=
  let k := 8 * l.msg.lane + p
  let u := l.msg.size / 16
  if l.msg.size ≤ w.room && decide (SMap.get 0 w.taken k + u ≤ laneUnits l.msg.lane) then
    some { out := w.out ++ [l], rest := w.rest.erase l, room := w.room - l.msg.size, taken := SMap.upd 0 w.taken k (· + u), last := l.from_ + 1 }
  else none

/-- Fill a window with what `pick` chooses, as far as it fits. -/
def Window.fill (pick : Window → Option Leaving) (p : Nat) : Nat → Window → Window
  | 0, w => w
  | fuel + 1, w =>
    match (pick w).bind (fun l => w.take p l) with
    | some x => Window.fill pick p fuel x
    | none => w

/-- The oldest message of a kind. -/
def pickFirst (sel : Leaving → Bool) (w : Window) : Option Leaving := w.rest.find? sel

/-- The next message of a kind in rotation of the ingress ports and the package's own controllers (R458), which act as one, after the ports. -/
def pickTurn (sel : Leaving → Bool) (w : Window) : Option Leaving :=
  w.rest.foldl (fun (a : Option Leaving) l =>
    if !sel l then a
    else match a with
      | none => some l
      | some b => if (l.from_ + 9 - w.last) % 9 < (b.from_ + 9 - w.last) % 9 then some l else some b) none

/-- A message of a flow that is UNSERVED here goes best effort (R457). -/
def State.asBest (s : State) (m : Msg) : Msg :=
  if m.cls = 1 && (match s.flow? m.flow with | some f => f.state = 3 | none => true) then { m with cls := 2, flow := 0xFFFF } else m

/-- A message goes out by a port. What its LATE bit says is not stated (R460): one of a LATE flow carries any (log 103). -/
def State.sendMsg (s : State) (p : Nat) (m : Msg) : State :=
  if m.cls = 1 && (match s.flow? m.flow with | some f => f.state = 2 | none => false) then
    s.withFree fun r s => s.emit (.mln p { m with late := r.testBit 0 })
  else s.emit (.mln p m)

/-- What leaves by a port in the slot that ends (R445, R446, R456 to R459): the owner's messages, then RSP and REQ in
what is left, none in a maintenance slot; then SIG in the control window. A port at half width moves half as much. -/
def State.sendSlot (s : State) (p : Nat) : State :=
  let wide := s.fld (R.mlnPortStatus p) 11 8 = 8
  let owner := SMap.get 0xFFFF s.mln.slotMap (4096 * p + s.mln.slot)
  let room := if owner = 0xFFFE then 0 else if wide then 11200 else 5600
  let all := s.mln.leaving.map (fun l => if l.port = p then { l with msg := s.asBest l.msg } else l)
  let mine (cls : Nat) (l : Leaving) : Bool := l.port = p && l.msg.cls = cls
  let n := all.length
  let turn (i : Nat) : Nat := SMap.get 0 s.mln.turns (2 * p + i)
  let a := Window.fill (pickFirst fun l => mine 1 l && l.msg.flow = owner) p n ⟨[], all, room, s.mln.taken, 0⟩
  let b := Window.fill (pickTurn (mine 3)) p n { a with last := turn 0 }
  let c := Window.fill (pickTurn (mine 2)) p n { b with last := turn 1 }
  let d := Window.fill (pickFirst (mine 0)) p n { c with room := if wide then 1344 else 544 }
  let s := s.setMln { s.mln with
    leaving := d.rest, taken := d.taken, turns := SMap.put 0 (SMap.put 0 s.mln.turns (2 * p) b.last) (2 * p + 1) c.last }
  let s := if d.rest.any (mine 0) then (s.count R.mlnSigBacklog 32 1).hit 213 0x5023 1 else s
  d.out.foldl (fun s l =>
    let u := l.msg.size / 16
    let s := if l.credit then (s.led 1 1 u).unhold 1 u else s
    let s := if l.transit then ((s.led 3 1 u).unhold 3 u).owe l.from_ l.lane u else s
    (((s.led 2 0 u).led 2 2 u).hit 213 (0x5000 + p) u).sendMsg p l.msg) s

/-- A port returns what it owes its neighbour (R446). -/
def State.payCredits (s : State) (p : Nat) : State :=
  let owed := s.mln.owed.filter (fun e => e.1 % 8 = p)
  owed.foldl (fun s e => s.emit (.mlnCredit p (e.1 / 8) e.2))
    (s.setMln { s.mln with owed := s.mln.owed.filter (fun e => !decide (e.1 % 8 = p)) })

/-- A neighbour returns link credits of a buffer (R445, R472). -/
def State.creditBack (s : State) (p : Nat) (e : Nat × Nat) : State :=
  let k := 8 * e.1 + p
  let n := min e.2 (SMap.get 0 s.mln.taken k)
  ((s.led 2 1 n).unhold 2 n).setMln { s.mln with taken := SMap.upd 0 s.mln.taken k (· - n) }

/-- CONTROL_WINDOW (R445 to R447, R458, R459): messages leave by each port UP, link credits go and come back, and the package
aligns to its reference neighbour, or runs freely and serves no flow. -/
def execControlWindow (heard : List Heard) (s : State) : Answer :=
  .next (
    let s := ((List.range 8).filter s.portUp).foldl (fun s p => (s.sendSlot p).payCredits p) s
    let s := heard.foldl (fun s h => h.credits.foldl (fun s e => s.creditBack h.port e) s) s
    let s := s.setMln { s.mln with slot := min 4095 (s.mln.slot + 1) }
    if s.con.node = 0 then (s.wr R.mlnRootDist 0xF00).reviveFlows
    else match s.reference heard with
      | some h =>
        let s := (s.wr R.mlnFrame (h.frame.setWidth 64)).wr R.mlnRootDist (BitVec.ofNat 64 (h.port.val * 256 + h.hops + 1))
        (s.setFlag R.mlnStatus 0).reviveFlows
      | none => ((s.wr R.mlnRootDist 0xF00).clrFlag R.mlnStatus 0).declareFlows true)

/-- MESSAGE_FORWARD (R444, R457, R470): a message for another package goes on by its flow's port or by its direction; one
of a flow not SERVED here goes on as REQ; one whose next hop is DOWN is discarded and counted. -/
def execMessageForward (m : Msg) (s : State) : Answer :=
  .next (
    if m.dst = s.con.node then s
    else if m.malformed then (s.count R.mlnRxMalformed 32 1).freed m
    else
      let held := match s.flow? m.flow with | some f => f.state = 1 | none => false
      s.passOn m (if m.cls = 1 && !held then { m with cls := 2, flow := 0xFFFF } else m))

/-- WRITE_RECEIVE (R462, R463). -/
def execWriteReceive (m : Msg) (s : State) : Answer := .next (s.receive 1 m)

/-- READ_RECEIVE (R462, R463). -/
def execReadReceive (m : Msg) (s : State) : Answer := .next (s.receive 2 m)

/-- REMOTE_SIGNAL_RECEIVE (R432, R463). -/
def execRemoteSignalReceive (m : Msg) (s : State) : Answer := .next (s.receive 4 m)

/-- ACK (R464): every message of the pair up to SEQ is delivered. -/
def execMlnAck (m : Msg) (s : State) : Answer :=
  .next (
    if m.typ ≠ 5 || m.dst ≠ s.con.node then s
    else if m.malformed then (s.count R.mlnRxMalformed 32 1).freed m
    else
      let s := s.passed m
      let done (u : Unacked) : Bool := u.dest = m.src && decide ((m.seq + 2 ^ 16 - u.seq) % 2 ^ 16 < 2 ^ 15)
      let n := (s.mln.unacked.filter done).length
      let s := s.setMln { s.mln with unacked := s.mln.unacked.filter (fun u => !done u) }
      (s.led 0 1 n).unhold 0 n)

/-- ACK_SEND (R464): a cumulative ACK to a source that has performed messages here. -/
def execAckSend (src : Nat) (s : State) : Answer :=
  .next (if s.dead src || src = s.con.node || SMap.get 0 s.mln.performed src = 0 then s else s.ackTo src)

/-- A field of a NOTICE body. -/
def Msg.part (m : Msg) (off len : Nat) : Nat := leNat ((m.data.drop off).take len)

/-- A NOTICE of kind `k` arrives (R461, R468): malformed ones are counted; each is applied here, and forwarded once when
it is for another package. -/
def State.onNotice (s : State) (k : Nat) (m : Msg) (act : State → State) : State :=
  if m.typ ≠ 6 || m.part 0 1 ≠ k && !m.malformed then s
  else if m.malformed then (s.count R.mlnRxMalformed 32 1).freed m
  else if m.dst = s.con.node then act (s.passed m)
  else (act s).passOn m m

/-- What each NOTICE makes known (R461): a link that is down or up again, a package that is down, an epoch installed, a pair reset. -/
def State.hearLinkDown (m : Msg) (s : State) : State :=
  let l := (m.part 2 1, m.part 3 1)
  let s := s.setMln { s.mln with links := if s.mln.links.contains l then s.mln.links else s.mln.links ++ [l] }
  (s.declareFlows true).markLost 1
def State.hearLinkUp (m : Msg) (s : State) : State :=
  let n := m.part 2 1
  let p := m.part 3 1
  let far := stepTo n (p / 2 % 4)
  (s.setMln { s.mln with
    links := s.mln.links.filter (fun l => !(decide (l = (n, p)) || decide (l = (far, (p + 4) % 8)))),
    peers := s.mln.peers.filter (fun x => !(decide (x = n) || decide (x = far))) }).markFound
def State.hearPeerDown (m : Msg) (s : State) : State :=
  let n := m.part 2 1
  let s := s.setMln { s.mln with peers := if s.mln.peers.contains n then s.mln.peers else s.mln.peers ++ [n] }
  (s.markLost 2).declareFlows true
def State.hearFlowDown (m : Msg) (s : State) : State :=
  match s.flow? (m.part 4 2) with
  | some f => s.declareFlow f.num 3 (if s.flowReason f = 0 then 3 else s.flowReason f) false
  | none => s
def State.hearEpoch (m : Msg) (s : State) : State :=
  let s := s.setMln { s.mln with epochs := SMap.put 0 s.mln.epochs m.src (m.part 6 4) }
  (s.matchEpochs.declareFlows true).reviveFlows
def State.hearPairReset (m : Msg) (s : State) : State :=
  if m.dst ≠ s.con.node then s
  else
    let asked := s.mln.needReset.contains m.src
    let s := s.setMln { s.mln with
      nextSeq := SMap.put 0 s.mln.nextSeq m.src 0, expect := SMap.put 0 s.mln.expect m.src 0,
      performed := SMap.put 0 s.mln.performed m.src 0, refused := SMap.put 0 s.mln.refused m.src 0,
      needReset := s.mln.needReset.filter (fun x => !decide (x = m.src)) }
    if asked then s else s.notice 7 m.src s.con.node 0 0 0

/-- LINK_DOWN (R468, R469). -/
def execLinkDown (m : Msg) (s : State) : Answer := .next (s.onNotice 1 m (State.hearLinkDown m))

/-- LINK_UP (R471). -/
def execLinkUp (m : Msg) (s : State) : Answer := .next (s.onNotice 2 m (State.hearLinkUp m))

/-- PEER_DOWN (R469). -/
def execPeerDown (m : Msg) (s : State) : Answer := .next (s.onNotice 3 m (State.hearPeerDown m))

/-- FLOW_LATE (R457). -/
def execFlowLate (m : Msg) (s : State) : Answer := .next (s.onNotice 4 m fun s => s.declareFlow (m.part 4 2) 2 4 false)

/-- FLOW_DOWN (R457): the notice gives no reason; DOWN stands where this package sees none of its own. -/
def execFlowDown (m : Msg) (s : State) : Answer := .next (s.onNotice 5 m (State.hearFlowDown m))

/-- NOTICE EPOCH (R452): the package that sent it has installed an epoch. -/
def execMlnEpoch (m : Msg) (s : State) : Answer := .next (s.onNotice 6 m (State.hearEpoch m))

/-- PAIR_RESET (R471): the pair restarts at SEQ 0; an end that had not asked for it answers with its own. -/
def execPairReset (m : Msg) (s : State) : Answer := .next (s.onNotice 7 m (State.hearPairReset m))

/-- BLOCK_CRC_ERROR (R466, R467, R563): the block is discarded, counted against the port and its lane, and a replay is
asked for. -/
def execBlockCrcError (p lane : Nat) (s : State) : Answer :=
  .next (
    let m := 8 * p + lane
    let s := s.count (R.mlnPortCrcErr p) 32 1
    ((s.detect 8 0 0 .corrected).partEvent 0 m).emit (.mlnReplay p))

/-- REPLAY_REQUEST (R457, R466): counted; the flows whose messages are delayed, those that wait on the port and those named
as replayed, are LATE; the eighth failure in succession of one block retrains the port. -/
def execReplayRequest (p : Nat) (again : Bool) (delayed : List Nat) (s : State) : Answer :=
  .next (
    let n := if again then SMap.get 0 s.mln.replays p + 1 else 1
    let s := ((s.count (R.mlnPortRetry p) 32 1).hit 213 (0x5010 + p) 1).setMln { s.mln with replays := SMap.put 0 s.mln.replays p n }
    let late := delayed ++ (s.mln.leaving.filter (fun l => l.port = p && l.msg.cls = 1)).map (fun l => l.msg.flow)
    let s := late.foldl (fun s f => s.declareFlow f 2 4 true) s
    if 8 ≤ n && s.portUp p then
      (s.setMln { s.mln with replays := SMap.put 0 s.mln.replays p 0 }).retrain p
    else s)

/-- LINK_MAINT_OVERRUN (R549, R552, R620): the port takes a slot that a flow owns; the flow is LATE. -/
def execLinkMaintOverrun (p slot : Nat) (s : State) : Answer :=
  .next (
    let owner := SMap.get 0xFFFF s.mln.slotMap (4096 * p + slot)
    if s.portState p ≠ 2 || decide (0xFFFE ≤ owner) then s
    else
      let s := (s.setFlag R.pwrStatus 4).trace ⟨0x0E, 7, p, 0, 0, p, 0⟩
      s.declareFlow owner 2 4 true)

/-- Put a timetable in force (R38, R452): its flows are SERVED where nothing stands against it. -/
def State.installTimetable (s : State) (t : Timetable) : State :=
  let s := (s.wr R.mlnEpoch (BitVec.ofNat 64 t.epoch)).matchEpochs
  let s := s.setMln { s.mln with
    flows := t.flows, slotMap := t.slotMap, windows := t.windows, pending := none, impaired := [] }
  let s := s.setMln { s.mln with
    flows := s.mln.flows.map (fun f =>
      let r := s.flowReason f
      { f with state := if r = 0 then 1 else 3, reason := r, late := 0, declared := false }),
    impaired := (s.mln.flows.filter (fun f => s.flowReason f = 2)).map Flow.num }
  (s.clrFlag R.mlnStatus 2).noticeAll 6 s.con.node 0 t.epoch

/-- TIMETABLE_INSTALL (R452): at a frame boundary from ACTIVATE_FRAME on. -/
def execTimetableInstall (s : State) : Answer :=
  .next (match s.mln.pending with
    | none => s
    | some t =>
      if s.mln.slot = 0 && decide (t.activate ≤ s.fld R.mlnFrame 47 0) then s.installTimetable t else s)

end Sys2Proof.Machine
end

