-- ==== Sys2Proof/Machine/MgtOps.lean ====
section
/-! DEFINITION. The management controller's alerts and its event log (spec 18 R598 to R600). -/

namespace Sys2Proof.Machine

/-- The media whose bus owner has enabled events, in order; PCIe only while the link is up (R595, R599). -/
def State.eventMedia (s : State) : List Medium :=
  (if SMap.get false s.mgt.events 0 then [.smbus] else []) ++
    (if SMap.get false s.mgt.events 1 && s.flag R.pciStatus 10 then [.pcie] else [])

/-- A management alert (R599): its cause bit, and a message on every medium with events enabled unless the bit was set. -/
def State.alert (s : State) (cause : Nat) : State :=
  if s.flag R.mgtAlert cause then s
  else s.eventMedia.foldl (fun s m => s.emit (.platformEvent m cause)) (s.setFlag R.mgtAlert cause)

/-- Append a record to the ring of 65,536 (R600). -/
def MgtState.append (m : MgtState) (r : LogRec) : MgtState := { m with log := (r :: m.log).take 65536 }

/-- An event enters the log (R600): while an update writes to the flash it waits among at most 64, and a further one is lost. -/
def State.logEvent (s : State) (code unit data : Nat) : State :=
  let r : LogRec := ⟨s.mgt.uptimeNs / 1000000000, code, unit, data % 2 ^ 32⟩
  let writing := match s.mgt.update with | some u => u.writing | none => false
  if !writing then { s with mgt := s.mgt.append r }
  else if s.mgt.waiting.length < 64 then { s with mgt := { s.mgt with waiting := s.mgt.waiting ++ [r] } }
  else s.count R.mgtLogLost 32 1

/-- The flash is free again: the events that waited are written in order (R600). -/
def State.logFlush (s : State) : State :=
  { s with mgt := s.mgt.waiting.foldl MgtState.append { s.mgt with waiting := [] } }

end Sys2Proof.Machine
end

