-- ==== Sys2Proof/Machine/Matrix.lean ====
section
/-! DEFINITION. Meanings of the matrix instructions and of what the array, drain and matrix-vector path do
(spec 04 R181 to R186, 05 R188 to R215, 06 R219 to R235). -/

namespace Sys2Proof.Machine

/-- The two words of a format-X instruction; the second may have to be fetched (R127, R129). -/
def State.issueX (s : State) (c slot major : Nat) (act : Group → Word → Word → State) : State :=
  s.issue c slot (isMajor major) fun g w =>
    match (s.core c).word (g.pc + 8) with
    | none => s.setGroup c slot { g with stat := .waiting, wait := 9, hold := true, fetching := some (g.pc + 8) }
    | some w2 => if Machine.fld w2 63 57 ≠ 0x7F then s.illegal c slot g w else act g w w2

/-- Take a fault not yet reported to a group on a slot, or on the path as slot 8 (R186): the group faults with its code. -/
def State.reportMx (s : State) (c slot : Nat) (m : Half) (named : Nat → Bool) : Option State :=
  let k := s.core c
  let mine (f : MxFault) : Bool := decide (f.group = slot) && named f.slot
  match k.mx.faults.find? mine with
  | none => none
  | some f =>
    let s := s.setCore c { k with mx := { k.mx with faults := k.mx.faults.filter (fun x => !mine x) } }
    some (s.faultGroup c slot f.code m 0)

/-- An operand descriptor read from scratchpad (R191). -/
def Core.descr (k : Core) (a base : Nat) : Operand :=
  let n (off len : Nat) : Nat := k.scratch.nat (a + off) len
  { addr := n 0 8, space := n 8 1, extent := n 0xA 2, stride := n 0xC 4, scale := n 0x10 4, panel := n 0x14 4,
    meta_ := n 0x18 8, base := (if n 8 1 = 0 then base else 0), bytes := [], bad := [] }

/-- Is a descriptor malformed (R193, R223)? `top` the largest EXTENT, `w` that it may have panels, `sparse` its form. -/
def descrBad (k : Core) (a : Nat) (o : Operand) (top sparse fmt : Nat) (w : Bool) : Bool :=
  let lim := if o.space = 0 then 2 ^ 32 else 2 ^ 48
  decide (k.scratch.nat (a + 9) 1 ≠ 0) || decide (1 < o.space) || decide (o.extent = 0) || decide (top < o.extent) ||
    decide (o.addr % 128 ≠ 0) || decide (lim ≤ o.addr) || decide (o.stride % 16 ≠ 0) || decide (o.panel % 128 ≠ 0) ||
    (!w && decide (o.panel ≠ 0)) || decide (o.meta_ % 128 ≠ 0) || decide (lim ≤ o.meta_) ||
    (decide (sparse = 0) && decide (o.meta_ ≠ 0)) || (decide (sparse = 2) && decide (o.stride < 16 * elemBits fmt))

/-- Read ranges of an operand at issue (R194, R208, R335): scratchpad ranges are there already; device memory is read
through L2 with the core's own stores on top. What cannot be read is remembered with its code. -/
def State.readOperand (s : State) (c ctx limit : Nat) (o : Operand) (l : List (Nat × Nat)) : Operand × State :=
  let k := s.core c
  if o.space = 0 then
    let out := (l.filter (fun e => decide (limit < e.1 + e.2))).map (fun e => (e.1, e.2, 0x0A))
    let pois := (l.filter (fun e => k.scratchBad (o.base + e.1) e.2)).map (fun e => (e.1, e.2, 0x06))
    ({ o with bytes := k.scratch, bad := o.bad ++ out ++ pois }, s)
  else
    (l.flatMap (fun e => linePieces e.1 e.2)).foldl (fun (a : Operand × State) p =>
      let o := a.1
      let fail (code : Nat) (t : State) : Operand × State := ({ o with bad := o.bad ++ [(p.1, p.2.1, code)] }, t)
      if a.2.coreCut c then fail 0x06 a.2
      else match a.2.xlate (.core c) 0 ctx p.1 needR with
      | (.fault cause _, t) => fail (causeCode cause) t
      | (.ok pa region, t) =>
        match t.placeOf pa with
        | .remote => fail 0x01 t
        | .host => fail 0x0B t
        | .localMem =>
          if 2 ≤ region then fail 0x0B t
          else if t.linkCut c (paOffset pa) then fail 0x06 t
          else
            let (b, bad, t) := t.lineRead (paOffset pa) p.2.1 0 (t.keySlotOf ctx p.1) true false
            if bad then fail 0x06 t
            else ({ o with bytes := o.bytes.store p.1 (forwarded k.stores (paOffset pa) b) }, t)) (o, s)

/-- Read both operands of a product as they stand at issue: B, then A's metadata, then A's values. -/
def State.readProduct (s : State) (c ctx limit : Nat) (p : Product) : Product × State :=
  let us := List.range p.units
  let (b, s) := s.readOperand c ctx limit p.b (us.flatMap p.bReads)
  let p := { p with b := b }
  let (a, s) := s.readOperand c ctx limit p.a (us.flatMap p.metaReads)
  let p := { p with a := a }
  let (a, s) := s.readOperand c ctx limit p.a (us.flatMap p.valueReads)
  ({ p with a := a }, s)

/-- The first code of R145 in a list. -/
def firstCode (l : List Nat) : Option Nat :=
  match l with
  | [] => none
  | a :: t => some (t.foldl (fun x y => if faultRank y < faultRank x then y else x) a)

/-- The fault a product meets before its first K-step, if any, and the fault it meets at all (R193, R209). -/
def Product.early (p : Product) : Option Nat :=
  let us := List.range p.units
  let n := (findPos (fun u => p.streams u) us).getD p.units
  firstCode ((us.take (n + 1)).flatMap p.unitFaults)
def Product.any (p : Product) : Option Nat := firstCode ((List.range p.units).flatMap p.unitFaults)

/-- The first unit of a product whose reading fails. -/
def Product.badUnit (p : Product) : Nat :=
  (findPos (fun u => !(p.unitFaults u).isEmpty) (List.range p.units)).getD p.units

/-- Decode checks of a first word of format X (R131, R140). -/
def xOk (w : Word) (regs : List Nat) : Bool := decide (fld w 20 0 = 0) && regs.all (fun r => decide (r < 64))

/-- Does a code name a format (R154)? -/
def fmtKnown (n : Nat) : Bool := decide (n ≤ 0x0C)

/-- Check the address of a descriptor (R193): the fault, if any. -/
def descrAddr (a limit : Nat) : Option Nat := if a % 32 ≠ 0 then some 0x02 else if limit < a + 32 then some 0x0A else none

/-- The tile that an MX.ISSUE names (R181, R191 to R195): the fields of its words, its registers and its descriptors as they stand. -/
def Core.newTile (k : Core) (g : Group) (slot : Nat) (w w2 : Word) : Tile :=
  let f := iFields w
  let pa := g.getU f.srcA
  let pb := g.getU f.srcB
  let base := (k.alloc g).1
  let fa := fld w2 52 48
  let fb := fld w2 47 43
  let sparse := fld w2 42 41
  let a := k.descr (base + pa) base
  let b := k.descr (base + pb) base
  let bad := descrBad k (base + pa) a 128 sparse fa false || descrBad k (base + pb) b 48 0 fb false
  let pois := k.scratchBad (base + pa) 32 || k.scratchBad (base + pb) 32
  { slot := fld w2 56 54, acc := bit w2 53, fmtA := fa, fmtB := fb, sparse := sparse, zskip := bit w2 40,
    scaled := bit w2 39, k := g.getU f.srcC, a := a, b := b, group := slot, block := g.block,
    order := k.mx.nextOrder, ran := 0,
    fault := (if bad then some 0x0B else if pois then some 0x06 else none) }

/-- MX.ISSUE (R181, R182, R191 to R195): the tile joins the queue with its descriptors and operands as they stand. -/
def execMxIssue (c slot : Nat) (s : State) : Answer :=
  .next (s.issueX c slot 0x40 fun g w w2 =>
    let f := iFields w
    let k := s.core c
    let m := execMask g f
    let slotN := fld w2 56 54
    let fa := fld w2 52 48
    let fb := fld w2 47 43
    let sparse := fld w2 42 41
    let kk := g.getU f.srcC
    let pa := g.getU f.srcA
    let pb := g.getU f.srcB
    let limit := (k.alloc g).2
    let regs := [256 + f.srcA, 256 + f.srcB, 256 + f.srcC]
    let why := k.why slot regs regs
    if !(xOk w [f.srcA, f.srcB, f.srcC] && decide (f.dest = 0) && decide (fld w2 38 0 = 0) && decide (sparse ≠ 3) &&
        fmtKnown fa && fmtKnown fb) then s.illegal c slot g w
    else if why ≠ 0 then s.holdAt c slot g why
    else if m = 0 then s.setGroup c slot (g.next 16)
    else match s.reportMx c slot m (fun n => n = slotN) with
      | some t => t
      | none =>
        let shape := rateClass fa fb = none || kk % 16 ≠ 0 || kk = 0 || 2 ^ 20 < kk || (sparse = 2 && kk % 64 ≠ 0)
        match firstCode ((descrAddr pa limit).toList ++ (descrAddr pb limit).toList ++ (if shape then [0x0B] else [])) with
        | some code => s.faultGroup c slot code m pa
        | none =>
          if 4 ≤ k.mx.queue.length then s.holdAt c slot g 7
          else
            let t := k.newTile g slot w w2
            let (t, s) := if t.fault.isSome then (t, s)
              else
                let (p, s) := s.readProduct c (s.viewOf (k.groupLaunch g) (k.groupCtx g)) limit t.product
                ({ t with a := p.a, b := p.b }, s)
            let k := s.core c
            s.setCore c ({ k with mx := { k.mx with queue := k.mx.queue ++ [t], nextOrder := k.mx.nextOrder + 1 } }.setGroup slot
              (some (g.next 16))))

/-- Registers that a band fills (R184). -/
def bandRegs (ofmt : Nat) : Nat := if ofmt = 2 then 24 else if ofmt ≤ 4 then 12 else 6

/-- Output formats of drains and the path (R183). -/
def outFmt (n : Nat) : Bool := [2, 3, 4, 5, 6, 8, 9].contains n

/-- The drain that an MX.DRAIN names (R183, R184, R203). -/
def Core.newDrain (k : Core) (g : Group) (slot : Nat) (w w2 : Word) : Drain :=
  let f := iFields w
  let n := fld w2 56 54
  { slot := n, target := (if bit w2 53 then 1 else 0), ofmt := fld w2 52 48, rnd := fld w2 47 46, sat := bit w2 45,
    band := fld w2 44 42, keep := bit w2 41, addr := g.getU f.srcA, base := (k.alloc g).1, dest := f.dest,
    mask := execMask g f, home := slot, group := slot, block := g.block,
    order := k.mx.nextOrder, reading := none, fault := none }

/-- MX.DRAIN (R140, R183, R184, R203): checked, then queued; the oldest drain is read by DRAIN_START. With TARGET 1 the group waits at it with
MATRIX until it is complete. -/
def execMxDrain (c slot : Nat) (s : State) : Answer :=
  .next (s.issueX c slot 0x41 fun g w w2 =>
    let f := iFields w
    let k := s.core c
    let m := execMask g f
    let slotN := fld w2 56 54
    let toRegs := bit w2 53
    let ofmt := fld w2 52 48
    let rnd := fld w2 47 46
    let a := g.getU f.srcA
    let limit := (k.alloc g).2
    let srcs := if toRegs then [] else [256 + f.srcA]
    let why := k.why slot srcs (srcs ++ (if toRegs then (List.range (bandRegs ofmt)).map (f.dest + ·) else []))
    let ok := xOk w ([f.srcB, f.srcC] ++ (if toRegs then [] else [f.dest])) && decide (fld w2 40 0 = 0) && outFmt ofmt && decide (rnd ≠ 3) &&
      !(decide (ofmt = 9) && decide (rnd = 2)) &&
      (if toRegs then decide (ofmt ≠ 8) && decide (f.srcA = 0) && decide (f.dest + bandRegs ofmt ≤ g.decl)
        else decide (f.srcA < 64))
    if !ok then s.illegal c slot g w
    else if why ≠ 0 then s.holdAt c slot g why
    else if m = 0 then s.setGroup c slot (g.next 16)
    else match s.reportMx c slot m (fun n => n = slotN) with
      | some t => t
      | none =>
        if !toRegs && a % 128 ≠ 0 then s.faultGroup c slot 0x02 m a
        else if !toRegs && limit < a + 768 * elemBits ofmt then s.faultGroup c slot 0x0A m a
        else if 8 ≤ k.mx.drains.length then s.holdAt c slot g 7
        else
          let d := k.newDrain g slot w w2
          let g' := if toRegs then { g with stat := .waiting, wait := 7, hold := false } else g.next 16
          s.setCore c ({ k with mx := { k.mx with drains := k.mx.drains ++ [d], nextOrder := k.mx.nextOrder + 1 } }.setGroup slot
            (some g')))

/-- The operation that an MV.ISSUE names (R185, R193, R212, R213). -/
def Core.newMv (k : Core) (g : Group) (slot : Nat) (w w2 : Word) : MvOp :=
  let f := iFields w
  let n := fld w2 56 55 + 1
  let fw := fld w2 53 49
  let fx := fld w2 48 44
  let sparse := fld w2 43 42
  let kk := g.getU f.srcC
  let pw := g.getU f.srcA
  let px := g.getU f.srcB
  let (base, limit) := k.alloc g
  let wo := k.descr (base + pw) base
  let xo := k.descr (base + px) base
  let shape := kk % 16 ≠ 0 || kk = 0 || 2 ^ 20 < kk || (sparse = 2 && kk % 64 ≠ 0)
  let bad := shape || descrBad k (base + pw) wo 4096 sparse fw true || descrBad k (base + px) xo 4 0 fx false ||
    xo.extent ≠ n || xo.space ≠ 0
  let pois := k.scratchBad (base + pw) 32 || k.scratchBad (base + px) 32
  { n := n, acc := bit w2 54, fmtW := fw, fmtX := fx, sparse := sparse, zskip := bit w2 41, scaled := bit w2 40,
    ofmt := fld w2 39 35, rnd := fld w2 34 33, sat := bit w2 32, k := kk, w := wo, x := xo, out := base + g.getU f.dest,
    base := base, limit := limit, group := slot, block := g.block, started := false,
    fault := (if bad then some 0x0B else if pois then some 0x06 else none) }

/-- Read the operands of every panel of a matrix-vector operation as they stand at issue (R194, R212). -/
def State.readProducts (s : State) (c view limit : Nat) (o : MvOp) : MvOp × State :=
  (List.range o.products.length).foldl (fun (a : MvOp × State) i =>
    match a.1.products[i]? with
    | some p =>
      let (p, t) := a.2.readProduct c view limit p
      ({ a.1 with w := p.a, x := p.b }, t)
    | none => a) (o, s)

/-- MV.ISSUE (R185, R193, R212, R213, R215). -/
def execMvIssue (c slot : Nat) (s : State) : Answer :=
  .next (s.issueX c slot 0x43 fun g w w2 =>
    let f := iFields w
    let k := s.core c
    let m := execMask g f
    let fw := fld w2 53 49
    let fx := fld w2 48 44
    let sparse := fld w2 43 42
    let ofmt := fld w2 39 35
    let rnd := fld w2 34 33
    let pw := g.getU f.srcA
    let px := g.getU f.srcB
    let out := g.getU f.dest
    let limit := (k.alloc g).2
    let regs := [256 + f.srcA, 256 + f.srcB, 256 + f.srcC, 256 + f.dest]
    let why := k.why slot regs regs
    if !(xOk w [f.srcA, f.srcB, f.srcC, f.dest] && decide (fld w2 31 0 = 0) && decide (sparse ≠ 3) && fmtKnown fw &&
        fmtKnown fx && outFmt ofmt && decide (rnd ≠ 3) && !(decide (ofmt = 9) && decide (rnd = 2))) then
      s.illegal c slot g w
    else if why ≠ 0 then s.holdAt c slot g why
    else if m = 0 then s.setGroup c slot (g.next 16)
    else match s.reportMx c slot m (fun i => i = 8) with
      | some t => t
      | none =>
        match firstCode ((descrAddr pw limit).toList ++ (descrAddr px limit).toList ++
            (if out % 128 ≠ 0 then [0x02] else []) ++ (if rateClass fw fx = none then [0x0B] else [])) with
        | some code => s.faultGroup c slot code m pw
        | none =>
          if 3 ≤ k.mx.mv.length then s.holdAt c slot g 7
          else
            let o := k.newMv g slot w w2
            let (o, s) := if o.fault.isSome then (o, s)
              else s.readProducts c (s.viewOf (k.groupLaunch g) (k.groupCtx g)) limit o
            let k := s.core c
            s.setCore c ({ k with mx := { k.mx with mv := k.mx.mv ++ [o] } }.setGroup slot (some (g.next 16))))

/-- Does a slot have a tile or drain outstanding? -/
def Matrix.pending (m : Matrix) (n : Nat) : Bool :=
  (m.queue ++ m.flight).any (fun t => t.slot = n) || m.drains.any (fun d => d.slot = n)

/-- MX.WAIT (R186): a fault not yet reported on a named slot or the path faults the group. -/
def execMxWait (c slot : Nat) (s : State) : Answer :=
  .next (s.issue c slot (isMajor 0x3A) fun g w =>
    let f := iFields w
    let k := s.core c
    let m := execMask g f
    let named (n : Nat) : Bool := bit w n
    if !(decide (fld w 28 21 = 0) && decide (fld w 20 9 = 0) && decide (f.dest = 0) && decide (f.srcA = 0) &&
        decide (f.srcB = 0)) then s.illegal c slot g w
    else if m = 0 then s.setGroup c slot (g.next 8)
    else match s.reportMx c slot m named with
      | some t => t
      | none =>
        if (List.range 8).any (fun n => named n && k.mx.pending n) ||
            (named 8 && k.mx.mv.any (fun o => o.group = slot)) then s.holdAt c slot g 7
        else s.setGroup c slot (g.next 8))

/-! ### The array -/

/-- The fault of a tile before its first K-step (R209). -/
def Tile.early (t : Tile) : Option Nat := t.fault.or t.product.early

/-- The fault of a tile at all. -/
def Tile.fails (t : Tile) : Option Nat := t.fault.or t.product.any

/-- TILE_START (R196): the next queued tile enters its first K-step, at most 4 in flight. -/
def execTileStart (c : Nat) (s : State) : Answer :=
  let k := s.core c
  .next (match k.mx.queue with
    | [] => s
    | t :: rest =>
      if 4 ≤ k.mx.flight.length || t.early.isSome then s
      else s.setCore c { k with mx := { k.mx with queue := rest, flight := k.mx.flight ++ [t] } })

/-- TILE_COMPLETE (R197, R198, R200): the oldest tile in flight completes, unless an earlier drain of its slot has still
to read it; STEP cycles, tiles and skipped slices are counted (R201, R216, R233). -/
def execTileComplete (c : Nat) (s : State) : Answer :=
  let k := s.core c
  .next (match k.mx.flight with
    | [] => s
    | t :: rest =>
      if k.mx.drainsFirst t || t.fails.isSome then s
      else s.withFree fun r s =>
        let n := t.product.units
        let s := s.setCore c { k with mx := { k.mx with
          flight := rest, acc := t.result k.mx.acc n r, accPoison := t.marks k.mx.accPoison } }
        (s.stepsTaken c t n t.cycles).count (R.coreMxTiles c) 64 1)

/-- DRAIN_START (R200, R202, R204): the oldest drain that has not read reads its slot, once earlier tiles on it are
complete and the previous drain has read; KEEP 0 leaves zeros. At an accumulator word that cannot be corrected the drain faults (R209, R556): the
elements before it are read, and some of their lines written; which word an error meets is open (log 1). -/
def execDrainStart (c : Nat) (upset : Upset) (s : State) : Answer :=
  let k := s.core c
  .next (match findPos (fun d => d.reading.isNone && d.fault.isNone) k.mx.drains with
    | none => s
    | some i =>
      match k.mx.drains[i]? with
      | none => s
      | some d =>
        if k.mx.tilesFirst d then s
        else
          let s := s.detect 0x0A c d.slot upset
          let s := if upset = .none then s else s.partEvent 3 c
          s.withFree fun r s =>
            let hit := d.cells.getD (r % 2 ^ 32 % d.cells.length) 0
            let marks := if upset = .lost then SMap.put false k.mx.accPoison hit true else k.mx.accPoison
            let read := d.cells.takeWhile (fun a => !SMap.get false marks a)
            let vals := read.map (fun a => (SMap.get 0 k.mx.acc a).toNat)
            let bad := decide (read.length < d.cells.length)
            let d' := if bad then { d with fault := some 0x06 } else { d with reading := some vals }
            let acc := if d.keep then k.mx.acc else read.foldl (fun a n => SMap.put 0 a n 0) k.mx.acc
            let k := { k with mx := { k.mx with drains := k.mx.drains.set i d', acc := acc, accPoison := marks } }
            s.setCore c (if bad then d.stopped k vals (r / 2 ^ 32) else k))

/-- Write a band's elements to vector registers in the lanes of its mask (R184). -/
def Drain.toRegs (d : Drain) (g : Group) (codes : List Nat) : Group :=
  let eb := elemBits d.ofmt
  let per := 32 / eb
  (List.range (bandRegs d.ofmt)).foldl (fun g i =>
    g.setLanes (d.dest + i) d.mask (fun l =>
      (List.range per).foldl (fun a j => a + codes.getD (32 * per * i + per * l + j) 0 * 2 ^ (eb * j)) 0)) g

/-- The group that issued a drain to registers passes the instruction (R184), unless it has stopped. -/
def Core.drainOver (k : Core) (d : Drain) : Core :=
  if d.target = 0 then k
  else match k.group d.group with
    | some g => if g.stopped || g.fault.isSome then k else k.setGroup d.group (some (g.next 16))
    | none => k

/-- DRAIN_COMPLETE (R202, R203, R134): the oldest drain that has read converts and writes. -/
def execDrainComplete (c : Nat) (s : State) : Answer :=
  let k := s.core c
  .next (match k.mx.drains with
    | [] => s
    | d :: rest =>
      match d.reading with
      | none => s
      | some vals =>
        let (codes, k) := d.codes k vals
        let s := if d.rnd = 2 then s.hit c 0x28 vals.length else s
        let k := { k with mx := { k.mx with drains := rest } }
        if d.target = 0 then s.setCore c (k.scratchWrite (d.base + d.addr) (packBits (elemBits d.ofmt) codes))
        else match k.group d.group with
          | some g => s.setCore c ((k.setGroup d.group (some (d.toRegs g codes))).drainOver d)
          | none => s.setCore c k)

/-! ### The matrix-vector path -/

/-- The fault of a matrix-vector operation: its descriptors, its operands, or an output outside the allocation. -/
def MvOp.outBytes (o : MvOp) : Nat :=
  roundUp (2 * o.n * elemBits o.ofmt) 16 * ((o.w.extent + 15) / 16)
def MvOp.fails (o : MvOp) (k : Core) : Option Nat :=
  let p := o.products
  let out := if o.base + o.limit < o.out + o.outBytes then [0x0A] else []
  let old := if o.acc && k.scratchBad o.out o.outBytes then [0x06] else []
  o.fault.or (firstCode (p.flatMap (fun q => q.any.toList) ++ out ++ old))

/-- MV_START (R214, R215): one operation runs at a time. -/
def execMvStart (c : Nat) (s : State) : Answer :=
  let k := s.core c
  .next (match k.mx.mv with
    | [] => s
    | o :: rest =>
      if o.started || (o.fails k).isSome then s
      else s.setCore c { k with mx := { k.mx with mv := { o with started := true } :: rest } })

/-- MV_COMPLETE (R212 to R214): the running operation writes its output; weight bytes and skipped slices are counted. -/
def execMvComplete (c : Nat) (s : State) : Answer :=
  let k := s.core c
  .next (match k.mx.mv with
    | [] => s
    | o :: rest =>
      if !o.started || (o.fails k).isSome then s
      else s.withFree fun r s =>
        let k' := { k with mx := { k.mx with mv := rest } }.scratchWrite o.out (o.output k r)
        let s := s.setCore c k'
        ((s.count (R.coreMvBytes c) 64 o.weightBytes).count (R.coreZskipSlices c) 64 o.skips).hit c 0x26 o.skips)

/-! ### Faults -/

/-- Keep a fault until its group, or its block's end, takes it (R186, R209, R210). -/
def Matrix.fault (m : Matrix) (slot group block code : Nat) : Matrix :=
  { m with faults := m.faults ++ [⟨slot, group, block, code⟩] }

/-- MATRIX_FAULT (R186, R193, R209, R224) in the array (0), the drain (1) or the matrix-vector path (2): the operation
that cannot go on stops. A tile that had entered its first K-step leaves its slot with the partial sum of the units before the one that fails; one
that had not leaves it unchanged. -/
def execMatrixFault (c : Nat) (what : MxUnit) (s : State) : Answer :=
  let k := s.core c
  .next (match what with
    | .array =>
      match k.mx.flight.find? (fun t => t.fails.isSome) with
      | some t =>
        s.withFree fun r s =>
          let mx := { k.mx with flight := k.mx.flight.erase t }
          (s.setCore c { k with mx := mx.fault t.slot t.group t.block (t.fails.getD 0) }).tileStops c t t.product.badUnit r
      | none =>
        match k.mx.queue.find? (fun t => t.early.isSome) with
        | some t =>
          s.setCore c { k with mx := { k.mx with queue := k.mx.queue.erase t }.fault t.slot t.group t.block (t.early.getD 0) }
        | none => s
    | .drain =>
      match k.mx.drains.find? (fun d => d.fault.isSome) with
      | some d =>
        s.setCore c (Core.drainOver { k with mx :=
          { k.mx with drains := k.mx.drains.erase d }.fault d.slot d.group d.block (d.fault.getD 0) } d)
      | none => s
    | .path =>
      match k.mx.mv with
      | [] => s
      | o :: rest =>
        match o.fails k with
        | some code =>
          let s := s.setCore c { k with mx := { k.mx with mv := rest }.fault 8 o.group o.block code }
          if o.started then s.pathStops c o else s
        | none => s)

end Sys2Proof.Machine
end

