-- ==== Sys2Proof/Machine/ThreadMem.lean ====
section
/-! DEFINITION. Meanings of loads, stores, atomics, locks and fences, and of what completes them (spec 03 R99 to R109,
04 R161 to R171, 09). -/

namespace Sys2Proof.Machine

/-- Bytes of a SIZE code (R138). -/
def sizeBytes (n : Nat) : Nat := 2 ^ n

/-- Registers that an access of `size` bytes fills or supplies (R162). -/
def sizeRegs (size : Nat) : Nat := if size ≤ 4 then 1 else size / 4

/-- Loaded bytes as a register value (R162): zero- or sign-extended when narrower than 32 bits. -/
def loadValue (op size : Nat) (b : List Byte) : Nat :=
  let x := leNat b
  if op = 1 && decide (size < 4) then wrapI 32 (sx (8 * size) x) else x

/-- Are a load's or store's fields defined (R138, R162 to R164)? -/
def lsOk (g : Group) (f : IFields) (m : FmtM) (isLoad scratch : Bool) : Bool :=
  let n := sizeRegs (sizeBytes m.size)
  let a := opd m.ua f.srcA (if scratch then 1 else 2)
  decide (m.size ≤ 4) && decide (m.op ≤ 1) && decide (m.scope ≤ 4) && (!scratch || decide (m.hint = 0)) &&
    (if isLoad then opdsOk g (opd m.ud f.dest n) [a] false
     else a.ok g.decl && (opd m.ud f.srcB n).ok g.decl)

/-- Replay passes of an access (R102, R103): beyond the first, as many as the busiest bank has words to serve, each lane's own for an
atomic. -/
def replays (lanes : List Nat) (addr : Nat → Nat) (size : Nat) (atomic : Bool) : Nat :=
  let words := lanes.flatMap (fun l => (List.range ((size + 3) / 4)).map (fun i => addr l / 4 + i))
  let served := if atomic then words else words.eraseDups
  (List.range 32).foldl (fun a b => max a ((served.filter (fun w => w % 32 = b)).length)) 1 - 1

/-- Scratchpad replay passes are events of R611. -/
def State.replayed (s : State) (c : Nat) (lanes : List Nat) (addr : Nat → Nat) (size : Nat) (atomic : Bool) : State :=
  s.hit c 0x20 (replays lanes addr size atomic)

/-- Does ORD make an access a release, or an acquire (R138)? -/
def releases (m : FmtM) : Bool := m.ord = 2 || m.ord = 3
def acquires (m : FmtM) : Bool := m.ord = 1 || m.ord = 3

/-- LDS (R99 to R103, R164): served at the thread port; poison of a word that cannot be corrected stays with it. -/
def execLds (c slot : Nat) (upset : Upset) (s : State) : Answer :=
  .next (s.issue c slot (isMajor 0x20) fun g w =>
    let f := iFields w
    let m := fmtM w
    let k := s.core c
    let size := sizeBytes m.size
    let dest := opd m.ud f.dest (sizeRegs size)
    let mask := execMask g f
    let lanes := actLanes mask m.ud
    let addr := scratchAddr g f m
    let (base, limit) := k.alloc g
    let why := k.why slot (opd m.ua f.srcA 1).regs (dest.regs ++ (opd m.ua f.srcA 1).regs)
    if !lsOk g f m true true then s.illegal c slot g w
    else if why ≠ 0 then s.holdAt c slot g why
    else match pickFault (misaligned lanes addr size ++ outOfBounds lanes addr size limit) with
      | some (code, ls, a) => s.faultGroup c slot code ls a
      | none =>
        if k.drainHolds slot lanes (fun l => base + addr l) size then s.holdAt c slot g 7 else
        let first := base + addr (lanes.headD 0)
        let hit := !lanes.isEmpty && decide (upset ≠ .none)
        let s := if hit then (s.detect 9 c first upset).partEvent 3 c else s
        let k := s.core c
        let k := if hit && decide (upset = .lost) then
            { k with scratchPoison := SMap.put false k.scratchPoison (first / 4) true } else k
        let s := s.setCore c k
        match pickFault (k.scratchFaults lanes addr base size) with
        | some (code, ls, a) => s.faultGroup c slot code ls a
        | none =>
          let g' := g.write dest mask (fun l => loadValue m.op size (k.scratch.bytes (base + addr l) size))
          (s.replayed c lanes addr size false).setGroup c slot (g'.next 8))

/-- STS (R99 to R103, R164): a byte that several lanes write takes the highest lane's. A release acts at .c. -/
def execSts (c slot : Nat) (s : State) : Answer :=
  .next (s.issue c slot (isMajor 0x21) fun g w =>
    let f := iFields w
    let m := fmtM w
    let k := s.core c
    let size := sizeBytes m.size
    let data := opd m.ud f.srcB (sizeRegs size)
    let lanes := lanesOf (execMask g f)
    let addr := scratchAddr g f m
    let (base, limit) := k.alloc g
    let why := k.why slot (data.regs ++ (opd m.ua f.srcA 1).regs) (data.regs ++ (opd m.ua f.srcA 1).regs)
    if !lsOk g f m false true then s.illegal c slot g w
    else if why ≠ 0 then s.holdAt c slot g why
    else match pickFault (misaligned lanes addr size ++ outOfBounds lanes addr size limit) with
      | some (code, ls, a) => s.faultGroup c slot code ls a
      | none =>
        let k := lanes.foldl (fun k l => k.scratchWrite (base + addr l) (leBytes size (g.read data l))) k
        let k := if releases m && !lanes.isEmpty then k.release 1 else k
        (s.replayed c lanes addr size false).setCore c (k.setGroup slot (some (g.next 8))))

/-- What local reads give, threaded through the lanes of a load: values, poisoned lanes, lines to fill. -/
structure LoadAcc where
  vals : SMap (Option Nat)
  bad : List (Nat × Nat × Nat)
  fill : List Nat

/-- The lanes of a load whose place is local memory, in ascending order: their bytes are fixed now (R165, R334, R357). -/
def State.loadLanes (s : State) (c : Nat) (g : Group) (ctx size : Nat) (m : FmtM) (wide : Bool) (pas : List LanePa) :
    LoadAcc × State :=
  let view := (s.core c).groupLaunch g
  pas.foldl (fun (a : LoadAcc × State) p =>
    if a.2.placeOf p.pa = .host then a
    else
      let (b, pois, ln, t) := a.2.loadLocal c p.pa size p.region m.hint (a.2.keySlotOf (a.2.viewOf view ctx) p.va) wide
      ({ a.1 with
          vals := SMap.put none a.1.vals p.lane (some (loadValue m.op size b)),
          bad := if pois then a.1.bad ++ [(p.lane, 0x06, p.va)] else a.1.bad,
          fill := match ln with
            | some n => if a.1.fill.contains n then a.1.fill else a.1.fill ++ [n]
            | none => a.1.fill }, t)) (⟨[], [], []⟩, s)

/-- The host lanes of a load, in ascending order: each becomes a PCIe read (R165, R304). Answers the tag of each. -/
def State.hostLanes (s : State) (c slot : Nat) (g : Group) (ctx size : Nat) (m : FmtM) (pas : List LanePa) :
    List (Nat × Nat) × State :=
  let view := (s.core c).groupLaunch g
  pas.foldl (fun (a : List (Nat × Nat) × State) p =>
    if a.2.placeOf p.pa ≠ .host then a
    else
      let t := a.2
      let tag := t.pci.nextTag
      let ha := t.hostAddr (t.viewOf view ctx) p.pa
      let q : HostReq := ⟨tag, t.tenantOf ctx, ha, size, .thread c slot m.op, t.now⟩
      let t := { t with pci := { t.pci with reqs := t.pci.reqs ++ [q], nextTag := tag + 1 } }
      (a.1 ++ [(p.lane, tag)], t.emit (.hostRead tag (t.tenantOf ctx) ha size))) ([], s)

/-- The lanes of a load or atomic as it stays outstanding. -/
def State.lanesOut (s : State) (pas : List LanePa) : List LoadLane :=
  pas.map (fun p => ⟨p.lane, p.va, if s.placeOf p.pa = .localMem then some (paOffset p.pa) else none⟩)

/-- LDG (R165, R304, R334, R339, R357): a local lane's value is fixed now and written by LOAD_RETURN; a host lane
becomes a PCIe read, once no lane faults (R145); a remote one faults with REMOTE_LOAD. -/
def execLdg (c slot : Nat) (s : State) : Answer :=
  .next (s.issue c slot (isMajor 0x22) fun g w =>
    let f := iFields w
    let m := fmtM w
    let k := s.core c
    let ctx := k.groupCtx g
    let size := sizeBytes m.size
    let dest := opd m.ud f.dest (sizeRegs size)
    let mask := execMask g f
    let lanes := actLanes mask m.ud
    let addr := globalAddr g f m
    let wide := acquires m && decide (2 ≤ m.scope)
    let why := k.why slot (opd m.ua f.srcA 2).regs (dest.regs ++ (opd m.ua f.srcA 2).regs)
    if !lsOk g f m true false then s.illegal c slot g w
    else if why ≠ 0 then s.holdAt c slot g why
    else match pickFault (misaligned lanes addr size) with
      | some (code, ls, a) => s.faultGroup c slot code ls a
      | none =>
        let (pas, bad, s) := s.xlateLanes c (s.viewOf (k.groupLaunch g) ctx) lanes addr needR
        let far := (pas.filter (fun p => s.placeOf p.pa = .remote)).map (fun p => (p.lane, 0x01, p.va))
        match pickFault (far ++ bad) with
        | some (code, ls, a) => s.faultGroup c slot code ls a
        | none =>
          let isHost (p : LanePa) : Bool := decide (s.placeOf p.pa = .host)
          if (s.core c).behindDevice (pas.filter (fun p => p.region = 2)) ||
              768 < s.pci.reqs.length + (pas.filter isHost).length then s.holdAt c slot g 4
          else
            let ks := s.keySlotOf (s.viewOf (k.groupLaunch g) ctx) (addr (lanes.headD 0))
            let (acc, s) := s.loadLanes c g ctx size m wide pas
            match pickFault acc.bad with
            | some (code, ls, a) => s.faultGroup c slot code ls a
            | none =>
              let (want, s) := s.hostLanes c slot g ctx size m pas
              let s := if wide && !lanes.isEmpty then s.updCore c Core.acquire else s
              let k := s.core c
              let ld : Load := {
                slot := slot, dest := f.dest, regs := sizeRegs size, uni := m.ud, mask := mask, vals := acc.vals, want := want,
                bad := 0, fill := (if wide then [] else acc.fill), keySlot := ks, first := decide (m.hint = 2),
                acq := (if wide then 2 else if acquires m then 1 else 0), pc := g.pc, turn := k.turns + 1, op := m.op,
                size := size, lanes := s.lanesOut pas, again := true }
              let k := if lanes.isEmpty then k else { k with loads := k.loads ++ [ld] }
              s.setCore c (k.setGroup slot (some (g.next 8))))

/-- The store-buffer entry of one lane's store (R336), of a group slot at a turn. -/
def State.storeEntry (s : State) (slot turn launch ctx : Nat) (m : FmtM) (b : List Byte) (p : LanePa) : StoreEntry :=
  { place := s.placeOf p.pa, line := (if s.placeOf p.pa = .localMem then paOffset p.pa else p.pa) / 128,
    data := lineData (p.pa % 128) b, region := p.region, keySlot := s.keySlotOf (s.viewOf launch ctx) p.va, ctx := ctx,
    open_ := true, linked := false, hint := m.hint, launch := launch, parts := [⟨slot, turn, launch, p.va, lineData (p.pa % 128) b⟩] }

/-- Stores to local lines that the L1 holds update them (R357). -/
def State.l1Stored (s : State) (entry : LanePa → StoreEntry) (pas : List LanePa) (l1 : SMap (Option L1Line)) : SMap (Option L1Line) :=
  pas.foldl (fun (l1 : SMap (Option L1Line)) p =>
    if s.placeOf p.pa = .localMem then
      match SMap.get none l1 (paOffset p.pa / 128) with
      | some ln => SMap.put none l1 (paOffset p.pa / 128)
          (some { ln with bytes := overlay ln.bytes (entry p).data, poison := clearPoison ln.poison (entry p).data })
      | none => l1
    else l1) l1

/-- STG (R162, R165, R336, R338): the lanes' data enter the store buffer, and update the core's L1 where they hit it; a
release waits first; a full buffer holds the group. -/
def execStg (c slot : Nat) (s : State) : Answer :=
  .next (s.issue c slot (isMajor 0x23) fun g w =>
    let f := iFields w
    let m := fmtM w
    let k := s.core c
    let ctx := k.groupCtx g
    let from_ := k.groupLaunch g
    let size := sizeBytes m.size
    let data := opd m.ud f.srcB (sizeRegs size)
    let lanes := lanesOf (execMask g f)
    let addr := globalAddr g f m
    let rel := releases m && !lanes.isEmpty
    let why := k.why slot (data.regs ++ (opd m.ua f.srcA 2).regs) (data.regs ++ (opd m.ua f.srcA 2).regs)
    if !lsOk g f m false false then s.illegal c slot g w
    else if why ≠ 0 then s.holdAt c slot g why
    else match pickFault (misaligned lanes addr size) with
      | some (code, ls, a) => s.faultGroup c slot code ls a
      | none =>
        let (pas, bad, s) := s.xlateLanes c (s.viewOf from_ ctx) lanes addr needW
        match pickFault bad with
        | some (code, ls, a) => s.faultGroup c slot code ls a
        | none =>
          if rel && !s.released c m.scope then
            s.setCore c (((s.core c).release m.scope).setGroup slot
              (some { g with stat := .waiting, wait := 4, hold := true }))
          else if rel && decide (m.scope = 4) && (s.core c).lost.contains slot then
            let s := s.updCore c (fun k => { k with lost := k.lost.filter (fun x => !decide (x = slot)) })
            s.faultGroup c slot 0x05 (execMask g f) (addr (lanes.headD 0))
          else
            let k := if rel then (s.core c).release m.scope else s.core c
            let entry (p : LanePa) : StoreEntry := s.storeEntry slot (k.turns + 1) from_ ctx m (leBytes size (g.read data p.lane)) p
            let stores := pas.foldl (fun l p => putStore l (entry p)) k.stores
            if 64 < stores.length then s.holdAt c slot g 11
            else
              let l1 := s.l1Stored entry pas k.l1
              s.setCore c ({ k with stores := stores, l1 := l1 }.setGroup slot (some (g.next 8))))

/-- Are an atomic's fields and operands defined (R138, R167)? -/
def atomOk (g : Group) (f : IFields) (m : FmtM) (scratch : Bool) : Bool :=
  let n := if m.wide then 2 else 1
  let a := opd m.ua f.srcA (if scratch then 1 else 2)
  atomicOk m && decide (m.scope ≤ 4) && (!m.ud || m.ua) &&
    opdsOk g (opd m.ud f.dest n) [a, opd m.ud f.srcB n] false

/-- Atomics on scratchpad words, lane by lane in ascending order: `op` gives, for a lane and the old word, the lane's result and the
new word (R103, R106, R167). -/
def scratchAtomics (m : Mem) (addr : Nat → Nat) (size : Nat) (op : Nat → Nat → Nat × Nat) (lanes : List Nat) : Mem × SMap (Option Nat) :=
  lanes.foldl (fun (a : Mem × SMap (Option Nat)) l =>
    let r := op l (a.1.nat (addr l) size)
    (a.1.putNat (addr l) size r.2, SMap.put none a.2 l (some r.1))) (m, [])

/-- ATOMS (R103, R164, R167): a release acts at .c. The word takes each lane's operation in ascending order; each lane gets what its own saw. -/
def execAtoms (c slot : Nat) (upset : Upset) (s : State) : Answer :=
  .next (s.issue c slot (isMajor 0x24) fun g w =>
    let f := iFields w
    let m := fmtM w
    let k := s.core c
    let n := if m.wide then 2 else 1
    let size := 4 * n
    let dest := opd m.ud f.dest n
    let src := opd m.ud f.srcB n
    let mask := execMask g f
    let lanes := actLanes mask m.ud
    let addr := scratchAddr g f m
    let (base, limit) := k.alloc g
    let why := k.why slot ((if m.op = 7 then dest.regs else []) ++ src.regs ++ (opd m.ua f.srcA 1).regs)
      (dest.regs ++ src.regs ++ (opd m.ua f.srcA 1).regs)
    if !atomOk g f m true then s.illegal c slot g w
    else if why ≠ 0 then s.holdAt c slot g why
    else match pickFault (misaligned lanes addr size ++ outOfBounds lanes addr size limit) with
      | some (code, ls, a) => s.faultGroup c slot code ls a
      | none =>
        if k.drainHolds slot lanes (fun l => base + addr l) size then s.holdAt c slot g 7 else
        let first := base + addr (lanes.headD 0)
        let hit := !lanes.isEmpty && decide (upset ≠ .none)
        let s := if hit then (s.detect 9 c first upset).partEvent 3 c else s
        let k := s.core c
        let k := if hit && decide (upset = .lost) then
            { k with scratchPoison := SMap.put false k.scratchPoison (first / 4) true } else k
        let s := s.setCore c k
        match pickFault (k.scratchFaults lanes addr base size) with
        | some (code, ls, a) => s.faultGroup c slot code ls a
        | none =>
          s.withFree fun r s =>
            let k := s.core c
            let (scratch, olds) := scratchAtomics k.scratch (fun l => base + addr l) size
              (fun l old => (old, atomicOp m.op m.aty (8 * size) old (g.read src l) (g.read dest l) (freeFor r l 0))) lanes
            let k := { k with scratch := scratch }
            let k := if releases m && !lanes.isEmpty then k.release 1 else k
            let g' := g.write dest mask (fun l => (SMap.get none olds l).getD 0)
            (s.replayed c lanes addr size true).setCore c (k.setGroup slot (some (g'.next 8))))

/-- One read-modify-write of a word at its home slice (R168, R333, R355): old value, and whether it was poisoned, in
which case the word stays as it is (R560). -/
def State.atomicAt (s : State) (c : Nat) (p : LanePa) (size keySlot hint : Nat) (f : Nat → Nat) :
    Nat × Bool × State :=
  let off := paOffset p.pa
  let alloc := decide (p.region ≤ 1) && decide (hint ≠ 3)
  let s := s.drainLine c (off / 128)
  let s := s.updCore c (fun k => { k with l1 := SMap.put none k.l1 (off / 128) none })
  let (x, s) := s.lineFor (off / 128) 0 keySlot alloc (decide (hint = 2))
  let old := leNat ((x.bytes.drop (off % 128)).take size)
  if x.poisonAt off size then (old, true, s)
  else (old, false, s.lineUpdate (off / 128) x (lineData (off % 128) (leBytes size (f old))) keySlot)

/-- The lanes of an atomic on device memory whose word is poisoned, the core's stores to each word performed first (R334, R560). -/
def State.atomPoison (s : State) (c view ctx size hint : Nat) (pas : List LanePa) : List (Nat × Nat × Nat) × State :=
  pas.foldl (fun (a : List (Nat × Nat × Nat) × State) p =>
    if a.2.placeOf p.pa ≠ .localMem then a
    else
      let off := paOffset p.pa
      let t := a.2.drainLine c (off / 128)
      let key := t.keySlotOf (t.viewOf view ctx) p.va
      let (x, t) := t.lineNow (off / 128) key
      if x.poisonAt off size then
        (a.1 ++ [(p.lane, 0x06, p.va)],
          (t.lineFor (off / 128) 0 key (decide (p.region ≤ 1) && decide (hint ≠ 3)) (decide (hint = 2))).2)
      else (a.1, t)) ([], s)

/-- The lanes of an atomic in ascending order: `op` gives, for a lane and the old word, the lane's result and the new word (R106, R168). -/
def State.atomLanes (s : State) (c view ctx size hint : Nat) (op : Nat → Nat → Nat × Nat) (pas : List LanePa) :
    SMap (Option Nat) × State :=
  pas.foldl (fun (a : SMap (Option Nat) × State) p =>
    let (old, _, t) := a.2.atomicAt c p size (a.2.keySlotOf (a.2.viewOf view ctx) p.va) hint (fun old => (op p.lane old).2)
    (SMap.put none a.1 p.lane (some (op p.lane old).1), t)) ([], s)

/-- What stays outstanding of an atomic or lock: its results return by LOAD_RETURN. -/
def State.atomLoad (s : State) (c slot : Nat) (g : Group) (dest regs : Nat) (uni : Bool) (mask : Half) (size acq : Nat)
    (vals : SMap (Option Nat)) (pas : List LanePa) : Load :=
  { slot := slot, dest := dest, regs := regs, uni := uni, mask := mask, vals := vals, want := [], bad := 0, fill := [], keySlot := 0,
    first := false, acq := acq, pc := g.pc, turn := (s.core c).turns + 1, op := 0, size := size, lanes := s.lanesOut pas, again := false }

/-- ATOMG (R167, R168, R355): performed at the home slice at issue, lanes in ascending order; the old words return by
LOAD_RETURN. A release waits first; an acquire at .d or wider invalidates the L1. -/
def execAtomg (c slot : Nat) (s : State) : Answer :=
  .next (s.issue c slot (isMajor 0x25) fun g w =>
    let f := iFields w
    let m := fmtM w
    let k := s.core c
    let ctx := k.groupCtx g
    let from_ := k.groupLaunch g
    let n := if m.wide then 2 else 1
    let size := 4 * n
    let dest := opd m.ud f.dest n
    let src := opd m.ud f.srcB n
    let mask := execMask g f
    let lanes := actLanes mask m.ud
    let addr := globalAddr g f m
    let rel := releases m && !lanes.isEmpty
    let wide := acquires m && decide (2 ≤ m.scope)
    let why := k.why slot ((if m.op = 7 then dest.regs else []) ++ src.regs ++ (opd m.ua f.srcA 2).regs)
      (dest.regs ++ src.regs ++ (opd m.ua f.srcA 2).regs)
    if !atomOk g f m false then s.illegal c slot g w
    else if why ≠ 0 then s.holdAt c slot g why
    else match pickFault (misaligned lanes addr size) with
      | some (code, ls, a) => s.faultGroup c slot code ls a
      | none =>
        let (pas, bad, s) := s.xlateLanes c (s.viewOf from_ ctx) lanes addr needRW
        let far := (pas.filter (fun p => s.placeOf p.pa ≠ .localMem)).map (fun p => (p.lane, 0x01, p.va))
        match pickFault (far ++ bad) with
        | some (code, ls, a) => s.faultGroup c slot code ls a
        | none =>
          if (s.core c).behindDevice pas then s.holdAt c slot g 4
          else
            let (poi, s) := s.atomPoison c from_ ctx size m.hint pas
            match pickFault poi with
            | some (code, ls, a) => s.faultGroup c slot code ls a
            | none =>
              if rel && !s.released c m.scope then
                s.setCore c (((s.core c).release m.scope).setGroup slot
                  (some { g with stat := .waiting, wait := 4, hold := true }))
              else if rel && decide (m.scope = 4) && (s.core c).lost.contains slot then
                let s := s.updCore c (fun k => { k with lost := k.lost.filter (fun x => !decide (x = slot)) })
                s.faultGroup c slot 0x05 mask (addr (lanes.headD 0))
              else if pas.any (fun p => s.inPool (paOffset p.pa) size) then
                s.stopLaunch ((s.core c).groupLaunch g) 0x09 0x300
              else
                s.withFree fun r s =>
                  let (olds, s) := s.atomLanes c from_ ctx size m.hint
                    (fun l old => (old, atomicOp m.op m.aty (8 * size) old (g.read src l) (g.read dest l) (freeFor r l 0))) pas
                  let k := s.core c
                  let k := if rel then k.release m.scope else k
                  let k := if wide && !lanes.isEmpty then k.acquire else k
                  let ld := s.atomLoad c slot g f.dest n m.ud mask size (if wide then 2 else if acquires m then 1 else 0) olds pas
                  let k := if lanes.isEmpty then k else { k with loads := k.loads ++ [ld] }
                  s.setCore c (k.setGroup slot (some (g.next 8))))

/-- A word of LOCK with a given OP (R169); an OP that is not defined faults under ATOM.ACQ. -/
def isLock (op : Nat) (w : Word) : Bool :=
  isMajor 0x26 w && (if op = 0 then decide (fld w 23 21 ≠ 1) else decide (fld w 23 21 = 1))

/-- Are a lock's fields and operands defined (R138, R169)? -/
def lockOk (g : Group) (f : IFields) (m : FmtM) : Bool :=
  let a := opd m.ua f.srcA (if m.aty = 0 then 1 else 2)
  decide (m.op ≤ 1) && !m.wide && decide (m.aty ≤ 1) && decide (m.ord = 0) && !m.ud && decide (m.scope ≤ 4) &&
    (opd false f.dest 1).ok g.decl && a.ok g.decl && (decide (m.op = 1) || (opd false f.srcB 1).ok g.decl)

/-- ATOM.ACQ and ATOM.REL (R104 to R109, R169): at the core for scratchpad, whose scope is .c, at the home slice for device memory. A
release at .m that has waited on a write to a dead peer faults with PEER_LOST and frees nothing (R346). -/
def State.lockRow (s : State) (c slot : Nat) (acq : Bool) : State :=
  s.issue c slot (isLock (if acq then 0 else 1)) fun g w =>
    let f := iFields w
    let m := fmtM w
    let k := s.core c
    let ctx := k.groupCtx g
    let dest := opd false f.dest 1
    let mask := execMask g f
    let lanes := lanesOf mask
    let srcs := (opd m.ua f.srcA (if m.aty = 0 then 1 else 2)).regs ++ (if acq then [f.srcB] else [])
    let why := k.why slot srcs (dest.regs ++ srcs)
    let op (w' l : Nat) : Nat × Nat :=
      if acq then lockAcquire w' ctx c slot l (g.read (opd false f.srcB 1) l) else lockRelease w' ctx c slot l
    if !lockOk g f m then s.illegal c slot g w
    else if why ≠ 0 then s.holdAt c slot g why
    else if m.aty = 0 then
      let addr := scratchAddr g f m
      let (base, limit) := k.alloc g
      match pickFault (misaligned lanes addr 8 ++ outOfBounds lanes addr 8 limit ++
          k.scratchFaults (lanes.filter (fun l => addr l + 8 ≤ limit)) addr base 8) with
      | some (code, ls, a) => s.faultGroup c slot code ls a
      | none =>
        if k.drainHolds slot lanes (fun l => base + addr l) 8 then s.holdAt c slot g 7 else
        let (scratch, codes) := scratchAtomics k.scratch (fun l => base + addr l) 8 (fun l old => op old l) lanes
        let got := codes.filterMap (fun (e : Nat × Option Nat) => e.2)
        let k := { k with scratch := scratch }
        let k := if !acq && got.contains 3 then k.release 1 else k
        let g' := g.write dest mask (fun l => (SMap.get none codes l).getD 0)
        let g' := { g' with selfLock := selfLockNext acq g.selfLock got }
        (s.replayed c lanes addr 8 true).setCore c (k.setGroup slot (some (g'.next 8)))
    else
      let addr := globalAddr g f m
      match pickFault (misaligned lanes addr 8) with
      | some (code, ls, a) => s.faultGroup c slot code ls a
      | none =>
        let (pas, bad, s) := s.xlateLanes c (s.viewOf (k.groupLaunch g) ctx) lanes addr needRW
        let far := (pas.filter (fun p => s.placeOf p.pa ≠ .localMem)).map (fun p => (p.lane, 0x01, p.va))
        match pickFault (far ++ bad) with
        | some (code, ls, a) => s.faultGroup c slot code ls a
        | none =>
          if (s.core c).behindDevice pas then s.holdAt c slot g 4
          else
            let (poi, s) := s.atomPoison c (k.groupLaunch g) ctx 8 m.hint pas
            match pickFault poi with
            | some (code, ls, a) => s.faultGroup c slot code ls a
            | none =>
              if !acq && !lanes.isEmpty && !s.released c m.scope then
                s.setCore c (((s.core c).release m.scope).setGroup slot
                  (some { g with stat := .waiting, wait := 4, hold := true }))
              else if !acq && !lanes.isEmpty && decide (m.scope = 4) && (s.core c).lost.contains slot then
                let s := s.updCore c (fun k => { k with lost := k.lost.filter (fun x => !decide (x = slot)) })
                s.faultGroup c slot 0x05 mask (addr (lanes.headD 0))
              else if pas.any (fun p => s.inPool (paOffset p.pa) 8) then
                s.stopLaunch ((s.core c).groupLaunch g) 0x09 0x300
              else
                let (codes, s) := s.atomLanes c (k.groupLaunch g) ctx 8 m.hint (fun l old => op old l) pas
                let got := codes.filterMap (fun (e : Nat × Option Nat) => e.2)
                let granted := acq && got.contains 0
                let k := s.core c
                let k := if !acq && got.contains 3 then k.release m.scope else k
                let k := if granted && decide (2 ≤ m.scope) then k.acquire else k
                let ld := s.atomLoad c slot g f.dest 1 false mask 8 (if !granted then 0 else if 2 ≤ m.scope then 2 else 1) codes pas
                let k := if lanes.isEmpty then k else { k with loads := k.loads ++ [ld] }
                let g' := { g with selfLock := selfLockNext acq g.selfLock got }
                s.setCore c (k.setGroup slot (some (g'.next 8)))

/-- ATOM.ACQ (R106, R169). -/
def execAtomAcq (c slot : Nat) (s : State) : Answer := .next (s.lockRow c slot true)

/-- ATOM.REL (R107, R169). -/
def execAtomRel (c slot : Nat) (s : State) : Answer := .next (s.lockRow c slot false)

/-- SELF_LOCK (R109, R121, R124): the guard faults a group whose count has reached the limit in force for its launch;
values below 0x100 act as 0x100 (R123). -/
def execSelfLock (c slot : Nat) (s : State) : Answer :=
  .next (match (s.core c).group slot with
    | none => s
    | some g =>
      match (s.core c).block g.block with
      | none => s
      | some b =>
        if g.fault.isNone && decide ((if b.lockGuard < 0x100 then 0x100 else b.lockGuard) ≤ g.selfLock) then
          (((s.guardFault c 2 slot 0).surveyTrigger 2 (clusterOf c)).faultGroup c slot 0x03 g.live 0).traceTrigger 2
        else s)

/-- A group's points-unit records that wait for placement (R249). -/
def State.pointsPending (s : State) (c slot : Nat) : Bool :=
  let u := s.unit (clusterOf c)
  u.subs.any (fun b => b.core = c && b.slot = slot) || u.queue.any (fun r => r.core = c && r.slot = slot)

/-- A fence word of a KIND (R170); KIND 3 is not defined and faults under FENCE_FULL. -/
def isFence (kind : Nat) (w : Word) : Bool :=
  isMajor 0x35 w && (if kind = 0 then decide (fld w 25 24 = 0) || decide (fld w 25 24 = 3) else decide (fld w 25 24 = kind))

/-- Are a fence's fields defined (R139, R170, R171)? -/
def fenceOk (w : Word) : Bool :=
  let f := iFields w
  decide (fld w 28 26 ≤ 4) && decide (fld w 25 24 ≤ 2) && decide (fld w 22 21 = 0) && decide (fld w 20 0 = 0) &&
    decide (f.srcA = 0) && decide (f.srcB = 0) &&
    (if bit w 23 then decide (fld w 28 26 = 4) && decide (f.dest < 64) else decide (f.dest = 0))

/-- The group's outstanding loads become acquire loads: no later access is performed before they are (R339, R340). -/
def Core.ordered (k : Core) (slot : Nat) : Core :=
  { k with loads := k.loads.map (fun l => if l.slot = slot && l.acq = 0 then { l with acq := 1 } else l) }

/-- FENCE (R170, R171, R338 to R340): a release waits for the core's earlier accesses, an acquire for the group's earlier
loads, and any fence for the group's points-unit records (R249). At .g and .c it waits for nothing else: an acquire there holds the
group's later accesses, not the fence. At .m a write surrendered to a dead peer faults the
group with PEER_LOST, or gives its status with NOFAULT. -/
def State.fenceRow (s : State) (c slot kind : Nat) : State :=
  s.issue c slot (isFence kind) fun g w =>
    let f := iFields w
    let k := s.core c
    let scope := Machine.fld w 28 26
    let nofault := bit w 23
    let rel := kind ≠ 1
    let acq := kind ≠ 2
    let why := k.why slot [] (if nofault then [256 + f.dest] else [])
    if !fenceOk w then s.illegal c slot g w
    else if execMask g f = 0 then s.setGroup c slot (g.next 8)
    else if why ≠ 0 then s.holdAt c slot g why
    else if s.pointsPending c slot || (rel && !s.released c scope) ||
        (acq && decide (2 ≤ scope) && k.loads.any (fun l => l.slot = slot && !l.want.isEmpty)) then
      s.setCore c ((if rel then k.release scope else k).setGroup slot
        (some { g with stat := .waiting, wait := 4, hold := true }))
    else
      let k := if rel then k.release scope else k
      let k := if !acq then k else if 2 ≤ scope then k.acquire else k.ordered slot
      let lost := rel && decide (scope = 4) && k.lost.contains slot
      let k := if lost then { k with lost := k.lost.filter (fun x => !decide (x = slot)) } else k
      if lost && !nofault then (s.setCore c k).faultGroup c slot 0x05 (execMask g f) 0
      else
        let g' := if nofault then g.setU f.dest (if lost then 0x07 else 0x00) else g
        s.setCore c (k.setGroup slot (some (g'.next 8)))

/-- FENCE FULL (R340). -/
def execFenceFull (c slot : Nat) (s : State) : Answer := .next (s.fenceRow c slot 0)

/-- FENCE ACQ (R340). -/
def execFenceAcq (c slot : Nat) (s : State) : Answer := .next (s.fenceRow c slot 1)

/-- FENCE REL (R340). -/
def execFenceRel (c slot : Nat) (s : State) : Answer := .next (s.fenceRow c slot 2)

/-- A group whose outstanding accesses have completed stops if it was to (R672). -/
def State.settleStop (s : State) (c slot : Nat) : State := s.updCore c (fun k => k.settled slot)

/-- The local line that an error on a load's way meets: its first local lane's. -/
def Load.line (l : Load) : Nat := ((l.lanes.findSome? LoadLane.off).getD 0) / 128

/-- The lanes of a load in a 32-byte sector of local memory. -/
def Load.inSector (l : Load) (sector : Nat) : Half :=
  laneMask (fun i => l.lanes.any (fun x => x.lane = i && decide (x.off.map (· / 32) = some sector)))

/-- A parity error in an L1 line (R357): the line is invalidated, and the load's lanes in it are read again from the home slice. -/
def State.readAgain (s : State) (c : Nat) (ld : Load) : Load × State :=
  let line := ld.line
  let s := s.updCore c (fun k => { k with l1 := SMap.put none k.l1 line none })
  ld.lanes.foldl (fun (a : Load × State) x =>
    match x.off with
    | some off =>
      if off / 128 ≠ line then a
      else
        let (b, bad, t) := a.2.lineRead off ld.size 0 ld.keySlot true ld.first
        ({ a.1 with
            vals := SMap.put none a.1.vals x.lane (some (loadValue ld.op ld.size (forwarded (t.core c).stores off b))),
            bad := if bad then a.1.bad ||| Sys2Proof.Machine.laneMask (fun i => i = x.lane) else a.1.bad }, t)
    | none => a) (ld, s)

/-- A sector that an error has lost is poisoned where it lies (R556, R559): in its L2 line, and in its stack for an error there. -/
def State.spoil (s : State) (sector : Nat) (dram : Bool) : State :=
  let s := match s.mem.line (sector / 4) with
    | some x => { s with mem := s.mem.setLine (sector / 4) (some { x with poison := Nat.lor x.poison (2 ^ (sector % 4)) }) }
    | none => s
  if dram then { s with mem := { s.mem with poison := SMap.put false s.mem.poison sector true } } else s

/-- What an error in structure `struct` leaves of a load on its way (R357, R556, R560): an L1 line is read again; a sector of the L2 or of a stack is
poisoned, with the lanes that read it; any other one poisons the whole load. -/
def State.loadUpset (s : State) (c struct : Nat) (upset : Upset) (ld : Load) : Load × State :=
  let sector := ((ld.lanes.findSome? LoadLane.off).getD 0) / 32
  if struct = 3 then (if ld.again && decide (upset ≠ .none) then s.readAgain c ld else (ld, s))
  else if upset ≠ .lost then (ld, s)
  else if struct = 0x0B || struct = 0x0F then ({ ld with bad := ld.bad ||| ld.inSector sector }, s.spoil sector (struct = 0x0F))
  else ({ ld with bad := ld.mask }, s)

/-- A load meets poison (R119, R145, R560): its group faults at the load, for the lanes that poison reached, with the lowest one's address, and its
younger stores are discarded. -/
def State.loadFaults (s : State) (c : Nat) (ld : Load) : State :=
  let a := match ld.lanes.find? (fun x => ld.bad.getLsbD x.lane) with | some x => x.va | none => 0
  (s.dropYounger c ld.slot ld.turn).faultAt c ld.slot 0x06 ld.pc ld.bad a

/-- LOAD_RETURN (R134, R357, R556, R560): the oldest-but-`n` outstanding load of a core writes its destination and fills
the L1; an error on the way is corrected, or poisons the sector and faults the group. The values of a group that has stopped or
faulted are discarded (R672). -/
def execLoadReturn (c n struct : Nat) (upset : Upset) (s : State) : Answer :=
  .next (match (s.core c).loads[n]? with
    | none => s
    | some ld =>
      if !ld.want.isEmpty && !s.coreCut c then s
      else
        let k := s.core c
        let s := s.setCore c { k with loads := k.loads.eraseIdx n }
        let a := 128 * ld.line
        let slice := 32 * homeDie a + homeSlice a
        let s := s.detect struct (if struct = 0x0F then homeStack a else if struct = 0x0B then slice else c) a upset
        let way := (s.mem.line ld.line).bind L2Line.way
        let s := if struct = 0x0B && decide (upset ≠ .none) then
            (match way with
              | some w => if s.flag (R.cchWayRetired slice) w then s else s.partEvent 2 (16 * slice + w)
              | none => s)
          else if struct = 0x0F && decide (upset ≠ .none) then s.rowEvent a
          else s
        let (ld, s) := s.loadUpset c struct upset (if s.coreCut c then { ld with bad := ld.mask } else ld)
        let s := if ld.bad ≠ 0 then s else ld.fill.foldl (fun s line => s.l1Fill c line ld.keySlot ld.first) s
        match (s.core c).group ld.slot with
        | none => s
        | some g =>
          if g.stopping then s.settleStop c ld.slot
          else if g.stopped || g.fault.isSome then s
          else if ld.bad ≠ 0 then s.loadFaults c ld
          else
            let dest := opd ld.uni ld.dest ld.regs
            let v (l : Nat) : Nat := (SMap.get none ld.vals l).getD 0
            let g := g.write dest ld.mask v
            s.setGroup c ld.slot (if g.hold && (g.wait = 4 || g.wait = 1) then { g with stat := .ready, wait := 0 } else g))

/-- L1_LINE_EXPIRE (R358): a line that the core holds is invalidated; it may be at any time, and no later than 8,192
core cycles after its fill. -/
def execL1LineExpire (c line : Nat) (s : State) : Answer :=
  .next (s.updCore c (fun k => { k with l1 := SMap.put none k.l1 line none }))

end Sys2Proof.Machine
end

