-- ==== Sys2Proof/Machine/Probe.lean ====
section
/-! DEFINITION. What a group waits for in the cycle in which it is looked at (spec 03 R85, R87, R125, R126). -/

namespace Sys2Proof.Machine

/-- Every thread row, as the partition would issue it now without an error on the way. -/
def threadRows (c slot : Nat) : List (State → Answer) :=
  [execNop c slot, execIalu c slot .none, execIaluI c slot, execImul c slot, execImulI c slot, execIcmp c slot, execIcmpI c slot,
    execPlop c slot, execFalu c slot .none, execFaluI c slot, execHalu c slot, execFcmp c slot, execSfu c slot, execCvt c slot,
    execXlane c slot, execSreg c slot, execLds c slot .none, execSts c slot, execLdg c slot, execStg c slot, execAtoms c slot .none,
    execAtomg c slot, execAtomAcq c slot, execAtomRel c slot, execBraAny c slot, execBraAll c slot, execBraU c slot, execCall c slot,
    execRet c slot, execExit c slot, execBarSync c slot, execBarArrive c slot, execFenceFull c slot, execFenceAcq c slot,
    execFenceRel c slot, execTcopyGo c slot, execTcopyWait c slot, signalRow c slot .none, execSemWait c slot, execSemDec c slot,
    execSemRead c slot, execPtsSub c slot, execTraceMark c slot, execMxWait c slot, execMxIssue c slot, execMxDrain c slot,
    execMvIssue c slot]

/-- The group as it would stand if the partition tried its next instruction now: held, with the reason, or past it. -/
def State.probe (s : State) (c slot : Nat) (g : Group) : Group :=
  ((threadRows c slot).findSome? (fun f => match f s with
    | .next t => ((t.core c).group slot).bind (fun h => if h = g then none else some h)
    | _ => none)).getD g

/-- The reasons of R126 that latencies and busy units below 128 ns may give a group's next instruction (R87, R102): OPERAND and BRANCH after an issue of
its own, SCRATCH_REPLAY and UNIT_BUSY after another's. -/
def Core.timingReasons (k : Core) (now slot : Nat) (g : Group) : List Nat :=
  let own := decide (g.last ≠ 0) && decide (now < g.issued + 128)
  let n := match k.word g.pc with | some w => fld w 63 57 | none => 0
  let scratch := n = 0x20 || n = 0x21 || n = 0x24
  (if own then [1, 8] else []) ++ (if scratch && !k.quietFor now slot true then [3] else []) ++
    (if k.quietFor now slot false then [] else [13])

/-- The reason of R126 that holds a group now: of the timing ones, which are no state of the model, the choice `Config.groupWait` (log 90); 0 where
nothing holds it. -/
def State.waitOf (s : State) (c slot : Nat) (g : Group) : Nat :=
  let k := s.core c
  if k.switching then 12
  else if g.fetching.isSome then 9
  else if decide (g.stat = .waiting) && !g.hold then g.wait
  else if g.stopped || g.stopping then 0
  else
    let h := s.probe c slot g
    let held := if h.hold then h.wait else 0
    let pick := Config.groupWait s.now c slot
    if pick ≠ 0 && (k.timingReasons s.now slot g).contains pick && (held = 0 || decide (pick < held)) then pick else held

/-- CORE_GROUP_STATE (R125): a snapshot of the cycle of the read. -/
def State.groupState (s : State) (c slot : Nat) : Word :=
  match (s.core c).group slot with
  | none => 0
  | some g =>
    let why := if g.fault.isSome then 0 else s.waitOf c slot g
    let st := if g.fault.isSome then 3 else if why = 0 then 1 else 2
    BitVec.ofNat 64 (st * 2 ^ 62 + why * 2 ^ 58 + g.block * 2 ^ 52 + ones 32 g.live.toNat * 2 ^ 46 + nfld g.pc 47 3)

end Sys2Proof.Machine
end

