-- ==== Sys2Proof/Machine/View.lean ====
section
/-! DEFINITION. What a read of a register returns where hardware shows something that it holds elsewhere (spec 02 R74, 03 R125,
05 R217, R218, 06 R266, 08 R330, 10 R409, R416, R417, R420, 12 R476, 13 R483, 14 R512, 15 R551, 17 R593, 18 R608, 19 R609). -/

namespace Sys2Proof.Machine

/-! ### Quiet units -/

/-- DSP_STATUS.IDLE (R409). -/
def State.idle (s : State) : Bool :=
  s.cmdList.all (fun e => s.qAdmin e.2.queue) && s.launchList.isEmpty &&
    s.cores.all (fun e => e.2.tcopy.all (fun t => t.2.isNone)) &&
    s.pts.units.all (fun e => e.2.subs.isEmpty && e.2.queue.isEmpty) && s.pts.steps.isEmpty

/-- The quiesce point of R409 and R326. -/
def State.quiesced (s : State) : Bool := s.idle && s.flag R.ethStatus 0

/-- The quiesce point of R35: no launch runs and no command is in flight; entries that wait to be admitted are held (R37). -/
def State.switchQuiet (s : State) : Bool := s.launchList.isEmpty && s.cmdList.all (fun e => e.2.stage = .held)

/-- The quiesce point of a switch is marked once it is reached (R36). -/
def State.markQuiet (s : State) : State :=
  if s.fld R.conStatus 3 0 = 3 && s.switchQuiet then { s with con := { s.con with quiet := true } } else s

/-! ### Security -/

/-- SEC_UNLOCK (R590, R591): what the policy leaves open, and the scopes of a token until they end. -/
def State.unlocked (s : State) : Nat := s.sec.opened ||| (if s.now < s.sec.until_ then s.sec.scopes else 0)

/-- SEC_UNLOCK_LEFT (R593). -/
def State.unlockLeft (s : State) : Nat :=
  if s.sec.scopes = 0 || s.sec.until_ ≤ s.now then 0 else (s.sec.until_ - s.now + 999999999) / 1000000000

/-! ### Cores -/

/-- CORE_MX_STATUS (R218). -/
def Core.mxStatus (k : Core) : Word :=
  let m := k.mx
  let slots (p : Nat → Bool) : Nat := (List.range 8).foldl (fun a i => if p i then a + 2 ^ i else a) 0
  let pending := slots (fun i => m.queue.any (fun t => t.slot = i) || m.flight.any (fun t => t.slot = i) ||
    m.drains.any (fun d => d.slot = i))
  let bad := slots (fun i => m.faults.any (fun f => f.slot = i))
  let mvBad := if m.faults.any (fun f => f.slot = 8) then 1 else 0
  BitVec.ofNat 64 (pending * 2 ^ 40 + bad * 2 ^ 32 + mvBad * 2 ^ 23 + m.mv.length * 2 ^ 20 + m.drains.length * 2 ^ 16 +
    m.flight.length * 2 ^ 8 + m.queue.length * 2 ^ 4)

/-! ### Registers -/

/-- DSP_STATUS (R416). -/
def State.dspStatusView (s : State) : Word :=
  let n := (s.dsp.threads.filter (fun e => e.2.isSome)).length
  let b (x : Bool) (i : Nat) : Nat := if x then 2 ^ i else 0
  (s.rd R.dspStatus &&& 0x18#64) ||| BitVec.ofNat 64 (n * 2 ^ 16 + b s.quiesced 2 + b s.idle 1 + b s.holding 0)

/-- DSP_SLOT_INFO (R417). -/
def State.slotInfo (s : State) : Word :=
  match s.pslot (s.fld R.dspSlotSel 11 0) with
  | none => 0
  | some p =>
    let v := p.versions.getLast?
    let cur := if p.deleting then p.atDelete else ((v.map Version.size).getD 0, (v.map Version.num).getD 0)
    BitVec.ofNat 64 ((if p.deleting then 2 else 1) * 2 ^ 62 + p.tenant * 2 ^ 56 + p.versions.length * 2 ^ 53 +
      cur.1 * 2 ^ 32 + (p.versions.map Version.pins).sum % 2 ^ 16 * 2 ^ 16 +
      cur.2 % 2 ^ 16)

/-- The oldest entry of a queue. -/
def State.oldestCmd (s : State) (q : Nat) : Option Cmd :=
  ((s.cmdList.filter (fun e => e.2.queue = q)).foldl (fun (a : Option (Nat × Cmd)) e =>
    match a with
    | none => some e
    | some b => if e.1 < b.1 then some e else some b) none).map Prod.snd

/-- QUE_STATUS (R420). -/
def State.queStatusView (s : State) (q : Nat) : Word :=
  let b (x : Bool) (i : Nat) : Nat := if x then 2 ^ i else 0
  let waits := match s.oldestCmd q with | some c => c.waiting || c.stage = .admitted | none => false
  (s.rd (R.queStatus q) &&& 0xF0#64) |||
    BitVec.ofNat 64 (b s.holding 3 + b waits 2 + b (s.qStopped q) 1 + b (s.qInflight q ≠ 0) 0)

/-- CTX_RESIDENT (R512). -/
def State.residents (s : State) (n : Nat) : Nat := (s.cores.filter (fun e => e.2.blockList.any (fun b => b.2.ctx = n))).length

/-- MLN_FLOW_STATE (R476). -/
def State.flowState (s : State) : Word :=
  match s.flow? (s.fld R.mlnFlowSel 11 0) with
  | none => 0
  | some f =>
    BitVec.ofNat 64 (f.state * 2 ^ 62 + f.reason * 2 ^ 58 + f.src * 2 ^ 50 + f.dst * 2 ^ 42 + f.slots * 2 ^ 29 +
      f.inPort % 16 * 2 ^ 25 + f.outPort % 16 * 2 ^ 21 + f.late)

/-- PTS_STATUS (R266): a step is open on the units of the clusters that its launch may use. -/
def State.ptsStatusView (s : State) (u : Nat) : Word :=
  let isOpen := s.pts.steps.any (fun p => match s.launch p.launch with | some x => (s.allowed x true).testBit u | none => false)
  s.rd (R.ptsStatus u) ||| BitVec.ofNat 64 ((if isOpen then 2 ^ 15 else 0) + (s.unit u).queue.length)

/-- Does a channel stand in one of its windows (R545): START and LENGTH count memory cycles, of 1 ns, from the start of the frame, cyclically? -/
def State.inWindow (s : State) (k : Nat) : Bool :=
  s.mln.windows.any (fun w => w.1 = k && decide (((s.now - s.mln.frameAt) % 262144 + 262144 - w.2.1 % 262144) % 262144 < w.2.2))

/-- What a read by function `fn` of the register at `off` returns, before any effect of the read. -/
def State.view (s : State) (fn off : Nat) : Word :=
  let b (x : Bool) (i : Nat) : Word := if x then BitVec.ofNat 64 (2 ^ i) else 0
  let at_ (base stride : Nat) : Nat := (off - base) / stride
  let v := s.rd off
  if off = R.clkStatus then v ||| b (s.rd R.clkCdcStall ≠ 0) 15 ||| b (s.rd R.clkCdcOverrun ≠ 0) 14
  else if off = R.pwrStatus then v ||| b s.emergency 7 ||| b (s.cmdList.any (fun e => s.awaitsGrant e.2)) 3
  else if off = R.pwrSchedNow then BitVec.ofNat 64 (s.reservedAt s.now)
  else if off = R.pwrBeGranted then BitVec.ofNat 64 s.grantedW
  else if off = R.secUnlock then BitVec.ofNat 64 s.unlocked
  else if off = R.secUnlockLeft then BitVec.ofNat 64 s.unlockLeft
  else if off = R.glbCap 14 1 then v ||| b (s.rd (R.glbCap 14 0) ≠ 0 && decide (s.unlocked ≠ 0)) 3
  else if off = R.mgtUptime then BitVec.ofNat 64 (s.mgt.uptimeNs / 1000000000)
  else if off = R.dbgStatus then v ||| b (s.dbg.postLeft = some 0) 5
  else if decide (R.dbgFix 0 0 ≤ off) && decide (at_ (R.dbgFix 0 0) 0x100 < 214) && decide ((off - R.dbgFix 0 0) % 0x100 < 192) then
    s.setCount (at_ (R.dbgFix 0 0) 0x100) ((off - R.dbgFix 0 0) % 0x100 / 8)
  else if off = R.dspStatus then s.dspStatusView
  else if off = R.dspSlotInfo then s.slotInfo
  else if inArray off (R.queStatus 0) 0x100 16384 then s.queStatusView (at_ (R.queStatus 0) 0x100)
  else if inArray off (R.ctxResident 0) 0x200 4096 then BitVec.ofNat 64 (s.residents (at_ (R.ctxResident 0) 0x200))
  else if inArray off (R.ctxStatus 0) 0x200 4096 then v ||| b (s.residents (at_ (R.ctxStatus 0) 0x200) ≠ 0) 4
  else if off = R.trnStatus then v ||| b ((List.range 3).any (fun w => s.flag (R.trnFaultLog w) 63)) 7
  else if inArray off (R.ptsStatus 0) 256 16 then s.ptsStatusView (at_ (R.ptsStatus 0) 256)
  else if off = R.mlnFlowState then s.flowState
  else if inArray off (R.memChStatus 0) 8 256 then
    let k := at_ (R.memChStatus 0) 8
    v ||| b (s.inWindow k) 1 ||| b (decide (s.now < SMap.get 0 s.pwr.overrun k)) 0
  else if inArray off (R.mlnLaneErr 0) 8 64 then BitVec.ofNat 64 (min 0xFFFF (s.eventsIn 0 (partKey 0 (at_ (R.mlnLaneErr 0) 8)) s.now))
  else if inArray off 0x1500000 8 4096 then
    if at_ 0x1500000 16 < s.msixSize fn then s.msixWord fn (at_ 0x1500000 16) (at_ 0x1500000 8 % 2) else 0
  else if inArray off 0x1508000 8 32 then
    BitVec.ofNat 64 ((List.range 64).foldl (fun a i =>
      if SMap.get false s.pci.pend (4096 * fn + 64 * at_ 0x1508000 8 + i) then a + 2 ^ i else a) 0)
  else if decide (R.coreGroupState 0 0 ≤ off) then
    let c := at_ (R.coreGroupState 0 0) 0x8000
    let r := (off - R.coreGroupState 0 0) % 0x8000
    if r < 0x200 then s.groupState c (r / 8)
    else if r = 0x400 then (s.core c).mxStatus
    else if 0x410 ≤ r && r ≤ 0x430 then ((s.core c).mx.latched[(r - 0x410) / 8]?).getD v
    else v
  else v

end Sys2Proof.Machine
end

