-- ==== Sys2Proof/Machine/RasRows.lean ====
section
/-! DEFINITION. Lasting faults, sparing and retirement, and the conservation ledgers (spec 16 R563 to R575, 09 R363, 12 R467). -/

namespace Sys2Proof.Machine

/-! ### Lasting faults -/

/-- The kind of a part (R563). -/
def Part.kind : Part → Nat
  | .lane .. => 0
  | .row .. => 1
  | .way .. => 2
  | .core .. => 3

/-- RAS_RETIRE_WHERE (R575). -/
def Part.place : Part → Nat
  | .lane p l => p.val * 8 + l.val
  | .row k pc bg b r =>
    k.toNat * 2 ^ 48 + (if pc then 2 ^ 47 else 0) + bg.val * 2 ^ 45 + b.val * 2 ^ 43 + r.toNat
  | .way d sl w => d.val * 2 ^ 10 + sl.val * 2 ^ 5 + w.val * 1
  | .core c => c.val

/-- What UNIT of an event record names of a part (R600, log 62): the port, package channel or die concerned. -/
def Part.unit : Part → Nat
  | .lane p _ => p.val
  | .row k .. => k.toNat
  | .way d .. => d.val
  | .core c => dieOfCore c.val

/-- The row at a place of RAS_RETIRE_WHERE (R575). -/
def rowAt (place : Nat) : Part :=
  .row (BitVec.ofNat 8 (place / 2 ^ 48)) (place.testBit 47) (Fin.ofNat 4 (place / 2 ^ 45)) (Fin.ofNat 4 (place / 2 ^ 43)) (BitVec.ofNat 18 place)

/-- The part's place as errors count against it: a way under 16 × slice + way. -/
def Part.countKey : Part → Nat
  | .way d sl w => partKey 2 ((32 * d.val + sl.val) * 16 + w.val)
  | p => partKey p.kind p.place

/-- The events of a part that count at its newest one (R563). -/
def State.partEvents (s : State) (p : Part) : Nat :=
  let l := SMap.get [] s.ras.events p.countKey
  s.eventsIn p.kind p.countKey (l.headD 0)

/-- Has a part reached its threshold (R563)? -/
def State.lasting (s : State) (p : Part) : Bool :=
  decide (s.fld (R.rasPolicy p.kind) 15 0 ≤ s.partEvents p) && decide (0 < s.partEvents p)

/-- The lasting fault is logged, alerted, and the part's window restarts empty (R565, R575, R599, R600). -/
def State.retireLog (s : State) (p : Part) (done limit : Bool) : State :=
  let place := BitVec.ofNat 64 p.place
  let s := { s with ras := { s.ras with events := SMap.put [] s.ras.events p.countKey [] } }
  let s := if s.flag R.rasRetireLog 63 then s
    else (s.wr R.rasRetireLog (BitVec.ofNat 64 (2 ^ 63 + (p.kind + 1) * 2 ^ 60 + (if done then 2 ^ 59 else 0) +
        (if limit then 2 ^ 58 else 0) + s.time40))).wr R.rasRetireWhere place
  (s.alert 5).logEvent 0x06 p.unit (p.place % 2 ^ 32)

/-- A part that stays in service (R565): RAS, and REPORT where that is the action. -/
def State.keepPart (s : State) (p : Part) (limit : Bool) : State :=
  let s := (s.retireLog p false limit).raiseCause 0 15
  if limit then s else s.setFlag R.rasStatus 7

/-- Retire a lane (R467): the port retrains on the half that is left; on record before it is reported (R568). -/
def State.retireLane (s : State) (p l : Nat) : State :=
  let s := { s with ras := { s.ras with lanesOut := SMap.put false s.ras.lanesOut (8 * p + l) true } }
  let s := s.setFlag R.mlnStatus 13
  let hit := (s.mln.flows.filter (fun f => f.uses p)).map Flow.num
  let s := s.setMln { s.mln with impaired := s.mln.impaired ++ hit.filter (fun f => !s.mln.impaired.contains f) }
  let s : State := hit.foldl (fun s f => s.declareFlow f 3 2 true) s
  let s := if s.portLanes p = 0 then (if s.portUsable p then s.portDown p else s)
    else if s.portUp p then s.retrain p else s
  s.raiseCause 0 11

/-- Retire a way of a slice (R363): its dirty lines are written, the way is emptied, recorded and shown. -/
def State.retireWay (s : State) (d sl w : Nat) : State :=
  let lines := (s.mem.l2.filter (fun e => homeDie (128 * e.1) = d && homeSlice (128 * e.1) = sl &&
    (match e.2 with | some x => x.way = some w | none => false))).map Prod.fst
  let i := 32 * d + sl
  let s := { s.setMem (lines.foldl MemSys.flushLine s.mem) with
    mgt := { s.mgt with
      ways := SMap.put 0 s.mgt.ways i (Nat.lor (SMap.get 0 s.mgt.ways i) (2 ^ w)),
      wayDays := SMap.upd [] s.mgt.wayDays d (fun l => (s.rd R.mgtPowerOnDays).toNat :: l) } }
  ((s.setFlag (R.cchWayRetired i) w).setFlag R.cchStatus 2).raiseCause 0 10

/-- LASTING_FAULT (R563 to R567): the part reaches its threshold and its action applies. -/
def execLastingFault (part : Part) (s : State) : Answer :=
  .next (
    if !s.lasting part then s
    else
      let retire := decide (s.fld (R.rasPolicy part.kind) 23 16 = 1)
      match part with
      | .core _ => s.keepPart part false
      | .lane p l => if retire then (s.retireLane p.val l.val).retireLog part true false else s.keepPart part false
      | .way d sl w =>
        let i := 32 * d.val + sl.val
        if !retire then s.keepPart part false
        else if s.flag (R.cchWayRetired i) w.val then s
        else if 8 ≤ ones 16 (s.fld (R.cchWayRetired i) 15 0) then (s.setFlag R.rasStatus 4).keepPart part true
        else (s.retireWay d.val sl.val w.val).retireLog part true false
      | .row k .. =>
        let st := k.toNat / 32
        if !retire then s.keepPart part false
        else if s.rd (R.memSpareLeft st) = 0 then s.keepPart part true
        else if 16 ≤ (s.ras.sparing.filter (fun r => r / 2 ^ 48 / 32 = st)).length then s
        else
          let s := { s with ras := { s.ras with sparing := s.ras.sparing ++ [part.place] } }
          (s.retireLog part true false).raiseCause 0 15)

/-- The last spare row of a stack is in use (R566): shown, and the rows that still wait stay in service, logged with LIMIT. -/
def State.sparesOut (s : State) (st : Nat) : State :=
  let here (r : Nat) : Bool := decide (r / 2 ^ 48 / 32 = st)
  let left := s.ras.sparing.filter here
  let s := { s with ras := { s.ras with sparing := s.ras.sparing.filter (fun r => !here r) } }
  left.foldl (fun s r => s.keepPart (rowAt r) true) ((s.setFlag R.rasStatus 3).setFlag R.rasSparesOut st)

/-- ROW_SPARE_DONE (R566, R568): the oldest waiting row of a channel has been copied; poison went with it, and the spare serves from now
on. -/
def execRowSpareDone (channel : Byte) (s : State) : Answer :=
  .next (match s.ras.sparing.find? (fun r => r / 2 ^ 48 = channel.toNat) with
    | none => s
    | some r =>
      let st := channel.toNat / 32
      let left := (s.rd (R.memSpareLeft st)).toNat - 1
      let s := { s with
        ras := { s.ras with sparing := s.ras.sparing.erase r },
        mgt := { s.mgt with
          rows := s.mgt.rows ++ [r], spares := SMap.upd 0 s.mgt.spares st (· + 1),
          rowDays := SMap.upd [] s.mgt.rowDays st (fun l => (s.rd R.mgtPowerOnDays).toNat :: l) } }
      let s := ((s.wr (R.memSpareLeft st) (BitVec.ofNat 64 left)).setFlag R.rasStatus 2).raiseCause 0 15
      if left = 0 then s.sparesOut st else s)

/-- DIE_LINK_REPLAY (R52, R556, R557): a flit is replayed and counted; the eighth replay of one flit is counted as not correctable, and
the link retrains while traffic waits. Whether it comes back is open (log 86): where it does not, the link is down and what needs it
ends as at a stall. -/
def execDieLinkReplay (again : Bool) (s : State) : Answer :=
  .next (
    let s := s.detect 7 0 0 (if again then .lost else .corrected)
    if !again || s.cutOff 9 0 then s
    else s.withFree fun r s =>
      if r % 2 = 0 then s else { s with mem := { s.mem with fenced := (9, 0) :: s.mem.fenced } })

/-! ### Ledgers -/

/-- A count of R570 that the model keeps beside the registers. -/
def State.led570 (s : State) (k i : Nat) : Nat := SMap.get 0 s.ras.ledgers (4 * k + i)

/-- Issued, returned, held and surrendered of ledger `k` as it stands (R570). How many items have crossed between domains is left
open: `crossed` (log 1). -/
def State.ledger (s : State) (crossed k : Nat) : List Nat :=
  let r (off : Nat) : Nat := (s.rd off).toNat
  match k with
  | 0 =>
    let gone := s.led570 0 3 + s.mem.cut
    [crossed + gone, crossed, 0, gone]
  | 1 =>
    let held := (s.cores.map (fun e => e.2.stores.length)).sum
    [s.led570 1 1 + held + s.led570 1 3, s.led570 1 1, held, s.led570 1 3]
  | 2 =>
    let held := (s.regs.filter (fun e => inArray e.1 (R.queInflight 0) 0x100 16384)).foldl (fun a e => a + Machine.fld e.2 6 0) 0
    [s.led570 2 0, s.led570 2 1, held, s.led570 2 3]
  | 3 => [r R.dspPoolPages, r R.dspPoolFree, s.poolUsed.length, 0]
  | 4 => [r R.ptsEntered, r R.ptsPlaced, r R.ptsHeld, r R.ptsDropped + r R.ptsSurrendered]
  | 5 => [r R.tktAllocs, r R.tktFrees, r R.tktActive, 0]
  | 6 => [s.led570 6 0, s.led570 6 1, (s.cmdList.filter (fun e => e.2.powered)).length, s.led570 6 3]
  | k => (List.range 4).map (fun i => r (R.mlnLedger (4 * (k - 7) + i)))

/-- Is Mainline idle (R472)? -/
def State.mlnIdle (s : State) : Bool :=
  s.mln.unacked.isEmpty && s.mln.leaving.isEmpty && s.mln.hold.isEmpty && s.mln.reads.isEmpty

/-- Which ledgers are settled, one bit each (R570). -/
def State.settledMask (s : State) : Nat :=
  let b (x : Bool) (i : Nat) : Nat := if x then 2 ^ i else 0
  let writing := s.dsp.queues.any (fun e => e.2.writing.isSome)
  b true 0 + b true 1 + b (!writing) 2 + b s.dsp.patching.isEmpty 3 + b s.pts.steps.isEmpty 4 + b true 5 + b true 6 +
    b s.mlnIdle 7 + b s.mlnIdle 8 + b s.mlnIdle 9 + b s.mlnIdle 10 + b true 11

/-- All 48 counts on one edge (R571). -/
def State.ledgers (s : State) (crossed : Nat) : List Nat := (List.range 12).flatMap (fun k => s.ledger crossed k)

/-- Does ledger `k` fail its identity? -/
def ledgerBad (l : List Nat) (k : Nat) : Bool :=
  let g (i : Nat) : Nat := l.getD (4 * k + i) 0
  decide (g 0 ≠ g 1 + g 2 + g 3)

/-- FAULT of each settled ledger that fails (R571). -/
def ledgerFaults (l : List Nat) (settled : Nat) : Nat :=
  (List.range 12).foldl (fun a k => if settled.testBit k && ledgerBad l k then a + 2 ^ k else a) 0

/-- The snapshot of R571 is latched, unless one is being taken. -/
def State.snapshot (s : State) : State :=
  if s.flag R.rasStatus 8 then s
  else s.withFree fun r s =>
    { s.setFlag R.rasStatus 8 with ras := { s.ras with snap := some (s.ledgers (r % 2 ^ 63), s.settledMask) } }

/-- LEDGER_SNAPSHOT (R571): a write of RAS_SNAP. -/
def execLedgerSnapshot (fn : Nat) (v : Word) (s : State) : Answer :=
  .next (s.mmio fn R.rasSnap true fun s => if bit v 0 then s.snapshot else s)

/-- LEDGER_SNAPSHOT_DONE (R571): the counts reach their registers and each settled ledger is checked. -/
def execLedgerSnapshotDone (s : State) : Answer :=
  .next (match s.ras.snap with
    | none => s
    | some (l, settled) =>
      let s := (List.range 48).foldl (fun s j => s.wr (R.rasLedger j) (BitVec.ofNat 64 (l.getD j 0))) s
      let bad := ledgerFaults l settled
      let s := s.wr R.rasLedgerState (BitVec.ofNat 64 (2 ^ 63 + bad * 2 ^ 32 + settled))
      let s := { s.clrFlag R.rasStatus 8 with ras := { s.ras with snap := none } }
      if bad = 0 then s
      else (((s.setFlag R.rasStatus 6).raiseCause 0 15).alert 6).logEvent 0x07 0 bad)

end Sys2Proof.Machine
end

