-- ==== Sys2Proof/Machine/Boot.lean ====
section
/-! DEFINITION. Loading a consist, the capability chain, measurements, and switching overlays in service (spec 01 R29 to R49, R670, 08 R326,
R327, 17 R580). -/

namespace Sys2Proof.Machine

/-! ### Loading the sections -/

/-- A sparse table of the values of a list that differ from the unlisted one. -/
def tableOf {α : Type} [DecidableEq α] (d : α) (l : List α) : SMap α :=
  ((List.range l.length).zip l).filter (fun e => !decide (e.2 = d))

/-- The timetable that a TIMETABLE section gives a package (R448, R449). -/
def TimetableSect.table (t : TimetableSect) : Timetable := {
  epoch := t.epoch
  activate := t.activate
  flows := t.flows.map (fun f => {
    num := f.num, src := f.src, dst := f.dst, slots := f.slots, inPort := f.inPort, outPort := f.outPort, state := 1,
    reason := 0, late := 0, declared := false })
  slotMap := tableOf 0xFFFF t.slots.flatten
  windows := t.windows }

/-- What the timetable says of a flow (R448). -/
def Flow.entry (f : Flow) : List Nat := [f.num, f.src, f.dst, f.slots, f.inPort, f.outPort]

/-- Is a timetable the one in force? -/
def State.timetableHeld (s : State) (t : Timetable) : Bool :=
  s.fld R.mlnEpoch 31 0 = t.epoch && s.mln.slotMap = t.slotMap && s.mln.windows = t.windows &&
    s.mln.flows.map Flow.entry = t.flows.map Flow.entry

/-- LOCAL_SPLIT, WAYMASK and SEEDS (R20, R21). -/
def State.loadShares (s : State) (sec : Nat → List Byte) : State :=
  let s := { s with con := { s.con with
    split := tableOf 0 ((sec 2).map (fun b => b.toNat)),
    seeds := tableOf 0 ((pieces 8 (sec 0xA) 4096).map (fun b => BitVec.ofNat 64 (leNat b))) } }
  (List.range 16).foldl (fun s m => s.wr (R.cchWaymask m) (BitVec.ofNat 64 (num (sec 3) (2 * m) 2))) s

/-- MESH (R22, R440, R441, R443): a port whose role changes trains or loses its power; what no port leads to any more is lost. -/
def State.loadMesh (s : State) (b : List Byte) (boot : Bool) : State :=
  let (n, w, h) := meshOf b
  let s := ({ s with con := { s.con with node := n, meshW := w, meshH := h } }).putFlag R.mlnStatus 1 (decide (n = 0))
  ((List.range 8).foldl (fun s p =>
    let r := num b (4 + p) 1
    if !boot && s.fld (R.mlnPortCfg p) 1 0 = r then s
    else (s.wr (R.mlnPortCfg p) (BitVec.ofNat 64 r)).setPort p (if r = 1 then 1 else 0) 0) s).markLost 1

/-- ETHERNET (R23, R494, R509). -/
def State.loadEthernet (s : State) (b : List Byte) : State :=
  (List.range 2).foldl (fun s p =>
    let on := if (num b 0 1).testBit p then 1 else 0
    let storage := if p = 1 then num b 1 1 else 0
    (s.wr (R.ethPortCfg p) (BitVec.ofNat 64 (num b (2 + p) 1 * 2 ^ 58 + storage * 2 ^ 56 + on * 2 ^ 55 +
      num b (4 + p) 1 * 2 ^ 48 + num b (6 + p) 1 * 2 ^ 40))).wr (R.ethPortMac p) (BitVec.ofNat 64 (num b (8 + 8 * p) 8))) s

/-- PCIE (R24). -/
def State.loadPcie (s : State) (b : List Byte) : State :=
  { s with con := { s.con with totalVfs := num b 0 1, pfVectors := num b 2 2, vfVectors := num b 4 1 } }

/-- TIMETABLE (R35, R452): a base's installs at reset; in a switch a timetable that differs from the one in force is held pending, a replacement
until its ACTIVATE_FRAME. -/
def State.loadTimetable (s : State) (b : List Byte) (boot replaced : Bool) : State :=
  let sec := timetableOf b
  let t := sec.table
  let s := s.wr R.memWindowShare (BitVec.ofNat 64 (windowShare sec))
  if boot then s.installTimetable t
  else if s.timetableHeld t then
    ((s.setMln { s.mln with pending := none }).setFld R.mlnEpoch 63 32 0).clrFlag R.mlnStatus 2
  else
    let t := if replaced then t else { t with activate := 0 }
    ((s.setMln { s.mln with pending := some t }).setFld R.mlnEpoch 63 32 t.epoch).setFlag R.mlnStatus 2

/-- POWER (R536, R540, R551): a cluster that becomes a lane's is not gated. -/
def State.loadPower (s : State) (b : List Byte) : State :=
  let w (o : Nat) : Nat := num b o 4
  let s := s.wr R.pwrPartition (BitVec.ofNat 64 (w 0 * 2 ^ 48 + w 0x14 * 2 ^ 32 + w 0x10 * 2 ^ 16 + w 0xC))
  let s := (List.range 8).foldl (fun s c =>
    (s.wr (R.pwrClass c) (BitVec.ofNat 64 (num b (0x20 + 8 * c) 8))).wr (R.dspLaneClusters c)
      (BitVec.ofNat 64 (num b (0x60 + 2 * c) 2))) s
  let lanes := s.laneMask
  { s with pwr := { s.pwr with
    excursionW := w 4, excursionUs := w 8, dieW := w 0x18, gated := s.pwr.gated.filter (fun n => !lanes.testBit n) } }

/-- RAS (R569). -/
def State.loadRas (s : State) (b : List Byte) : State :=
  let s := (List.range 4).foldl (fun s m =>
    s.wr (R.rasPolicy m) (BitVec.ofNat 64 (num b (8 * m + 4) 4 * 2 ^ 32 + num b (8 * m + 2) 1 * 2 ^ 16 + num b (8 * m) 2))) s
  { s with con := { s.con with scrubHours := num b 0x20 4 } }

/-- DEFAULTS but START_SLOT (R25). -/
def State.loadDefaults (s : State) (b : List Byte) : State :=
  let s := (List.range 16).foldl (fun s n =>
    (s.adopt (R.seqBarGuard n)).wr (R.seqBarGuard n) (BitVec.ofNat 64 (num b 4 4))) s
  let s := (s.wr R.dbgTraceCfg (BitVec.ofNat 64 (num b 0x10 4 * 2 ^ 32 + num b 0xD 1 * 2 ^ 8 + num b 0xC 1))).wr R.dbgTraceFilter
    (BitVec.ofNat 64 (num b 0xE 2))
  { s with con := { s.con with queTimeout := num b 8 4, barGuard := num b 4 4 } }

/-- SECURITY (R327, R591, R592): scopes whose policy is OPEN are granted. -/
def State.loadSecurity (s : State) (b : List Byte) : State :=
  let policy := num b 0 2
  let keys := (List.range 8).map (fun i => beNat ((b.drop (8 + 16 * i)).take 16))
  let on := (List.range 4).foldl (fun a i => if nfld policy (2 * i + 1) (2 * i) = 2 then a + 2 ^ i else a) 0
  { s with
    con := { s.con with policy := policy, permit := (num b 4 1).testBit 0, accepted := keys.filter (fun k => k ≠ 0) },
    sec := { s.sec with opened := on } }

/-- Every consist-loaded field from the base and at most one overlay (R29). -/
def State.loadFields (s : State) (base : List Byte) (ovl : Option (List Byte)) (boot : Bool) : State :=
  let sec := effective base ovl
  let replaced := match ovl with | some o => (findSection o 7).isSome | none => false
  let s := (((s.loadShares sec).loadMesh (sec 4) boot).loadEthernet (sec 5)).loadPcie (sec 6)
  ((((s.loadTimetable (sec 7) boot replaced).loadPower (sec 8)).loadRas (sec 9)).loadDefaults (sec 0xB)).loadSecurity (sec 0xC)

/-! ### Chain and measurements -/

/-- The entries of the chain in offset order (R45): NEXT, VERSION 1 and ID, then FEATURES. -/
def State.putChain (s : State) (l : List (Nat × Nat)) : State :=
  let s := (List.range 64).foldl (fun s i => (s.wr (R.glbCap i 0) 0).wr (R.glbCap i 1) 0) s
  ((List.range l.length).zip l).foldl (fun s e =>
    let next := if e.1 + 1 = l.length then 0 else R.glbCap (e.1 + 1) 0
    (s.wr (R.glbCap e.1 0) (BitVec.ofNat 64 (next * 2 ^ 32 + 2 ^ 16 + e.2.1))).wr (R.glbCap e.1 1) (BitVec.ofNat 64 e.2.2)) s

/-- The chain of a loaded consist (R47 to R49). -/
def State.chain (s : State) : State :=
  let mesh := (List.range 8).foldl (fun a p => if s.fld (R.mlnPortCfg p) 1 0 = 1 then a + 2 ^ p else a) 0
  let eth := s.fld (R.ethPortCfg 0) 55 55 + s.fld (R.ethPortCfg 1) 55 55 * 2 + s.fld (R.ethPortCfg 1) 56 56 * 4
  let small := if s.con.split.isEmpty then 0 else 2 ^ 16
  s.putChain [
    (1, s.fld R.conActive 31 0 * 2 ^ 32 + s.fld R.conStatus 27 24 * 2 ^ 24 + s.fld R.conStatus 23 20 * 2 ^ 20),
    (2, small + 8 * 2 ^ 8 + 12), (3, 7), (4, 0x1F), (5, 8 * 2 ^ 16 + 1024), (6, 0x100000),
    (7, (s.con.meshH - 1) * 2 ^ 20 + (s.con.meshW - 1) * 2 ^ 16 + nodeY s.con.node * 2 ^ 12 + nodeX s.con.node * 2 ^ 8 + mesh),
    (8, eth), (9, s.con.totalVfs), (0xA, (if s.con.permit then 1 else 0) + 2), (0xB, 64), (0xC, 1),
    (0xD, 8 * 2 ^ 16 + s.fld R.pwrPartition 63 48), (0xE, s.fld R.memWindowShare 15 0), (0xF, 7)]

/-- The measurement of an image (R34, R580): SHA-384 of bytes 0 to LENGTH − 1. -/
def measure (b : List Byte) : Nat := Config.sha384 (b.take (imgLen b))

/-- 48 bytes of a measurement. -/
def hashBytes (h : Nat) : List Byte := (leBytes 48 h).reverse

/-- An overlay takes effect, or none (R34, R42, R580): CON_STATUS, CON_ACTIVE, measurements 4 and 5, the chain. -/
def State.showOverlay (s : State) (slot : Nat) (ovl : Option (List Byte)) : State :=
  let mode := match ovl with | some o => num o 7 1 | none => 0
  let id := match ovl with | some o => num o 8 4 | none => 0
  let m := match ovl with | some o => measure o | none => 0
  let s := ((s.setFld R.conStatus 27 24 slot).setFld R.conStatus 23 20 mode).setFld R.conActive 63 32 id
  let hist := if ovl.isSome then Config.sha384 (hashBytes s.sec.history ++ hashBytes m ++ leBytes 1 mode) else s.sec.history
  ({ s with sec := { s.sec with ovlMeas := m, history := hist } }).chain

/-- A verification failed (R30, R44). -/
def State.conFail (s : State) (e : Nat × Nat) : State := s.wr R.conError (BitVec.ofNat 64 (e.2 * 2 ^ 16 + e.1))

/-- CONSIST_COUNTER and FW_COUNTER (R576). -/
def State.conCounter (s : State) : Nat := s.sec.fuses.conCount
def State.fwCounter (s : State) : Nat := s.sec.fuses.fwCount

/-! ### Loading at reset -/

/-- The state of R32 (R670). -/
def State.noConsist (s : State) : State :=
  let s := (s.setFld R.conStatus 3 0 0).putChain [(1, 0xF * 2 ^ 24), (0xC, 1)]
  { s with boot := { s.boot with warm := none, waiting := false } }

/-- A base is loaded (R31, R33, R34, R41, R327, R568): its fields, CON_START_SLOT unless software wrote it, TRN_MODE, the retired ways. -/
def State.loadBase (s : State) (slot : Nat) (b : List Byte) : State :=
  let s := { s with con := { s.con with base := Mem.store [] 0 b, baseLen := b.length } }
  let s := s.loadFields b none true
  let s := if s.boot.startWritten then s else s.wr R.conStartSlot (BitVec.ofNat 64 (num (sectionOf b 0xB) 0 1))
  let s := (s.setFld R.conStatus 8 8 slot).wr R.conActive (BitVec.ofNat 64 (num b 8 4))
  let p := if s.con.permit then 1 else 0
  let s := s.wr R.trnMode (BitVec.ofNat 64 (2 * p + p))
  let s := (List.range 64).foldl (fun s i => s.wr (R.cchWayRetired i) (BitVec.ofNat 64 (SMap.get 0 s.mgt.ways i))) s
  { s with sec := { s.sec with baseMeas := measure b, baseVersion := num b 0x1C 4 } }

/-- Why the base of slot `i` is refused, if it is (R30, R33). -/
def State.baseFault (s : State) (i : Nat) (bad : Bool) : Option (Nat × Nat) := s.verifySlot (baseSlot i) 0x400000 1 s.conCounter bad

/-- A refused base shows its error and its slot (R33, R44). -/
def State.baseRefused (s : State) (i : Nat) (e : Nat × Nat) : State := (s.conFail e).setFlag R.conStatus (16 + i)

/-- The base of slot `i` is loaded, and step 7 has finished (R33, R634). -/
def State.baseTaken (s : State) (i : Nat) : State :=
  (s.loadBase i (slotImage s.mgt.flash (baseSlot i) 0x400000)).setFld R.pwrBootStatus 19 16 7

/-- CONSIST_LOAD (R31 to R33, R578, R634): steps 6 and 7 of the start. The operands say whether the flash reads of slots A and B had uncorrectable
errors. -/
def execConsistLoad (badA badB : Bool) (s : State) : Answer :=
  .next (
    if s.fld R.pwrBootStatus 19 16 ≠ 5 || s.fld R.conStatus 3 0 ≠ 1 || s.boot.stopped then s
    else
      let first := s.fld R.conBootSlot 0 0
      let bad (i : Nat) : Bool := if i = 0 then badA else badB
      match s.baseFault first (bad first) with
      | none => s.baseTaken first
      | some e =>
        let s := s.baseRefused first e
        match s.baseFault (1 - first) (bad (1 - first)) with
        | none => (s.baseTaken (1 - first)).raiseCause 0 8
        | some f =>
          let s := s.baseRefused (1 - first) f
          let s := s.logEvent 0x08 first (e.2 * 2 ^ 16 + e.1)
          (s.logEvent 0x08 (1 - first) (f.2 * 2 ^ 16 + f.1)).noConsist)

/-- The loaded base. -/
def State.baseImage (s : State) : List Byte := s.con.base.bytes 0 s.con.baseLen

/-- The package runs (R634): step 8 has finished, and step 9 where PERST# is deasserted. -/
def State.startRun (s : State) : State :=
  let s := (s.setFld R.conStatus 3 0 2).setFld R.pwrBootStatus 19 16 (if s.boot.perst then 8 else 9)
  { s with boot := { s.boot with warm := none, waiting := false } }

/-- START_OVERLAY (R31, R634): step 8. The overlay of CON_START_SLOT, or the base alone; then the package runs. -/
def execStartOverlay (bad : Bool) (s : State) : Answer :=
  .next (
    if s.fld R.pwrBootStatus 19 16 ≠ 7 || s.fld R.conStatus 3 0 ≠ 1 || s.boot.stopped then s
    else
      let n := s.fld R.conStartSlot 3 0
      let img := slotImage s.mgt.flash (ovlSlot n) 0x100000
      let s := if n = 0xF then s.showOverlay 0xF none
        else match s.verifySlot (ovlSlot n) 0x100000 2 s.conCounter bad with
          | some e => (s.conFail e).showOverlay 0xF none
          | none => (s.loadFields s.baseImage (some img) true).showOverlay n (some img)
      s.startRun)

/-! ### Switching in service -/

/-- The switch is abandoned (R36): the error, SWITCH_FAIL, the configuration vector. -/
def State.abandon (s : State) (e : Nat × Nat) : State :=
  let s := (((s.conFail e).setFld R.conStatus 3 0 2).setFlag R.conStatus 12).raiseCause 0 14
  { s with con := { s.con with next := none } }

/-- Does a write of CON_CONTROL name no slot that a REQ may name (R43)? -/
def noSlot (v : Word) : Bool := !bit v 4 && decide (8 ≤ Machine.fld v 11 8) && decide (Machine.fld v 11 8 ≤ 14)

/-- SWITCH_REQUEST (R35, R39, R40, R43): a write of CON_CONTROL with REQ. What it names is kept for the steps that follow. A write
during a switch is ignored whole and sets BUSY_REJECT alone, be its SLOT one of 8 to 14 or not; in NO_CONSIST and LOADING only SLOT and
SOURCE are written, with no flag (log 81). -/
def execSwitchRequest (fn : Nat) (v : Word) (s : State) : Answer :=
  .next (s.mmio fn R.conControl true fun s =>
    if !bit v 0 then s
    else if s.fld R.conStatus 3 0 = 3 || s.fld R.conStatus 3 0 = 4 then s.setFlag R.conStatus 15
    else
      let s := s.wr R.conControl (v &&& 0xF10#64)
      if noSlot v then s.setFlag R.conStatus 14
      else if s.fld R.conStatus 3 0 ≠ 2 then s
      else
        let a := (s.rd R.conOvlAddr).toNat
        let len := (s.rd R.conOvlLen).toNat
        let src := bit v 4
        let s := { s.setFld R.conStatus 3 0 3 with con := { s.con with
          next := none, asked := s.now, reqSlot := Machine.fld v 11 8, reqMem := src, reqAddr := a, reqLen := len, quiet := false } }
        if src && !s.unlocked.testBit 3 then (s.setFlag R.secStatus 13).abandon (0xF, 0)
        else if src && (decide (a % 256 ≠ 0) || decide (localEnd < a + len)) then s.abandon (2, 0)
        else s.markQuiet)

/-- OVERLAY_VERIFY_DONE (R35, R36, R603): the overlay that the request named is read and verified; a slot that an update is writing is
read later. A poisoned buffer counts as consumed poison and fails as a flash read error does (log 82). -/
def execOverlayVerifyDone (bad : Bool) (s : State) : Answer :=
  .next (
    let writing := match s.mgt.update with | some u => u.writing | none => false
    if s.fld R.conStatus 3 0 ≠ 3 || s.con.next.isSome || (!s.con.reqMem && writing) then s
    else
      let s := s.markQuiet
      if !s.con.reqMem && s.con.reqSlot = 0xF then { s with con := { s.con with next := some ([], 0) } }
      else
        let room := if s.con.reqMem then min s.con.reqLen 0x100000 else 0x100000
        let r : List Byte × Bool × State :=
          if s.con.reqMem then
            let m := s.memRead s.con.reqAddr room 7 0 true
            (m.1.take (max 64 (imgLen m.1)), m.2.1, m.2.2.poisonIf m.2.1)
          else (slotImage s.mgt.flash (ovlSlot s.con.reqSlot) 0x100000, bad, s)
        match verifyImage (r.2.2.signers 2) r.1 r.2.1 room 2 r.2.2.conCounter r.2.2.baseImage with
        | some e => r.2.2.abandon e
        | none => { r.2.2 with con := { r.2.2.con with next := some (Mem.store [] 0 r.1, r.1.length) } })

/-- QUIESCE_TIMEOUT (R36): the quiesce point is not reached in time. -/
def execQuiesceTimeout (s : State) : Answer :=
  .next (
    let lim := (s.rd R.conQuiesceLimit).toNat
    if s.fld R.conStatus 3 0 ≠ 3 || lim = 0 || decide (s.now < s.con.asked + 1000 * lim) || s.con.quiet || s.switchQuiet then s
    else s.abandon (0xE, 0))

/-- Seeds reloaded for the ACTIVE contexts (R21), as after a driver's write. -/
def State.reseed (s : State) : State :=
  ((List.range 4096).filter (fun n => s.ctxState n = 1)).foldl (fun s n =>
    (s.wrLate (R.ctxSeed n) (SMap.get 0 s.con.seeds n)).setFlag (R.ctxStatus n) 3) s

/-- What a switch puts in force at the quiesce point (R29, R35, R49): cores cleared, fields and seeds reloaded, the chain rebuilt, the
switch counted and told. -/
def State.switchTo (s : State) (slot : Nat) (ovl : Option (List Byte)) : State :=
  let s := (s.mapCores (fun _ k => k.clear)).loadFields s.baseImage ovl false
  let s := (s.reseed).showOverlay slot ovl
  let s := ((s.count R.conSwitchCount 32 1).setFld R.conStatus 3 0 2).setFlag R.conStatus 13
  ({ s with con := { s.con with next := none } }).raiseCause 0 14

/-- SWITCH_APPLY (R29, R35, R49): at the quiesce point core state is cleared, the fields are reloaded, the chain is rebuilt. -/
def execSwitchApply (s : State) : Answer :=
  .next (match s.con.next with
    | none => s
    | some (m, len) =>
      if s.fld R.conStatus 3 0 ≠ 3 || !s.switchQuiet then s
      else
        let img := m.bytes 0 len
        let ovl := if len = 0 then none else some img
        let slot := if s.con.reqMem then 8 else s.con.reqSlot
        s.switchTo slot ovl)

/-- MODE_SWITCH (R326): a write of TRN_MODE. -/
def execModeSwitch (fn : Nat) (mirror : Bool) (s : State) : Answer :=
  .next (s.mmio fn R.trnMode true fun s =>
    let denied := mirror && !s.flag R.trnMode 1
    let busy := !s.quiesced || !s.cmdList.isEmpty
    let s' := if denied then s.setFlag R.trnStatus 1 else s
    let s' := if busy then s'.setFlag R.trnStatus 0 else s'
    if denied || busy then s' else (s.putFlag R.trnMode 0 mirror).flushTlbs)

end Sys2Proof.Machine
end

