-- ==== Sys2Proof/Machine/Clocks.lean ====
section
/-! DEFINITION. The reference clock and the crossings between clock domains (spec 02 R56, R63 to R75). -/

namespace Sys2Proof.Machine

/-- REF_DEVIATION (R56, R73, R74): a measurement of the reference against the standby crystal, in 0.1 ppm. Beyond ±100 ppm REF_OK is clear; the
alert and the log come when it clears. -/
def execRefDeviation (ppm : BitVec 16) (s : State) : Answer :=
  .next (
    if !s.boot.main then s
    else
      let was := s.flag R.clkStatus 5
      let ok := decide (ppm.toInt.natAbs ≤ 1000)
      let s := (s.wr R.clkRefPpm (BitVec.ofNat 64 ppm.toNat)).putFlag R.clkStatus 5 ok
      if ok || !was then s else (s.alert 1).withFree fun r s => s.logEvent 0x02 0 r)

/-- Does a group hold event crossings (R64)? -/
def eventGroup (g : Nat) : Bool := g = 0 || g = 1 || g = 6 || g = 7

/-- An event reaches its line: the accumulator holds at 63 (R67). -/
def EventLine.arrive (e : EventLine) : EventLine := if e.acc < 63 then { e with acc := e.acc + 1 } else { e with full := true }

/-- `n` events reach a line. -/
def EventLine.arrivals (e : EventLine) : Nat → EventLine
  | 0 => e
  | n + 1 => EventLine.arrivals e.arrive n

/-- A transfer: the whole count moves across and the accumulator restarts at zero (R67). -/
def EventLine.transfer (e : EventLine) : EventLine := ⟨0, false, e.acc⟩

/-- A transfer window of group `g` in which `n` events reach its line (R67): the count moves across; where the accumulator would have
passed 63, the sticky bit is set and the window counted. -/
def State.eventWindow (s : State) (g n : Nat) : State :=
  let e := (SMap.get ⟨0, false, 0⟩ s.mem.events g).arrivals n
  let s := { s with mem := { s.mem with events := SMap.put ⟨0, false, 0⟩ s.mem.events g e.transfer } }
  if e.full then (s.setFlag R.clkCdcOverrun g).count R.clkCdcOverrunCount 32 1 else s

/-- CDC_OVERRUN (R67): a transfer window in which an accumulator of the group saturates, 64 events or more. -/
def execCdcOverrun (group : Fin 9) (s : State) : Answer :=
  .next (if eventGroup group.val then s.eventWindow group.val 64 else s)

/-- The instance that CLK_CDC_STALL_LOG shows (R75): a core, a package stack, or zero. -/
def stallInstance (group inst : Nat) : Nat := if group < 4 then inst else 0

/-- Does an instance belong to a group (R64, R75)? -/
def stallOk (group inst : Nat) : Bool :=
  if group < 2 then decide (inst < 192) && dieOfCore inst = group
  else if group < 4 then decide (inst < 8) && inst / 4 = group - 2
  else true

/-- The domains on the two sides of a group's crossings, by the codes of R57 (R64); CLK_TS is distributed to every domain. -/
def groupSides (group : Nat) : List (Nat × Nat) :=
  match group with
  | 0 => [(0, 2)]
  | 1 => [(0, 2)]
  | 2 => [(2, 4)]
  | 3 => [(2, 4)]
  | 4 => [(2, 1)]
  | 5 => [(2, 3)]
  | 6 => [(1, 6)]
  | 7 => [(6, 7)]
  | _ => [(5, 0), (5, 1), (5, 2), (5, 3), (5, 4), (5, 6), (5, 7)]

/-- Are the two domains the two sides of a crossing of the group? -/
def sidesOk (group detect stopped : Nat) : Bool :=
  (groupSides group).any (fun p => p = (detect, stopped) || p = (stopped, detect))

/-- Does a core's crossing hold a request that waits for a response or a credit (R69)? -/
def State.coreWaits (s : State) (c : Nat) : Bool :=
  let k := s.core c
  !k.loads.isEmpty || !k.stores.isEmpty || k.tcopy.any (fun e => match e.2 with | some t => t.fault.isNone | none => false) ||
    k.groupList.any (fun e => e.2.fetching.isSome) ||
    s.pci.reqs.any (fun r => match r.who with | .thread d _ _ => d = c | .fetch d _ _ => d = c | .tcopy d _ => d = c)

/-- Does a crossing of a group hold a request that waits (R69, R72)? Parked crossings of a gated cluster hold none. The requests
that cross groups 2 to 4 and 6 to 8 are no state of the model between two commands: there the command itself says that one waits (log 87). -/
def State.halfWaits (s : State) (g i : Nat) : Bool :=
  if g < 2 then !s.pwr.gated.contains (clusterOf i) && s.coreWaits i
  else if g = 5 then !(s.mln.unacked.isEmpty && s.mln.reads.isEmpty && s.mln.leaving.isEmpty && s.mln.hold.isEmpty)
  else true

/-- What already waits at a core's crossing is answered at once (R70): loads with poison, stores discarded and counted. A stopped core's clock
stops its groups. -/
def State.fenceCore (s : State) (c : Nat) (stopped : Nat) : State :=
  let n := (s.core c).stores.length
  let s := s.updCore c (fun k => { k.keepStores (fun _ => false) with
    loads := k.loads.map (fun l => { l with want := [], bad := l.mask })
    clockStopped := k.clockStopped || decide (stopped = 0) })
  let gone (r : HostReq) : Bool := match r.who with | .thread core _ _ => core = c | .fetch core _ _ => core = c | .tcopy core _ => core = c
  ((({ s with pci := { s.pci with reqs := s.pci.reqs.filter (fun r => !gone r) } }).rled 7 n).rled 3 n).settleFaults c

/-- What already waits at the crossing towards Mainline is answered at once (R70, R472): messages that no acknowledgement will reach and held ones
are surrendered, with the credits they hold, and reads end with DATA_POISON. -/
def State.fenceMainline (s : State) : State :=
  let gone := s.mln.unacked
  let credit := (s.mln.leaving.filter (fun l => l.credit)).foldl (fun a l => a + l.msg.size / 16) 0
  let units := s.mln.hold.foldl (fun a m => a + m.size / 16) 0
  let transit := (s.mln.leaving.filter (fun l => l.transit)).foldl (fun a l => a + l.msg.size / 16) 0
  let link := (s.rd (R.mlnLedger 10)).toNat
  let reads := s.mln.reads
  let s := s.setMln { s.mln with unacked := [], leaving := [], hold := [], reads := [], taken := [], owed := [] }
  let s := ((s.led 0 3 gone.length).unhold 0 gone.length).rled 3 (gone.length)
  let s := ((s.led 1 3 credit).unhold 1 credit).led 2 3 link
  let s := ((s.unhold 2 link).led 3 3 (units + transit)).unhold 3 (units + transit)
  let s := gone.foldl (fun s u => s.tellLost u.core) s
  reads.foldl (fun s r => s.readFails r.who 0x06) s

/-- CDC_STALL (R69 to R72, R75): counted, logged, the crossing fenced, what waits there answered, the error vector raised once per group: again
only after software has cleared the group's bit (log 88). `stopped` and `detect` are the codes of the silent domain and of the half that
declares the stall, the two sides of the group. Where nothing waits, or the crossing is parked or fenced already, no stall is declared. -/
def execCdcStall (group : Fin 9) (inst : Byte) (detect stopped : Fin 8) (s : State) : Answer :=
  .next (
    let g := group.val
    let i := stallInstance g inst.toNat
    if !stallOk g i || !sidesOk g detect.val stopped.val || s.cutOff g i || !s.halfWaits g i then s
    else
      let first := !s.flag R.clkCdcStall g
      let log := 2 ^ 63 + detect.val * 2 ^ 59 + stopped.val * 2 ^ 55 + g * 2 ^ 48 + i * 2 ^ 40 + s.time40
      let s := ((s.setFlag R.clkCdcStall g).count R.clkCdcStallCount 32 1).fillLog R.clkCdcStallLog (BitVec.ofNat 64 log)
      let s := { s with mem := { s.mem with fenced := (g, i) :: s.mem.fenced } }
      let s := if g < 2 then s.fenceCore i stopped.val else if g = 5 then s.fenceMainline else s
      let s := if first then s.raiseCause 0 9 else s
      (s.alert 2).withFree fun r s => s.logEvent 0x03 i r)

end Sys2Proof.Machine
end

