-- ==== Sys2Proof/Machine/Sema.lean ====
section
/-! DEFINITION. Writes of a semaphore's registers, and its inspection (spec 11 R421 to R424, R435 to R439). -/

namespace Sys2Proof.Machine

/-- A discarded write (R421, R424, R435). -/
def State.semBusy (s : State) : State := s.setFlag R.dbgSemStatus 0

/-- The record of a semaphore is cleared (R424). -/
def State.semClear (s : State) (n : Nat) : State :=
  let s := ((s.wr (R.semValue n) 0).wr (R.semLast n) 0).wr (R.semLastCookie n) 0
  { s with sem := { s.sem with lastTime := SMap.put 0 s.sem.lastTime n 0 } }

/-- An ACTIVE or BROKEN semaphore becomes FREE (R424): its waiters are released with SEM_BROKEN, its record is zero. -/
def State.semFree (s : State) (n : Nat) : State :=
  let l := s.semWaiters n
  let s := (s.setWaiters n []).wr (R.semCfg n) 0
  (l.foldl (fun s w => s.wake w stSemBroken) s).semClear n

/-- An 8-byte write of SEM_CFG by the physical function (R422, R424). -/
def State.semCfgWrite (s : State) (n : Nat) (v : Word) : State :=
  let st := s.semState n
  let to_ := Machine.fld v 63 62
  let owner := Machine.fld v 53 42
  let same := decide (owner = s.fld (R.semCfg n) 53 42)
  if to_ = st && same then
    let s := if bit v 60 then s.clrFlag (R.semCfg n) 60 else s
    if st = 1 then s.putFlag (R.semCfg n) 61 (bit v 61) else s
  else if st = 0 && to_ = 1 then
    if s.fld (R.ctxCfg owner) 63 62 = 1 then
      (s.wr (R.semCfg n) (BitVec.ofNat 64
        (2 ^ 62 + (if bit v 61 then 2 ^ 61 else 0) + s.tenantOf owner * 2 ^ 54 + owner * 2 ^ 42))).semClear n
    else s.semBusy
  else if st = 1 && to_ = 2 then s.semBreak n none
  else if (st = 1 || st = 2) && to_ = 0 then s.semFree n
  else s.semBusy

/-- SEM_ACTIVATE (R424): a write of STATE 1 with OWNER and REMOTE. -/
def execSemActivate (fn n ctx : Nat) (remote : Bool) (s : State) : Answer :=
  .next (s.mmio fn (R.semCfg n) true fun s =>
    s.semCfgWrite n (BitVec.ofNat 64 (2 ^ 62 + (if remote then 2 ^ 61 else 0) + ctx % 4096 * 2 ^ 42)))

/-- SEM_REMOTE_CHANGE (R424): a write with STATE 1 and OWNER unchanged. -/
def execSemRemoteChange (fn n : Nat) (remote : Bool) (s : State) : Answer :=
  .next (s.mmio fn (R.semCfg n) true fun s =>
    s.semCfgWrite n (BitVec.ofNat 64
      (2 ^ 62 + (if remote then 2 ^ 61 else 0) + s.fld (R.semCfg n) 53 42 * 2 ^ 42)))

/-- SEM_BREAK (R424, R437): a write of STATE 2. -/
def execSemBreak (fn n : Nat) (s : State) : Answer :=
  .next (s.mmio fn (R.semCfg n) true fun s => s.semCfgWrite n (BitVec.ofNat 64 (2 ^ 63 + s.fld (R.semCfg n) 53 42 * 2 ^ 42)))

/-- SEM_FREE (R424): a write of STATE 0. -/
def execSemFree (fn n : Nat) (s : State) : Answer :=
  .next (s.mmio fn (R.semCfg n) true fun s => s.semCfgWrite n 0)

/-- A value is forced (R435), and logged in its four ways (R436). -/
def State.semForce (s : State) (fn n : Nat) (v : Word) : State :=
  if s.semState n ≠ 1 then s.semBusy
  else
    let old := s.semVal n
    let new := Machine.fld v 47 0
    let s := (s.wr (R.semValue n) (BitVec.ofNat 64 new)).semStamp n 5 0 0 s.con.node 0
    let s := (s.count R.dbgSemForceCount 32 1).fillLog R.dbgSemForceLog
      (BitVec.ofNat 64 (2 ^ 63 + fn * 2 ^ 56 + n * 2 ^ 40 + s.time40))
    let s := s.trace ⟨0x08, 8, 0, 0, 0, n * 2 ^ 48 + old, fn * 2 ^ 58 + new⟩
    s.semServe n

/-- SEM_FORCE (R435, R436): a write of SEM_VALUE by the physical function or the function of TENANT. -/
def execSemForce (fn n : Nat) (v : Word) (s : State) : Answer :=
  .next (s.mmio fn (R.semValue n) true fun s => s.semForce fn n v)

/-- WHERE of R439. -/
def State.waiterWhere (s : State) (w : Waiter) : Nat :=
  if w.kind = 0 then w.place / 64 * 2 ^ 6 + w.place % 64
  else if w.kind = 1 then w.place
  else match s.cmd w.place with | some c => c.queue | none => 0

/-- An entry of the snapshot (R439). -/
def State.waiterWord (s : State) (w : Waiter) : Word :=
  BitVec.ofNat 64 (2 ^ 63 + w.kind * 2 ^ 61 + w.ctx % 4096 * 2 ^ 49 + s.waiterWhere w * 2 ^ 35 + nfld w.since 39 5)

/-- The snapshot of a semaphore (R438). -/
def State.semTake (s : State) (n : Nat) : SemSnap :=
  let l := s.semWaiters n
  { cfg := s.rd (R.semCfg n), value := s.rd (R.semValue n), last := s.rd (R.semLast n), cookie := s.rd (R.semLastCookie n),
    time := SMap.get 0 s.sem.lastTime n, total := l.length, shown := (l.take 64).map (fun x => (s.waiterWord x, x.count)) }

/-- SEM_SNAPSHOT (R438): a write of DBG_SEM_SEL takes a snapshot of that semaphore, or again of that one. -/
def execSemSnapshot (fn n : Nat) (s : State) : Answer :=
  .next (s.mmio fn R.dbgSemSel true fun s =>
    let s := (s.wr R.dbgSemSel (BitVec.ofNat 64 n)).clrFlag R.dbgSemSnap 31
    { s with sem := { s.sem with snapping := some n, snap := s.semTake n } })

/-- The snapshot's registers (R438). -/
def State.semShow (s : State) (x : SemSnap) : State :=
  let s := s.wr R.dbgSemLastTime (BitVec.ofNat 64 x.time)
  let s := (List.range 64).foldl (fun s i =>
    let e := x.shown.getD i (0, 0)
    (s.wr (R.dbgSemWaiter i) e.1).wr (R.dbgSemWaiterCount i) (BitVec.ofNat 64 e.2)) s
  s.wr R.dbgSemSnap (BitVec.ofNat 64 (2 ^ 31 + x.total * 2 ^ 16 + x.shown.length))

/-- SEM_SNAPSHOT_READY (R438): the snapshot that was taken is shown. -/
def execSemSnapshotReady (s : State) : Answer :=
  .next (match s.sem.snapping with
    | none => s
    | some _ => let s := s.semShow s.sem.snap; { s with sem := { s.sem with snapping := none } })

end Sys2Proof.Machine
end

