-- ==== Sys2Proof/Machine/Debug.lean ====
section
/-! DEFINITION. Samples, trace controls and surveys (spec 19 R609 to R618, R622, R623, R627 to R630). -/

namespace Sys2Proof.Machine

/-! ### Samples -/

/-- The sets that DBG_SET_EN enables, ascending (R615). -/
def State.enabledSets (s : State) : List Nat := (List.range 214).filter (fun n => s.flag (R.dbgSetEn (n / 64)) (n % 64))

/-- What a set's record shows (R612, R615, R617): whether it is a boundary record, whose counts they are, whether a counter saturated, and the
counts. -/
def State.setShown (s : State) (n : Nat) : Bool × Option Owner × Bool × List Word :=
  match SMap.get none s.dbg.past n with
  | some p => if p.time = s.now then (true, p.owner, p.sat, p.vals)
    else (false, SMap.get none s.dbg.owners n, SMap.get false s.dbg.sat n, s.setVals n)
  | none => (false, SMap.get none s.dbg.owners n, SMap.get false s.dbg.sat n, s.setVals n)

/-- A record of R615. -/
def State.sampleRecord (s : State) (n seq : Nat) : List Byte :=
  let (edge, owner, sat, vals) := s.setShown n
  let b (x : Bool) (i : Nat) : Nat := if x then 2 ^ i else 0
  let shared := match owner with | some o => o.shared | none => false
  let o := owner.getD ⟨0, 0, 0, 0, false⟩
  leBytes 8 s.now ++ leBytes 8 o.cookie ++ leBytes 2 n ++
    leBytes 2 (b edge 0 + b shared 1 + b sat 2 + b owner.isNone 3) ++ leBytes 2 (o.ctx % 4096) ++ leBytes 2 o.queue ++
    leBytes 4 seq ++ leBytes 4 0 ++ vals.flatMap (fun v => leBytes 8 v.toNat) ++ leBytes 32 0

/-- The commands whose boundary records a sample holds: their completions will say so (R618). -/
def State.markBoundary (s : State) (sets : List Nat) : State :=
  sets.foldl (fun s n =>
    match s.setShown n with
    | (true, some o, _) =>
      (match s.cmd o.cmd with
        | some c => s.setCmd o.cmd (some { c with boundary := true })
        | none => s)
    | _ => s) s

/-- Free records of the sample ring, one fewer than it has (R615, R616). -/
def State.sampleRoom (s : State) : Nat :=
  let n := (s.rd R.dbgSampleSize).toNat / 256
  if n = 0 then 0 else ((s.rd R.dbgSampleRd).toNat % n + n - 1 - (s.rd R.dbgSampleWr).toNat % n) % n

/-- The records of a sample go into the ring from index `i` on. -/
def State.samplePut (s : State) (sets : List Nat) (i n seq : Nat) : State :=
  ((List.range sets.length).zip sets).foldl (fun (t : State) e =>
    t.memWrite ((s.rd R.dbgSampleBase).toNat + 256 * ((i + e.1) % n)) (s.sampleRecord e.2 seq) 7 0 true) s

/-- SAMPLE (R614 to R618): at a multiple of INTERVAL, the records of the enabled sets, whole or not at all. -/
def execCounterSample (s : State) : Answer :=
  .next (
    let every := 1000 * max 1 (s.fld R.dbgSampleCfg 19 0)
    if !s.flag R.dbgSampleCfg 63 || decide (s.now % every ≠ 0) then s
    else
      let sets := s.enabledSets
      let n := (s.rd R.dbgSampleSize).toNat / 256
      let wr_ := (s.rd R.dbgSampleWr).toNat
      let seq := s.dbg.sampleSeq
      let room := s.sampleRoom
      let s := { s with dbg := { s.dbg with sampleSeq := seq + 1 } }
      if room < sets.length then s.count R.dbgSampleLost 32 1
      else
        ((s.samplePut sets wr_ n seq).wr R.dbgSampleWr (BitVec.ofNat 64 (if n = 0 then 0 else (wr_ + sets.length) % n))).markBoundary sets)

/-- COUNTER_CLEAR (R612): a write of DBG_SET_CFG with CLEAR restarts the set. -/
def execCounterClear (fn set : Nat) (v : Word) (s : State) : Answer :=
  .next (s.mmio fn (R.dbgSetCfg set) true fun s =>
    if !bit v 1 then s
    else
      let s := (s.setFld (R.dbgSetCfg set) 0 0 (if bit v 0 then 1 else 0)).restartSet set
      { s with dbg := { s.dbg with
        owners := SMap.put none s.dbg.owners set ((SMap.get none s.dbg.owners set).map (fun o => { o with shared := false })) } })

/-! ### Trace controls -/

/-- TRIGGER (R623): a write of DBG_TRACE_CTL.TRIGGER. -/
def execTraceTrigger (fn : Nat) (s : State) : Answer :=
  .next (s.mmio fn R.dbgTraceCtl true fun s => s.traceTrigger 0)

/-- RESTART (R622): a write of DBG_TRACE_CTL.RESTART. -/
def execTraceRestart (fn : Nat) (s : State) : Answer :=
  .next (s.mmio fn R.dbgTraceCtl true fun s =>
    let s := (s.wr R.dbgTraceWr 0).setFld R.dbgStatus 5 2 0
    { s with dbg := { s.dbg with postLeft := none, traceFilled := false, fillLost := 0 } })

/-- TRACE_FREEZE (R622): the records past the trigger have been written. -/
def execTraceFreeze (s : State) : Answer :=
  .next (if s.fld R.dbgTraceCfg 1 0 = 3 && s.dbg.postLeft = some 0 then s.setFlag R.dbgStatus 5 else s)

/-! ### Surveys -/

/-- SURVEY_START (R627): a write of DBG_SURVEY_CTL with GO. -/
def execSurveyStart (fn : Nat) (v : Word) (s : State) : Answer :=
  .next (s.mmio fn R.dbgSurveyCtl true fun s =>
    if !bit v 0 then s
    else (s.wr R.dbgSurveyCtl (v &&& 0xF02#64)).surveyStart 0 0)

/-- The instruction at which a thread waits: its opcode (R396). -/
def State.opAt (s : State) (th : Thread) : Nat :=
  match (s.pslot th.slot).bind (fun p => p.versions.find? (fun v => v.num = th.version)) with
  | some v =>
    nfld (leNat (s.memRead (s.poolPage (v.pages.getD (th.pc / 512) 0) + 8 * (th.pc % 512)) 8 2 0 false).1) 63 56
  | none => 0

/-- STATE and WAIT of a dispatch thread (R630). -/
def State.threadState (s : State) (th : Thread) : Nat × Nat :=
  match th.hold with
  | .none => (1, 0)
  | .copy _ => (2, 4)
  | .sem => (2, 3)
  | .dump => (2, 6)
  | .host _ => (2, 0)
  | .retry =>
    let op := s.opAt th
    (2, if op = 0x30 || op = 0x31 then 1 else if op = 0x32 || op = 0x01 then 2 else if op = 0x33 then 4
      else if op = 0x02 then 5 else if op = 0x34 then 8 else if op = 0x48 then 6 else 0)

/-- A dispatch-thread record (R630); an admitted entry that waits for its reserved start holds its thread. -/
def State.threadRecord (s : State) (t : Nat) : List Byte :=
  let rec_ (st wait ctx word : Nat) (c : Option Cmd) : List Byte :=
    leBytes 1 st ++ leBytes 1 wait ++ leBytes 2 (ctx % 4096) ++ leBytes 2 ((c.map Cmd.queue).getD 0) ++ leBytes 2 word ++
      leBytes 8 ((c.map Cmd.cookie).getD 0)
  match s.thread t with
  | some th => rec_ (s.threadState th).1 (s.threadState th).2 th.ctx th.pc (s.cmd th.cmd)
  | none =>
    match s.cmdList.find? (fun e => e.2.thr = some t && e.2.stage = .admitted) with
    | some (_, c) => rec_ 2 7 c.ctx 0 (some c)
    | none => leBytes 16 0

/-- A queue record (R630). -/
def State.queueRecord (s : State) (q : Nat) : List Byte :=
  leBytes 2 (s.fld (R.queSqHead q) 15 0) ++ leBytes 2 (s.fld (R.queSqTail q) 15 0) ++ leBytes 2 (s.fld (R.queCqHead q) 15 0) ++
    leBytes 2 (s.fld (R.queCqTail q) 15 0) ++ leBytes 1 (s.qInflight q) ++ leBytes 1 (s.fld (R.queCqTail q) 16 16) ++
    leBytes 2 (s.queStatusView q).toNat ++ leBytes 4 (s.fld (R.queCfg q) 63 32)

/-- The logs of a survey (R629). -/
def surveyLogs : List Nat :=
  (List.range 16).map R.seqGuardLog ++ (List.range 3).flatMap (fun w => [R.trnFaultLog w, R.trnFaultVa w]) ++
    [R.clkCdcStallLog, R.mlnPeerLog] ++ (List.range 4).map R.mlnDeadMap ++ [R.rasErrLog, R.pwrEmergLog]

/-- The latched part of a survey (R628, R629): offsets in the buffer, and bytes. -/
def State.surveyParts (s : State) (crossed : Nat) : List (Nat × List Byte) :=
  let words (l : List Nat) : List Byte := l.flatMap (leBytes 8)
  let l := s.ledgers crossed
  [(0x1000, words ((List.range 192).flatMap (fun c => (List.range 64).map (fun g => (s.groupState c g).toNat)))),
   (0x19000, words ((List.range 192).map (fun c => (s.core c).mxStatus.toNat))),
   (0x1A000, (List.range 128).flatMap s.threadRecord),
   (0x1B000, words ((List.range 16).map (fun u => (s.ptsStatusView u).toNat))),
   (0x1C000, words ((List.range 1024).map (fun p =>
      s.fld (R.ptsPlatOcc p) 19 0 + s.fld (R.ptsPlatHeld p) 19 0 * 2 ^ 20 + s.fld (R.ptsPlatCfg p) 51 51 * 2 ^ 63))),
   (0x1E000, words (l ++ [ledgerFaults l s.settledMask * 2 ^ 32 + s.settledMask])),
   (0x1E200, words (surveyLogs.map (fun r => (s.rd r).toNat))),
   (0x20000, (List.range 16384).flatMap s.queueRecord)]

/-- Write into the survey buffer, as requester class debug under slot 0 (R629). -/
def State.surveyPut (s : State) (off : Nat) (b : List Byte) : State :=
  s.memWrite ((s.rd R.dbgSurveyBase).toNat + off) b 7 0 true

/-- What a survey shows: the state at the trigger where a guard or a limit triggered it, the present one otherwise (R628). -/
def State.surveyView (s : State) : State :=
  match s.dbg.frozen with
  | some f => { s with regs := f.regs, cores := f.cores, pts := f.pts, dsp := f.dsp, ras := f.ras, mln := f.mln }
  | none => s

/-- The latched part is written to the buffer. -/
def State.surveyWrite (s : State) (parts : List (Nat × List Byte)) : State :=
  parts.foldl (fun (t : State) p => t.surveyPut p.1 p.2) s

/-- SURVEY_LATCH (R628): what a survey latches, as it stood at the trigger; the latch is trace trigger 7 (R623). -/
def execSurveyLatch (s : State) : Answer :=
  .next (
    if s.dbg.survey.isNone || s.dbg.latched then s
    else s.withFree fun r s =>
      let v := s.surveyView
      let t := s.surveyWrite (v.surveyParts (r % 2 ^ 63))
      let t := { t with dbg := { t.dbg with latched := true, surveyTime := v.now, frozen := none } }
      t.traceTrigger 7)

/-- A semaphore record (R630). -/
def State.semRecord (s : State) (n : Nat) : List Byte :=
  let (w, c) : Word × Nat := match s.semWaiters n with | x :: _ => (s.waiterWord x, x.count) | [] => (0, 0)
  leBytes 2 n ++ leBytes 6 0 ++ leBytes 8 (s.rd (R.semCfg n)).toNat ++ leBytes 8 (s.rd (R.semValue n)).toNat ++
    leBytes 8 (s.rd (R.semLast n)).toNat ++ leBytes 8 (s.rd (R.semLastCookie n)).toNat ++
    leBytes 8 (SMap.get 0 s.sem.lastTime n) ++ leBytes 8 w.toNat ++ leBytes 8 c

/-- The semaphores that a survey lists: those with waiters, at most 32,768 (R628). -/
def State.surveySems (s : State) : List Nat := ((s.sem.waiters.filter (fun e => !e.2.isEmpty)).map Prod.fst).take 32768

/-- The header of a survey (R629). -/
def State.surveyHeader (s : State) (code sems : Nat) : List Byte :=
  leBytes 8 s.dbg.surveyTime ++ leBytes 1 code ++ leBytes 1 0 ++ leBytes 2 s.dbg.surveyWho ++ leBytes 4 sems ++
    leBytes 4 s.dbg.surveySeq ++ leBytes 4 0 ++ leBytes 8 s.now ++ leBytes 32 0

/-- SURVEY_DONE (R628, R629): the semaphores with waiters, then the header; the survey is valid and enters the trace. Which producer
SOURCE names is open (log 1). -/
def execSurveyDone (s : State) : Answer :=
  .next (match s.dbg.survey with
    | none => s
    | some code =>
      if !s.dbg.latched then s
      else
        let l := s.surveySems
        let t := s.surveyWrite (((List.range l.length).zip l).map (fun e => (0x60000 + 64 * e.1, s.semRecord e.2)))
        let t := ((t.surveyPut 0 (s.surveyHeader code l.length)).clrFlag R.dbgStatus 6).setFlag R.dbgStatus 7
        let t := { t with dbg := { t.dbg with survey := none, latched := false, surveySeq := s.dbg.surveySeq + 1 } }
        t.withFree fun r t => t.trace ⟨0x0B, r % 10, 0, 0, 0, s.dbg.surveySeq, code⟩)

end Sys2Proof.Machine
end

