-- ==== Sys2Proof/Machine/DispatchCode.lean ====
section
/-! DEFINITION. Dispatch code: the instructions of a control core (spec 10 R389 to R400, 06 R256 to R263, 14 R522, 19 R624 to
R626). -/

namespace Sys2Proof.Machine

/-! ### Instruction words and registers -/

/-- The fields of a dispatch-code word (R395). -/
structure DWord where
  op : Nat
  d : Nat
  a : Nat
  b : Nat
  m : Nat
  imm : Nat
  deriving DecidableEq, Repr

/-- Take a word apart. -/
def dword (w : Word) : DWord := ⟨fld w 63 56, fld w 55 51, fld w 50 46, fld w 45 41, fld w 40 32, fld w 31 0⟩

/-- IMM sign-extended to 64 bits. -/
def DWord.simm (w : DWord) : Nat := wrapI 64 (sx 32 w.imm)

/-- What an operation uses (R397): D, A, B, IMM, and which values of M it defines. -/
structure DUse where
  d : Bool
  a : Bool
  b : Bool
  i : Bool
  m : Nat → Bool

/-- No value of M but zero. -/
def mNone (m : Nat) : Bool := m = 0

/-- M of CMO (R397): OP in bits 2:1, L1_ONLY in bit 3. -/
def mCmo (m : Nat) : Bool := decide (m < 16) && decide (m % 2 = 0) && decide (nfld m 2 1 ≠ 0)

/-- The fields of each operation; `none` for a reserved OP. -/
def dUse (op : Nat) : Option DUse :=
  if op ≤ 0x02 || op = 0x20 || op = 0x32 then some ⟨false, false, false, false, mNone⟩
  else if 0x08 ≤ op && op ≤ 0x0F then some ⟨true, true, true, false, mNone⟩
  else if op = 0x10 then some ⟨true, true, false, true, mNone⟩
  else if op = 0x11 || op = 0x12 then some ⟨true, false, false, true, mNone⟩
  else if op = 0x18 || op = 0x1F then some ⟨false, false, false, true, mNone⟩
  else if 0x19 ≤ op && op ≤ 0x1E then some ⟨false, true, true, true, mNone⟩
  else if op = 0x28 then some ⟨true, true, false, true, (· < 4)⟩
  else if op = 0x29 then some ⟨false, true, true, true, (· < 4)⟩
  else if op = 0x2A || op = 0x40 then some ⟨true, false, false, false, mNone⟩
  else if op = 0x30 then some ⟨false, true, false, true, mNone⟩
  else if op = 0x31 then some ⟨false, true, true, true, mNone⟩
  else if op = 0x33 then some ⟨false, true, false, true, (· < 2)⟩
  else if op = 0x34 then some ⟨true, true, true, false, mCmo⟩
  else if op = 0x38 || op = 0x39 || op = 0x45 || op = 0x46 then some ⟨true, true, true, false, mNone⟩
  else if op = 0x41 then some ⟨true, true, false, false, mNone⟩
  else if op = 0x42 then some ⟨true, true, true, false, (· ≤ 6)⟩
  else if op = 0x43 then some ⟨true, true, true, false, (· ≤ 10)⟩
  else if op = 0x44 then some ⟨true, true, true, true, (· < 256)⟩
  else if op = 0x48 then some ⟨true, true, true, true, mNone⟩
  else if op = 0x49 then some ⟨false, true, false, true, mNone⟩
  else none

/-- Is a word one that R396 lets run? -/
def DWord.ok (w : DWord) : Bool :=
  match dUse w.op with
  | none => false
  | some u => (u.d || w.d = 0) && (u.a || w.a = 0) && (u.b || w.b = 0) && (u.i || w.imm = 0) && u.m w.m

/-- Read a register; x0 reads zero (R396). -/
def Thread.r (t : Thread) (n : Nat) : Nat := if n = 0 then 0 else (SMap.get 0 t.x n).toNat

/-- Write a register; writes to x0 are discarded (R396). -/
def Thread.w (t : Thread) (n v : Nat) : Thread := if n = 0 then t else { t with x := SMap.put 0 t.x n (BitVec.ofNat 64 v) }

/-- Go to a word index. -/
def Thread.jump (t : Thread) (pc : Nat) : Thread := { t with pc := pc, hold := .none }

/-- Go to the next word. -/
def Thread.next (t : Thread) : Thread := t.jump (t.pc + 1)

/-- The target of a branch (R396): the instruction's own index plus IMM. -/
def Thread.target (t : Thread) (w : DWord) : Nat := wrapI 64 ((t.pc : Int) + sx 32 w.imm)

/-- Addr of R397. -/
def Thread.addr (t : Thread) (w : DWord) : Nat := (t.r w.a + w.simm) % 2 ^ 64

/-- The program's version of a thread. -/
def State.codeOf (s : State) (t : Thread) : Version :=
  ((s.pslot t.slot).bind (fun p => p.versions.find? (fun v => v.num = t.version))).getD ⟨0, 0, [], 0⟩

/-- Where the word of an index lies in the pool (R410). -/
def State.wordAt (s : State) (v : Version) (pc : Nat) : Nat := s.poolPage (v.pages.getD (pc / 512) 0) + 8 * (pc % 512)

/-- The first instruction of a thread is the START of a best-effort program (R382). -/
def State.firstIssue (s : State) (t : Nat) (th : Thread) : State :=
  if !th.fresh then s
  else
    let s := s.setThread t (some { th with fresh := false })
    match s.cmd th.cmd with
    | some c => s.setCmd th.cmd (some { c with start := s.now })
    | none => s

/-- Is a dispatch thread ready beyond doubt (R389): held by nothing, its last instruction one that works on registers alone? How long the
others keep a thread is no state of the model (log 90). -/
def State.dready (s : State) (t : Nat) : Bool :=
  match s.thread t with
  | some th => decide (th.hold = Hold.none) && th.quick
  | none => false

/-- How far a thread stands from the one after the thread of its control core that issued last in rotation (R389; from thread 0 at reset,
log 53). -/
def State.dplace (s : State) (t : Nat) : Nat := (t % 16 + 16 - SMap.get 0 s.dsp.rotation (t / 16)) % 16

/-- Does its control core choose a thread (R389)? Its lane thread comes first when it is ready; no other ready thread stands before it in
rotation. -/
def State.dturn (s : State) (t : Nat) : Bool :=
  let lane := 17 * (t / 16)
  t = lane || (!s.dready lane && (List.range 16).all (fun i =>
    let u := 16 * (t / 16) + i
    u = lane || !s.dready u || decide (s.dplace t ≤ s.dplace u)))

/-- An instruction that is not to be tried again is an event of R611, and its thread has had its turn (R389). -/
def State.dcount (s : State) (t op : Nat) : State :=
  let done (s : State) : State :=
    let s := s.hit 212 0x4003 1
    if t = 17 * (t / 16) then s
    else { s with dsp := { s.dsp with rotation := SMap.put 0 s.dsp.rotation (t / 16) (t % 16 + 1) } }
  match s.thread t with
  | some x => if x.hold = .retry then s else done (s.setThread t (some { x with quick := decide (op ≤ 0x20) }))
  | none => done s

/-- Issue the instruction of a thread (R389, R396, R398, R560): a word beyond SIZE, a word that R396 refuses and a poisoned
word end the program under any row; a word of another row leaves the state as it is, and so does a thread that its control core does not
choose. -/
def State.dissue (s : State) (t op : Nat) (act : Thread → DWord → State → State) : State :=
  match s.thread t with
  | none => s
  | some th =>
    if !decide (th.hold = Hold.none || th.hold = Hold.retry) || !s.dturn t then s
    else
      let v := s.codeOf th
      if v.size ≤ th.pc then (s.firstIssue t th).endProgram t 0x05 0x07
      else
        let (b, bad, r) := s.memRead (s.wordAt v th.pc) 8 2 0 true
        if bad then ((r.firstIssue t th).consumedPoison).endProgram t 0x0A 0
        else
          let w := dword (BitVec.ofNat 64 (leNat b))
          if !w.ok then (r.firstIssue t th).endProgram t 0x05 0x07
          else if w.op ≠ op then s
          else (act { th with fresh := false } w (r.firstIssue t th)).dcount t op

/-- The thread tries its instruction again later. -/
def State.dhold (s : State) (t : Nat) (th : Thread) : State := s.setThread t (some { th with hold := .retry })

/-- An operation on registers alone. -/
def State.alu (s : State) (t op : Nat) (f : Thread → DWord → Nat) : State :=
  s.dissue t op fun th w s => s.setThread t (some ((th.w w.d (f th w)).next))

/-- A branch on a condition. -/
def State.dbranch (s : State) (t op : Nat) (cond : Nat → Nat → Bool) : State :=
  s.dissue t op fun th w s =>
    s.setThread t (some (if cond (th.r w.a) (th.r w.b) then th.jump (th.target w) else th.next))

/-- DISPATCH_NOP (R397). -/
def execDispatchNop (t : Nat) (s : State) : Answer := .next (s.dissue t 0x00 fun th _ s => s.setThread t (some th.next))

/-- Has the program launches or copies that are not over, or launches that have not started (R391, R397)? -/
def State.programBusy (s : State) (th : Thread) : Bool :=
  !th.queue.isEmpty || !(s.launchesOf th.cmd).isEmpty || !(s.copiesOf th.cmd).isEmpty

/-- END (R397): OK once every launch and COPY of the program has completed. -/
def execEnd (t : Nat) (s : State) : Answer :=
  .next (s.dissue t 0x01 fun th _ s => if s.programBusy th then s.dhold t th else s.endProgram t 0 0)

/-- Best-effort contexts that wait for a dispatch thread or for cluster room (R522). -/
def State.shareWaiters (s : State) : List Nat :=
  let l := s.cmdList.foldl (fun l e => if s.awaitsGrant e.2 && decide (e.2.opcode = 1) && s.freeThread.isNone then addOnce l e.2.ctx else l) []
  let l := s.threadList.foldl (fun l e => match e.2.queue with
    | x :: _ => if (s.launchLane x).isNone && s.turn x && (s.placeFor x).isNone then addOnce l x.ctx else l
    | [] => l) l
  s.launchList.foldl (fun l e => if (s.launchLane e.2).isNone && e.2.unplaced then addOnce l e.2.ctx else l) l

/-- YIELD (R522): a best-effort thread is held while another context waits whose virtual time is less by more than
DSP_SHARE_LAG. -/
def execYield (t : Nat) (s : State) : Answer :=
  .next (s.dissue t 0x02 fun th _ s =>
    let lane := ((s.cmd th.cmd).bind Cmd.lane).isSome
    let lag := (s.rd R.dspShareLag).toNat
    let behind := s.shareWaiters.any (fun n => decide (n ≠ th.ctx) &&
      decide (s.vtime n + 2 ^ 16 * lag < s.vtime th.ctx))
    if !lane && behind then s.dhold t th else s.setThread t (some th.next))

/-- ADD (R397). -/
def execAdd (t : Nat) (s : State) : Answer := .next (s.alu t 0x08 fun th w => th.r w.a + th.r w.b)
/-- SUB (R397). -/
def execSub (t : Nat) (s : State) : Answer := .next (s.alu t 0x09 fun th w => th.r w.a + (2 ^ 64 - th.r w.b))
/-- MUL (R397). -/
def execMul (t : Nat) (s : State) : Answer := .next (s.alu t 0x0A fun th w => th.r w.a * th.r w.b)
/-- AND (R397). -/
def execAnd (t : Nat) (s : State) : Answer := .next (s.alu t 0x0B fun th w => th.r w.a &&& th.r w.b)
/-- OR (R397). -/
def execOr (t : Nat) (s : State) : Answer := .next (s.alu t 0x0C fun th w => th.r w.a ||| th.r w.b)
/-- XOR (R397). -/
def execXor (t : Nat) (s : State) : Answer := .next (s.alu t 0x0D fun th w => th.r w.a ^^^ th.r w.b)
/-- SHL (R397). -/
def execShl (t : Nat) (s : State) : Answer := .next (s.alu t 0x0E fun th w => th.r w.a <<< (th.r w.b % 64))
/-- SHR (R397). -/
def execShr (t : Nat) (s : State) : Answer := .next (s.alu t 0x0F fun th w => th.r w.a >>> (th.r w.b % 64))
/-- ADDI (R397). -/
def execAddi (t : Nat) (s : State) : Answer := .next (s.alu t 0x10 fun th w => th.r w.a + w.simm)
/-- MOVI (R397). -/
def execMovi (t : Nat) (s : State) : Answer := .next (s.alu t 0x11 fun _ w => w.simm)
/-- MOVHI (R397). -/
def execMovhi (t : Nat) (s : State) : Answer :=
  .next (s.alu t 0x12 fun th w => th.r w.d % 2 ^ 32 + 2 ^ 32 * w.imm)

/-- BRA (R396, R397). -/
def execBra (t : Nat) (s : State) : Answer := .next (s.dbranch t 0x18 fun _ _ => true)
/-- BEQ (R397). -/
def execBeq (t : Nat) (s : State) : Answer := .next (s.dbranch t 0x19 fun a b => decide (a = b))
/-- BNE (R397). -/
def execBne (t : Nat) (s : State) : Answer := .next (s.dbranch t 0x1A fun a b => decide (a ≠ b))
/-- BLT (R397): signed. -/
def execBlt (t : Nat) (s : State) : Answer := .next (s.dbranch t 0x1B fun a b => decide (sx 64 a < sx 64 b))
/-- BGE (R397): signed. -/
def execBge (t : Nat) (s : State) : Answer := .next (s.dbranch t 0x1C fun a b => decide (sx 64 b ≤ sx 64 a))
/-- BLTU (R397): unsigned. -/
def execBltu (t : Nat) (s : State) : Answer := .next (s.dbranch t 0x1D fun a b => decide (a < b))
/-- BGEU (R397): unsigned. -/
def execBgeu (t : Nat) (s : State) : Answer := .next (s.dbranch t 0x1E fun a b => decide (b ≤ a))

/-- DISPATCH_CALL (R396): a ninth CALL without a RET ends the program. -/
def execDispatchCall (t : Nat) (s : State) : Answer :=
  .next (s.dissue t 0x1F fun th w s =>
    if 8 ≤ th.stack.length then s.endProgram t 0x05 0x07
    else s.setThread t (some ({ th with stack := (th.pc + 1) :: th.stack }.jump (th.target w))))

/-- DISPATCH_RET (R396): a RET with the stack empty ends the program. -/
def execDispatchRet (t : Nat) (s : State) : Answer :=
  .next (s.dissue t 0x20 fun th _ s =>
    match th.stack with
    | [] => s.endProgram t 0x05 0x07
    | pc :: rest => s.setThread t (some ({ th with stack := rest }.jump pc)))

/-! ### Memory -/

/-- LOADT (R397, R398): `host` is what the host answers. -/
def execLoadt (t : Nat) (host : HostData) (s : State) : Answer :=
  .next (s.withHost host fun s => s.dissue t 0x28 fun th w s =>
    let n := 2 ^ w.m
    let a := th.addr w
    if a % n ≠ 0 then s.endProgram t 0x05 0x02
    else match s.vaRead (hubUser th.view) a n with
      | (.inl b, s) => s.setThread t (some ((th.w w.d (leNat b)).next))
      | (.inr f, s) => s.programFault t f)

/-- STORE (R302, R397, R398, R414): a remote store waits until a port controller accepts it. -/
def execStore (t : Nat) (s : State) : Answer :=
  .next (s.dissue t 0x29 fun th w s =>
    let n := 2 ^ w.m
    let a := th.addr w
    let b := leBytes n (th.r w.b)
    if a % n ≠ 0 then s.endProgram t 0x05 0x02
    else match s.xlate .hub 2 th.view a needW with
      | (.fault c _, s) => s.programFault t (.code (causeCode c) c)
      | (.ok pa region, r) =>
        if r.placeOf pa = .remote then
          match r.mlnAccept (r.writeMsg (r.tenantOf th.ctx) (paNode pa) (paOffset pa) (decide (region = 2)) b) 192 (r.flowsOf th.cmd) with
          | some r => r.setThread t (some th.next)
          | none => s.dhold t th
        else match r.pageWrite (hubUser th.view) a b with
          | (none, r) => r.setThread t (some th.next)
          | (some f, r) => r.programFault t f)

/-- TIME (R397). -/
def execTime (t : Nat) (s : State) : Answer :=
  .next (s.dissue t 0x2A fun th w s => s.setThread t (some ((th.w w.d s.now).next)))

/-- CMO (R364, R397): range maintenance in the program's context; x(D) says whether a page was skipped. -/
def execCmo (t : Nat) (s : State) : Answer :=
  .next (s.dissue t 0x34 fun th w s =>
    let op := nfld w.m 2 1
    let o : MaintOp := ⟨op = 1 || op = 3, op = 2 || op = 3, w.m.testBit 3⟩
    let (skipped, s) := s.maintRange o th.view (th.r w.a) (th.r w.b)
    s.setThread t (some ((th.w w.d (if skipped then 1 else 0)).next)))

/-! ### Launches and copies -/

/-- A launch descriptor (R390), or the fault code it ends the program with. -/
def launchOf (b : List Byte) (th : Thread) (plat : Option PlatRange) : Launch ⊕ Nat :=
  let n (off len : Nat) : Nat := leNat ((b.drop off).take len)
  let flags := n 0x13 1
  if n 0x10 2 = 0 || 1024 < n 0x10 2 || 8 ≤ flags || n 0x2A 2 ≠ 0 || leNat (b.drop 0x30) ≠ 0 || n 0x2C 4 % 8 ≠ 0 ||
    2 ^ 48 ≤ n 0 8 then .inr 0x07
  else if n 0 8 % 8 ≠ 0 then .inr 0x02
  else .inl {
    cmd := th.cmd, thread := 0, ctx := th.ctx, entry := n 0 8, gx := n 8 4, gy := n 0xC 2, gz := n 0xE 2,
    threads := n 0x10 2, vregs := n 0x12 1, overlap := flags.testBit 0, router := flags.testBit 1,
    borrow := flags.testBit 2, scratch := n 0x14 4, args := n 0x18 8, stepVa := n 0x20 8, clusters := n 0x28 2,
    plat := plat.map (fun p => { p with stride := n 0x2C 4 }), order := 0, nextBlock := 0, lastCluster := none,
    running := 0, guards := [], fault := none, stop := none, word := th.pc, view := th.view }

/-- Queue a launch whose descriptor lies at `a` (R390, R391). -/
def State.queueLaunch (s : State) (t : Nat) (th : Thread) (a : Nat) (plat : Option PlatRange) : State :=
  if 8 ≤ th.queue.length then s.dhold t th
  else if a % 64 ≠ 0 then s.endProgram t 0x05 0x02
  else match s.vaRead (hubUser th.view) a 64 with
    | (.inr f, s) => s.programFault t f
    | (.inl b, s) =>
      match launchOf b th plat with
      | .inr code => s.endProgram t 0x05 code
      | .inl x => s.setThread t (some ({ th with queue := th.queue ++ [{ x with thread := t }] }.next))

/-- LAUNCH (R390, R391). -/
def execLaunch (t : Nat) (host : HostData) (s : State) : Answer :=
  .next (s.withHost host fun s => s.dissue t 0x30 fun th w s => s.queueLaunch t th (th.addr w) none)

/-- LAUNCH_PLAT (R256, R257, R394): every platform of the range lies in device memory and belongs to the context, else the
program ends with MX_DESCRIPTOR. A TPB of 0 and a range beyond the platforms end it too (DESIGN CHOICE, log 21). -/
def execLaunchPlat (t : Nat) (host : HostData) (s : State) : Answer :=
  .next (s.withHost host fun s => s.dissue t 0x31 fun th w s =>
    let range := th.r w.b
    let first := nfld range 9 0
    let count := nfld range 26 16
    let tpb := w.imm % 2 ^ 16
    if 8 ≤ th.queue.length then s.dhold t th
    else if tpb = 0 then s.endProgram t 0x05 0x07
    else if count = 0 || 1024 < first + count ||
      !(List.range count).all (fun i => s.platKind (first + i) = 0 && s.platOwner (first + i) = th.ctx) then
      s.endProgram t 0x05 0x0B
    else s.queueLaunch t th (th.r w.a) (some ⟨first, count, tpb, 0, 0⟩))

/-- JOIN (R391). -/
def execJoin (t : Nat) (s : State) : Answer :=
  .next (s.dissue t 0x32 fun th _ s => if s.programBusy th then s.dhold t th else s.setThread t (some th.next))

/-- DISPATCH_COPY (R397, R399, R400): with M bit 0 the thread waits for it. -/
def execDispatchCopy (t : Nat) (host : HostData) (s : State) : Answer :=
  .next (s.withHost host fun s => s.dissue t 0x33 fun th w s =>
    let (view, r) := s.takeView th.ctx
    match r.beginCopy th.cmd (some t) th.ctx view th.pc (th.addr w) with
    | none => s.dhold t th
    | some (.inr f, r) => r.stopCmd th.cmd f.ends.1 4 f.ends.2
    | some (.inl n, r) =>
      if w.m = 1 then r.setThread t (some { th with hold := .copy n }) else r.setThread t (some th.next))

/-! ### Semaphores -/

/-- A dispatch program as a signaller (R423). -/
def State.threadSignaller (s : State) (th : Thread) : Signaller :=
  match s.cmd th.cmd with
  | some c => s.cmdSignaller c
  | none => ⟨3, s.tenantOf th.ctx, th.ctx, 0, s.con.node, 0⟩

/-- DISPATCH_SIGNAL (R397, R425): a remote signal waits until a port controller accepts it. A count of 2^48 or more is no
count (DESIGN CHOICE, log 21). -/
def execDispatchSignal (t : Nat) (s : State) : Answer :=
  .next (s.dissue t 0x38 fun th w s =>
    let x := th.r w.a
    let n := th.r w.b
    if semLayoutBad x || decide (2 ^ 48 ≤ n) then s.endProgram t 0x05 0x07
    else
      let q := s.threadSignaller th
      let node := nfld x 23 16
      if x.testBit 31 && decide (node ≠ s.con.node) then
        match s.mlnAccept (s.signalMsg q node (x % 2 ^ 16) n) 192 (s.flowsOf th.cmd) with
        | some s => s.setThread t (some ((th.w w.d stOk).next))
        | none => s.dhold t th
      else
        let r := s.setThread t (some th.next)
        let (st, r) := r.semSignal (x % 2 ^ 16) n q
        match r.thread t with
        | some th => r.setThread t (some (th.w w.d st))
        | none => r)

/-- DISPATCH_WAIT (R397, R425, R427): a remote semaphore cannot be waited on. -/
def execDispatchWait (t : Nat) (s : State) : Answer :=
  .next (s.dissue t 0x39 fun th w s =>
    let x := th.r w.a
    let n := th.r w.b
    if semLayoutBad x || decide (2 ^ 48 ≤ n) then s.endProgram t 0x05 0x07
    else if x.testBit 31 && decide (nfld x 23 16 ≠ s.con.node) then s.endProgram t 0x05 0x01
    else
      match s.semWait (x % 2 ^ 16) (s.tenantOf th.ctx) ⟨1, th.ctx, t, n, s.now, w.d⟩ with
      | (some st, s) => s.setThread t (some ((th.w w.d st).next))
      | (none, s) => s.setThread t (some { th with hold := .sem, dest := w.d }))

/-! ### Tickets (R260 to R263) -/

/-- TALLOC (R260, R263): the lowest FREE ticket, or 0xFFFF_FFFF. -/
def execTalloc (t : Nat) (s : State) : Answer :=
  .next (s.dissue t 0x40 fun th w s =>
    match s.tktFree 0 0x100000 with
    | none => s.setThread t (some ((th.w w.d 0xFFFFFFFF).next))
    | some k =>
      let b := leBytes 2 th.ctx ++ leBytes 1 1 ++ leBytes 1 0 ++ leBytes 4 0xFFFFFFFF ++ leBytes 56 0
      let s := ((s.tktWrite k b true).sideWrite k b).count R.tktAllocs 64 1
      let s := s.wr R.tktActive (BitVec.ofNat 64 ((s.rd R.tktActive).toNat + 1))
      s.setThread t (some ((th.w w.d k).next)))

/-- Does the side-table word of a ticket name a context as its owner (R259)? -/
def State.sideOwned (s : State) (k ctx : Nat) : Bool :=
  let w := leNat (s.memRead (s.sideAddr k) 4 2 0 true).1
  w.testBit 12 && w % 4096 = ctx

/-- TFREE (R260, R561): a poisoned record is rewritten whole; its owner then stands in the side table. -/
def execTfree (t : Nat) (s : State) : Answer :=
  .next (s.dissue t 0x41 fun th w s =>
    let k := th.r w.a
    if 0x100000 ≤ k then s.setThread t (some ((th.w w.d 1).next))
    else
      let (b, bad, s) := s.tktRead k
      if (if bad then s.sideOwned k th.ctx else tktOwned b th.ctx) then
        (s.tktRelease k).setThread t (some ((th.w w.d 0).next))
      else s.setThread t (some ((th.w w.d 1).next)))

/-- A ticket that this program's context holds (R260): its record, `none` for one to skip, or poison (R561). -/
def State.tktMine (s : State) (ctx k : Nat) : (Option (List Byte) ⊕ Unit) × State :=
  if 0x100000 ≤ k then (.inl none, s)
  else
    let (b, bad, s) := s.tktRead k
    if bad then (.inr (), s.consumedPoison) else (.inl (if tktOwned b ctx then some b else none), s)

/-- Offset and size of the fields that TSET and TGET name (R259, R397). -/
def tktField (m : Nat) : Nat × Nat :=
  [(0x03, 1), (0x08, 8), (0x10, 8), (0x18, 8), (0x28, 8), (0x30, 8), (0x38, 8), (0x00, 4), (0x04, 4), (0x20, 4), (0x24, 4)].getD
    m (0, 0)

/-- The bits a field keeps of a value (R259). -/
def tktClip (m v : Nat) : Nat := if m = 0 then v % 8 else if m = 2 then v % 2 ^ 48 else v

/-- TSET (R260, R397). -/
def execTset (t : Nat) (s : State) : Answer :=
  .next (s.dissue t 0x42 fun th w s =>
    match s.tktMine th.ctx (th.r w.a) with
    | (.inr _, s) => s.endProgram t 0x0A 0
    | (.inl none, s) => s.setThread t (some ((th.w w.d 1).next))
    | (.inl (some b), s) =>
      let (off, len) := tktField w.m
      (s.tktWrite (th.r w.a) (tktSet b off len (tktClip w.m (th.r w.b))) false).setThread t (some ((th.w w.d 0).next)))

/-- An error found in a cached record (R556, R561). -/
def State.tktUpset (s : State) (k : Nat) (u : Upset) : State :=
  let s := s.detect 0x0C 0 (s.sideAddr k) u
  match u, s.tktLine k with
  | .lost, some x => s.setTkt k (some { x with poison := true, dirty := true })
  | _, _ => s

/-- TGET (R260, R397, R561): x(D) the field, x(B) the skipped count; `upset` is an error found in the record. -/
def execTget (t : Nat) (upset : Upset) (s : State) : Answer :=
  .next (s.dissue t 0x43 fun th w s =>
    let k := th.r w.a
    let s := if upset = .none || 0x100000 ≤ k then s else ((s.tktRead k).2.2).tktUpset k upset
    match s.tktMine th.ctx k with
    | (.inr _, s) => s.endProgram t 0x0A 0
    | (.inl none, s) => s.setThread t (some (((th.w w.d 0).w w.b 1).next))
    | (.inl (some b), s) =>
      let (off, len) := tktField w.m
      s.setThread t (some (((th.w w.d (tktFld b off len)).w w.b 0).next)))

/-- Does a candidate come before another in a batch (R261): by DEADLINE, 0 last, then by number? -/
def batchBefore (x y : Nat × Nat) : Bool :=
  let key (d : Nat) : Nat := if d = 0 then 2 ^ 64 else d
  decide (key x.1 < key y.1) || (key x.1 = key y.1 && decide (x.2 < y.2))

/-- Insert a candidate into a batch. -/
def batchPut (x : Nat × Nat) : List (Nat × Nat) → List (Nat × Nat)
  | [] => [x]
  | y :: l => if batchBefore x y then x :: y :: l else y :: batchPut x l

/-- The candidates of a batch among ticket numbers (R261), or poison. -/
def State.batchOf (s : State) (ctx mask : Nat) (l : List Nat) : Option (List (Nat × Nat)) × State :=
  l.foldl (fun (a : Option (List (Nat × Nat)) × State) k =>
    match a.1 with
    | none => a
    | some l =>
      match a.2.tktMine ctx k with
      | (.inr _, s) => (none, s)
      | (.inl none, s) => (some l, s)
      | (.inl (some b), s) =>
        if (tktFld b 0x20 4).testBit 0 || !mask.testBit (tktFld b 3 1 % 8) then (some l, s)
        else (some (batchPut (tktFld b 0x18 8, k) l), s)) (some [], s)

/-- The tickets of a batch take its step (R260). -/
def State.setSteps (s : State) (step : Nat) (ks : List Nat) : State :=
  ks.foldl (fun s k =>
    let (b, _, s) := s.tktRead k
    s.tktWrite k (tktSet b 0x24 4 (step % 2 ^ 32)) false) s

/-- TBATCH (R260, R261): the list follows the n inputs; x(D) holds the step and takes the length. -/
def execTbatch (t : Nat) (host : HostData) (s : State) : Answer :=
  .next (s.withHost host fun s => s.dissue t 0x44 fun th w s =>
    let u := hubUser th.view
    let at_ := th.r w.a
    let n := th.r w.b
    match s.vaRead u at_ (4 * n) with
    | (.inr f, s) => s.programFault t f
    | (.inl b, s) =>
      let ks := (List.range n).map (fun i => leNat ((b.drop (4 * i)).take 4))
      match s.batchOf th.ctx w.m ks with
      | (none, s) => s.endProgram t 0x0A 0
      | (some l, s) =>
        let out := (l.take w.imm).map Prod.snd
        match s.vaWrite u (at_ + 4 * n) (out.flatMap (leBytes 4)) with
        | (some f, s) => s.programFault t f
        | (none, s) =>
          (s.setSteps (th.r w.d) out).setThread t (some ((th.w w.d out.length).next)))

/-- One entry of a list of TEXIT or TADVANCE (R260, R262): the count of skipped entries goes on, or stops at poison. -/
def State.listEntry (f : List Byte → Nat → List Byte) (ctx : Nat) (a : Option Nat × State) (e : Nat) : Option Nat × State :=
  match a.1 with
  | none => a
  | some skipped =>
    let k := e % 2 ^ 20
    match a.2.tktMine ctx k with
    | (.inr _, s) => (none, s)
    | (.inl none, s) => (some (skipped + 1), s)
    | (.inl (some b), s) =>
      let b := f b (nfld e 63 32)
      (some skipped, (s.tktWrite k b false).sideWrite k b)

/-- TEXIT and TADVANCE (R260, R262): the list's entries in order; the side table is updated before they complete; x(D) takes the
skipped count. -/
def State.ticketList (s : State) (t op : Nat) (f : List Byte → Nat → List Byte) : State :=
  s.dissue t op fun th w s =>
    let n := th.r w.b
    match s.vaRead (hubUser th.view) (th.r w.a) (8 * n) with
    | (.inr g, s) => s.programFault t g
    | (.inl b, s) =>
      let es := (List.range n).map (fun i => leNat ((b.drop (8 * i)).take 8))
      let r := es.foldl (State.listEntry f th.ctx) (some 0, s)
      match r with
      | (none, s) => s.endProgram t 0x0A 0
      | (some k, s) => s.setThread t (some ((th.w w.d k).next))

/-- What TEXIT and TADVANCE make of a record (R260). -/
def texitRec (b : List Byte) (layer : Nat) : List Byte :=
  let b := tktSet b 0x20 4 (tktFld b 0x20 4 ||| 1)
  if tktFld b 4 4 = 0xFFFFFFFF then tktSet b 4 4 layer else b
def tadvanceRec (b : List Byte) (inc : Nat) : List Byte :=
  let b := tktSet b 8 8 ((tktFld b 8 8 + inc) % 2 ^ 64)
  tktSet (tktSet b 0x20 4 (tktFld b 0x20 4 / 2 * 2)) 4 4 0xFFFFFFFF

/-- TEXIT (R260): EXITED, and EXIT_LAYER where it was not set. -/
def execTexit (t : Nat) (host : HostData) (s : State) : Answer :=
  .next (s.withHost host fun s => s.ticketList t 0x45 texitRec)

/-- TADVANCE (R260): POSITION grows, EXITED clears, EXIT_LAYER is unset. -/
def execTadvance (t : Nat) (host : HostData) (s : State) : Answer :=
  .next (s.withHost host fun s => s.ticketList t 0x46 tadvanceRec)

/-! ### Dumps and marks -/

/-- The dump request that a DUMP matches (R625): the lowest. -/
def State.dumpMatch (s : State) (th : Thread) (w : DWord) : Option Nat :=
  (List.range 16).find? (fun i =>
    let cfg := s.rd (R.dbgDumpCfg i)
    bit cfg 63 && s.fld (R.dbgDumpId i) 31 0 = w.imm && (s.rd (R.dbgDumpStep i)).toNat = th.r w.d &&
      (bit cfg 62 || Machine.fld cfg 61 50 = th.ctx))

/-- DUMP (R624, R625): a match disarms the request and holds the thread until the dump is done; without one it does
nothing. -/
def execDump (t : Nat) (s : State) : Answer :=
  .next (s.dissue t 0x48 fun th w s =>
    match s.dumpMatch th w with
    | none => s.setThread t (some th.next)
    | some i =>
      let x : Dumping := {
        thread := t, request := i, cfg := s.rd (R.dbgDumpCfg i), dest := s.fld (R.dbgDumpDest i) 55 0, tensor := w.imm,
        step := th.r w.d, addr := th.r w.a, len := th.r w.b }
      let s := (s.clrFlag (R.dbgDumpCfg i) 63).setThread t (some { th with hold := .dump })
      { s with dbg := { s.dbg with dumps := s.dbg.dumps ++ [x] } })

/-- The lines of a dump (R625, R626): bytes read until the first failing line, with the status of the dump. -/
def State.dumpRead (s : State) (u : VmUser) (va len : Nat) : Nat → List Byte × Nat × State
  | 0 => ([], 0, s)
  | fuel + 1 =>
    if len = 0 then ([], 0, s)
    else
      let n := min len (128 - va % 128)
      match s.vaRead u va n with
      | (.inr f, s) => ([], f.ends.1, s)
      | (.inl b, s) =>
        let (rest, st, s) := s.dumpRead u (va + n) (len - n) fuel
        (b ++ rest, st, s)

/-- What a dump writes once it may run (R625, R626): tensor, header and flags; the thread goes on. -/
def State.dumpWrite (s : State) (t : Nat) (x : Dumping) (th : Thread) : State :=
  let max := Machine.fld x.cfg 39 0
  let len := min x.len max
  let start := s.now
  let (b, st, s) := s.dumpRead ⟨.cluster (Machine.fld x.cfg 47 44), 0, 7, th.view⟩ x.addr len (len + 1)
  let cookie := ((s.cmd th.cmd).map Cmd.cookie).getD 0
  let queue := ((s.cmd th.cmd).map Cmd.queue).getD 0
  let header := leBytes 4 x.tensor ++ leBytes 1 st ++ leBytes 1 (if max < x.len then 1 else 0) ++ leBytes 2 th.ctx ++
    leBytes 8 x.step ++ leBytes 8 cookie ++ leBytes 8 start ++ leBytes 8 b.length ++ leBytes 8 x.addr ++
    leBytes 8 x.len ++ leBytes 8 0
  let s := (s.memWrite (x.dest + 64) b 7 0 true).memWrite x.dest header 7 0 true
  let s := (s.setFlag R.dbgStatus 8).setFlag R.dbgDumpDone x.request
  let s := s.trace ⟨0x0A, 2, Machine.fld x.cfg 47 44, th.ctx, queue, cookie, x.tensor + 2 ^ 32 * st⟩
  s.setThread t (some th.next)

/-- DUMP_DONE (R625, R626): once the program's earlier launches and copies are over, the tensor and the header are written,
the flags are set and the thread goes on. A dump whose program is gone ends without effect. -/
def execDumpDone (t : Nat) (host : HostData) (s : State) : Answer :=
  .next (s.withHost host fun s => match s.dbg.dumps.find? (fun x => x.thread = t) with
    | none => s
    | some x =>
      let s' := { s with dbg := { s.dbg with dumps := s.dbg.dumps.filter (fun y => !decide (y.thread = t)) } }
      match s.thread t with
      | none => s'
      | some th =>
        if decide (th.hold ≠ Hold.dump) then s'
        else if s.programBusy th then s
        else
          s'.dumpWrite t x th)

/-- TMARK (R397, R620). -/
def execTmark (t : Nat) (s : State) : Answer :=
  .next (s.dissue t 0x49 fun th w s =>
    let queue := ((s.cmd th.cmd).map Cmd.queue).getD 0
    (s.trace ⟨0x02, 1, t / 16, th.ctx, queue, w.imm % 2 ^ 16, th.r w.a⟩).setThread t (some th.next))

end Sys2Proof.Machine
end

