-- ==== Sys2Proof/Machine/HostLink.lean ====
section
/-! DEFINITION. The host link: functions, configuration requests, power states, the host window, and how reads of host
memory end; function-level resets (spec 13 R478 to R491, 14 R511, 20 R643, R644). -/

namespace Sys2Proof.Machine

/-! ### Interrupts -/

/-- Send the pending vectors of a function that are no longer held back (R481, R483). -/
def State.sendPending (s : State) (f : Nat) : State :=
  (s.pci.pend.filter (fun e => decide (e.1 / 4096 = f))).foldl (fun s e =>
    ({ s with pci := { s.pci with pend := SMap.put false s.pci.pend e.1 false } }).sendVector f (e.1 % 4096)) s

/-! ### Function-level reset -/

/-- Discard the completions of a queue that retirements aborted (R643 step 2). -/
def State.loseAborted (s : State) (q : Nat) : State :=
  let x := s.queue q
  let mine (id : Nat) : Bool := match s.cmd id with
    | some c => (c.outcome.map Outcome.status) = some 0x06
    | none => false
  let gone := x.done.filter mine
  let s := s.setQueue q { x with done := x.done.filter (fun id => !mine id) }
  let s := gone.foldl (fun s id => s.dropCmd q id) s
  (s.count (R.queLost q) 32 gone.length).rled (4 * 2 + 3) gone.length

/-- The queues of a function. -/
def State.queuesOf (s : State) (f : Nat) : List Nat :=
  (s.regs.filter (fun e => decide (R.queCfg 0 ≤ e.1) && decide (e.1 < R.queCfg 16384) && decide (e.1 % 256 = 0) &&
    decide (Machine.fld e.2 37 32 = f))).map (fun e => (e.1 - R.queCfg 0) / 256)

/-- Steps 2 to 4 of R643 for a function whose contexts have retired; slot 0 keeps its key (R644). -/
def State.flrRest (s : State) (f : Nat) : State :=
  let s := (s.queuesOf f).foldl (fun s q => (if s.qEnable q then s.queueOff q else s).loseAborted q) s
  let s := (((s.wr (R.pciFnCause f) 0).wr (R.pciFnErrLog f) 0).wr (R.pciFnErrAddr f) 0).wr (R.pciFnDenied f) 0
  let s := { s with pci := { s.pci with
    table := s.pci.table.filter (fun e => !decide (e.1 / 4096 = f)),
    pend := s.pci.pend.filter (fun e => !decide (e.1 / 4096 = f)),
    msixOn := SMap.put false s.pci.msixOn f false, msixMask := SMap.put false s.pci.msixMask f false,
    d3 := SMap.put false s.pci.d3 f false, timeout := SMap.put 0 s.pci.timeout f 0,
    flr := s.pci.flr.filter (fun g => !decide (g = f)) } }
  if f = 0 then s else s.rekey f

/-- A reset of function `f` begins: its contexts retire (R511, R643 step 1). -/
def State.flrBegin (s : State) (f : Nat) : State :=
  { s with pci := { s.pci with flr := addOnce s.pci.flr f } }.retireTenant f

/-- VF Enable becomes 0: every enabled virtual function is reset (R511, R644). -/
def State.vfOff (s : State) : State :=
  if !s.pci.vfEnable then s
  else
    let s := (List.range s.pci.numVfs).foldl (fun s i => s.flrBegin (i + 1)) s
    { s with pci := { s.pci with vfEnable := false } }

/-- The resets whose retirements have ended go on (R643); the physical function's then clears VF Enable (R644). -/
def State.flrRun (s : State) : State :=
  let run (s : State) : State := s.pci.flr.foldl (fun s f =>
    if !s.tenantQuiet f then s
    else
      let s := s.flrRest f
      if f = 0 then s.vfOff else s) s
  run (run s)

/-- FUNCTION_LEVEL_RESET (R643). -/
def execFunctionLevelReset (fn : Nat) (s : State) : Answer :=
  .next (if fn = 0 || !s.fnExists fn then s else (s.flrBegin fn).flrRun)

/-- PF_FUNCTION_LEVEL_RESET (R644). -/
def execPfFunctionLevelReset (s : State) : Answer := .next ((s.flrBegin 0).flrRun)

/-- VF_ENABLE (R480): the virtual functions up to NumVFs come into existence. -/
def execVfEnable (s : State) : Answer :=
  .next (if s.answers then { s with pci := { s.pci with vfEnable := true } } else s)

/-- VF_DISABLE (R511, R586, R643). -/
def execVfDisable (s : State) : Answer := .next (s.vfOff.flrRun)

/-- NUMVFS_WRITE (R480): 0 to TotalVFs; a larger value is ignored. -/
def execNumvfsWrite (num : Nat) (s : State) : Answer :=
  .next (if s.answers && decide (num ≤ s.con.totalVfs) then { s with pci := { s.pci with numVfs := num } } else s)

/-- RETIRE_DONE (R528): what the retirement still waited for has finished; a reset that waited for it goes on (R643). -/
def execRetireDone (ctx : Nat) (s : State) : Answer :=
  .next (
    let s := s.retireRun ctx
    match s.retire? ctx with
    | some r => if r.step = 6 then (s.retired ctx r).flrRun else s
    | none => s)

/-- CONFIG_REQUEST (R480, R483, R634): Request Retry Status until step 8 of the start has finished; Unsupported Request for a function
that does not exist; else served. A register that R480 does not give answers a value the spec leaves open (log 1). -/
def execConfigRequest (fn : Nat) (req : CfgReq) (s : State) : Answer :=
  .next (
    if !s.answers then s.emit .retry
    else if !s.fnExists fn then (s.aerLog).emit .unsupported
    else match req with
      | .read off =>
        if off = 0 then s.emit (.config off (if fn = 0 then 0x96001F3B else 0x96011F3B))
        else if off = 8 then s.emit (.config off 0x120000A2)
        else s.withFree fun r s => s.emit (.config off (r % 2 ^ 32))
      | .msix on mask =>
        ({ s with pci := { s.pci with
          msixOn := SMap.put false s.pci.msixOn fn on, msixMask := SMap.put false s.pci.msixMask fn mask } }).sendPending fn
      | .timeout v off => { s with pci := { s.pci with timeout := SMap.put 0 s.pci.timeout fn (v.val + if off then 16 else 0) } })

/-- POWER_STATE_CHANGE (R481): a function moves between D0 and D3hot; back in D0 its pending vectors are sent. -/
def execPowerStateChange (fn : Nat) (d3 : Bool) (s : State) : Answer :=
  .next (
    if !s.fnExists fn then s
    else ({ s with pci := { s.pci with d3 := SMap.put false s.pci.d3 fn d3 } }).sendPending fn)

/-! ### The host window -/

/-- Does the physical function reach BAR2 at all (R32, R481, R641)? -/
def State.windowOpen (s : State) : Bool :=
  s.answers && decide (s.fld R.conStatus 3 0 ≠ 0) && !SMap.get false s.pci.d3 0 && !s.drained

/-- The key slot of the window (R486). -/
def State.windowSlot (s : State) : Nat := if s.flag R.pciWinCfg 7 then 64 else s.fld R.pciWinCfg 5 0

/-- The runs of bytes that a write enables: offset and bytes. -/
def enabledRuns (data : List (Option Byte)) (off : Nat) : List (Nat × List Byte) :=
  byteRuns (((List.range data.length).zip data).map (fun e => (off + e.1, e.2)))

/-- A window write into the sealed pool is discarded (R414): shown, its address recorded, the SEAL cause raised. -/
def State.sealHit (s : State) (a : Nat) : State :=
  let s := if s.flag R.dspStatus 4 then s else s.wr R.dspSealAddr (BitVec.ofNat 64 a)
  (s.setFlag R.dspStatus 4).raiseCause 0 12

/-- One run of enabled bytes of a window write (R414, R486): at its offset from the window's base. -/
def State.windowRun (s : State) (r : Nat × List Byte) : State :=
  let a := s.fld R.pciWinBase 55 0 + r.1
  if s.inPool a r.2.length then s.sealHit a else s.memWrite a r.2 5 s.windowSlot true

/-- HOST_WINDOW_WRITE (R414, R486 to R489): performed at the home slice under the window's base and key, or discarded. -/
def execHostWindowWrite (off : Nat) (data : MaskedBytes) (s : State) : Answer :=
  .next (
    if !s.windowOpen then s
    else if !s.flag R.pciWinCfg 8 then s.count R.pciWinDiscards 32 1
    else (enabledRuns data (off % 0x4000000)).foldl (fun s r => s.windowRun r) s)

/-- HOST_WINDOW_READ (R486, R488, R489). Window writes are performed as they arrive, so every earlier one is. -/
def execHostWindowRead (off len : Nat) (s : State) : Answer :=
  .next (
    if !s.windowOpen then s
    else if !s.flag R.pciWinCfg 8 then s.emit .unsupported
    else
      let (b, bad, s) := s.memRead (s.fld R.pciWinBase 55 0 + off % 0x4000000) len 5 s.windowSlot true
      (s.poisonIf bad).emit (.window b bad))

/-! ### Reads of host memory -/

/-- What the end of a host request leaves of a load (R491): the value of the thread that asked, or poison for it. -/
def Load.answered (l : Load) (tag op len : Nat) (data : List Byte) (e : HostEnd) : Load :=
  match l.want.find? (fun w => w.2 = tag) with
  | none => l
  | some w => { l with
      want := l.want.filter (fun x => !decide (x.2 = tag)),
      vals := if e = .ok then SMap.put none l.vals w.1 (some (loadValue op len data)) else l.vals,
      bad := if e = .ok then l.bad else l.bad ||| laneMask (fun i => i = w.1) }

/-- The loads of a core after a host request has ended: an acquire load at .d or wider that is performed by it invalidates the L1
before any later access (R339). -/
def Core.answeredBy (k : Core) (tag op len : Nat) (data : List Byte) (e : HostEnd) : Core :=
  let done := k.loads.any (fun l => decide (l.acq = 2) && !l.want.isEmpty && l.want.all (fun w => w.2 = tag))
  let k := { k with loads := k.loads.map (fun l => l.answered tag op len data e) }
  if done then k.acquire else k

/-- The context of a group of a core, 0 where there is none. -/
def State.slotCtx (s : State) (c slot : Nat) : Nat :=
  match (s.core c).group slot with | some g => (s.core c).groupCtx g | none => 0

/-- A request to the host ends (R491): its data, or poison with the failure counted and logged, reaches the thread load or the
instruction fetch that waits. -/
def State.hostEnds (s : State) (tag : Nat) (data : List Byte) (e : HostEnd) : State :=
  match s.pci.reqs.find? (fun r => r.tag = tag) with
  | none => s
  | some r =>
    let s := { s with pci := { s.pci with reqs := s.pci.reqs.filter (fun x => !decide (x.tag = tag)) } }
    match r.who with
    | .thread c slot op =>
      let s := s.hostError r.fn 1 (s.slotCtx c slot) r.addr e
      s.updCore c (fun k => k.answeredBy tag op r.len data e)
    | .fetch c slot line =>
      let s := s.hostError r.fn 1 (s.slotCtx c slot) r.addr e
      if e = .ok then s.icachePut c line (data ++ leBytes (128 - data.length) 0) else (s.consumedPoison).fetchFault c slot 0x06
    | .tcopy _ _ => s

/-- HOST_READ_COMPLETION (R491): a completion of an outstanding request arrives. -/
def execHostReadCompletion (tag : Nat) (data : List Byte) (e : HostEnd) (s : State) : Answer := .next (s.hostEnds tag data e)

/-- The shortest time, in nanoseconds, after which a request may time out for a Completion Timeout Value (R479): 30 ms for 0; for the
ranges A to D the lower ends that the PCI Express specification gives (PRESUMED, log 104). -/
def timeoutFloor (v : Nat) : Nat :=
  match v with
  | 1 => 50000
  | 2 => 1000000
  | 5 => 16000000
  | 6 => 65000000
  | 9 => 260000000
  | 10 => 1000000000
  | 13 => 4000000000
  | 14 => 17000000000
  | _ => 30000000

/-- HOST_READ_TIMEOUT (R479, R491): an outstanding request has no completion in time, unless the function's timeouts are disabled. -/
def execHostReadTimeout (tag : Nat) (s : State) : Answer :=
  .next (match s.pci.reqs.find? (fun r => r.tag = tag) with
    | none => s
    | some r =>
      let v := SMap.get 0 s.pci.timeout r.fn
      if 16 ≤ v || decide (s.now < r.sent + timeoutFloor v) then s else s.hostEnds tag [] .timeout)

end Sys2Proof.Machine
end

