-- ==== Sys2Proof/Machine/Power.lean ====
section
/-! DEFINITION. Power and thermal steps, gating of idle clusters, and maintenance of the stacks (spec 15 R533 to R555). -/

namespace Sys2Proof.Machine

/-! ### Steps -/

/-- The units of PWR_EMERG_LOG (R553) as steps are kept: current steps by 0 west, 1 east, 2 package; thermal ones by 0, 1 dies, 2 to 9
stacks, 10 hub. -/
def State.curStep (s : State) (u : Nat) : Nat := SMap.get 0 s.pwr.steps u
def State.heatStep (s : State) (u : Nat) : Nat := SMap.get 0 s.pwr.heat u

/-- PWR_EMERG_STEP from the steps in force (R541, R551): the highest of those that act on a unit; the hub's act on both dies (R535). -/
def State.showSteps (s : State) : State :=
  let die (d : Nat) : Nat := max (s.curStep d) (max (s.heatStep d) (s.heatStep 10))
  let stk := ((List.range 8).map (fun i => s.heatStep (i + 2) * 2 ^ (2 * i + 4))).sum
  s.wr R.pwrEmergStep (BitVec.ofNat 64 (s.curStep 2 * 2 ^ 20 + stk + die 1 * 4 + die 0))

/-- The commands that a step on unit `u` (R553) marks (R542): those with a block on a gated core, or for a stack every command in service. -/
def State.voidFor (s : State) (u : Nat) : State :=
  if 2 ≤ u && u ≤ 9 then s.voidCmds (fun _ _ => true)
  else
    let ids := s.cores.flatMap (fun e =>
      if u = 10 || dieOfCore e.1 = u then e.2.blockList.filterMap (fun b => (s.launch b.2.launch).map Launch.cmd) else [])
    s.voidCmds (fun id _ => ids.contains id)

/-- A step is declared (R542, R551 to R553, R599, R600, R620, R623). -/
def State.declareStep (s : State) (cause unit step sensor : Nat) : State :=
  let log := 2 ^ 63 + cause * 2 ^ 61 + unit * 2 ^ 57 + step * 2 ^ 55 + sensor * 2 ^ 49 + s.time40
  let s := (s.fillLog R.pwrEmergLog (BitVec.ofNat 64 log)).count R.pwrEmergCount 32 1
  let s := s.setFlag R.pwrStatus (if cause = 1 then 5 else 6)
  let s := ((s.showSteps).voidFor unit).traceEvent ⟨0x0D, 5, 0, 0, 0, log, 0⟩ 5
  (s.alert 4).withFree fun r s =>
    s.logEvent 0x05 (if unit = 10 then 0 else if 2 ≤ unit then unit - 2 else unit) r

/-- Raise a current step by one (R534, R537): to at most 3, at most once per 100 µs. -/
def State.raiseStep (s : State) (u : Nat) : State :=
  let soon := match SMap.get none s.pwr.raised u with | some t => decide (s.now < t + 100000) | none => false
  if 3 ≤ s.curStep u || soon then s
  else
    let n := s.curStep u + 1
    let s := { s with pwr := { s.pwr with
      steps := SMap.put 0 s.pwr.steps u n, raised := SMap.put none s.pwr.raised u (some s.now),
      calm := SMap.put 0 s.pwr.calm u 0 } }
    s.declareStep (if u = 2 then 2 else 3) (if u = 2 then 10 else u) n 0

/-- A time of a condition goes on while it holds, and starts again at zero where it does not. -/
def runTime (m : SMap Nat) (u : Nat) (on : Bool) : SMap Nat := SMap.put 0 m u (if on then SMap.get 0 m u + 1 else 0)

/-- The excursion account's size in mW × us (R534). -/
def State.excursionCap (s : State) : Nat := (1000 * s.pwr.excursionW - 1000 * s.fld R.pwrPartition 63 48) * s.pwr.excursionUs

/-- The readings of a sample show (R551, R608). -/
def State.showInput (s : State) (input : Nat) : State :=
  (s.wr R.pwrInputMw (BitVec.ofNat 64 input)).wr (R.mgtRailMw 0) (BitVec.ofNat 64 input)

/-- A sample of the input and both dies, in mW (R534, R537): the account and the times of each condition go on. -/
def State.sampled (s : State) (input west east : Nat) : State :=
  let sus := 1000 * s.fld R.pwrPartition 63 48
  let account := s.pwr.account + input - sus
  let low := decide (2 * account < s.excursionCap)
  let lim := 1000 * s.pwr.dieW
  let calm := runTime (runTime (runTime s.pwr.calm 0 (low && decide (west ≤ lim))) 1 (low && decide (east ≤ lim))) 2
    (low && decide (input ≤ sus))
  let hot := runTime (runTime s.pwr.dieOver 0 (decide (lim < west))) 1 (decide (lim < east))
  let above := if 1000 * s.pwr.excursionW < input then s.pwr.above + 1 else 0
  let s := { s with pwr := { s.pwr with account := account, above := above, calm := calm, dieOver := hot } }
  s.wr R.pwrBucketMj (BitVec.ofNat 64 (account / 1000000 % 2 ^ 32))

/-- Is the package's current step due (R534): the account is spent, or the input has been above EXCURSION_W for 50 us? -/
def State.stepDue (s : State) : Bool :=
  decide (s.excursionCap ≤ s.pwr.account) || decide (50 ≤ s.pwr.above)

/-- POWER_SAMPLE (R534, R537): the input and both dies are measured; the package's current step rises when it is due. Until a consist
gives the limits there is nothing to keep (R536). -/
def execPowerSample (input west east : BitVec 32) (s : State) : Answer :=
  .next (
    if !s.boot.main then s
    else if s.fld R.conStatus 3 0 ≤ 1 then s.showInput input.toNat
    else
      let t := (s.showInput input.toNat).sampled input.toNat west.toNat east.toNat
      if t.stepDue then t.raiseStep 2 else t)

/-- The step of a unit: its number among the current steps. -/
def StepUnit.num : StepUnit → Nat
  | .package => 2
  | .die d => d.val

/-- STEP_LOWER (R534, R537): after 1 ms in which its condition held, the step falls by one. -/
def execStepLower (unit : StepUnit) (s : State) : Answer :=
  .next (
    let u := unit.num
    if s.curStep u = 0 || decide (SMap.get 0 s.pwr.calm u < 1000) then s
    else ({ s with pwr := { s.pwr with
      steps := SMap.put 0 s.pwr.steps u (s.curStep u - 1), calm := SMap.put 0 s.pwr.calm u 0 } }).showSteps)

/-- DIE_POWER_STEP (R537): a die has drawn more than DIE_W for 1 ms. -/
def execDiePowerStep (die : Nat) (s : State) : Answer :=
  .next (
    let d := die % 2
    if SMap.get 0 s.pwr.dieOver d < 1000 then s
    else ({ s with pwr := { s.pwr with dieOver := SMap.put 0 s.pwr.dieOver d 0 } }).raiseStep d)

/-! ### Temperature -/

/-- A unit with thermal steps, as R553 numbers it and the hub 10. -/
def HeatUnit.num : HeatUnit → Nat
  | .die d => d.val
  | .stack k => k.val + 2
  | .hub => 10

/-- Step and trip temperatures of a unit in 1/16 °C (R535): step, threshold; 4 stands for the trip. -/
def heatLevels (u : Nat) : List (Nat × Int) :=
  if u < 2 then [(1, 1600), (2, 1648), (3, 1680), (4, 1760)]
  else if u = 10 then [(3, 1680), (4, 1760)]
  else [(1, 1520), (2, 1600), (4, 1680)]

/-- The sensors of a unit: their registers, with the sensor number of R608. -/
def heatSensors (u : Nat) : List (Nat × Nat) :=
  if u < 2 then (List.range 24).map (fun i => (24 * u + i, R.mgtTemp (24 * u + i)))
  else if u = 10 then (List.range 8).map (fun i => (48 + i, R.mgtTemp (48 + i)))
  else [(0, R.memStackTemp (u - 2))]

/-- A sensor's reading. -/
def State.temp (s : State) (off : Nat) : Int := sx 16 (s.rd off).toNat

/-- The hottest sensor of a unit and its reading (R535). -/
def State.hottest (s : State) (u : Nat) : Nat × Int :=
  (heatSensors u).foldl (fun (a : Nat × Int) e => if a.2 < s.temp e.2 then (e.1, s.temp e.2) else a)
    (((heatSensors u).headD (0, 0)).1, s.temp ((heatSensors u).headD (0, 0)).2)

/-- How many of a unit's step and trip temperatures a reading reaches: the thresholds of the PLDM sensors (R598). -/
def heatBand (u : Nat) (t : Int) : Nat := ((heatLevels u).filter (fun l => decide (l.2 ≤ t))).length

/-- A new reading of a temperature sensor of unit `u` (R535, R597, R598): a threshold that it crosses raises an alert; the time that the
unit has been 3 °C below each step starts or ends. -/
def State.setTemp (s : State) (u off : Nat) (v : BitVec 16) : State :=
  let old := heatBand u (s.temp off)
  let s := s.wr off (BitVec.ofNat 64 v.toNat)
  let s := if heatBand u (s.temp off) = old then s else s.alert 0
  let t := (s.hottest u).2
  let cool := (heatLevels u).foldl (fun (m : SMap (Option Nat)) l =>
    let k := 16 * u + l.1
    SMap.put none m k (if t ≤ l.2 - 48 then some ((SMap.get none m k).getD s.now) else none)) s.pwr.cool
  { s with pwr := { s.pwr with cool := cool } }

/-- The highest step whose temperature a reading reaches. -/
def heatReached (u : Nat) (t : Int) : Nat :=
  (((heatLevels u).filter (fun l => decide (l.1 < 4) && decide (l.2 ≤ t))).map Prod.fst).foldl max 0

/-- The highest step up to the one in force that a unit has not yet left (R535). -/
def State.heatKept (s : State) (u : Nat) : Nat :=
  (((heatLevels u).filter (fun l => decide (l.1 ≤ s.heatStep u) &&
    !(match SMap.get none s.pwr.cool (16 * u + l.1) with | some t => decide (t + 1000000 ≤ s.now) | none => false))).map
      Prod.fst).foldl max 0

/-- THERMAL_STEP (R535): a unit's hottest sensor reaches a step, or has stayed 3 °C below for 1 ms. The hub's step is declared for both
dies. -/
def execThermalStep (unit : HeatUnit) (s : State) : Answer :=
  .next (
    let u := unit.num
    let (sensor, t) := s.hottest u
    let n := heatReached u t
    let put (n : Nat) : State := { s with pwr := { s.pwr with heat := SMap.put 0 s.pwr.heat u n } }
    if s.heatStep u < n then
      if u = 10 then ((put n).declareStep 1 0 n sensor).declareStep 1 1 n sensor else (put n).declareStep 1 u n sensor
    else (put (s.heatKept u)).showSteps)

/-- Does a unit stand at its trip temperature (R535)? -/
def State.tripped (s : State) (u : Nat) : Bool :=
  (heatLevels u).any (fun l => l.1 = 4 && decide (l.2 ≤ (s.hottest u).2))

/-! ### Gating -/

/-- CLUSTER_GATE (R72, R540): a cluster outside every lane that has held no block for PWR_GATE_IDLE. -/
def execClusterGate (u : Nat) (s : State) : Answer :=
  .next (
    let n := u % 16
    let wait := (s.rd R.pwrGateIdle).toNat
    let busy := s.cores.any (fun e => clusterOf e.1 = n && !e.2.blockList.isEmpty)
    if wait = 0 || s.laneMask.testBit n || busy || s.pwr.gated.contains n ||
        decide (s.now < SMap.get 0 s.pwr.lastBlock n + 1000 * wait) then s
    else { s with pwr := { s.pwr with gated := n :: s.pwr.gated } })

/-- CLUSTER_WAKE (R72, R540): the clock runs again and the crossings are unparked. -/
def execClusterWake (u : Nat) (s : State) : Answer :=
  .next { s with pwr := { s.pwr with
    gated := s.pwr.gated.filter (fun n => !decide (n = u % 16)), lastBlock := SMap.put 0 s.pwr.lastBlock (u % 16) s.now } }

/-! ### Maintenance -/

/-- A recalibration ends (R546, R554, R565): its failures are counted, and the eighth in succession is a lasting fault of the channel. -/
def State.recal (s : State) (k : Nat) (ok : Bool) : State :=
  let n := if ok then 0 else SMap.get 0 s.pwr.recalFails k + 1
  let s := { s with pwr := { s.pwr with recalFails := SMap.put 0 s.pwr.recalFails k n } }
  let s := s.putFlag (R.memChStatus k) 2 (!ok)
  let s := if ok then s else s.setFld (R.memChStatus k) 15 8 (min 255 (s.fld (R.memChStatus k) 15 8 + 1))
  if n ≠ 8 then s
  else
    let s := if s.flag R.rasRetireLog 63 then s
      else (s.wr R.rasRetireLog (BitVec.ofNat 64 (2 ^ 63 + 5 * 2 ^ 60 + s.time40))).wr R.rasRetireWhere (BitVec.ofNat 64 k)
    (((s.setFlag R.rasStatus 5).raiseCause 0 15).alert 5).logEvent 0x06 k k

/-- What the patrol finds in a sector of the channel (R546, R559, R563): corrected, or poisoned. -/
def State.scrub (s : State) (k sector : Nat) (u : Upset) : State :=
  let a := 32 * sector
  if localEnd ≤ a || homeChannel a ≠ k then s
  else
    let s := if u = .lost then { s with mem := { s.mem with poison := SMap.put false s.mem.poison sector true } } else s
    let s := s.detect 0x0F (homeStack a) a u
    if u = .none then s else s.rowEvent a

/-- The tasks of a channel in the order of R546. -/
def State.maintain (s : State) (k : Nat) (w : MaintWork) : State :=
  let st := k / 32
  let s := match w.temp with | some t => s.setTemp (st + 2) (R.memStackTemp st) t | none => s
  let s := match w.recal with | some ok => s.recal k ok | none => s
  let s := w.scrub.foldl (fun s e => s.scrub k e.1 e.2) s
  let old := s.rd (R.memScrubLag st)
  let s := s.wr (R.memScrubLag st) (BitVec.ofNat 64 w.lag.toNat)
  if old = 0 && decide (w.lag ≠ 0) then s.setFlag R.memStatus 0 else s

/-- MAINT_WINDOW_OPEN (R545, R546): a channel runs its tasks inside one of its windows. -/
def execMaintWindowOpen (channel : Byte) (work : MaintWork) (s : State) : Answer :=
  .next (if s.inWindow channel.toNat then s.maintain channel.toNat work else s)

/-- Does MEM_OVERRUN_LOG keep what it holds (R555)? Of episodes of one memory cycle it takes the lower channel. -/
def State.keepsOverrun (s : State) (k : Nat) : Bool :=
  s.flag R.memOverrunLog 63 && !(s.fld R.memOverrunLog 39 0 = s.time40 && decide (k < s.fld R.memOverrunLog 59 52))

/-- MAINT_OVERRUN (R547, R548, R555, R620): a task at its deferral limit. Where no lane-admitted command runs it takes best-effort
capacity and sets no flag; else it takes foreground cycles, at most 2,000, counted and logged, and voids the guarantees
of what runs. `task` is TASK − 1. -/
def execMaintOverrun (channel : Byte) (task : Fin 4) (cycles : Fin 2000) (work : MaintWork) (s : State) : Answer :=
  .next (
    let k := channel.toNat
    if s.cmdList.all (fun e => !(e.2.lane.isSome && e.2.inService)) then s.maintain k work
    else
      let n := cycles.val + 1
      let log := 2 ^ 63 + (task.val + 1) * 2 ^ 60 + k * 2 ^ 52 + n * 2 ^ 40 + s.time40
      let s := (s.count R.memOverrunCount 32 1).count R.memOverrunCycles 64 n
      let s := ((if s.keepsOverrun k then s else s.wr R.memOverrunLog (BitVec.ofNat 64 log)).setFlag R.memStatus 1).setFlag R.pwrStatus 4
      let s := { s with pwr := { s.pwr with overrun := SMap.put 0 s.pwr.overrun k (s.now + n) } }
      let s := (s.voidCmds (fun _ _ => true)).trace ⟨0x0E, 6, k, 0, 0, log, 0⟩
      s.maintain k work)

end Sys2Proof.Machine
end

