-- ==== Sys2Proof/Machine/Reset.lean ====
section
/-! DEFINITION. Start-up, the kinds of reset, loss of power, the orderly power-down and unit resets (spec 20, 02 R61, 15 R535, 17 R578, 21 R656 to
R664). A start event whose condition does not hold leaves the state as it is. -/

namespace Sys2Proof.Machine

/-- The last step of R634 that has finished (R647). -/
def State.bootStep (s : State) : Nat := s.fld R.pwrBootStatus 19 16
def State.toStep (s : State) (n : Nat) : State := s.setFld R.pwrBootStatus 19 16 n

/-! ### What a reset clears -/

/-- Registers that every reset of the main domains keeps (R634, R638): the MGT block, fuses and ROM keys, and the boot slot, which the management
controller holds. -/
def keptAlways (off : Nat) : Bool :=
  inBlock off 0x50000 0x60000 || off = R.secSerial || off = R.secRollback || off = R.secFuses ||
    inBlock off (R.secRomKeyid 0) (R.secRomKeyid 4) || off = R.conBootSlot

/-- Registers that a warm reset keeps beside those (R638). -/
def keptWarm (startWritten : Bool) (off : Nat) : Bool :=
  off = R.clkTsNow || (startWritten && decide (off = R.conStartSlot)) || off = R.pwrResetLog || off = R.dspRetireCount ||
    inArray off (R.cchWayRetired 0) 8 64 || inArray off (R.memSpareLeft 0) 8 8 || off = R.rasSparesOut

/-- Every domain but standby is reset (R634, R636 to R638, R640). A cold reset draws fresh keys, so that what device memory held reads as
unpredictable bytes, and forgets a written CON_START_SLOT. An update or a wear sample in progress ends (R603, R605). -/
def State.clearMain (s : State) (warm : Bool) : State :=
  let s := if (match s.mgt.update with | some u => u.writing | none => false) then s.logFlush else s
  let keep (off : Nat) : Bool := keptAlways off || (warm && keptWarm s.boot.startWritten off)
  let gen := if warm then s.mem.gen else (List.range 65).foldl (fun (g : SMap Nat) i => SMap.upd 0 g i (· + 1)) s.mem.gen
  let s := { s with
    regs := s.regs.filter (fun e => keep e.1)
    force := []
    mem := { s.mem with poison := if warm then s.mem.poison else [], l2 := [], clock := 0, gen := gen, fenced := [], events := [], cut := 0 }
    trn := trnReset
    cores := []
    pts := ptsReset
    dsp := dspReset
    pci := pciReset
    con := conReset
    sem := semReset
    dbg := { dbgReset with mxBase := if warm then (List.range 192).foldr (fun c m => SMap.put 0 m c s.now) [] else [] }
    ras := { rasReset with lanesOut := s.ras.lanesOut }
    mln := mlnReset
    eth := ethReset
    pwr := pwrReset
    sec := { secReset with fuses := s.sec.fuses, ownerKeys := s.sec.ownerKeys, fwMeas := s.sec.fwMeas, fwVersion := s.sec.fwVersion }
    mgt := { s.mgt with update := none, wearHeld := none, utilBase := [], readings := if warm then s.mgt.readings else s.mgt.readings.filter (fun e => e.1 = 0x207) }
    boot := { s.boot with
      stopped := false, drain := false, unit := none, waiting := false, startWritten := warm && s.boot.startWritten } }
  s.clrFlag R.mgtStatus 1

/-- PWR_RESET_CAUSE (R648). -/
def State.resetCause (s : State) (cause : Nat) (drained : Bool) : State :=
  s.wr R.pwrResetCause (BitVec.ofNat 64 (cause + if drained then 16 else 0))

/-- SEC_ROLLBACK and SEC_FUSES show the fuses (R576, R593). -/
def State.showFuses (s : State) : State :=
  let f := s.sec.fuses
  (s.wr R.secRollback (BitVec.ofNat 64 (f.conCount * 2 ^ 8 + f.fwCount))).wr R.secFuses
    (BitVec.ofNat 64 (f.ochornRevoke * 2 ^ 16 + f.ownerRevoke * 2 ^ 8 + (2 ^ f.ownerHash.length - 1)))

/-! ### Standby power and the boot ROM -/

/-- STANDBY_POWER_ON (R634, R576, R664, R671): VSB5 comes within limits and the straps are sampled. `factory` is what the module left the
factory with; it counts at the first start alone. -/
def execStandbyPowerOn (factory : Factory) (straps : Fin 4) (s : State) : Answer :=
  .next (
    if s.boot.power then s
    else
      let s := ({ s with boot := { s.boot with power := true, straps := straps.val } }).toStep 1
      if s.boot.made then s
      else
        let f : Fuses := {
          ochornRevoke := factory.ochornRevoke.toNat, ownerHash := factory.ownerHash.take 8,
          ownerRevoke := factory.ownerRevoke.toNat, fwCount := factory.fwCount.val, conCount := factory.conCount.val }
        let flash := factory.flash.foldl (fun (m : SMap Byte) e => SMap.put 0xFF m e.1 e.2) []
        let s := { s with
          boot := { s.boot with made := true }
          mgt := { s.mgt with flash := flash }
          sec := { s.sec with fuses := f, ownerKeys := factory.ownerKeys.take 8 } }
        let s := (s.wr R.secSerial factory.serial).showFuses
        (List.range 2).foldl (fun s i =>
          let k := keyIdOf (Config.romKey i)
          (s.wr (R.secRomKeyid (2 * i)) (BitVec.ofNat 64 (leNat ((leBytes 16 k).reverse.take 8)))).wr (R.secRomKeyid (2 * i + 1))
            (BitVec.ofNat 64 (leNat ((leBytes 16 k).reverse.drop 8)))) s)

/-- The firmware slot that passes, preferred first (R578). -/
def State.firmware (s : State) (badA badB : Bool) : Option Nat :=
  let ok (i : Nat) : Bool := (s.verifySlot (fwSlot i) 0x1000000 3 s.fwCounter (if i = 0 then badA else badB)).isNone
  if ok s.mgt.fwPref then some s.mgt.fwPref else if ok (1 - s.mgt.fwPref) then some (1 - s.mgt.fwPref) else none

/-- BOOT_ROM_VERIFY (R578, R580, R602): the firmware of the first slot that passes runs; with none, recovery. After a warm reset the firmware that
an update has preferred takes effect. -/
def execBootRomVerify (badA badB : Bool) (s : State) : Answer :=
  .next (
    if !s.boot.power || (s.mgt.running.isSome && (s.fld R.conStatus 3 0 ≠ 1 || s.boot.stopped)) then s
    else match s.firmware badA badB with
      | some i =>
        let img := slotImage s.mgt.flash (fwSlot i) 0x1000000
        let s := { s with
          mgt := { s.mgt with running := some i }
          sec := { s.sec with fwMeas := measure img, fwVersion := num img 0x1C 4 } }
        let s := ((s.setFlag R.mgtStatus 0).clrFlag R.mgtStatus 2).setFld R.mgtStatus 9 8 i
        if s.bootStep < 2 then s.toStep 2 else s
      | none =>
        let code (i : Nat) : Nat :=
          match s.verifySlot (fwSlot i) 0x1000000 3 s.fwCounter (if i = 0 then badA else badB) with
          | some e => e.2 * 2 ^ 16 + e.1
          | none => 0
        let s := { s with mgt := { s.mgt with running := none } }
        let s := ((s.clrFlag R.mgtStatus 0).setFlag R.mgtStatus 2)
        (s.logEvent 0x08 s.mgt.fwPref (code s.mgt.fwPref)).logEvent 0x08 (1 - s.mgt.fwPref) (code (1 - s.mgt.fwPref)))

/-! ### Main power -/

/-- MAIN_INPUT_VALID (R634, R656, R658): step 2 has finished and VIN48 has been within limits for 1 ms; the converters start. -/
def execMainInputValid (s : State) : Answer :=
  .next (
    if s.mgt.running.isNone || s.boot.main then s
    else { s with boot := { s.boot with main := true, converters := false, pll := 0 } })

/-- The converters go off, MAIN_FAIL is logged, and step 3 is tried again (R634). -/
def State.mainFail (s : State) (data : Nat) : State :=
  ((({ s with boot := { s.boot with main := false, converters := false, pll := 0 } }).toStep 2)).logEvent 0x0C 0 data

/-- CONVERTERS_SETTLED (R634): `ok`, or 20 ms have passed without. -/
def execConvertersSettled (ok : Bool) (s : State) : Answer :=
  .next (
    if !s.boot.main || s.boot.converters then s
    else if ok then ({ s with boot := { s.boot with converters := true, pll := 0 } }).toStep 3
    else s.mainFail 0)

/-- PLL_LOCK_TIMEOUT (R61, R634): lock is tried again 3 times, then step 3 fails. -/
def execPllLockTimeout (s : State) : Answer :=
  .next (
    if s.bootStep ≠ 3 then s
    else if s.boot.pll < 3 then { s with boot := { s.boot with pll := s.boot.pll + 1 } }
    else s.mainFail 0)

/-- ROOT_PLL_LOCK (R59, R61, R62, R634): the clocks run, CLK_TS_NOW starts from zero. -/
def execRootPllLock (s : State) : Answer :=
  .next (
    if s.bootStep ≠ 3 then s
    else
      let s := (({ s with dbg := { s.dbg with mxBase := [] } }.wr R.clkTsNow 0).setFlag R.clkStatus 4).putFlag R.clkStatus 7 s.boot.lossStart
      ({ s with boot := { s.boot with pll := 0, lossStart := false } }).toStep 4)

/-- ROOT_PLL_LOCK_LOSS (R61, R634, R648): every root clock stops, the link goes down, what main power held is lost, and the start goes on at
step 4. -/
def execRootPllLockLoss (s : State) : Answer :=
  .next (
    if s.bootStep < 4 then s
    else
      let done := s.drained
      let s := ((s.clearMain false).resetCause 8 done).clrFlag R.clkStatus 4
      let s := ({ s with boot := { s.boot with lossStart := true, pll := 0, warm := none } }).toStep 3
      (s.alert 3).withFree fun r s => s.logEvent 0x01 0 r)

/-- The loads are removed and nothing is drained (R640). -/
def State.powerOff (s : State) : State :=
  let done := s.drained
  let s := ((s.clearMain false).resetCause 1 done).clrFlag R.clkStatus 4
  ({ s with boot := { s.boot with main := false, converters := false, lossStart := false, pll := 0, warm := none } }).toStep 2

/-- MAIN_POWER_LOSS (R640, R600): VIN48 falls below 40 V. After an orderly power-down ORDERLY_OFF is logged. -/
def execMainPowerLoss (s : State) : Answer :=
  .next (
    if !s.boot.main then s
    else if s.drained then s.powerOff.withFree fun r s => s.logEvent 0x0B 0 r
    else s.powerOff.logEvent 0x0C 0 0)

/-- MAIN_INPUT_OVERVOLTAGE (R656): VIN48 rises above 62 V. -/
def execMainInputOvervoltage (s : State) : Answer :=
  .next (if !s.boot.main then s else s.powerOff.logEvent 0x0C 0 1)

/-- THERMAL_TRIP (R535, R640, R664): a unit's hottest sensor stands at its trip temperature; THERMTRIP# goes low. -/
def execThermalTrip (unit : HeatUnit) (s : State) : Answer :=
  .next (
    let u := unit.num
    if !s.boot.main || !s.tripped u then s
    else
      let s := s.powerOff
      ({ s with boot := { s.boot with trip := true } }).withFree fun r s =>
        s.logEvent 0x04 (if u = 10 then 0 else if 2 ≤ u then u - 2 else u) r)

/-- THERMTRIP_RELEASE (R664): VIN48 has been below 40 V for 1 s. -/
def execThermtripRelease (s : State) : Answer :=
  .next (if s.boot.main then s else { s with boot := { s.boot with trip := false } })

/-- STANDBY_POWER_LOSS (R634, R658): the loads are removed and the standby domain is reset; fuses, flash and what is recorded in it stay. -/
def execStandbyPowerLoss (s : State) : Answer :=
  .next (
    if !s.boot.power then s
    else
      let s := s.powerOff
      let keep (off : Nat) : Bool := off = R.mgtPowerOnDays || inArray off (R.mgtEol 0) 8 11
      let s := { s with
        regs := s.regs.filter (fun e => !inBlock e.1 0x50000 0x60000 || keep e.1)
        mgt := { s.mgt with running := none, events := [], waiting := [] }
        sec := { s.sec with fwMeas := 0, fwVersion := 0 }
        boot := { bootReset with made := s.boot.made, perst := s.boot.perst } }
      s.toStep 0)

/-- STANDBY_CRYSTAL_STOP (R60, R74). -/
def execStandbyCrystalStop (s : State) : Answer := .next (s.clrFlag R.clkStatus 6)

/-! ### Stacks and the link -/

/-- STACK_TRAINING_DONE (R634, R635, R568): after the PLL has locked; in a warm reset once PERST# is deasserted. `failed` has a bit for each
stack whose third attempt failed. -/
def execStackTrainingDone (failed : Byte) (s : State) : Answer :=
  .next (
    if s.bootStep ≠ 4 || s.fld R.conStatus 3 0 ≠ 1 || s.boot.stopped || (s.boot.waiting && s.boot.perst) then s
    else if failed = 0 then
      let s := (List.range 8).foldl (fun s i =>
        let used := SMap.get 0 s.mgt.spares i
        let s := s.wr (R.memSpareLeft i) (BitVec.ofNat 64 (2048 - used))
        if 2048 ≤ used then s.setFlag R.rasSparesOut i else s) s
      ({ s with boot := { s.boot with waiting := false } }).toStep 5
    else
      let s := (s.setFlag R.pwrBootStatus 0).setFld R.pwrBootStatus 15 8 failed.toNat
      let s := ((List.range 8).filter (fun i => failed.toNat.testBit i)).foldl (fun s i => s.logEvent 0x0D i 3) s
      s.noConsist)

/-- PCIE_LINK_UP (R507, R634): the link trains once PERST# is deasserted and step 4 has finished; its speed, width and mode show. -/
def execPcieLinkUp (speed : Fin 16) (width : Byte) (flit : Bool) (s : State) : Answer :=
  .next (
    if s.boot.perst || s.bootStep < 4 || s.boot.stopped then s
    else (((s.setFlag R.pciStatus 10).putFlag R.pciStatus 11 flit).setFld R.pciStatus 15 12 speed.val).setFld R.pciStatus 23 16
      width.toNat)

/-! ### Steps 1 to 5 of R637 -/

/-- Every entry is stopped with ABORTED (R637 step 2, R641). -/
def State.stopAll (s : State) : State :=
  let s := { s with dsp := { s.dsp with draining := true } }
  s.cmdList.foldl (fun s e => s.stopCmd e.1 0x06 0 0) s

/-- The open steps close (R253), and the store buffers drain (R637 step 3); remote writes that no port controller could accept are surrendered. -/
def State.finishStores (s : State) : State :=
  let pass (s : State) : State := s.cores.foldl (fun s e => s.drainCore e.1 (fun _ => true) 0 (s.core e.1).stores.length) s
  let s := s.pts.steps.foldl (fun s p => s.closeStep p.launch) s
  let s := pass s
  let left := (s.cores.map (fun e => (e.2.stores.filter (fun x => x.place = .remote)).length)).sum
  let s := s.mapCores (fun _ k => k.keepStores (fun x => !decide (x.place = .remote)))
  let s := s.cores.foldl (fun s e => s.settleFaults e.1) s
  pass (s.resetLog 0 left)

/-- Messages that are not acknowledged are surrendered and counted, and the neighbours hear PEER_DOWN (R637 step 4, R470). -/
def State.finishMainline (s : State) : State :=
  let gone := s.mln.unacked
  let s := (((s.resetLog 0 gone.length).led 0 3 gone.length).unhold 0 gone.length).setMln { s.mln with unacked := [] }
  let s := gone.foldl (fun s u => s.tellLost u.core) s
  let s := s.noticeAll 3 s.con.node 0 0
  let sig := s.mln.leaving.filter (fun l => l.msg.cls = 0)
  let s := s.setMln { s.mln with leaving := s.mln.leaving.filter (fun l => !decide (l.msg.cls = 0)) }
  sig.foldl (fun s l => if s.portUp l.port then s.emit (.mln l.port l.msg) else s) s

/-- The ticket cache is flushed and every dirty line is written to its stack (R637 step 5). -/
def State.finishCaches (s : State) : State :=
  let s := s.tktFlushAll
  s.setMem (s.mem.l2.foldl (fun (m : MemSys) e => m.flushLine e.1) s.mem)

/-! ### Warm reset -/

/-- Step 1 of R637 and what stops at once. A switch is abandoned (R39), an invalidation and a unit reset too (R327, R645). -/
def State.warmBegin (s : State) (hot : Bool) : State :=
  let s := s.setFld R.pwrResetLog 15 0 (min 65535 (s.fld R.pwrResetLog 15 0 + 1))
  let s := if s.fld R.conStatus 3 0 = 3 then s.setFld R.conStatus 3 0 2 else s
  let s := { s with
    boot := { s.boot with warm := some hot, stopped := true, waiting := false, unit := none }
    con := { s.con with next := none }
    trn := { s.trn with inval := none } }
  (s.clrFlag R.pciStatus 10).stopAll

/-- Step 6 of R637 (R638, R642, R648), what steps 1 to 5 have left undone being done first. -/
def State.domainReset (s : State) : State :=
  let hot := s.boot.warm = some true
  let done := s.drained || (!s.boot.stopped && s.flag R.pwrResetCause 4)
  let s := if s.boot.stopped then s.finishStores.finishMainline.finishCaches else s
  let s := ((s.clearMain true).resetCause (if hot then 4 else 2) done).toStep 4
  { s with boot := { s.boot with waiting := true } }

/-- A warm reset begins, or one that has reached step 6 goes back to it (R637). -/
def State.warmStart (s : State) (hot : Bool) : State :=
  if s.bootStep < 4 then s
  else if s.boot.warm.isNone then s.warmBegin hot
  else if s.boot.stopped then s
  else ({ s with boot := { s.boot with warm := some hot } }).domainReset

/-- PERST_ASSERT (R637, R664). -/
def execPerstAssert (s : State) : Answer :=
  .next (if s.boot.perst then s else ({ s with boot := { s.boot with perst := true } }).warmStart false)

/-- HOT_RESET (R637): received on the link, so not while PERST# is low. -/
def execHotReset (s : State) : Answer := .next (if s.boot.perst then s else s.warmStart true)

/-- WARM_RESET_DOMAIN_RESET (R65, R637): step 6. -/
def execWarmResetDomainReset (s : State) : Answer := .next (if s.boot.stopped then s.domainReset else s)

/-- PERST_DEASSERT (R634, R637, R666): the boundary cells release the lands, and a start that has finished step 8 is ready. -/
def execPerstDeassert (s : State) : Answer :=
  .next (
    let s := { s with boot := { s.boot with perst := false }, tap := { s.tap with driving := false } }
    if s.bootStep = 8 then s.toStep 9 else s)

/-! ### Orderly power-down -/

/-- DRAIN_REQUEST (R641, R642): a write of 1 to PWR_DRAIN.REQ; one during a drain or after it is ignored. -/
def execDrainRequest (fn : Nat) (s : State) : Answer :=
  .next (s.mmio fn R.pwrDrain true fun s =>
    if s.boot.drain || s.drained then s else ({ s with boot := { s.boot with drain := true } }).stopAll)

/-- Has every entry completed, or ended on a queue that cannot take its completion? -/
def State.entriesGone (s : State) : Bool :=
  s.cmdList.all (fun e => e.2.stage = .ended && s.flag (R.queStatus e.2.queue) 4)

/-- DRAIN_DONE (R641): steps 3 to 6. -/
def execDrainDone (s : State) : Answer :=
  .next (
    if !s.boot.drain || !s.entriesGone then s
    else
      let s := (s.finishStores.finishMainline).finishCaches.logFlush
      let s := { s with boot := { s.boot with drain := false } }
      (s.setFlag R.pwrDrain 1).raiseCause 0 14)

/-! ### Unit reset -/

/-- A write of PWR_UNIT_RESET with GO (R645, R649): refused while a reset runs or where the requirement fails, KIND and INDEX then staying as
they were. -/
def State.unitGo (s : State) (fn kind index : Nat) (ok : State → Bool) (act : State → State) : State :=
  s.mmio fn R.pwrUnitReset true fun s =>
    if s.flag R.pwrUnitReset 30 || !ok s then s.setFlag R.pwrUnitReset 29
    else
      let s := (s.setFld R.pwrUnitReset 11 8 kind).setFld R.pwrUnitReset 7 0 index
      act (({ s with boot := { s.boot with unit := some (kind, index) } }).setFlag R.pwrUnitReset 30)

/-- Is no block resident on a core? -/
def State.coreIdle (s : State) (c : Nat) : Bool := (s.core c).blockList.isEmpty

/-- Both halves of the crossings that `sel` picks are reset (R65): what their event lines had pending is discarded uncounted (R66), and
their fences end where the stopped clock runs again (R71). Whether it does is the outside's, a free value (log 89). -/
def State.crossingReset (s : State) (sel : Nat × Nat → Bool) : State :=
  if s.mem.fenced.any sel then
    s.withFree fun r s =>
      if r % 2 = 1 then { s with mem := { s.mem with fenced := s.mem.fenced.filter (fun e => !sel e) } } else s
  else s

/-- What a core's crossing holds at its reset (R66): every item in flight is discarded and counted as surrendered. The requests that the units
on the far side held for it end there: a response that still comes finds none. -/
def State.coreItems (s : State) (c : Nat) : State :=
  let k := s.core c
  let mine (r : HostReq) : Bool := match r.who with | .thread d _ _ => d = c | .fetch d _ _ => d = c | .tcopy d _ => d = c
  let asked (r : MlnRead) : Bool := match r.who with | .tcopy d _ => d = c | .copy _ => false
  let host := s.pci.reqs.filter mine
  let far := s.mln.reads.filter asked
  let s := { s with pci := { s.pci with reqs := s.pci.reqs.filter (fun r => !mine r) } }
  let s := s.setMln { s.mln with reads := s.mln.reads.filter (fun r => !asked r) }
  s.rled 3 (k.loads.length + host.length + far.length)

/-- Kind 1 of R645: the core is cleared (R122), its counters restart (R216), its TLB and generators are cleared, its
crossing is reset (R65, R66, R71). Stores in its buffer, which are
performed work of ended blocks, stay. -/
def State.resetCore (s : State) (c : Nat) : State :=
  let s := (s.coreItems c).crossingReset (fun e => e = (dieOfCore c, c))
  let runs := !s.cutOff (dieOfCore c) c
  let s := s.updCore c (fun k =>
    { k.clear with ctx := none, tlb := [], gens := [], mx := Matrix.empty, clockStopped := k.clockStopped && !runs })
  let s := ([R.coreMxStep c, R.coreMxBubble c, R.coreMxFreezeA c, R.coreMxFreezeB c, R.coreMxFreezeDrain c, R.coreMxIdle c,
    R.coreMxTiles c, R.coreMvBytes c, R.coreMvWait c, R.coreZskipSlices c]).foldl (fun s r => s.wr r 0) s
  { s with dbg := { s.dbg with mxBase := SMap.put 0 s.dbg.mxBase c s.now } }.restartSet c

/-- CORE_RESET (R645). -/
def execCoreReset (fn : Nat) (index : Byte) (s : State) : Answer :=
  .next (s.unitGo fn 1 index.toNat (fun s => decide (index.toNat < 192) && s.coreIdle index.toNat) (fun s => s.resetCore index.toNat))

/-- The cores of a cluster (R50). -/
def coresOf (n : Nat) : List Nat := (List.range 12).map (fun i => 12 * n + i)

/-- Is a step open on the unit of a cluster (R266)? -/
def State.stepOpen (s : State) (n : Nat) : Bool := bit (s.ptsStatusView n) 15

/-- Kind 2 of R645 beyond its cores: station sequencer, points unit, cluster TLB. -/
def State.resetCluster (s : State) (n : Nat) : State :=
  let s := (coresOf n).foldl (fun s c => s.resetCore c) s
  let s := ((s.adopt (R.seqBarGuard n)).adopt (R.seqLockGuard n)).wr (R.seqBarGuard n) (BitVec.ofNat 64 s.con.barGuard)
  let s := (s.wr (R.seqLockGuard n) (resetOf (R.seqLockGuard n))).wr (R.seqGuardCount n) 0
  let s := ((s.wr (R.seqGuardLog n) 0).wr (R.ptsStatus n) 0).wr (R.ptsRecords n) 0
  let s := s.setUnit n PtsUnit.empty
  let s := { s with
    trn := { s.trn with cluster := SMap.put [] s.trn.cluster n [] } }
  s.restartSet (192 + n)

/-- CLUSTER_RESET (R645). -/
def execClusterReset (fn : Nat) (index : Byte) (s : State) : Answer :=
  .next (s.unitGo fn 2 index.toNat
    (fun s => decide (index.toNat < 16) && (coresOf index.toNat).all s.coreIdle && !s.stepOpen index.toNat)
    (fun s => s.resetCluster index.toNat))

/-- MAINLINE_PORT_RESET (R468, R645): the port goes DOWN and retrains at once. -/
def execMainlinePortReset (fn : Nat) (index : Byte) (s : State) : Answer :=
  .next (s.unitGo fn 3 index.toNat
    (fun s => decide (index.toNat < 8) && s.fld (R.mlnPortCfg index.toNat) 1 0 = 1)
    (fun s => ((s.portDown index.toNat).setPort index.toNat 1 0).crossingReset (fun e => e = (5, 0))))

/-- ETHERNET_PORT_RESET (R645): the link restarts autonegotiation. -/
def execEthernetPortReset (fn : Nat) (index : Byte) (s : State) : Answer :=
  .next (s.unitGo fn 4 index.toNat
    (fun s => decide (index.toNat < 2) && s.flag (R.ethPortCfg index.toNat) 55)
    (fun s => if s.flag R.ethStatus (8 + index.toNat) then
        (s.clrFlag R.ethStatus (8 + index.toNat)).raiseCause 0 13 else s))

/-- UNIT_RESET_DONE (R645, R649). -/
def execUnitResetDone (s : State) : Answer :=
  .next (({ s with boot := { s.boot with unit := none } }).clrFlag R.pwrUnitReset 30)

end Sys2Proof.Machine
end

