-- ==== Sys2Proof/Machine/Jtag.lean ====
section
/-! DEFINITION. The sideband outputs and the test access port (spec 21 R664, R666). -/

namespace Sys2Proof.Machine

/-! ### Sideband outputs (R664): the level of each follows from the state -/

/-- SMB_ALERT#: low while any bit of MGT_ALERT is set; open-drain, so high without standby power means released. -/
def State.smbAlertHigh (s : State) : Bool := !s.boot.power || decide (s.rd R.mgtAlert = 0)

/-- THERMTRIP#: low from a trip until VIN48 has been below 40 V for 1 s. -/
def State.thermtripHigh (s : State) : Bool := !s.boot.trip

/-- STBY_OK: high while management firmware runs. -/
def State.stbyOk (s : State) : Bool := s.boot.power && s.mgt.running.isSome

/-! ### The test access port -/

/-- Does the port act: PERST# is low and the warm reset has reached step 6? -/
def State.tapActs (s : State) : Bool := s.boot.perst && s.boot.waiting

/-- An instruction of the port; where the port does not act it is BYPASS. -/
def State.tapDo (s : State) (i : TapInstr) (act : State → State) : State :=
  if s.tapActs then act { s with tap := { s.tap with instr := i, driving := false } }
  else { s with tap := { s.tap with instr := .bypass, driving := false } }

/-- BYPASS: the bypass register shifts out a zero. -/
def execBypass (s : State) : Answer := .next ({ s with tap := { s.tap with instr := .bypass, driving := false } }.emit (.tap 0))

/-- IDCODE: STEP_NUM, PART, the manufacturer's identity and a one. -/
def execIdcode (s : State) : Answer :=
  .next (s.tapDo .idcode fun s =>
    s.emit (.tap (s.fld R.glbIdentity 11 8 * 2 ^ 28 + s.fld R.glbIdentity 31 16 * 2 ^ 12 + 5 * 2 ^ 8 + 0x4E * 2 + 1)))

/-- SAMPLE/PRELOAD: the lands' levels are shifted out, which the spec leaves open (log 1), and the cells are loaded. -/
def execSamplePreload (cells : Nat) (s : State) : Answer :=
  .next (s.tapDo .sample fun s => s.withFree fun r s =>
    ({ s with tap := { s.tap with cells := cells } }).emit (.tap r))

/-- EXTEST: the boundary cells drive the lands. -/
def execExtest (s : State) : Answer := .next (s.tapDo .extest fun s => { s with tap := { s.tap with driving := true } })

/-- EXTEST_PULSE, for the AC-coupled lanes. -/
def execExtestPulse (s : State) : Answer := .next (s.tapDo .extestPulse fun s => { s with tap := { s.tap with driving := true } })

end Sys2Proof.Machine
end

