-- ==== Sys2Proof/Machine/Security.lean ====
section
/-! DEFINITION. Rollback commits, fresh keys, unlock tokens, measurements and attestation (spec 17 R579 to R594). -/

namespace Sys2Proof.Machine

/-! ### Rollback counters -/

/-- A commit (R579): ignored with COMMIT_REJECT unless the package is RUNNING; fuses never become unblown. -/
def State.commit (s : State) (fn : Nat) (f : State → Fuses) : State :=
  s.mmio fn R.secControl true fun s =>
    if s.fld R.conStatus 3 0 ≠ 2 then s.setFlag R.secStatus 9
    else ({ s with sec := { s.sec with fuses := f s } }).showFuses

/-- COMMIT_FW (R579). -/
def execCommitFw (fn : Nat) (s : State) : Answer :=
  .next (s.commit fn fun s => { s.sec.fuses with fwCount := max s.fwCounter (min 64 s.sec.fwVersion) })

/-- COMMIT_CONSIST (R579). -/
def execCommitConsist (fn : Nat) (s : State) : Answer :=
  .next (s.commit fn fun s => { s.sec.fuses with conCount := max s.conCounter (min 64 s.sec.baseVersion) })

/-! ### Keys -/

/-- Is a key change refused (R586)? A slot above 64, and a change while one runs, are refused too (log 31). -/
def State.keyRefused (s : State) (slot : Nat) : Bool :=
  slot = 0 || decide (64 < slot) || s.sec.rekeying.isSome ||
    (if slot = 64 then !s.quiesced else !s.tenantQuiet slot)

/-- KEY_CHANGE (R586): a write of SEC_KEY_CMD with GO; the slot's lines are written back and leave the L2, and what follows under the slot
is under the fresh key, since accesses wait until it is in place. A function-level reset's further key follows it (`State.flrRest`, log 31). -/
def execKeyChange (fn : Nat) (slot : Fin 128) (s : State) : Answer :=
  .next (s.mmio fn R.secKeyCmd true fun s =>
    if s.keyRefused slot.val then s.setFlag R.secStatus 14
    else
      let t := { s with sec := { s.sec with rekeying := some slot.val } }
      (t.rekey slot.val).setFlag R.secStatus 15)

/-- KEY_INSTALLED (R586): the fresh key is in place, and KEY_BUSY clears. -/
def execKeyInstalled (s : State) : Answer :=
  .next (match s.sec.rekeying with
    | none => s
    | some _ => ({ s with sec := { s.sec with rekeying := none } }).clrFlag R.secStatus 15)

/-! ### Tokens -/

/-- A fresh random nonce, which voids every earlier one (R590). -/
def State.takeNonce (s : State) : Word × State :=
  let n := BitVec.ofNat 64 s.free.1
  (n, { s.free.2 with sec := { s.free.2.sec with nonce := some n } })

/-- NONCE_READ (R590, R593). -/
def execNonceRead (fn : Nat) (s : State) : Answer :=
  .next (s.mmio fn R.secNonce false fun s => s.takeNonce.2.emit (.answer R.secNonce s.takeNonce.1.toNat))

/-- The bytes of a token (R588, R593). -/
def tokenBytes (ws : List Word) : List Byte := ws.flatMap (fun w => leBytes 8 w.toNat)

/-- TOKEN_SUBMIT (R590): a write of SEC_CONTROL with SUBMIT. -/
def execTokenSubmit (fn : Nat) (s : State) : Answer :=
  .next (s.mmio fn R.secControl true fun s =>
    if s.sec.checking.isSome then s.setFlag R.secStatus 11
    else
      let ws := (List.range 18).map (fun i => SMap.get 0 s.sec.token i)
      ({ s with sec := { s.sec with checking := some ws } }).setFlag R.secStatus 10)

/-- The policy of a scope (R592): 0 DENIED, 1 TOKEN, 2 OPEN. -/
def State.policyOf (s : State) (scope : Nat) : Nat := nfld s.con.policy (2 * scope + 1) (2 * scope)

/-- TOKEN_ERR of a token, 0 for one that passes (R588, R590). -/
def State.tokenErr (s : State) (b : List Byte) : Nat :=
  let scope := num b 6 2
  if num b 0 4 ≠ 0x4B544B55 || num b 4 2 ≠ 1 || decide (15 < scope) || num b 0x1C 4 ≠ 0 then 1
  else if num b 8 8 ≠ (s.rd R.secSerial).toNat then 2
  else if s.sec.nonce ≠ some (BitVec.ofNat 64 (num b 0x10 8)) then 3
  else if !signedBy (s.signers 2) (b.take 0x20) (b.drop 0x20) then 4
  else if (List.range 4).any (fun i => scope.testBit i && s.policyOf i = 0) || (scope.testBit 2 && !scope.testBit 1) then 5
  else if num b 0x18 4 = 0 || decide (86400 < num b 0x18 4) then 6
  else 0

/-- TOKEN_VERIFY_DONE (R590, R594): the nonce is used up; a token that passes replaces every earlier grant. -/
def execTokenVerifyDone (s : State) : Answer :=
  .next (match s.sec.checking with
    | none => s
    | some ws =>
      let b := tokenBytes ws
      let e := s.tokenErr b
      let s := ({ s with sec := { s.sec with checking := none, nonce := none } }).clrFlag R.secStatus 10
      if e ≠ 0 then (s.setFlag R.secStatus 11).setFld R.secStatus 7 0 e
      else
        let x := { s.sec with scopes := num b 6 2, until_ := s.now + 1000000000 * num b 0x18 4 }
        ({ s with sec := x }).setFlag R.secStatus 12)

/-- A grant ends. -/
def State.relock (s : State) : State := { s with sec := { s.sec with scopes := 0, until_ := 0 } }

/-- RELOCK (R590): a write of SEC_CONTROL with RELOCK. -/
def execRelock (fn : Nat) (s : State) : Answer := .next (s.mmio fn R.secControl true State.relock)

/-- UNLOCK_EXPIRE (R590). -/
def execUnlockExpire (s : State) : Answer := .next (if s.sec.scopes ≠ 0 && decide (s.sec.until_ ≤ s.now) then s.relock else s)

/-! ### Measurements and SPDM -/

/-- Measurement 6 (R580). -/
def State.securityMeasure (s : State) : List Byte :=
  leBytes 4 s.unlocked ++ leBytes 4 (s.rd R.secRollback).toNat ++ leBytes 4 (s.rd R.secFuses).toNat ++ leBytes 4 0

/-- The six measurements in order, from one snapshot (R580, R582). -/
def State.measurements (s : State) : List Byte :=
  hashBytes Config.romMeasurement ++ hashBytes s.sec.fwMeas ++ hashBytes s.sec.baseMeas ++ hashBytes s.sec.ovlMeas ++
    hashBytes s.sec.history ++ s.securityMeasure

/-- The number of a medium. -/
def Medium.num : Medium → Nat
  | .smbus => 0
  | .pcie => 1
  | .doe => 2

/-- Does a medium carry SPDM now: firmware runs, and the link is there (R581, R595)? -/
def State.spdmServed (s : State) (m : Medium) : Bool :=
  s.mgt.running.isSome && (match m with | .smbus => true | .pcie => s.flag R.pciStatus 10 | .doe => s.flag R.pciStatus 10 && s.answers)

/-- A request in its turn: `need` is the progress that it presupposes, `to_` what it leaves. Out of turn it meets an error response, kind 7
(PRESUMED, log 32). -/
def State.spdm (s : State) (m : Medium) (need to_ : Nat) (act : State → State) : State :=
  if !s.spdmServed m then s
  else if SMap.get 0 s.sec.spdm m.num < need then s.emit (.spdm m 7 [] 0 0)
  else
    let s := if to_ = 0 then s else { s with sec := { s.sec with spdm := SMap.put 0 s.sec.spdm m.num to_ } }
    act s

/-- A response without a signature. -/
def State.spdmSay (s : State) (m : Medium) (kind : Nat) (data : List Byte) : State := s.emit (.spdm m kind data 0 0)

/-- A signed response. The bytes of the transcript are DMTF's, not the spec's: its digest is free (log 1). -/
def State.spdmSign (s : State) (m : Medium) (kind : Nat) (data : List Byte) : State :=
  s.withFree fun r s =>
    let (a, b) := Config.deviceSign r
    s.emit (.spdm m kind data a b)

/-- GET_VERSION (R581): SPDM 1.2. -/
def execGetVersion (medium : Medium) (s : State) : Answer :=
  .next (s.spdm medium 0 1 fun s => s.spdmSay medium 0 (leBytes 2 0x1200))

/-- GET_CAPABILITIES (R581). -/
def execGetCapabilities (medium : Medium) (s : State) : Answer := .next (s.spdm medium 1 2 fun s => s.spdmSay medium 1 [])

/-- NEGOTIATE_ALGORITHMS (R581): ECDSA P-384 and SHA-384. -/
def execNegotiateAlgorithms (medium : Medium) (s : State) : Answer := .next (s.spdm medium 2 3 fun s => s.spdmSay medium 2 [])

/-- GET_DIGESTS (R581): of the chain of slot 0. -/
def execGetDigests (medium : Medium) (s : State) : Answer :=
  .next (s.spdm medium 3 0 fun s => s.spdmSay medium 3 (hashBytes (Config.sha384 Config.certChain)))

/-- GET_CERTIFICATE (R581): a portion of the chain of slot 0. -/
def execGetCertificate (medium : Medium) (off len : Nat) (s : State) : Answer :=
  .next (s.spdm medium 3 0 fun s => s.spdmSay medium 4 ((Config.certChain.drop off).take len))

/-- CHALLENGE (R581). -/
def execChallenge (medium : Medium) (s : State) : Answer :=
  .next (s.spdm medium 3 0 fun s => s.spdmSign medium 5 (hashBytes (Config.sha384 Config.certChain)))

/-- GET_MEASUREMENTS (R581, R582). -/
def execGetMeasurements (medium : Medium) (s : State) : Answer :=
  .next (s.spdm medium 3 0 fun s => s.spdmSign medium 6 s.measurements)

end Sys2Proof.Machine
end

