-- ==== Sys2Proof/Machine/Mgmt.lean ====
section
/-! DEFINITION. The management controller: messages, sensors, event log, updates, wear and predicted end of life (spec 18). -/

namespace Sys2Proof.Machine

/-! ### Transports -/

/-- Is the boot ROM in recovery (R578)? -/
def State.recovery (s : State) : Bool := s.flag R.mgtStatus 2

/-- Does a medium carry MCTP now (R595): SMBus with firmware or in recovery, PCIe while the link is up and firmware runs? -/
def State.mctpServed (s : State) (m : Medium) : Bool :=
  match m with
  | .smbus => s.mgt.running.isSome || s.recovery
  | .pcie => s.mgt.running.isSome && s.flag R.pciStatus 10
  | .doe => false

/-- MCTP_CONTROL (R595, R598): an endpoint ID, events on or off, another control message, or a message of a type that is not served, which is dropped
and counted. -/
def execMctpControl (medium : Medium) (req : MctpReq) (s : State) : Answer :=
  .next (
    if !s.mctpServed medium then s
    else match req with
      | .setEid eid =>
        (s.setFld R.mgtEid (if medium = .smbus then 7 else 15) (if medium = .smbus then 0 else 8) eid.toNat).emit (.mctp medium)
      | .events on => ({ s with mgt := { s.mgt with events := SMap.put false s.mgt.events medium.num on } }).emit (.mctp medium)
      | .other => s.emit (.mctp medium)
      | .foreign => s.count R.mgtMctpDropped 32 1)

/-! ### Sensors -/

/-- What a sensor is (R597). -/
inductive Sensor where
  | temp (unit reg : Nat)
  | stack (n : Nat)
  | rail (n : Nat)
  | util (tenant : Nat)
  | eol (unit : Nat)
  deriving DecidableEq, Repr

/-- The sensor of an ID (R597). -/
def sensorOf (id : Nat) : Option Sensor :=
  if 0x100 ≤ id && id ≤ 0x117 then some (.temp 0 (R.mgtTemp (id - 0x100)))
  else if 0x120 ≤ id && id ≤ 0x137 then some (.temp 1 (R.mgtTemp (24 + (id - 0x120))))
  else if 0x140 ≤ id && id ≤ 0x147 then some (.temp 10 (R.mgtTemp (48 + (id - 0x140))))
  else if 0x150 ≤ id && id ≤ 0x157 then some (.stack (id - 0x150))
  else if 0x200 ≤ id && id ≤ 0x207 then some (.rail (id - 0x200))
  else if 0x300 ≤ id && id ≤ 0x33F then some (.util (id - 0x300))
  else if 0x400 ≤ id && id ≤ 0x40A then some (.eol (id - 0x400))
  else none

/-- A sensor's latest sample. -/
def State.putReading (s : State) (id v : Nat) : State :=
  { s with mgt := { s.mgt with readings := SMap.put none s.mgt.readings id (some v) } }

/-- The quotient of a measurement; which way one that is not whole is rounded the spec leaves open (log 1). -/
def State.rounded (s : State) (a b : Nat) (f : Nat → State → State) : State :=
  if a % b = 0 then f (a / b) s else s.withFree fun r s => f (a / b + r % 2) s

/-- CTX_ENGINE_NS over the contexts of a tenant (R597). -/
def State.tenantNs (s : State) (f : Nat) : Nat :=
  (((List.range 4096).filter (fun n => s.ctxState n ≠ 0 && s.tenantOf n = f)).map (fun n => (s.rd (R.ctxEngineNs n)).toNat)).sum

/-- SENSOR_SAMPLE (R597, R598, R608): a sensor takes its sample of `value`; the input power, a stack's temperature, utilisation
and end of life come from where they are kept. -/
def execSensorSample (id : Nat) (value : BitVec 32) (s : State) : Answer :=
  .next (match sensorOf id with
    | none => s
    | some (.eol u) => s.putReading id (s.rd (R.mgtEol u)).toNat
    | some (.rail 7) =>
      if s.boot.power then (s.wr (R.mgtRailMw 7) (BitVec.ofNat 64 value.toNat)).putReading id value.toNat else s
    | some k =>
      if !s.boot.main then s
      else match k with
        | .temp u r => (s.setTemp u r (value.setWidth 16)).putReading id (value.setWidth 16).toNat
        | .stack n => s.putReading id (s.rd (R.memStackTemp n)).toNat
        | .rail n =>
          let v := if n = 0 then (s.rd R.pwrInputMw).toNat else value.toNat
          (s.wr (R.mgtRailMw n) (BitVec.ofNat 64 v)).putReading id v
        | .util f =>
          let ns := s.tenantNs f
          let rise := ns - SMap.get 0 s.mgt.utilBase f
          let s := { s with mgt := { s.mgt with utilBase := SMap.put 0 s.mgt.utilBase f ns } }
          s.rounded (10000 * rise) (192 * 1000000000) fun v s => s.putReading id v
        | .eol _ => s)

/-- What PLDM shows of a sensor (R598): UNAVAILABLE while main power is off, but for rail 7 and the end-of-life sensors, and until its first
sample. -/
def State.reading (s : State) (id : Nat) : Option Nat :=
  match sensorOf id with
  | none => none
  | some (.eol u) => some (s.rd (R.mgtEol u)).toNat
  | some (.rail 7) => SMap.get none s.mgt.readings id
  | some _ => if s.boot.main then SMap.get none s.mgt.readings id else none

/-- PLDM_SENSOR_READ (R595, R597, R598). -/
def execPldmSensorRead (medium : Medium) (id : Nat) (s : State) : Answer :=
  .next (if s.mctpServed medium && s.mgt.running.isSome then s.emit (.sensor medium id (s.reading id)) else s)

/-- PLDM_EVENT_LOG_READ (R600): record `n`, the oldest kept being 0. -/
def execPldmEventLogRead (medium : Medium) (n : Nat) (s : State) : Answer :=
  .next (
    if !(s.mctpServed medium && s.mgt.running.isSome) then s
    else match s.mgt.log.reverse[n]? with
      | some r => s.emit (.logRecord medium r.time r.code r.unit r.data)
      | none => s)

/-! ### Predicted end of life -/

/-- Least-squares slope per sample of the points (position, value), as numerator and denominator (R606). -/
def fit (l : List (Int × Int)) : Int × Int :=
  let n : Int := l.length
  let sum (f : Int × Int → Int) : Int := (l.map f).sum
  let sx := sum Prod.fst
  (n * sum (fun p => p.1 * p.2) - sx * sum Prod.snd, n * sum (fun p => p.1 * p.1) - sx * sx)

/-- One in the fixed-point numbers of the acceleration. -/
def fixOne : Nat := 2 ^ 96

/-- exp of a number between 0 and 2^-10 or so, fixed point: nine terms of the series. -/
def expSmall (x : Nat) : Nat :=
  ((List.range 9).foldl (fun (a : Nat × Nat) i =>
    let t := a.2 * x / fixOne / (i + 1)
    (a.1 + t, t)) (fixOne, fixOne)).1

/-- exp of a number that is not negative, fixed point: of its 4,096th part, squared twelve times. -/
def expFix (x : Nat) : Nat := (List.range 12).foldl (fun e _ => e * e / fixOne) (expSmall (x / 4096))

/-- 1,600 times the absolute temperature of a mean in 1/16 °C given as a sum and a count. -/
def kelvin (sum : Int) (n : Nat) : Nat := (100 * sum + 437040 * n).toNat

/-- The acceleration of R606, fixed point, for the window's mean `tw` and the last day's `tn`, each a sum and a count. -/
def accel (tw tn : Int × Nat) : Nat :=
  let kw := kelvin tw.1 tw.2
  let kn := kelvin tn.1 tn.2
  -- 1/tw − 1/tn = 1,600 × (nw / kw − nn / kn), and 0.7 / 8.617e-5 = 70,000,000 / 8,617
  let up := 70000000 * 1600 * tw.2 * kn
  let down := 70000000 * 1600 * tn.2 * kw
  let den := 8617 * kw * kn
  if den = 0 then fixOne
  else if down ≤ up then expFix ((up - down) * fixOne / den)
  else fixOne * fixOne / expFix ((down - up) * fixOne / den)

/-- Days until a floor that `left` stands above, at a slope and an acceleration (R606): none where the slope is not positive, 0 at the floor. -/
def daysAt (left : Int) (slope : Int × Int) (af : Nat) : Option Nat :=
  if left ≤ 0 then some 0
  else if slope.1 ≤ 0 || slope.2 ≤ 0 || af = 0 then none
  else some (left.toNat * slope.2.toNat * fixOne / (slope.1.toNat * af))

/-- Days until `left` parts are used up at the rate of `events` in 365 days (R606). -/
def daysOf (left : Int) (events : Nat) : Option Nat :=
  if left ≤ 0 then some 0 else if events = 0 then none else some (left.toNat * 365 / events)

/-- The least of several terms. -/
def leastOf (l : List (Option Nat)) : Option Nat :=
  l.foldl (fun a x => match a, x with | some a, some x => some (min a x) | none, x => x | a, none => a) none

/-- The fit window: the last up to 90 samples, with their positions. -/
def fitWindow (h : List WearSample) : List (Int × WearSample) :=
  let w := h.drop (h.length - 90)
  ((List.range w.length).map (fun i => (i : Int))).zip w

/-- The points of one indicator in the window; samples in which it was not measured give none. -/
def points (w : List (Int × WearSample)) (f : WearSample → Option Int) : List (Int × Int) :=
  w.filterMap (fun e => (f e.2).map (fun y => (e.1, y)))

/-- The drift of a cluster, the margin of a lane, and the temperature of a die in a sample. -/
def driftIn (c : Nat) (x : WearSample) : Option Int := x.reading.drift[c]?
def marginIn (l : Nat) (x : WearSample) : Option Int := (x.reading.eye.getD l none).map (fun m => (m : Int))
def tjIn (d : Nat) (x : WearSample) : Int := x.reading.tj.getD d 0

/-- The acceleration of a die (R606). -/
def accelOf (h : List WearSample) (d : Nat) : Nat :=
  let w := fitWindow h
  accel ((w.map (fun e => tjIn d e.2)).sum, w.length) (tjIn d (h.getLastD ⟨⟨[], [], []⟩, [], []⟩), 1)

/-- Events of a list in the last 365 power-on days (R606). -/
def State.count365 (s : State) (days : List Nat) : Nat :=
  (days.filter (fun d => decide ((s.rd R.mgtPowerOnDays).toNat < d + 365))).length

/-- The terms of a unit with their LIMIT (R606). -/
def State.eolTerms (s : State) (u : Nat) : List (Nat × Option Nat) :=
  let h := s.mgt.wear
  let w := fitWindow h
  let last := h.getLastD ⟨⟨[], [], []⟩, [], []⟩
  if u < 2 then
    let af := accelOf h u
    let ro := leastOf ((List.range 8).map (fun i =>
      (driftIn (8 * u + i) last).bind (fun d => daysAt (20000 - d) (fit (points w (driftIn (8 * u + i)))) af)))
    [(1, ro), (2, daysOf (64 - (last.ways.getD u 0 : Int)) (s.count365 (SMap.get [] s.mgt.wayDays u)))]
  else if u = 2 then
    let af := accelOf h 2
    [(3, leastOf ((List.range 88).map (fun l => (marginIn l last).bind (fun m =>
      let f := fit (points w (marginIn l))
      daysAt (m - 50) (-f.1, f.2) af))))]
  else [(4, daysOf (2048 - (last.spares.getD (u - 3) 0 : Int)) (s.count365 (SMap.get [] s.mgt.rowDays (u - 3))))]

/-- LIMIT and DAYS of a unit (R606, R608). -/
def State.eolOf (s : State) (u : Nat) : Nat × Nat :=
  if s.mgt.wear.length < 30 then (0, 0xFFFF)
  else
    match (s.eolTerms u).foldl (fun (a : Option (Nat × Nat)) t =>
        match a, t.2 with
        | none, some d => some (t.1, d)
        | some b, some d => if d < b.2 then some (t.1, d) else some b
        | a, none => a) none with
    | some (l, d) => if 65533 < d then (0, 0xFFFE) else (l, d)
    | none => (0, 0xFFFE)

/-- A unit's value is computed anew, with its warning (R607). -/
def State.setEol (s : State) (u : Nat) : State :=
  let (l, d) := s.eolOf u
  let s := s.wr (R.mgtEol u) (BitVec.ofNat 64 (l * 2 ^ 16 + d))
  if (s.rd R.mgtEolWarn).toNat ≤ d then s.clrFlag R.mgtEolLow u
  else if s.flag R.mgtEolLow u then s
  else ((s.alert 7).logEvent 0x0A u d).setFlag R.mgtEolLow u

/-- The slope that MGT_EYE shows, in mUI per 1,000 days (R608); its rounding is open (log 1). -/
def State.showEye (s : State) (l : Nat) : State :=
  match marginIn l (s.mgt.wear.getLastD ⟨⟨[], [], []⟩, [], []⟩) with
  | none => s
  | some m =>
    let f := fit (points (fitWindow s.mgt.wear) (marginIn l))
    let put (v : Int) (s : State) : State := s.wr (R.mgtEye l) (BitVec.ofNat 64 (m.toNat % 2 ^ 16 * 2 ^ 16 + wrapI 16 v))
    if f.2 = 0 then s.withFree fun r s => put r s
    else if (1000 * f.1) % f.2 = 0 then put (1000 * f.1 / f.2) s
    else s.withFree fun r s => put (1000 * f.1 / f.2 + (r % 2 : Nat)) s

/-- A sample enters the history, at most 400 (R605), shows in the registers of R604, and end of life is computed. -/
def State.addWear (s : State) (x : WearSample) : State :=
  let h := s.mgt.wear ++ [x]
  let s := { s with mgt := { s.mgt with wear := h.drop (h.length - 400), wearHeld := none } }
  let s := (List.range 16).foldl (fun s c =>
    s.wr (R.mgtRoDrift c) (BitVec.ofNat 64 (wrapI 32 (x.reading.drift.getD c 0)))) s
  let s := (List.range 88).foldl State.showEye s
  (List.range 11).foldl State.setEol s

/-- Is a lane measured (R604)? One of a disabled port, or a retired one, is not. -/
def State.laneMeasured (s : State) (m : Nat) : Bool :=
  if m < 64 then decide (s.fld (R.mlnPortCfg (m / 8)) 1 0 = 1) && !SMap.get false s.ras.lanesOut m
  else decide (m < 80) || s.flag (R.ethPortCfg ((m - 80) / 4)) 55

/-- The indicators of a sample (R604): what is measured of the lanes in use, and what the controller counts itself. -/
def State.wearSample (s : State) (r : WearReading) : WearSample := {
  reading := { r with eye := (List.range 88).map (fun m => if s.laneMeasured m then (r.eye[m]?).join else none) }
  spares := (List.range 8).map (fun i => 2048 - (s.rd (R.memSpareLeft i)).toNat)
  ways := (List.range 2).map (fun d => ((List.range 32).map (fun i => ones 16 (s.fld (R.cchWayRetired (32 * d + i)) 15 0))).sum) }

/-- WEAR_SAMPLE (R603, R605): a full 24 h of main power; during an update the sample is held. -/
def execWearSample (reading : WearReading) (s : State) : Answer :=
  .next (
    if !s.boot.main then s
    else
      let s := s.count R.mgtPowerOnDays 32 1
      let x := s.wearSample reading
      if s.mgt.update.isSome then { s with mgt := { s.mgt with wearHeld := some x } } else s.addWear x)

/-! ### Updates -/

/-- A component's place in the flash (R11, R601): offset and size; none for a component that blows fuses. In recovery the firmware slot written
is the one that is not preferred (log 33). -/
def State.target (s : State) (comp : Nat) : Option (Nat × Nat) :=
  if comp = 1 then some (fwSlot (1 - s.mgt.running.getD s.mgt.fwPref), 0x1000000)
  else if comp = 2 then some (baseSlot (1 - s.fld R.conStatus 8 8), 0x400000)
  else if 0x10 ≤ comp && comp ≤ 0x17 then some (ovlSlot (comp - 0x10), 0x100000)
  else none

/-- Where the bytes of a fuse component wait: each apart. -/
def fuseBuf (comp : Nat) : Nat := if comp = 0x20 then 0 else 0x1000

/-- The update of a medium, if it has one. -/
def State.updateOf (s : State) (m : Medium) : Option Update :=
  match s.mgt.update with
  | some u => if u.medium = m then some u else none
  | none => none

/-- REQUEST_UPDATE (R595, R596): update mode is entered unless an update is in progress. -/
def execRequestUpdate (medium : Medium) (s : State) : Answer :=
  .next (
    if !s.mctpServed medium then s
    else if s.mgt.update.isSome then s.emit (.update medium 0 false)
    else (({ s with mgt := { s.mgt with update := some ⟨medium, [], [], true⟩ } }).setFlag R.mgtStatus 1).emit (.update medium 0 true))

/-- Component data has been written: the component must be verified anew, and the write is answered. -/
def State.updateWritten (s : State) (medium : Medium) (comp : Nat) (u : Update) : State :=
  ({ s with mgt := { s.mgt with update := some { u with passed := u.passed.filter (fun c => !decide (c = comp)), writing := true } } }).emit
    (.update medium 1 true)

/-- Bytes go into the flash. -/
def State.flashStore (s : State) (base : Nat) (data : List Byte) : State :=
  { s with mgt := { s.mgt with
    flash := ((List.range data.length).zip data).foldl (fun (m : SMap Byte) e => SMap.put 0xFF m (base + e.1) e.2) s.mgt.flash } }

/-- UPDATE_WRITE (R601, R603): component data goes to its target in the flash, or waits for verification. -/
def execUpdateWrite (medium : Medium) (comp off : Nat) (data : List Byte) (s : State) : Answer :=
  .next (match s.updateOf medium with
    | none => s
    | some u =>
      match s.target comp with
      | some (base, size) =>
        if size < off + data.length then s.emit (.update medium 1 false)
        else (s.flashStore (base + off) data).updateWritten medium comp u
      | none =>
        if (comp = 0x20 || comp = 0x21) && decide (off + data.length ≤ 208) then
          s.updateWritten medium comp { u with buf := u.buf.store (fuseBuf comp + off) data }
        else s.emit (.update medium 1 false))

/-- The bases that a BASE_ID may name (R602): the loaded one and those in the slots. -/
def State.baseNamed (s : State) (id : Nat) : List Byte :=
  (([s.baseImage] ++ (List.range 2).map (fun i => slotImage s.mgt.flash (baseSlot i) 0x400000)).find?
    (fun b => decide (num b 8 4 = id) && decide (imgLen b ≠ 0) && decide (num b 0 4 ≠ 0xFFFFFFFF))).getD []

/-- The public point in a record: its first 96 bytes. -/
def pointOf (b : List Byte) : Nat := beNat (b.take 96)

/-- What is wrong with a component that has been written (R601, R602). -/
def State.componentErr (s : State) (u : Update) (comp : Nat) (bad : Bool) : Option (Nat × Nat) :=
  match s.target comp with
  | some (a, room) =>
    let b := slotImage s.mgt.flash a room
    if comp = 1 then s.verifySlot a room 3 s.fwCounter bad
    else if comp = 2 then s.verifySlot a room 1 s.conCounter bad
    else match verifyImage (s.signers 2) b bad room 2 s.conCounter (s.baseNamed (num b 0xC 4)) with
      | some (0xC, _) => none
      | some (0xD, _) => none
      | e => e
  | none =>
    if comp = 0x20 then
      let b := u.buf.bytes (fuseBuf comp) 208
      if signedBy (s.signers 1) (b.take 96) (b.drop 96) && decide (s.sec.fuses.ownerHash.length < 8) then none else some (3, 0)
    else if comp = 0x21 then
      let i := (u.buf.read (fuseBuf comp)).toNat
      let keys := ((List.range 2).filter (fun k => k ≠ i && !s.sec.fuses.ochornRevoke.testBit k)).map Config.romKey
      if i < 2 && signedBy keys (u.buf.bytes (fuseBuf comp) 1) (u.buf.bytes (fuseBuf comp + 1) 112) then none else some (3, 0)
    else some (1, 0)

/-- The slot that a log record of a component names. -/
def State.compSlot (s : State) (comp : Nat) : Nat :=
  if comp = 1 then 1 - s.mgt.running.getD s.mgt.fwPref
  else if comp = 2 then 1 - s.fld R.conStatus 8 8
  else if 0x10 ≤ comp && comp ≤ 0x17 then comp - 0x10 else 0

/-- TRANSFER_COMPLETE (R602, R603): what has been written is verified; the flash is free again. -/
def execTransferComplete (medium : Medium) (comp : Nat) (bad : Bool) (s : State) : Answer :=
  .next (match s.updateOf medium with
    | none => s
    | some u =>
      match s.componentErr u comp bad with
      | none =>
        let u := { u with passed := if u.passed.contains comp then u.passed else u.passed ++ [comp], writing := false }
        (({ s with mgt := { s.mgt with update := some u } }).logFlush).emit (.update medium 2 true)
      | some e =>
        let s := ({ s with mgt := { s.mgt with update := some { u with writing := false } } }).logFlush
        ((s.conFail e).logEvent 0x08 (s.compSlot comp) (e.2 * 2 ^ 16 + e.1)).emit (.update medium 2 false))

/-- The update is over: the mode ends, held events and the held sample are written (R600, R603). -/
def State.endUpdate (s : State) : State :=
  let s := ({ s with mgt := { s.mgt with update := none } }.logFlush).clrFlag R.mgtStatus 1
  match s.mgt.wearHeld with
  | some x => s.addWear x
  | none => s

/-- One component is activated (R601, R602). -/
def State.activate (s : State) (u : Update) (comp : Nat) : State :=
  let s :=
    if comp = 1 then { s with mgt := { s.mgt with fwPref := 1 - s.mgt.running.getD s.mgt.fwPref } }
    else if comp = 2 then s.wr R.conBootSlot (BitVec.ofNat 64 (1 - s.fld R.conStatus 8 8))
    else if comp = 0x20 then
      let k := pointOf (u.buf.bytes (fuseBuf comp) 96)
      let f := { s.sec.fuses with ownerHash := s.sec.fuses.ownerHash ++ [Config.sha384 ((leBytes 96 k).reverse)] }
      ({ s with sec := { s.sec with fuses := f, ownerKeys := s.sec.ownerKeys ++ [k] } }).showFuses
    else if comp = 0x21 then
      let f := { s.sec.fuses with ochornRevoke := Nat.lor s.sec.fuses.ochornRevoke (2 ^ (u.buf.read (fuseBuf comp)).toNat) }
      ({ s with sec := { s.sec with fuses := f } }).showFuses
    else s
  s.withFree fun r s => s.logEvent 0x09 (s.compSlot comp) r

/-- The components in the order of the table (R601). -/
def componentOrder : List Nat := [1, 2, 0x10, 0x11, 0x12, 0x13, 0x14, 0x15, 0x16, 0x17, 0x20, 0x21]

/-- ACTIVATE_FIRMWARE (R601, R602): the components that passed are activated in the order of the table; with none the command fails. -/
def execActivateFirmware (medium : Medium) (s : State) : Answer :=
  .next (match s.updateOf medium with
    | none => s
    | some u =>
      if u.passed.isEmpty then s.emit (.update medium 3 false)
      else
        let s := (componentOrder.filter u.passed.contains).foldl (fun s c => s.activate u c) s.endUpdate
        s.emit (.update medium 3 true))

/-- CANCEL_UPDATE (R603): what has been written stays, partial. -/
def execCancelUpdate (medium : Medium) (s : State) : Answer :=
  .next (match s.updateOf medium with
    | none => s
    | some _ => s.endUpdate.emit (.update medium 4 true))

end Sys2Proof.Machine
end

