-- ==== Sys2Proof/Machine/Registers.lean ====
section
/-! DEFINITION. Reads and writes of BAR0 registers: what each access code and change class does, the checks of the registers that
have them, and physical debug access (spec 00 R5 to R10, 19 R631, and the register tables of every chapter). A write that the
spec makes a command of its own is that command here too. -/

namespace Sys2Proof.Machine

/-! ### An access and its bits -/

/-- Is an access one that BAR0 accepts (R5)? -/
def goodAccess (off size : Nat) : Bool := (size = 4 || size = 8) && off % size = 0 && decide (off < 0x2000000)

/-- The register that an access falls in. -/
def regOf (off : Nat) : Nat := off / 8 * 8

/-- A write as it reaches its register: its bits in their place, and which bits it carries. -/
structure RegWrite where
  raw : Word
  mask : Word
  deriving DecidableEq, Repr

/-- The bits of an access of 4 or 8 bytes. -/
def accessMask (off size : Nat) : Word :=
  if size = 8 then 0xFFFFFFFFFFFFFFFF else if off % 8 = 4 then 0xFFFFFFFF00000000 else 0xFFFFFFFF

/-- A write of `v` in 4 or 8 bytes. -/
def regWrite (off size : Nat) (v : Word) : RegWrite :=
  let m := accessMask off size
  ⟨(if size = 4 && off % 8 = 4 then v <<< 32 else v) &&& m, m⟩

/-- The register's contents where the write does not reach, the written bits where it does. -/
def RegWrite.over (w : RegWrite) (old : Word) : Word := (old &&& ~~~w.mask) ||| w.raw

/-- The bits of the fields with an access code. -/
def accMask (fs : List RegField) (a : Acc) : Word :=
  fs.foldl (fun m f => if f.acc = a then m ||| fieldMask f.hi f.lo else m) 0

/-- The bits of all fields; the others are reserved (R6). -/
def fieldsMask (fs : List RegField) : Word := fs.foldl (fun m f => m ||| fieldMask f.hi f.lo) 0

/-- What a write leaves in a register by the access codes of its fields (R6, R7). -/
def RegWrite.plain (w : RegWrite) (fs : List RegField) (old : Word) : Word :=
  let rw := accMask fs .rw
  let x := (old &&& ~~~rw) ||| (w.over old &&& rw)
  (x &&& ~~~(w.raw &&& accMask fs .rw1c)) ||| (w.raw &&& accMask fs .rw1s)

/-- The state that a command leaves. -/
def Answer.state (a : Answer) (s : State) : State := match a with | .next t => t | _ => s

/-- A write by the access codes alone. -/
def State.put (s : State) (off : Nat) (w : RegWrite) (fs : List RegField) : State := s.wr off (w.plain fs (s.rd off))

/-- A write that is discarded unless `ok`: then a CFG_BUSY flag is set (R9). -/
def State.guarded (s : State) (ok : Bool) (status i : Nat) (t : State) : State := if ok then t else s.setFlag status i

/-- Is a range of device memory, given by a local physical address, wholly in it (R298)? -/
def inLocal (a len : Nat) : Bool := decide (a + len ≤ localEnd)

/-! ### First-event logs -/

/-- The logs that writing 1 to VALID clears whole, and the register cleared with one (R75, R124, R329, R473, R508, R555, R573). -/
def logPartner (off : Nat) : Option (Option Nat) :=
  if off = R.clkCdcStallLog || off = R.pwrEmergLog || off = R.memOverrunLog || off = R.mlnPeerLog ||
      inArray off (R.seqGuardLog 0) 0x10000 16 then some none
  else if off = R.rasErrLog then some (some R.rasErrAddr)
  else if off = R.rasRetireLog then some (some R.rasRetireWhere)
  else if inArray off (R.trnFaultLog 0) 8 3 then some (some (off + 24))
  else if inArray off (R.pciFnErrLog 0) 64 64 then some (some (off + 8))
  else none

/-- A write of such a log. -/
def State.logClear (s : State) (off : Nat) (w : RegWrite) (partner : Option Nat) : State :=
  if !bit w.raw 63 then s
  else
    let s := s.wr off 0
    match partner with
    | some p => s.wr p 0
    | none => s

/-! ### Writes, block by block -/

/-- CON (R41, R43). A CON_OVL_LEN beyond 1 MiB is discarded with CFG_BUSY (log 83). -/
def State.conWrite (s : State) (fn off : Nat) (w : RegWrite) (fs : List RegField) : State :=
  if off = R.conControl && bit w.raw 0 then (execSwitchRequest fn (w.over (s.rd off)) s).state s
  else if off = R.conStartSlot then
    let n := Machine.fld (w.over (s.rd off)) 3 0
    s.guarded (decide (n < 8) || n = 15) R.conStatus 14 { s.put off w fs with boot := { s.boot with startWritten := true } }
  else if off = R.conOvlLen then s.guarded (decide (Machine.fld (w.over (s.rd off)) 20 0 ≤ 0x100000)) R.conStatus 14 (s.put off w fs)
  else s.put off w fs

/-- PWR (R641, R645, R649). -/
def State.pwrWrite (s : State) (fn off : Nat) (w : RegWrite) (fs : List RegField) : State :=
  if off = R.pwrDrain then (if bit w.raw 0 then (execDrainRequest fn s).state s else s)
  else if off = R.pwrUnitReset && bit w.raw 31 then
    let v := w.over (s.rd off)
    let t := ((s.put off w fs).setFld off 11 8 (s.fld off 11 8)).setFld off 7 0 (s.fld off 7 0)
    let index := BitVec.ofNat 8 (Machine.fld v 7 0)
    match Machine.fld v 11 8 with
    | 1 => (execCoreReset fn index t).state t
    | 2 => (execClusterReset fn index t).state t
    | 3 => (execMainlinePortReset fn index t).state t
    | 4 => (execEthernetPortReset fn index t).state t
    | _ => t.setFlag off 29
  else s.put off w fs

/-- SEC (R579, R586, R590, R593). -/
def State.secWrite (s : State) (fn off : Nat) (w : RegWrite) (fs : List RegField) : State :=
  if off = R.secControl then
    let s := if bit w.raw 0 then (execTokenSubmit fn s).state s else s
    let s := if bit w.raw 1 then (execRelock fn s).state s else s
    let s := if bit w.raw 2 then (execCommitFw fn s).state s else s
    if bit w.raw 3 then (execCommitConsist fn s).state s else s
  else if off = R.secKeyCmd then
    (if bit w.raw 7 then (execKeyChange fn (Fin.ofNat 128 (Machine.fld w.raw 6 0)) s).state s else s)
  else if inArray off (R.secToken 0) 8 18 then
    let i := (off - R.secToken 0) / 8
    { s with sec := { s.sec with token := SMap.put 0 s.sec.token i (w.over (SMap.get 0 s.sec.token i)) } }
  else s.put off w fs

/-- The set kind of a counter set, as the codes of R611 name it in their top four bits. -/
def setKind (n : Nat) : Nat :=
  if n < 192 then 0 else if n < 208 then 1 else if n < 210 then 2 else if n < 212 then 3 else if n = 212 then 4 else 5

/-- A counter takes another event: what one of an event that the model does not count has reached is a free value (log 22). -/
def State.settleCtr (s : State) (n i : Nat) : State :=
  if s.ctrCode n i ∈ uncountedCodes then s.wr (R.dbgCtr n i) (s.setCount n (8 + i)) else s

/-- DBG_EVSEL (R610): a code of another set kind is discarded. -/
def State.evselWrite (s : State) (off n : Nat) (w : RegWrite) : State :=
  let old := s.rd off
  let v := w.over old
  (List.range 4).foldl (fun (s : State) k =>
    let code := Machine.fld v (16 * k + 15) (16 * k)
    if code = Machine.fld old (16 * k + 15) (16 * k) then s
    else if code = 0 || code / 4096 = setKind n then
      (s.settleCtr n (4 * ((off - R.dbgEvsel n 0) / 8) + k)).setFld off (16 * k + 15) (16 * k) code
    else s.setFlag R.dbgStatus 0) s

/-- A survey buffer, a dump destination and an address of debug access take any value that is aligned; another is discarded. -/
def dbgAligned (off : Nat) (v : Word) : Bool :=
  if off = R.dbgSurveyBase then v.toNat % 2 ^ 22 = 0
  else if inArray off (R.dbgDumpDest 0) 64 16 then v.toNat % 4096 = 0
  else true

/-- DBG (R438, R571, R610 to R632). -/
def State.dbgWrite (s : State) (fn off : Nat) (w : RegWrite) (fs : List RegField) : State :=
  let v := w.plain fs (s.rd off)
  let put := s.put off w fs
  if off = R.dbgSampleBase then s.guarded (!s.flag R.dbgSampleCfg 63 && decide (v.toNat % 65536 = 0)) R.dbgStatus 0 put
  else if off = R.dbgSampleSize then
    let ok := (List.range 17).any (fun i => decide (v.toNat = 2 ^ (16 + i)))
    s.guarded (!s.flag R.dbgSampleCfg 63 && ok) R.dbgStatus 0 put
  else if off = R.dbgSampleCfg then
    if bit v 63 && !s.flag off 63 then { put with dbg := { put.dbg with sampleSeq := 0 } } else put
  else if off = R.dbgSetEn 3 then s.wr off (v &&& 0x3FFFFF)
  else if off = R.dbgTraceBase || off = R.dbgTraceSize then
    let base := (put.rd R.dbgTraceBase).toNat
    let log := put.fld R.dbgTraceSize 5 0
    let ok := base % 4096 = 0 && (log = 0 || (decide (12 ≤ log) && decide (log ≤ 32) && inLocal base (2 ^ log)))
    s.guarded (s.fld R.dbgTraceCfg 1 0 = 0 && ok) R.dbgStatus 0 put
  else if off = R.dbgTraceFilter then s.wr off (v &&& 0xFFFE)
  else if off = R.dbgTraceCtl then
    let s := if bit w.raw 0 then (execTraceTrigger fn s).state s else s
    if bit w.raw 1 then (execTraceRestart fn s).state s else s
  else if off = R.dbgSurveyCtl && bit w.raw 0 then (execSurveyStart fn (v ||| 1#64) s).state s
  else if off = R.dbgSemSel then (execSemSnapshot fn (Machine.fld v 15 0) s).state s
  else if inArray off (R.dbgSetCfg 0) 256 214 && bit w.raw 1 then
    (execCounterClear fn ((off - R.dbgSetCfg 0) / 256) (v ||| 2#64) s).state s
  else if decide (R.dbgEvsel 0 0 ≤ off) && inArray ((off - R.dbgEvsel 0 0) % 256) 0 8 4 then
    s.evselWrite off ((off - R.dbgEvsel 0 0) / 256) w
  else s.guarded (dbgAligned off v) R.dbgStatus 0 put

/-- DSP_PROG_TABLE, DSP_PROG_POOL and DSP_POOL_PAGES (R410, R415, R673). -/
def State.progWrite (s t : State) (off : Nat) : State :=
  let table := (t.rd R.dspProgTable).toNat
  let pool := (t.rd R.dspProgPool).toNat
  let pages := (t.rd R.dspPoolPages).toNat
  let ok := s.flag R.dspControl 0 && s.idle && s.dsp.slots.all (fun e => e.2.isNone) && table % 2 ^ 18 = 0 &&
    pool % 4096 = 0 && decide (pages ≤ 65536) && inLocal table (2 ^ 18) && inLocal pool (4096 * pages)
  s.guarded ok R.dspStatus 3 (
    let d := { t.dsp with tableSet := t.dsp.tableSet || off = R.dspProgTable, poolSet := t.dsp.poolSet || off = R.dspProgPool }
    ({ t with dsp := d }).poolCount)

/-- DSP (R401, R409, R415); a cluster that becomes a lane's is not gated (R540). -/
def State.dspWrite (s : State) (fn off : Nat) (w : RegWrite) (fs : List RegField) : State :=
  let t := s.put off w fs
  if off = R.dspControl then (execHold fn (bit (w.over (s.rd off)) 0) s).state s
  else if off = R.dspProgTable || off = R.dspProgPool || off = R.dspPoolPages then s.progWrite t off
  else if inArray off (R.dspLaneClusters 0) 8 8 then
    let m := (t.rd off).toNat
    let clash := (List.range 8).any (fun l =>
      decide (R.dspLaneClusters l ≠ off) && decide (Nat.land (s.rd (R.dspLaneClusters l)).toNat m ≠ 0))
    s.guarded (s.flag R.dspControl 0 && s.idle && !clash) R.dspStatus 3
      { t with pwr := { t.pwr with gated := t.pwr.gated.filter (fun n => !m.testBit n) } }
  else t

/-- QUE_CFG without ENABLE. -/
def queStatic (v : Word) : Word := queCfgMask v &&& 0x7FFFFFFFFFFFFFFF

/-- QUE_CFG (R371, R374, R418, R419). A write that changes an S-class field while the queue runs loses that change and sets CFG_BUSY. -/
def State.queCfgWrite (s : State) (fn q : Nat) (v : Word) : State :=
  let moved := decide (queStatic v ≠ queStatic (s.rd (R.queCfg q)))
  if !s.queCfgOk q v then s.qBusy q
  else if s.qEnable q then
    let t := if moved then s.qBusy q else s
    if bit v 63 then t else (execQueueDisable fn q t).state t
  else if bit v 63 then (execQueueEnable fn q v s).state s
  else if s.qStopped q then s.wr (R.queCfg q) (queCfgMask v)
  else if moved then s.qBusy q
  else s

/-- QUE (R371 to R374, R388, R418 to R420). -/
def State.queWrite (s : State) (fn off : Nat) (w : RegWrite) (fs : List RegField) : State :=
  let q := (off - R.queCfg 0) / 256
  let v := w.over (s.rd off)
  if off = R.queCfg q then s.queCfgWrite fn q v
  else if off = R.queSqBase q || off = R.queCqBase q then
    if s.qStopped q && decide (v.toNat % 4096 = 0) then s.wr off v else s.qBusy q
  else if off = R.queEvtAddr q then (if v.toNat % 16 = 0 then s.wr off v else s.qBusy q)
  else if off = R.queCqHead q then (execCqHead fn q 8 true (v &&& 0xFFFF) s).state s
  else if off = R.queStatus q then
    let s := s.wr off (s.rd off &&& ~~~(w.raw &&& 0xC0#64))
    let s := if bit w.raw 5 then (execSqFaultClear fn q s).state s else s
    if bit w.raw 4 then (execCqRetry fn q s).state s else s
  else s.put off w fs

/-- Bits that a translation register must carry as zero, or a root outside local memory (R306, R307). -/
def ctxBad (r : Nat) (v : Word) : Bool :=
  if r = 0x100 then (v &&& 0x00FF000000000FFF) ≠ 0 || !inLocal (Machine.fld v 55 0) 4096
  else if r = 0x108 then (v &&& 0xFF00000000000FFF) ≠ 0
  else if r = 0x110 then (v &&& 0x00007FFFFFFFFFFF) ≠ 0
  else if r % 16 = 0 then (v &&& 0xFFFF000000000FFF) ≠ 0
  else (v &&& 0xFFFFE07000000000) ≠ 0 || (bit v 44 && r ≠ 0x198)

/-- CTX (R306, R307, R513 to R516, R524). -/
def State.ctxWrite (s : State) (fn off : Nat) (w : RegWrite) (fs : List RegField) : State :=
  let n := (off - R.ctxCfg 0) / 512
  let r := (off - R.ctxCfg 0) % 512
  let v := w.over (s.rd off)
  if r = 0 then
    if w.mask ≠ accessMask off 8 && s.fld (R.ctxCfg n) 63 62 = 0 then s.ctxBusy n else s.ctxCfgWrite n v
  else if r = 0x10 then (execSeedWrite fn n v s).state s
  else if r = 0x50 then (if bit w.raw 0 then (execCensus fn n s).state s else s)
  else if 0x100 ≤ r then
    if (s.fld (R.ctxCfg n) 63 62 = 0 || s.fld (R.ctxCfg n) 63 62 = 1) && !ctxBad r v then s.put off w fs else s.ctxBusy n
  else s.put off w fs

/-- SEM (R421, R422, R424, R435). An activation that is not one 8-byte write is discarded (R424). -/
def State.semWrite (s : State) (fn off : Nat) (w : RegWrite) : State :=
  let n := (off - R.semCfg 0) / 32
  if off = R.semCfg n then
    if w.mask ≠ accessMask off 8 && s.semState n = 0 && Machine.fld (w.over (s.rd off)) 63 62 = 1 then s.semBusy
    else s.semCfgWrite n ((w.over (s.rd off) &&& ~~~(0x1000000000000000 : Word)) ||| (w.raw &&& 0x1000000000000000))
  else if off = R.semValue n then (execSemForce fn n (w.over (s.rd off)) s).state s
  else s

/-- TRN (R321, R326, R330). -/
def State.trnWrite (s : State) (fn off : Nat) (w : RegWrite) (fs : List RegField) : State :=
  let v := w.over (s.rd off)
  let quiet := s.quiesced && s.cmdList.isEmpty
  if off = R.trnMode then (execModeSwitch fn (bit v 0) s).state s
  else if off = R.trnModelRoot then
    s.guarded (quiet && (v &&& 0x00FF000000000FFF) = 0 && inLocal (Machine.fld v 55 0) 4096) R.trnStatus 0 (s.put off w fs)
  else if off = R.trnModelMirror then s.guarded (quiet && (v &&& 0xFF00000000000FFF) = 0) R.trnStatus 0 (s.put off w fs)
  else if off = R.trnInvCmd then (if bit w.raw 0 then (execTlbInvalidate fn s).state s else s)
  else s.put off w fs

/-- A set/way command as its register takes it (R366, R369). -/
def State.setwayCmd (s : State) (fn : Nat) (v : Word) : State :=
  let all := bit v 3
  let die := Machine.fld v 4 4
  let slice := Machine.fld v 9 5
  let set := Machine.fld v 19 10
  let way := Machine.fld v 23 20
  if !bit v 0 then s.setwayWrite fn id
  else match Machine.fld v 2 1 with
    | 1 => (execSetwayClean fn all die slice set way s).state s
    | 2 => (execSetwayInvalidate fn all die slice set way s).state s
    | 3 => (execSetwayCleanInvalidate fn all die slice set way s).state s
    | _ => s.setwayWrite fn id

/-- CCH (R364 to R369). -/
def State.cchWrite (s : State) (fn off : Nat) (w : RegWrite) (fs : List RegField) : State :=
  if off = R.cchMaintCmd fn then
    if !bit w.raw 0 then s
    else match Machine.fld w.raw 2 1 with
      | 1 => (execMaintClean fn (bit w.raw 3) s).state s
      | 2 => (execMaintInvalidate fn (bit w.raw 3) s).state s
      | 3 => (execMaintCleanInvalidate fn (bit w.raw 3) s).state s
      | _ => s.setFlag (R.cchMaintStatus fn) 1
  else s.put off w fs

/-- Combinations that the maps of a platform's registers forbid (R264, R265). -/
def platBad (r : Nat) (v : Word) : Bool :=
  if r = 0 then
    Machine.fld v 49 48 = 3 || Machine.fld v 47 46 = 3 || (Machine.fld v 47 46 = 1 && Machine.fld v 49 48 ≠ 0) || (Machine.fld v 49 48 = 1 && decide (191 < Machine.fld v 45 38))
  else r = 0x10 && Machine.fld v 47 0 % 128 ≠ 0

/-- PTS (R264 to R266): a platform's registers change when the next step opens, or at once while none is open. -/
def State.ptsWrite (s : State) (off : Nat) (w : RegWrite) (fs : List RegField) : State :=
  let v := w.plain fs (s.rd off)
  let busy := s.setFlag (R.ptsStatus 0) 30
  if off = R.ptsTableBase then
    let ok := s.pts.steps.isEmpty && s.pts.units.all (fun e => e.2.subs.isEmpty && e.2.queue.isEmpty) && v.toNat % 65536 = 0 &&
      inLocal v.toNat 65536
    if ok then s.wr off v else busy
  else if R.ptsPlatCfg 0 ≤ off then
    if platBad (off % 64) v then busy
    else if s.pts.steps.isEmpty then (s.wr off v).adopt off
    else s.wrLate off v
  else s.put off w fs

/-- TKT (R267). -/
def State.tktRegWrite (s : State) (fn off : Nat) (w : RegWrite) (fs : List RegField) : State :=
  let v := (w.plain fs (s.rd off)).toNat
  let stopped := s.flag R.dspControl 0 && s.idle && s.rd R.tktActive = 0
  if off = R.tktTableBase then s.guarded (stopped && v % 2 ^ 26 = 0 && inLocal v (2 ^ 26)) R.tktStatus 0 (s.put off w fs)
  else if off = R.tktSideBase then s.guarded (stopped && v % 2 ^ 22 = 0 && inLocal v (2 ^ 22)) R.tktStatus 0 (s.put off w fs)
  else if off = R.tktFlush then (if bit w.raw 0 then (execTktFlush fn s).state s else s)
  else s.put off w fs

/-- MLN (R473, R477): receive windows change at the next frame boundary, or at once while no port is UP. -/
def State.mlnWrite (s : State) (fn off : Nat) (w : RegWrite) (fs : List RegField) : State :=
  if inArray off (R.mlnPortCfg 0) 64 8 then
    (execPortRoleWrite fn ((off - R.mlnPortCfg 0) / 64) (Machine.fld (w.over (s.rd off)) 1 0) s).state s
  else if inArray off (R.mlnRxWinBase 0) 8 64 || inArray off (R.mlnRxWinCfg 0) 8 64 then
    let i := if inArray off (R.mlnRxWinBase 0) 8 64 then (off - R.mlnRxWinBase 0) / 8 else (off - R.mlnRxWinCfg 0) / 8
    let t := s.put off w fs
    if !inLocal (4096 * t.fld (R.mlnRxWinBase i) 47 12) (4096 * t.fld (R.mlnRxWinCfg i) 35 0) then s.setFlag R.pciStatus 0
    else if (List.range 8).all (fun p => !s.portUp p) then t.adopt off
    else s.wrLate off (t.rd off)
  else s.put off w fs

/-- ETH (R497, R499, R501, R505, R509). -/
def State.ethWrite (s : State) (fn off : Nat) (w : RegWrite) (fs : List RegField) : State :=
  let v := (w.plain fs (s.rd off)).toNat
  let stopped := s.flag R.ethStatus 0
  let put := s.put off w fs
  if off = R.ethControl then (execRdmaHold fn (bit (w.over (s.rd off)) 0) s).state s
  else if off = R.ethQpTable then s.guarded (stopped && v % 2 ^ 19 = 0 && inLocal v (2 ^ 19)) R.ethStatus 2 put
  else if off = R.ethRegionBase then s.guarded (stopped && v % 2 ^ 21 = 0 && inLocal v (2 ^ 21)) R.ethStatus 2 put
  else if off = R.ethRegionInv then
    (if bit w.raw 16 then (execRegionInvalidate fn (BitVec.ofNat 16 (Machine.fld w.raw 15 0)) s).state s else s)
  else if inArray off (R.ethPortCfg 0) 256 2 then s.guarded stopped R.ethStatus 2 put
  else if inArray off (R.ethQpCmd 0) 16 4096 then
    let q := (off - R.ethQpCmd 0) / 16
    match Machine.fld w.raw 1 0 with
    | 1 => (execQpReady fn q s).state s
    | 2 => (execQpReset fn q s).state s
    | _ => s
  else if inArray off (R.ethQpDb 0) 16 4096 then
    (execQpDoorbell fn ((off - R.ethQpDb 0) / 16) (BitVec.ofNat 32 w.raw.toNat) s).state s
  else put

/-- PCI and the MSI-X table of the writing function (R483, R486, R506); a vector that is unmasked sends its pending message. -/
def State.pciWrite (s : State) (fn off : Nat) (w : RegWrite) (fs : List RegField) : State :=
  if off = R.pciWinBase then
    let v := (w.plain fs (s.rd off)).toNat
    s.guarded (v % 2 ^ 26 = 0 && decide (v ≤ 0x47FC000000)) R.pciStatus 0 (s.put off w fs)
  else if inArray off 0x1500000 8 4096 then
    let i := (off - 0x1500000) / 8
    if s.msixSize fn ≤ i / 2 then s
    else
      let d : Word := if i % 2 = 1 then 0x100000000 else 0
      let p := { s.pci with table := SMap.put d s.pci.table (4096 * fn + i) (w.over (s.msixWord fn (i / 2) (i % 2))) }
      ({ s with pci := p }).sendPending fn
  else s.put off w fs

/-- Does the policy keep an access from the CORE block (R589)? -/
def State.coreLocked (s : State) (off : Nat) : Bool := decide (0x1800000 ≤ off) && !s.unlocked.testBit 0

/-- A write that reaches its register, by block; the CORE block takes none while CORE_DEBUG is not granted (R589). -/
def State.regStore (s : State) (fn off : Nat) (w : RegWrite) : State :=
  if s.coreLocked off then s.setFlag R.secStatus 13
  else match findReg off with
  | none => s
  | some r =>
    let fs := r.fields
    if w.mask &&& fieldsMask fs = 0 then s
    else match logPartner off with
    | some p => s.logClear off w p
    | none =>
      if inBlock off 0x10000 0x20000 then s.conWrite fn off w fs
      else if inBlock off 0x30000 0x40000 then s.pwrWrite fn off w fs
      else if inBlock off 0x40000 0x50000 then s.secWrite fn off w fs
      else if off = R.rasSnap then (execLedgerSnapshot fn w.raw s).state s
      else if inBlock off 0x80000 0x100000 then s.dbgWrite fn off w fs
      else if inBlock off 0x100000 0x200000 then s.dspWrite fn off w fs
      else if inBlock off 0x400000 0x800000 then s.queWrite fn off w fs
      else if inBlock off 0x800000 0xA00000 then s.ctxWrite fn off w fs
      else if inBlock off 0xA00000 0xC00000 then s.semWrite fn off w
      else if inBlock off 0xC00000 0xD00000 then s.trnWrite fn off w fs
      else if inBlock off 0xD00000 0xE00000 then s.cchWrite fn off w fs
      else if inBlock off 0xF00000 0x1000000 then s.ptsWrite off w fs
      else if inBlock off 0x1000000 0x1100000 then s.tktRegWrite fn off w fs
      else if inBlock off 0x1100000 0x1200000 then s.mlnWrite fn off w fs
      else if inBlock off 0x1200000 0x1400000 then s.ethWrite fn off w fs
      else if inBlock off 0x1400000 0x1800000 then s.pciWrite fn off w fs
      else s.put off w fs

/-! ### Reads -/

/-- IDLE of R201: the core cycles since the counters restarted, at 2.0 GHz, that are in no other class. -/
def State.mxIdle (s : State) (c : Nat) : Nat :=
  2 * (s.now - SMap.get 0 s.dbg.mxBase c) -
    ([R.coreMxStep c, R.coreMxBubble c, R.coreMxFreezeA c, R.coreMxFreezeB c, R.coreMxFreezeDrain c].map (fun r => (s.rd r).toNat)).sum

/-- A read of CORE_MX_STEP latches the five counters beside it (R217). -/
def State.mxLatch (s : State) (off : Nat) : State :=
  if inArray off (R.coreMxStep 0) 0x8000 192 then
    let c := (off - R.coreMxStep 0) / 0x8000
    let l := [s.rd (R.coreMxBubble c), s.rd (R.coreMxFreezeA c), s.rd (R.coreMxFreezeB c), s.rd (R.coreMxFreezeDrain c),
      BitVec.ofNat 64 (s.mxIdle c)]
    s.updCore c (fun k => { k with mx := { k.mx with latched := l } })
  else s

/-- What a read of a register by function `fn` returns, and what it does (R6 to R8): the RC bits that it covers are cleared. -/
def State.regTake (s : State) (fn off : Nat) (mask : Word) : Word × State :=
  if s.coreLocked off then (0, s.setFlag R.secStatus 13)
  else if off = R.secNonce then (s.takeNonce.1 &&& mask, s.takeNonce.2)
  else match findReg off with
    | none => (0, s)
    | some r =>
      let rc := accMask r.fields .rc &&& mask
      let v := s.view fn off &&& fieldsMask r.fields &&& ~~~accMask r.fields .wo &&& mask
      let t := s.mxLatch off
      (v, if rc = 0 then t else t.wr off (t.rd off &&& ~~~rc))

/-! ### Physical debug access -/

/-- The key slot of debug access (R584, R631). -/
def State.debugSlot (s : State) : Nat := if s.unlocked.testBit 2 then s.fld R.secDebugKeyslot 6 0 else 0

/-- A read of DBG_MEM_DATA (R631). Its own window in the alias reads zero. -/
def State.debugRead (s : State) (mask : Word) : Word × State :=
  let a := (s.rd R.dbgMemAddr).toNat
  if !s.unlocked.testBit 1 then (0, s.setFlag R.secStatus 13)
  else if a % 8 = 0 && inLocal a 8 then
    let (b, bad, t) := s.memRead a 8 7 s.debugSlot true
    if bad then (0, t.setFlag R.dbgMemStatus 1) else (BitVec.ofNat 64 (leNat b) &&& mask, t)
  else if a % 8 = 0 && inAlias a then
    if a - aliasBase = R.dbgMemData then (0, s)
    else if s.mgtCut (a - aliasBase) then (0, s.setFlag R.dbgMemStatus 1)
    else s.regTake 0 (a - aliasBase) mask
  else (0, s.setFlag R.dbgMemStatus 0)

/-- A write of DBG_MEM_DATA (R631): the bytes that the write carries. -/
def State.debugWrite (s : State) (w : RegWrite) : State :=
  let a := (s.rd R.dbgMemAddr).toNat
  if !s.unlocked.testBit 1 then s.setFlag R.secStatus 13
  else if a % 8 = 0 && inLocal a 8 then
    let lo := if w.mask = 0xFFFFFFFF00000000 then 4 else 0
    let len := if w.mask = 0xFFFFFFFFFFFFFFFF then 8 else 4
    s.memWrite (a + lo) (((leBytes 8 w.raw.toNat).drop lo).take len) 7 s.debugSlot true
  else if a % 8 = 0 && inAlias a then
    if a - aliasBase = R.dbgMemData then s
    else s.mmio 0 (a - aliasBase) true fun s => s.regStore 0 (a - aliasBase) w
  else s.setFlag R.dbgMemStatus 0

/-! ### The rows -/

/-- A BAR0 read of `size` bytes at `off`: the answer, zero where it is refused (R5, R482), poison behind a fenced crossing (R70). -/
def State.readBar (s : State) (fn off size : Nat) : State :=
  if !goodAccess off size then s.emit .unsupported
  else
    let r := regOf off
    match s.reach fn r false with
    | .acts =>
      if s.mgtCut r then s.emit (.poisoned off)
      else
        let (v, t) := if r = R.dbgMemData then s.debugRead (accessMask off size) else s.regTake fn r (accessMask off size)
        t.emit (.answer off (if size = 4 && off % 8 = 4 then v >>> 32 else v).toNat)
    | .absent => s
    | .noFunction => s.aerLog.emit .unsupported
    | .unsupported => s.emit .unsupported
    | .foreign => s.emit (.answer off 0)
    | .semRefused => s.emit (.answer off 0)
    | .refused => (s.denied fn).emit (.answer off 0)

/-- A BAR0 write of `size` bytes at `off`. -/
def State.writeBar (s : State) (fn off size : Nat) (v : Word) : State :=
  if !goodAccess off size then s.emit .unsupported
  else
    let r := regOf off
    let w := regWrite off size v
    if r = R.cchSetwayCmd then (if bit w.mask 0 then s.setwayCmd fn w.raw else s.setwayWrite fn id)
    else if r = R.dbgMemData then s.mmio fn r true fun s => s.debugWrite w
    else s.mmio fn r true fun s => s.regStore fn r w

/-- REGISTER_WRITE (R5 to R10). -/
def execRegisterWrite (fn off size : Nat) (v : Word) (s : State) : Answer := .next (s.writeBar fn off size v)

/-- RC_COUNTER_READ (R7, R8): a read of a register; the answer is its value before it is cleared. -/
def execRcCounterRead (fn off size : Nat) (s : State) : Answer := .next (s.readBar fn off size)

/-- MX_COUNTER_LATCH (R217): a read of CORE_MX_STEP. -/
def execMxCounterLatch (fn c size : Nat) (s : State) : Answer := .next (s.readBar fn (R.coreMxStep c) size)

/-- DEBUG_MEMORY_READ (R631): a read of DBG_MEM_DATA. -/
def execDebugMemoryRead (fn size : Nat) (s : State) : Answer := .next (s.readBar fn R.dbgMemData size)

/-- DEBUG_MEMORY_WRITE (R631): a write of DBG_MEM_DATA. -/
def execDebugMemoryWrite (fn size : Nat) (v : Word) (s : State) : Answer := .next (s.writeBar fn R.dbgMemData size v)

end Sys2Proof.Machine
end

