-- ==== Sys2Proof/Machine/Dispatch.lean ====
section
/-! DEFINITION. One arm per command: a direct call of its meaning. -/

namespace Sys2Proof.Machine

/-- The effect of a command on everything but the queue. -/
def exec (i : Instr) (s : State) : Host.Outcome State Fault Refusal :=
  match i with
  | .registerWrite fn off size value => Sys2Proof.Machine.execRegisterWrite fn off size value s
  | .rcCounterRead fn off size => Sys2Proof.Machine.execRcCounterRead fn off size s
  | .standbyPowerOn factory straps => Sys2Proof.Machine.execStandbyPowerOn factory straps s
  | .bootRomVerify badA badB => Sys2Proof.Machine.execBootRomVerify badA badB s
  | .mainInputValid => Sys2Proof.Machine.execMainInputValid s
  | .convertersSettled ok => Sys2Proof.Machine.execConvertersSettled ok s
  | .rootPllLock => Sys2Proof.Machine.execRootPllLock s
  | .rootPllLockLoss => Sys2Proof.Machine.execRootPllLockLoss s
  | .stackTrainingDone failed => Sys2Proof.Machine.execStackTrainingDone failed s
  | .consistLoad badA badB => Sys2Proof.Machine.execConsistLoad badA badB s
  | .startOverlay bad => Sys2Proof.Machine.execStartOverlay bad s
  | .perstAssert => Sys2Proof.Machine.execPerstAssert s
  | .hotReset => Sys2Proof.Machine.execHotReset s
  | .warmResetDomainReset => Sys2Proof.Machine.execWarmResetDomainReset s
  | .perstDeassert => Sys2Proof.Machine.execPerstDeassert s
  | .mainPowerLoss => Sys2Proof.Machine.execMainPowerLoss s
  | .mainInputOvervoltage => Sys2Proof.Machine.execMainInputOvervoltage s
  | .standbyPowerLoss => Sys2Proof.Machine.execStandbyPowerLoss s
  | .drainRequest fn => Sys2Proof.Machine.execDrainRequest fn s
  | .drainDone => Sys2Proof.Machine.execDrainDone s
  | .coreReset fn index => Sys2Proof.Machine.execCoreReset fn index s
  | .clusterReset fn index => Sys2Proof.Machine.execClusterReset fn index s
  | .mainlinePortReset fn index => Sys2Proof.Machine.execMainlinePortReset fn index s
  | .ethernetPortReset fn index => Sys2Proof.Machine.execEthernetPortReset fn index s
  | .unitResetDone => Sys2Proof.Machine.execUnitResetDone s
  | .functionLevelReset fn => Sys2Proof.Machine.execFunctionLevelReset fn s
  | .pfFunctionLevelReset => Sys2Proof.Machine.execPfFunctionLevelReset s
  | .vfEnable => Sys2Proof.Machine.execVfEnable s
  | .vfDisable => Sys2Proof.Machine.execVfDisable s
  | .numvfsWrite num => Sys2Proof.Machine.execNumvfsWrite num s
  | .configRequest fn req => Sys2Proof.Machine.execConfigRequest fn req s
  | .powerStateChange fn d3 => Sys2Proof.Machine.execPowerStateChange fn d3 s
  | .refDeviation ppm => Sys2Proof.Machine.execRefDeviation ppm s
  | .cdcOverrun group => Sys2Proof.Machine.execCdcOverrun group s
  | .cdcStall group inst detect stopped => Sys2Proof.Machine.execCdcStall group inst detect stopped s
  | .switchRequest fn value => Sys2Proof.Machine.execSwitchRequest fn value s
  | .overlayVerifyDone bad => Sys2Proof.Machine.execOverlayVerifyDone bad s
  | .quiesceTimeout => Sys2Proof.Machine.execQuiesceTimeout s
  | .switchApply => Sys2Proof.Machine.execSwitchApply s
  | .timetableInstall => Sys2Proof.Machine.execTimetableInstall s
  | .nop core slot => Sys2Proof.Machine.execNop core slot s
  | .ialu core slot upset => Sys2Proof.Machine.execIalu core slot upset s
  | .ialuI core slot => Sys2Proof.Machine.execIaluI core slot s
  | .imul core slot => Sys2Proof.Machine.execImul core slot s
  | .imulI core slot => Sys2Proof.Machine.execImulI core slot s
  | .icmp core slot => Sys2Proof.Machine.execIcmp core slot s
  | .icmpI core slot => Sys2Proof.Machine.execIcmpI core slot s
  | .plop core slot => Sys2Proof.Machine.execPlop core slot s
  | .falu core slot upset => Sys2Proof.Machine.execFalu core slot upset s
  | .faluI core slot => Sys2Proof.Machine.execFaluI core slot s
  | .halu core slot => Sys2Proof.Machine.execHalu core slot s
  | .fcmp core slot => Sys2Proof.Machine.execFcmp core slot s
  | .sfu core slot => Sys2Proof.Machine.execSfu core slot s
  | .cvt core slot => Sys2Proof.Machine.execCvt core slot s
  | .xlane core slot => Sys2Proof.Machine.execXlane core slot s
  | .sreg core slot => Sys2Proof.Machine.execSreg core slot s
  | .lds core slot upset => Sys2Proof.Machine.execLds core slot upset s
  | .sts core slot => Sys2Proof.Machine.execSts core slot s
  | .ldg core slot => Sys2Proof.Machine.execLdg core slot s
  | .stg core slot => Sys2Proof.Machine.execStg core slot s
  | .atoms core slot upset => Sys2Proof.Machine.execAtoms core slot upset s
  | .atomg core slot => Sys2Proof.Machine.execAtomg core slot s
  | .atomAcq core slot => Sys2Proof.Machine.execAtomAcq core slot s
  | .atomRel core slot => Sys2Proof.Machine.execAtomRel core slot s
  | .braAny core slot => Sys2Proof.Machine.execBraAny core slot s
  | .braAll core slot => Sys2Proof.Machine.execBraAll core slot s
  | .braU core slot => Sys2Proof.Machine.execBraU core slot s
  | .call core slot => Sys2Proof.Machine.execCall core slot s
  | .ret core slot => Sys2Proof.Machine.execRet core slot s
  | .exit core slot => Sys2Proof.Machine.execExit core slot s
  | .barSync core slot => Sys2Proof.Machine.execBarSync core slot s
  | .barArrive core slot => Sys2Proof.Machine.execBarArrive core slot s
  | .barrierStall core set barrier => Sys2Proof.Machine.execBarrierStall core set barrier s
  | .selfLock core slot => Sys2Proof.Machine.execSelfLock core slot s
  | .fenceFull core slot => Sys2Proof.Machine.execFenceFull core slot s
  | .fenceAcq core slot => Sys2Proof.Machine.execFenceAcq core slot s
  | .fenceRel core slot => Sys2Proof.Machine.execFenceRel core slot s
  | .tcopyGo core slot => Sys2Proof.Machine.execTcopyGo core slot s
  | .tcopyWait core slot => Sys2Proof.Machine.execTcopyWait core slot s
  | .tcopySlotComplete core tslot host => Sys2Proof.Machine.execTcopySlotComplete core tslot host s
  | .tcopySlotFault core tslot host upset => Sys2Proof.Machine.execTcopySlotFault core tslot host upset s
  | .semSig core slot => Sys2Proof.Machine.execSemSig core slot s
  | .semWait core slot => Sys2Proof.Machine.execSemWait core slot s
  | .semDec core slot => Sys2Proof.Machine.execSemDec core slot s
  | .semRead core slot => Sys2Proof.Machine.execSemRead core slot s
  | .ptsSub core slot => Sys2Proof.Machine.execPtsSub core slot s
  | .traceMark core slot => Sys2Proof.Machine.execTraceMark core slot s
  | .mxWait core slot => Sys2Proof.Machine.execMxWait core slot s
  | .mxIssue core slot => Sys2Proof.Machine.execMxIssue core slot s
  | .mxDrain core slot => Sys2Proof.Machine.execMxDrain core slot s
  | .mvIssue core slot => Sys2Proof.Machine.execMvIssue core slot s
  | .loadReturn core number struct upset => Sys2Proof.Machine.execLoadReturn core number struct upset s
  | .icacheFill core slot => Sys2Proof.Machine.execIcacheFill core slot s
  | .storePerform core number => Sys2Proof.Machine.execStorePerform core number s
  | .l1LineExpire core line => Sys2Proof.Machine.execL1LineExpire core line s
  | .blockPlace launch => Sys2Proof.Machine.execBlockPlace launch s
  | .coreSwitchEnd core => Sys2Proof.Machine.execCoreSwitchEnd core s
  | .blockEnd core set => Sys2Proof.Machine.execBlockEnd core set s
  | .tileStart core => Sys2Proof.Machine.execTileStart core s
  | .tileComplete core => Sys2Proof.Machine.execTileComplete core s
  | .drainStart core upset => Sys2Proof.Machine.execDrainStart core upset s
  | .drainComplete core => Sys2Proof.Machine.execDrainComplete core s
  | .mvStart core => Sys2Proof.Machine.execMvStart core s
  | .mvComplete core => Sys2Proof.Machine.execMvComplete core s
  | .matrixFault core what => Sys2Proof.Machine.execMatrixFault core what s
  | .mxCounterLatch fn core size => Sys2Proof.Machine.execMxCounterLatch fn core size s
  | .pointsRecordRead cluster upset => Sys2Proof.Machine.execPointsRecordRead cluster upset s
  | .choicePlace cluster => Sys2Proof.Machine.execChoicePlace cluster s
  | .stepClose launch => Sys2Proof.Machine.execStepClose launch s
  | .pageWalk who cls ctx va perm host => Sys2Proof.Machine.execPageWalk who cls ctx va perm host s
  | .tlbInvalidate fn => Sys2Proof.Machine.execTlbInvalidate fn s
  | .invalidateDone => Sys2Proof.Machine.execInvalidateDone s
  | .modeSwitch fn mirror => Sys2Proof.Machine.execModeSwitch fn mirror s
  | .maintClean fn l1Only => Sys2Proof.Machine.execMaintClean fn l1Only s
  | .maintInvalidate fn l1Only => Sys2Proof.Machine.execMaintInvalidate fn l1Only s
  | .maintCleanInvalidate fn l1Only => Sys2Proof.Machine.execMaintCleanInvalidate fn l1Only s
  | .maintDone fn => Sys2Proof.Machine.execMaintDone fn s
  | .setwayClean fn all die slice set way => Sys2Proof.Machine.execSetwayClean fn all die slice set way s
  | .setwayInvalidate fn all die slice set way => Sys2Proof.Machine.execSetwayInvalidate fn all die slice set way s
  | .setwayCleanInvalidate fn all die slice set way => Sys2Proof.Machine.execSetwayCleanInvalidate fn all die slice set way s
  | .setwayDone => Sys2Proof.Machine.execSetwayDone s
  | .sqTail fn queue size value => Sys2Proof.Machine.execSqTail fn queue size value s
  | .cqHead fn queue size reg value => Sys2Proof.Machine.execCqHead fn queue size reg value s
  | .queueEnable fn queue value => Sys2Proof.Machine.execQueueEnable fn queue value s
  | .queueDisable fn queue => Sys2Proof.Machine.execQueueDisable fn queue s
  | .entryFetch queue data ending => Sys2Proof.Machine.execEntryFetch queue data ending s
  | .sqFaultClear fn queue => Sys2Proof.Machine.execSqFaultClear fn queue s
  | .nopEntry entry => Sys2Proof.Machine.execNopEntry entry s
  | .runProgram entry => Sys2Proof.Machine.execRunProgram entry s
  | .copyEntry entry host => Sys2Proof.Machine.execCopyEntry entry host s
  | .signalEntry entry => Sys2Proof.Machine.execSignalEntry entry s
  | .waitEntry entry => Sys2Proof.Machine.execWaitEntry entry s
  | .patch entry host => Sys2Proof.Machine.execPatch entry host s
  | .create entry host => Sys2Proof.Machine.execCreate entry host s
  | .delete entry => Sys2Proof.Machine.execDelete entry s
  | .fenceEntry entry => Sys2Proof.Machine.execFenceEntry entry s
  | .contextRetire entry => Sys2Proof.Machine.execContextRetire entry s
  | .retireDone ctx => Sys2Proof.Machine.execRetireDone ctx s
  | .admission entry => Sys2Proof.Machine.execAdmission entry s
  | .entryStart entry => Sys2Proof.Machine.execEntryStart entry s
  | .beGrant entry => Sys2Proof.Machine.execBeGrant entry s
  | .classOverrun entry => Sys2Proof.Machine.execClassOverrun entry s
  | .queueTimeout entry => Sys2Proof.Machine.execQueueTimeout entry s
  | .borrowOverrun launch => Sys2Proof.Machine.execBorrowOverrun launch s
  | .launchStart thread host => Sys2Proof.Machine.execLaunchStart thread host s
  | .launchComplete launch => Sys2Proof.Machine.execLaunchComplete launch s
  | .copyDone number host => Sys2Proof.Machine.execCopyDone number host s
  | .patchCommit pslot => Sys2Proof.Machine.execPatchCommit pslot s
  | .completionWrite queue => Sys2Proof.Machine.execCompletionWrite queue s
  | .completionReadback queue ending => Sys2Proof.Machine.execCompletionReadback queue ending s
  | .cqRetry fn queue => Sys2Proof.Machine.execCqRetry fn queue s
  | .hold fn on => Sys2Proof.Machine.execHold fn on s
  | .dispatchNop thread => Sys2Proof.Machine.execDispatchNop thread s
  | .dispEnd thread => Sys2Proof.Machine.execEnd thread s
  | .dispYield thread => Sys2Proof.Machine.execYield thread s
  | .dispAdd thread => Sys2Proof.Machine.execAdd thread s
  | .dispSub thread => Sys2Proof.Machine.execSub thread s
  | .dispMul thread => Sys2Proof.Machine.execMul thread s
  | .dispAnd thread => Sys2Proof.Machine.execAnd thread s
  | .dispOr thread => Sys2Proof.Machine.execOr thread s
  | .dispXor thread => Sys2Proof.Machine.execXor thread s
  | .dispShl thread => Sys2Proof.Machine.execShl thread s
  | .dispShr thread => Sys2Proof.Machine.execShr thread s
  | .dispAddi thread => Sys2Proof.Machine.execAddi thread s
  | .dispMovi thread => Sys2Proof.Machine.execMovi thread s
  | .dispMovhi thread => Sys2Proof.Machine.execMovhi thread s
  | .dispBra thread => Sys2Proof.Machine.execBra thread s
  | .dispBeq thread => Sys2Proof.Machine.execBeq thread s
  | .dispBne thread => Sys2Proof.Machine.execBne thread s
  | .dispBlt thread => Sys2Proof.Machine.execBlt thread s
  | .dispBge thread => Sys2Proof.Machine.execBge thread s
  | .dispBltu thread => Sys2Proof.Machine.execBltu thread s
  | .dispBgeu thread => Sys2Proof.Machine.execBgeu thread s
  | .dispatchCall thread => Sys2Proof.Machine.execDispatchCall thread s
  | .dispatchRet thread => Sys2Proof.Machine.execDispatchRet thread s
  | .dispLoadt thread host => Sys2Proof.Machine.execLoadt thread host s
  | .dispStore thread => Sys2Proof.Machine.execStore thread s
  | .dispTime thread => Sys2Proof.Machine.execTime thread s
  | .dispLaunch thread host => Sys2Proof.Machine.execLaunch thread host s
  | .dispLaunchPlat thread host => Sys2Proof.Machine.execLaunchPlat thread host s
  | .dispJoin thread => Sys2Proof.Machine.execJoin thread s
  | .dispatchCopy thread host => Sys2Proof.Machine.execDispatchCopy thread host s
  | .dispCmo thread => Sys2Proof.Machine.execCmo thread s
  | .dispatchSignal thread => Sys2Proof.Machine.execDispatchSignal thread s
  | .dispatchWait thread => Sys2Proof.Machine.execDispatchWait thread s
  | .dispTalloc thread => Sys2Proof.Machine.execTalloc thread s
  | .dispTfree thread => Sys2Proof.Machine.execTfree thread s
  | .dispTset thread => Sys2Proof.Machine.execTset thread s
  | .dispTget thread upset => Sys2Proof.Machine.execTget thread upset s
  | .dispTbatch thread host => Sys2Proof.Machine.execTbatch thread host s
  | .dispTexit thread host => Sys2Proof.Machine.execTexit thread host s
  | .dispTadvance thread host => Sys2Proof.Machine.execTadvance thread host s
  | .dispDump thread => Sys2Proof.Machine.execDump thread s
  | .dumpDone thread host => Sys2Proof.Machine.execDumpDone thread host s
  | .dispTmark thread => Sys2Proof.Machine.execTmark thread s
  | .semActivate fn sem ctx remote => Sys2Proof.Machine.execSemActivate fn sem ctx remote s
  | .semRemoteChange fn sem remote => Sys2Proof.Machine.execSemRemoteChange fn sem remote s
  | .semBreak fn sem => Sys2Proof.Machine.execSemBreak fn sem s
  | .semFree fn sem => Sys2Proof.Machine.execSemFree fn sem s
  | .semForce fn sem value => Sys2Proof.Machine.execSemForce fn sem value s
  | .semSnapshot fn sem => Sys2Proof.Machine.execSemSnapshot fn sem s
  | .semSnapshotReady => Sys2Proof.Machine.execSemSnapshotReady s
  | .portRoleWrite fn port role => Sys2Proof.Machine.execPortRoleWrite fn port role s
  | .portTrainingDone port peer => Sys2Proof.Machine.execPortTrainingDone port peer s
  | .portDown port => Sys2Proof.Machine.execPortDown port s
  | .portRetrainAttempt port peer => Sys2Proof.Machine.execPortRetrainAttempt port peer s
  | .frameBoundary => Sys2Proof.Machine.execFrameBoundary s
  | .messageAccept src => Sys2Proof.Machine.execMessageAccept src s
  | .messageForward msg => Sys2Proof.Machine.execMessageForward msg s
  | .writeReceive msg => Sys2Proof.Machine.execWriteReceive msg s
  | .readReceive msg => Sys2Proof.Machine.execReadReceive msg s
  | .readRsp msg => Sys2Proof.Machine.execReadRsp msg s
  | .remoteSignalReceive msg => Sys2Proof.Machine.execRemoteSignalReceive msg s
  | .mlnAck msg => Sys2Proof.Machine.execMlnAck msg s
  | .ackSend src => Sys2Proof.Machine.execAckSend src s
  | .linkDown msg => Sys2Proof.Machine.execLinkDown msg s
  | .linkUp msg => Sys2Proof.Machine.execLinkUp msg s
  | .peerDown msg => Sys2Proof.Machine.execPeerDown msg s
  | .flowLate msg => Sys2Proof.Machine.execFlowLate msg s
  | .flowDown msg => Sys2Proof.Machine.execFlowDown msg s
  | .mlnEpoch msg => Sys2Proof.Machine.execMlnEpoch msg s
  | .pairReset msg => Sys2Proof.Machine.execPairReset msg s
  | .blockCrcError port lane => Sys2Proof.Machine.execBlockCrcError port lane s
  | .replayRequest port again delayed => Sys2Proof.Machine.execReplayRequest port again delayed s
  | .linkMaintOverrun port slot => Sys2Proof.Machine.execLinkMaintOverrun port slot s
  | .hostWindowWrite off data => Sys2Proof.Machine.execHostWindowWrite off data s
  | .hostWindowRead off len => Sys2Proof.Machine.execHostWindowRead off len s
  | .hostReadCompletion tag data ending => Sys2Proof.Machine.execHostReadCompletion tag data ending s
  | .hostReadTimeout tag => Sys2Proof.Machine.execHostReadTimeout tag s
  | .qpReady fn qp => Sys2Proof.Machine.execQpReady fn qp s
  | .qpReset fn qp => Sys2Proof.Machine.execQpReset fn qp s
  | .qpDoorbell fn qp db => Sys2Proof.Machine.execQpDoorbell fn qp db s
  | .producerPoll qp host => Sys2Proof.Machine.execProducerPoll qp host s
  | .send qp host => Sys2Proof.Machine.execSend qp host s
  | .sendImm qp host => Sys2Proof.Machine.execSendImm qp host s
  | .rdmaWrite qp host => Sys2Proof.Machine.execRdmaWrite qp host s
  | .writeImm qp host => Sys2Proof.Machine.execWriteImm qp host s
  | .rdmaRead qp host => Sys2Proof.Machine.execRdmaRead qp host s
  | .rdmaAck qp psn => Sys2Proof.Machine.execRdmaAck qp psn s
  | .rdmaReadResponse qp data => Sys2Proof.Machine.execRdmaReadResponse qp data s
  | .ackTimeout qp host => Sys2Proof.Machine.execAckTimeout qp host s
  | .rnrNakReceive qp host => Sys2Proof.Machine.execRnrNakReceive qp host s
  | .inboundWrite msg => Sys2Proof.Machine.execInboundWrite msg s
  | .inboundWriteImm msg => Sys2Proof.Machine.execInboundWriteImm msg s
  | .inboundRead msg => Sys2Proof.Machine.execInboundRead msg s
  | .inboundSend msg => Sys2Proof.Machine.execInboundSend msg s
  | .rawFrameReceive port data host => Sys2Proof.Machine.execRawFrameReceive port data host s
  | .pfcPauseReceive port prio on => Sys2Proof.Machine.execPfcPauseReceive port prio on s
  | .pfcStorm port prio => Sys2Proof.Machine.execPfcStorm port prio s
  | .cnpReceive qp => Sys2Proof.Machine.execCnpReceive qp s
  | .cnpRateIncrease qp => Sys2Proof.Machine.execCnpRateIncrease qp s
  | .ethLinkChange port up => Sys2Proof.Machine.execEthLinkChange port up s
  | .regionInvalidate fn index => Sys2Proof.Machine.execRegionInvalidate fn index s
  | .regionInvDone => Sys2Proof.Machine.execRegionInvDone s
  | .rdmaHold fn on => Sys2Proof.Machine.execRdmaHold fn on s
  | .contextActivate fn ctx tenant weight => Sys2Proof.Machine.execContextActivate fn ctx tenant weight s
  | .contextWeightChange fn ctx weight => Sys2Proof.Machine.execContextWeightChange fn ctx weight s
  | .contextFree fn ctx => Sys2Proof.Machine.execContextFree fn ctx s
  | .seedWrite fn ctx value => Sys2Proof.Machine.execSeedWrite fn ctx value s
  | .census fn ctx => Sys2Proof.Machine.execCensus fn ctx s
  | .censusDone ctx host => Sys2Proof.Machine.execCensusDone ctx host s
  | .powerSample input west east => Sys2Proof.Machine.execPowerSample input west east s
  | .stepLower unit => Sys2Proof.Machine.execStepLower unit s
  | .diePowerStep die => Sys2Proof.Machine.execDiePowerStep die s
  | .thermalStep unit => Sys2Proof.Machine.execThermalStep unit s
  | .thermalTrip unit => Sys2Proof.Machine.execThermalTrip unit s
  | .clusterGate cluster => Sys2Proof.Machine.execClusterGate cluster s
  | .clusterWake cluster => Sys2Proof.Machine.execClusterWake cluster s
  | .maintWindowOpen channel work => Sys2Proof.Machine.execMaintWindowOpen channel work s
  | .maintOverrun channel task cycles work => Sys2Proof.Machine.execMaintOverrun channel task cycles work s
  | .lastingFault part => Sys2Proof.Machine.execLastingFault part s
  | .rowSpareDone channel => Sys2Proof.Machine.execRowSpareDone channel s
  | .ledgerSnapshot fn value => Sys2Proof.Machine.execLedgerSnapshot fn value s
  | .ledgerSnapshotDone => Sys2Proof.Machine.execLedgerSnapshotDone s
  | .tokenSubmit fn => Sys2Proof.Machine.execTokenSubmit fn s
  | .tokenVerifyDone => Sys2Proof.Machine.execTokenVerifyDone s
  | .relock fn => Sys2Proof.Machine.execRelock fn s
  | .unlockExpire => Sys2Proof.Machine.execUnlockExpire s
  | .nonceRead fn => Sys2Proof.Machine.execNonceRead fn s
  | .commitFw fn => Sys2Proof.Machine.execCommitFw fn s
  | .commitConsist fn => Sys2Proof.Machine.execCommitConsist fn s
  | .keyChange fn slot => Sys2Proof.Machine.execKeyChange fn slot s
  | .keyInstalled => Sys2Proof.Machine.execKeyInstalled s
  | .getVersion medium => Sys2Proof.Machine.execGetVersion medium s
  | .getCapabilities medium => Sys2Proof.Machine.execGetCapabilities medium s
  | .negotiateAlgorithms medium => Sys2Proof.Machine.execNegotiateAlgorithms medium s
  | .getDigests medium => Sys2Proof.Machine.execGetDigests medium s
  | .getCertificate medium off len => Sys2Proof.Machine.execGetCertificate medium off len s
  | .challenge medium => Sys2Proof.Machine.execChallenge medium s
  | .getMeasurements medium => Sys2Proof.Machine.execGetMeasurements medium s
  | .mctpControl medium req => Sys2Proof.Machine.execMctpControl medium req s
  | .pldmSensorRead medium entry => Sys2Proof.Machine.execPldmSensorRead medium entry s
  | .pldmEventLogRead medium number => Sys2Proof.Machine.execPldmEventLogRead medium number s
  | .requestUpdate medium => Sys2Proof.Machine.execRequestUpdate medium s
  | .transferComplete medium comp bad => Sys2Proof.Machine.execTransferComplete medium comp bad s
  | .activateFirmware medium => Sys2Proof.Machine.execActivateFirmware medium s
  | .cancelUpdate medium => Sys2Proof.Machine.execCancelUpdate medium s
  | .sensorSample entry value => Sys2Proof.Machine.execSensorSample entry value s
  | .wearSample reading => Sys2Proof.Machine.execWearSample reading s
  | .counterSample => Sys2Proof.Machine.execCounterSample s
  | .counterClear fn set value => Sys2Proof.Machine.execCounterClear fn set value s
  | .traceTrigger fn => Sys2Proof.Machine.execTraceTrigger fn s
  | .traceRestart fn => Sys2Proof.Machine.execTraceRestart fn s
  | .traceFreeze => Sys2Proof.Machine.execTraceFreeze s
  | .surveyStart fn value => Sys2Proof.Machine.execSurveyStart fn value s
  | .surveyLatch => Sys2Proof.Machine.execSurveyLatch s
  | .surveyDone => Sys2Proof.Machine.execSurveyDone s
  | .debugMemoryRead fn size => Sys2Proof.Machine.execDebugMemoryRead fn size s
  | .debugMemoryWrite fn size value => Sys2Proof.Machine.execDebugMemoryWrite fn size value s
  | .bypass => Sys2Proof.Machine.execBypass s
  | .idcode => Sys2Proof.Machine.execIdcode s
  | .samplePreload cells => Sys2Proof.Machine.execSamplePreload cells s
  | .extest => Sys2Proof.Machine.execExtest s
  | .extestPulse => Sys2Proof.Machine.execExtestPulse s
  | .controlWindow heard => Sys2Proof.Machine.execControlWindow heard s
  | .dieLinkReplay again => Sys2Proof.Machine.execDieLinkReplay again s
  | .pllLockTimeout => Sys2Proof.Machine.execPllLockTimeout s
  | .tktFlush fn => Sys2Proof.Machine.execTktFlush fn s
  | .remoteAccessNak qp invalid => Sys2Proof.Machine.execRemoteAccessNak qp invalid s
  | .thermtripRelease => Sys2Proof.Machine.execThermtripRelease s
  | .pcieLinkUp speed width flit => Sys2Proof.Machine.execPcieLinkUp speed width flit s
  | .updateWrite medium comp off data => Sys2Proof.Machine.execUpdateWrite medium comp off data s
  | .standbyCrystalStop => Sys2Proof.Machine.execStandbyCrystalStop s

end Sys2Proof.Machine
end

