-- ==== Sys2Proof/Machine/Tick.lean ====
section
/-! DEFINITION. One nanosecond passes: what the spec makes every nanosecond change (spec 02 R62, 10 R382, R407, 14 R520, 18 R608). -/

namespace Sys2Proof.Machine

/-- The quotient 65,536 ÷ WEIGHT with 16 fraction bits, truncated (R520). -/
def shareStep (weight : Nat) : Nat := 2 ^ 32 / weight

/-- The entry of a block, if its launch is there. -/
def State.blockCmd (s : State) (b : Block) : Option Nat := (s.launch b.launch).map Launch.cmd

/-- Does a block belong to an entry that is not lane-admitted (R520)? -/
def State.shared (s : State) (b : Block) : Bool :=
  match (s.blockCmd b).bind s.cmd with
  | some c => c.lane.isNone
  | none => false

/-- A nanosecond of a core that holds blocks (R382, R520): its context is charged once, and each entry once. Switch cycles are charged
to no context (R519). -/
def State.chargeCore (s : State) (k : Core) : State :=
  let bs := k.blockList.map Prod.snd
  match bs with
  | [] => s
  | b :: _ =>
    if k.switching then s
    else
      let n := b.ctx
      let s1 := s.wr (R.ctxEngineNs n) (s.rd (R.ctxEngineNs n) + 1#64)
      let s2 :=
        if bs.any s.shared then
          let t := s1.wr (R.ctxShareNs n) (s1.rd (R.ctxShareNs n) + 1#64)
          t.setVtime n (t.vtime n + shareStep (t.fld (R.ctxCfg n) 15 0))
        else s1
      let ids := bs.foldl (fun (l : List Nat) b => match s.blockCmd b with | some i => addOnce l i | none => l) []
      ids.foldl (fun (s : State) i =>
        match s.cmd i with
        | some c => s.setCmd i (some { c with engine := c.engine + 1 })
        | none => s) s2

/-- Time that an entry spends held before it starts (R37, R407). -/
def State.chargeHeld (s : State) : State :=
  if s.holding then
    s.cmdList.foldl (fun (s : State) e =>
      if e.2.stage = .held then s.setCmd e.1 (some { e.2 with held := e.2.held + 1 }) else s) s
  else s

/-- One core cycle of the array (R197, R200, R201): frozen while the oldest tile is due to accumulate and an earlier drain of its slot has still to
read; else every tile advances, the streaming one by a K-step. The tiles, and whether it is a STEP, BUBBLE or FREEZE_DRAIN cycle (0, 1, 2). -/
def Core.arrayCycle (k : Core) (l : List Tile) : List Tile × Nat :=
  match l with
  | [] => ([], 1)
  | t :: _ =>
    if k.mx.drainsFirst t && decide (t.cycles + 176 ≤ t.ran) then (l, 2)
    else
      let r := l.foldl (fun (a : List Tile × Bool) t =>
        if t.cycles ≤ t.ran then (a.1 ++ [{ t with ran := t.ran + 1 }], a.2)
        else if a.2 then (a.1 ++ [t], true) else (a.1 ++ [{ t with ran := t.ran + 1 }], true)) ([], false)
      (r.1, if r.2 then 0 else 1)

/-- A nanosecond of a core's array with tiles in flight: two cycles of 2.0 GHz, each in its class (R201). Cycles in which a feeder has no data are
timing, and no state of the model (log 23). -/
def State.arrayTick (s : State) (c : Nat) (k : Core) : State :=
  if k.mx.flight.isEmpty then s
  else
    let note (s : State) (n : Nat) : State := match n with
      | 0 => (s.count (R.coreMxStep c) 64 1).countSat c (R.dbgFix c 2) 1
      | 1 => (s.count (R.coreMxBubble c) 64 1).countSat c (R.dbgFix c 3) 1
      | _ => (s.count (R.coreMxFreezeDrain c) 64 1).countSat c (R.dbgFix c 6) 1
    let a := k.arrayCycle k.mx.flight
    let b := k.arrayCycle a.1
    (note (note s a.2) b.2).updCore c (fun k => { k with mx := { k.mx with flight := b.1 } })

/-- The cores whose clock does not run: those of gated clusters, and those with a stopped clock (R72, R201). -/
def State.idleCores (s : State) : List Nat :=
  s.pwr.gated.flatMap (fun n => (List.range 12).map (12 * n + ·)) ++
    (s.cores.filter (fun e => e.2.clockStopped && !s.pwr.gated.contains (clusterOf e.1))).map Prod.fst

/-- The time of a core whose clock does not run counts in no class of R201 and in no counter's CYCLES (R609). -/
def State.skipIdle (s : State) : State :=
  let skip (m : SMap Nat) (l : List Nat) : SMap Nat := l.foldl (fun m c => SMap.upd 0 m c (· + 1)) m
  { s with dbg := { s.dbg with
      mxBase := skip s.dbg.mxBase s.idleCores
      cycBase := skip s.dbg.cycBase (s.idleCores ++ s.pwr.gated.map (192 + ·)) } }

/-! ### Events that last (R611) -/

/-- Two core cycles of a core whose clock runs: the groups that wait for each reason of R126, and a full store buffer. -/
def State.levelsOfCore (s : State) (c : Nat) : State :=
  let waits (w : Nat) : Nat := ((s.core c).groupList.filter (fun e => e.2.fault.isNone && s.waitOf c e.1 e.2 = w)).length
  let t := ((List.range 13).filter (fun i => s.selects c (9 + i))).foldl (fun t i => t.hit c (9 + i) (2 * waits (i + 1))) s
  if 64 ≤ (s.core c).stores.length then t.hit c 0x24 2 else t

/-- A nanosecond of every event that lasts: of cores, of points units with a full queue of ranked records, and of channels in a window or in
an overrun. -/
def State.countLevels (s : State) : State :=
  let s1 := (s.cores.filter (fun e => !s.idleCores.contains e.1)).foldl (fun s e => s.levelsOfCore e.1) s
  let s2 := s.pts.units.foldl (fun (t : State) e =>
    if 512 ≤ e.2.queue.length && !s.pwr.gated.contains e.1 then t.hit (192 + e.1) 0x1005 2 else t) s1
  (List.range 2).foldl (fun (s : State) d =>
    let n (p : Nat → Bool) : Nat := ((List.range 128).filter (fun k => p (128 * d + k))).length
    (s.hit (210 + d) 0x3003 (n s.inWindow)).hit (210 + d) 0x3004 (n (fun k => decide (s.now < SMap.get 0 s.pwr.overrun k)))) s2

/-- A nanosecond with the root PLL locked: the timestamp counts, cores and held entries are charged. -/
def State.serviceTick (s : State) : State :=
  let s1 := s.cores.foldl (fun (s : State) e => (s.chargeCore e.2).arrayTick e.1 e.2) s
  let s2 := s1.countLevels.skipIdle.chargeHeld.markQuiet
  s2.wr R.clkTsNow (s2.rd R.clkTsNow + 1#64)

/-- Is the root PLL locked (R59, R61, R62)? Step 4 of the start begins when it locks, and a loss of lock goes back to step 3. PLL_LOCK
itself reads 1 wherever it can be read (R74). -/
def State.locked (s : State) : Bool := decide (4 ≤ s.fld R.pwrBootStatus 19 16)

/-- A nanosecond passes: MGT_UPTIME counts on standby power, the rest while the root PLL is locked (R62). -/
def State.tick (s : State) : State :=
  let s1 := if s.boot.power then { s with mgt := { s.mgt with uptimeNs := s.mgt.uptimeNs + 1 } } else s
  if s1.locked then s1.serviceTick else s1

end Sys2Proof.Machine
end

