-- ==== Sys2Proof/Safety.lean ====
section
/-! DEFINITION. What a safe run is: device memory, caches and registers stay in their canonical form, so that equal machines are equal
data. -/

namespace Sys2Proof

/-- The canonical form of a table whose unlisted entries read as `d`: keys strictly rising, no entry at `d`. -/
def SMap.Canon {α : Type} (d : Nat → α) (m : SMap α) : Prop :=
  m.Pairwise (fun a b => a.1 < b.1) ∧ ∀ e ∈ m, e.2 ≠ d e.1

namespace Machine

/-- Device memory, the stored registers, and the tables of cores, launches, entries, dispatch threads, points units and queue pairs are in
canonical form. -/
structure State.Canon (s : State) : Prop where
  dram : SMap.Canon (fun _ => (0 : Byte)) s.mem.dram
  regs : SMap.Canon resetOf s.regs
  cores : SMap.Canon (fun _ => Core.empty) s.cores
  launches : SMap.Canon (fun _ => none) s.dsp.launches
  cmds : SMap.Canon (fun _ => none) s.dsp.cmds
  threads : SMap.Canon (fun _ => none) s.dsp.threads
  units : SMap.Canon (fun _ => PtsUnit.empty) s.pts.units
  qps : SMap.Canon (fun _ => none) s.eth.qps

/-- Fuses only ever change from unblown to blown (R576, R579). -/
def Fuses.Grow (f g : Fuses) : Prop :=
  f.fwCount ≤ g.fwCount ∧ f.conCount ≤ g.conCount ∧ f.ownerHash <+: g.ownerHash ∧
    (∀ i, f.ochornRevoke.testBit i = true → g.ochornRevoke.testBit i = true) ∧
    ∀ i, f.ownerRevoke.testBit i = true → g.ownerRevoke.testBit i = true

/-- A step is safe when it answers a next state in canonical form. -/
def SafeStep (s : State) : Prop := ∃ t, step s = .next t ∧ t.Canon

/-! ### The terms that claims use -/

/-- A counter register of one of the 214 counter sets (R609 to R613). -/
def isCounter (off : Nat) : Bool := decide (0x90000 ≤ off) && decide (off < 0x90000 + 0x100 * 214)

/-- `t` is `s` but for event counters, the marks of saturated ones, and free values used up. -/
def State.Counted (s t : State) : Prop :=
  t = { s with regs := t.regs, freeCount := t.freeCount, dbg := { s.dbg with sat := t.dbg.sat } } ∧
    ∀ off, isCounter off = false → t.rd off = s.rd off

/-- `t` is `s` but for the registers at the listed offsets. -/
def State.RegsOnly (s t : State) (l : List Nat) : Prop :=
  t = { s with regs := t.regs } ∧ ∀ off, off ∉ l → t.rd off = s.rd off

/-- A group may issue the word at its program counter now (R85, R127): its partition chooses it (R86), and no acquire of its own holds the
access back (R339). -/
structure State.Issuable (s : State) (c slot : Nat) (g : Group) (w : Word) : Prop where
  group : (s.core c).group slot = some g
  can : (s.core c).canIssue g = true
  word : (s.core c).word g.pc = some w
  turn : (s.core c).turnOf s.now slot g = true
  clear : isAccess w = true → (s.core c).acquiring slot = false

/-- A dispatch thread issues the word `w` now (R389, R396): it waits for nothing, its control core chooses it, its index lies inside its program, and the word is read and is
one that R396 lets run. `r` is the state once the word is read, and `th` the thread as the instruction finds it. -/
structure State.DIssues (s : State) (t : Nat) (th : Thread) (w : DWord) (r : State) : Prop where
  word : ∃ x b bad u, s.thread t = some x ∧ (x.hold = .none ∨ x.hold = .retry) ∧ x.pc < (s.codeOf x).size ∧
    s.memRead (s.wordAt (s.codeOf x) x.pc) 8 2 0 true = (b, bad, u) ∧ bad = false ∧ w = dword (BitVec.ofNat 64 (leNat b)) ∧
    r = u.firstIssue t x ∧ th = { x with fresh := false }
  turn : s.dturn t = true
  legal : w.ok = true

/-- A function's access to a register of BAR0 is served: it reaches the register (R482), and no fenced crossing stands before it (R70). -/
structure State.Serves (s : State) (fn off : Nat) (write : Bool) : Prop where
  reach : s.reach fn off write = .acts
  clear : s.mgtCut off = false

/-- A command ends in a next state that is `u` but for event counters. -/
def StepsTo (i : Instr) (s u : State) : Prop := ∃ t, exec i s = .next t ∧ u.Counted t

/-- A thread instruction issues and ends in a next state that is `u`, with the group's and the partition's last issue noted (R86), but for event
counters. -/
def Issues (i : Instr) (s : State) (c slot : Nat) (u : State) : Prop := StepsTo i s (u.markIssue c slot)

/-- `u` with the issue of a group's instruction noted (R86), unless `u` holds the group at it. -/
def State.noted (u : State) (c slot : Nat) : State :=
  match (u.core c).group slot with
  | some g => if g.hold then u else u.markIssue c slot
  | none => u.markIssue c slot

/-- A thread instruction ends in a next state that is `u`, with its issue noted unless `u` holds its group, but for event counters. -/
def Ends (i : Instr) (s : State) (c slot : Nat) (u : State) : Prop := StepsTo i s (u.noted c slot)

/-- A thread instruction issues: its group becomes `g`, and nothing else but the note of the issue and counters changes. -/
def StepsGroup (i : Instr) (s : State) (c slot : Nat) (g : Group) : Prop := Issues i s c slot (s.setGroup c slot g)

/-- A thread instruction leaves its group held at it with a wait reason (R126), to be tried again, and nothing else but counters changes. -/
def Holds (i : Instr) (s : State) (c slot : Nat) (g : Group) (why : Nat) : Prop := StepsTo i s (s.holdAt c slot g why)

end Machine
end Sys2Proof
end

