-- ==== Sys2Proof/Certificates/Slice0/Obligations.lean ====
section
/-! DEFINITION. The statements for the provers. -/

open Sys2Proof Sys2Proof.Machine

/-- A step runs the command at the front of the queue on the state with the queue's rest (00 R4). -/
def Obligations.StepRunsFrontCommand : Prop :=
  ∀ (c : Instr) (rest : List Instr) (s : State), s.pending = c :: rest → step s = exec c { s with pending := rest }

/-- On an empty queue a nanosecond passes (the model's choice, log 5) (02 R62, 18 R608); it takes in choices of the model: log 5. -/
def Obligations.IdleStepPassesOneNanosecond : Prop :=
  ∀ s : State, s.pending = [] →
    let up : State := { s with mgt := { s.mgt with uptimeNs := s.mgt.uptimeNs + 1 } }
    (s.locked = false → step s = .next (if s.boot.power then up else s)) ∧
    (s.locked = true → s.cores = [] → s.pts.units = [] → s.pwr.gated = [] → s.holding = false →
      (∀ set j, s.rd (R.dbgEvsel set j) = 0) →
      step s = .next ((if s.boot.power then up else s).wr R.clkTsNow (s.rd R.clkTsNow + 1#64)))

/-- No command touches the queue of waiting commands (00 R4); it takes in choices of the model: log 9. -/
def Obligations.CommandsLeaveTheQueueAlone : Prop :=
  ∀ (i : Instr) (s t : State), exec i s = .next t → t.pending = s.pending

/-- Every step keeps device memory, registers and tables in canonical form (00 R3, 00 R5). -/
def Obligations.EveryStepKeepsCanonicalForm : Prop :=
  ∀ s t : State, s.Canon → step s = .next t → t.Canon

/-- The machine at reset is in canonical form and lists nothing (20 R634); it takes in choices of the model: log 2, 3, 7. -/
def Obligations.ResetIsCanonical : Prop :=
  State.reset.Canon ∧ State.reset.pending = [] ∧ State.reset.out = [] ∧ State.reset.mem.dram = [] ∧
    State.reset.boot.power = false ∧ (∀ off, State.reset.rd off = resetOf off)

/-- The record of what the part sent only grows, and free values are used in order (00 R4); it takes in choices of the model: log 1, 10. -/
def Obligations.NothingSentIsUnsent : Prop :=
  ∀ (i : Instr) (s t : State), exec i s = .next t → s.out <:+ t.out ∧ s.freeCount ≤ t.freeCount

/-- Once a module has left the factory no step unblows a fuse (17 R576, 17 R579). -/
def Obligations.FusesNeverUnblow : Prop :=
  ∀ s t : State, s.boot.made = true → step s = .next t → t.boot.made = true ∧ s.sec.fuses.Grow t.sec.fuses

/-- No command but TOKEN_VERIFY_DONE opens a debug scope by token (17 R590). -/
def Obligations.OnlyTokensOpenDebugScopes : Prop :=
  (∀ (i : Instr) (s t : State), i ≠ .tokenVerifyDone → exec i s = .next t → t.sec.scopes = s.sec.scopes ∨ t.sec.scopes = 0) ∧
    ∀ s t : State, s.pending = [] → step s = .next t → t.sec.scopes = s.sec.scopes ∨ t.sec.scopes = 0

/-- Every command has an effect: no step of any state faults or is refused (00 R7, 13 R482); it takes in choices of the model: log 9. -/
def Obligations.NoCommandStopsTheMachine : Prop :=
  ∀ s : State, ∃ t, step s = .next t

/-- Every legal register instruction writes what its decoder says and the group goes on 8 bytes further (04 R142, 04 R146, 04 R147, 04 R148, 04 R149, 04 R150, 04 R151, 04 R152, 04 R153, 04 R159, 03 R88, 03 R89); it takes in choices of the model: log 1, 6, 90, 94. -/
def Obligations.RegisterInstructionsRun : Prop :=
  ∀ (s : State) (c : Fin 192) (slot : Fin 64) (g : Group) (w : Word), s.Canon → s.Issuable c slot g w →
    let run (i : Instr) (dec : Group → Word → Option RegEffect) : Prop :=
      ∀ e, dec g w = some e → (s.core c).blocked slot e.regs = 0 →
        StepsGroup i s c slot ((e.run (execMask g (iFields w)) (Config.free s.freeCount) g).next 8)
    (isMajor 0x01 w = true → run (.ialu c slot .none) decIalu) ∧
    (isMajor 0x02 w = true → run (.ialuI c slot) decIaluI) ∧
    (isMajor 0x03 w = true → run (.imul c slot) decImul) ∧
    (isMajor 0x04 w = true → run (.imulI c slot) decImulI) ∧
    (isMajor 0x05 w = true → run (.icmp c slot) decIcmp) ∧
    (isMajor 0x06 w = true → run (.icmpI c slot) decIcmpI) ∧
    (isMajor 0x07 w = true → run (.plop c slot) decPlop) ∧
    (isMajor 0x08 w = true → run (.falu c slot .none) (fun g w => decFp g w falufmt)) ∧
    (isMajor 0x09 w = true → run (.faluI c slot) decFaluI) ∧
    (isMajor 0x0A w = true → run (.halu c slot) (fun g w => decFp g w halufmt)) ∧
    (isMajor 0x0B w = true → run (.fcmp c slot) decFcmp) ∧
    (isMajor 0x0C w = true → run (.sfu c slot) decSfu) ∧
    (isMajor 0x0E w = true → run (.xlane c slot) decXlane)

/-- The integer and logic operations write what their rules give in every lane of the mask (04 R146, 03 R89). -/
def Obligations.IntegerResults : Prop :=
  ∀ (s : State) (c : Fin 192) (slot : Fin 64) (g : Group) (w : Word) (minor : Nat) (f : Nat → Nat → Nat), s.Canon → s.Issuable c slot g w →
    isMajor 0x01 w = true → fmtA w = ⟨false, false, false, false, minor, 0, 0, false, false, false, false, false⟩ →
    (iFields w).srcC = 0 → (iFields w).dest < g.decl → (iFields w).srcA < g.decl → (iFields w).srcB < g.decl →
    (s.core c).blocked slot [(iFields w).dest, (iFields w).srcA, (iFields w).srcB] = 0 →
    (minor, f) ∈ ([(0x00, fun a b => (a + b) % 2 ^ 32), (0x01, fun a b => (a + 2 ^ 32 - b) % 2 ^ 32),
      (0x02, fun a b => if a ≤ b then a else b), (0x03, fun a b => if a ≤ b then b else a),
      (0x05, fun a b => Nat.land a b), (0x06, fun a b => Nat.lor a b), (0x07, fun a b => Nat.xor a b),
      (0x09, fun a b => if 32 ≤ b % 256 then 0 else a * 2 ^ (b % 256) % 2 ^ 32),
      (0x0A, fun a b => if 32 ≤ b % 256 then 0 else a / 2 ^ (b % 256))] : List (Nat × (Nat → Nat → Nat))) →
    StepsGroup (.ialu c slot .none) s c slot
      (((lanesOf (execMask g (iFields w))).foldl (fun h l =>
        h.setV (iFields w).dest l (f (g.getV (iFields w).srcA l) (g.getV (iFields w).srcB l))) g).next 8)

/-- Branches, calls, returns, NOP and SREG move the group where their rules say (03 R91, 04 R142, 04 R160, 04 R172, 04 R173); it takes in choices of the model: log 58, 90. -/
def Obligations.ThreadControlFlow : Prop :=
  ∀ (s : State) (c : Fin 192) (slot : Fin 64) (g : Group) (w : Word), s.Canon → s.Issuable c slot g w →
    let f := iFields w
    let cond : Half := if f.pinv then ~~~g.getP f.pred else g.getP f.pred
    let target : Nat := wrapI 48 ((g.pc : Int) + 8 * sx 21 (fld w 20 0))
    (fld w 63 57 = 0x00 → fld w 52 0 = 0 → StepsGroup (.nop c slot) s c slot (g.next 8)) ∧
    (fld w 63 57 = 0x30 → fld w 28 21 = 0 → f.dest = 0 → f.srcA = 0 → f.srcB = 0 →
      StepsGroup (.braAny c slot) s c slot (if cond &&& g.live ≠ 0 then g.goto target else g.next 8)) ∧
    (fld w 63 57 = 0x30 → fld w 28 21 = 1 → f.dest = 0 → f.srcA = 0 → f.srcB = 0 →
      StepsGroup (.braAll c slot) s c slot (if g.live &&& ~~~cond = 0 then g.goto target else g.next 8)) ∧
    (fld w 63 57 = 0x30 → fld w 28 21 = 2 → f.dest = 0 → f.srcA < 64 → f.srcB = 0 → f.pred = 7 →
      (s.core c).blocked slot [256 + f.srcA] = 0 →
      StepsGroup (.braU c slot) s c slot (if (g.getU f.srcA ≠ 0) ↔ f.pinv = false then g.goto target else g.next 8)) ∧
    (fld w 63 57 = 0x31 → fld w 28 21 = 0 → f.srcA = 0 → f.srcB = 0 → f.dest < 64 → f.dest % 2 = 0 →
      (s.core c).blocked slot [256 + f.dest, 257 + f.dest] = 0 →
      StepsGroup (.call c slot) s c slot
        (if cond &&& g.live ≠ 0 then
          ((g.setU f.dest ((g.pc + 8) % 2 ^ 48 % 2 ^ 32)).setU (f.dest + 1) ((g.pc + 8) % 2 ^ 48 / 2 ^ 32)).goto target
        else g.next 8)) ∧
    (fld w 63 57 = 0x32 → fld w 28 0 = 0 → f.dest = 0 → f.srcB = 0 → f.srcA < 64 → f.srcA % 2 = 0 →
      (s.core c).blocked slot [256 + f.srcA, 257 + f.srcA] = 0 →
      (g.getU f.srcA + 2 ^ 32 * g.getU (f.srcA + 1)) % 8 = 0 →
      StepsGroup (.ret c slot) s c slot
        (if cond &&& g.live ≠ 0 then g.goto (g.getU f.srcA + 2 ^ 32 * g.getU (f.srcA + 1)) else g.next 8)) ∧
    (fld w 63 57 = 0x0F → sregOk g w = true → (fmtA w).minor = 0 → (s.core c).blocked slot [f.dest] = 0 →
      StepsGroup (.sreg c slot) s c slot
        (((lanesOf (execMask g f)).foldl (fun h l => h.setV f.dest l l) g).next 8))

/-- Conversions and scratchpad loads, stores and atomics do what their rules say, lane by lane (03 R99, 03 R100, 03 R101, 04 R155, 04 R156, 04 R161, 04 R162, 04 R164, 04 R167); it takes in choices of the model: log 29, 30, 90. -/
def Obligations.ScratchpadInstructions : Prop :=
  ∀ (s : State) (c : Fin 192) (slot : Fin 64) (g : Group) (w : Word), s.Canon → s.Issuable c slot g w →
    let k := s.core c
    let f := iFields w
    let m := fmtM w
    let v := cvtFields w
    let mask := execMask g f
    let size := sizeBytes m.size
    let n := sizeRegs size
    let addr := scratchAddr g f m
    let base := (k.alloc g).1
    let inside (l sz : Nat) : Prop := addr l % sz = 0 ∧ addr l + sz ≤ (k.alloc g).2
    let rel (lanes : List Nat) : Bool := (m.ord = 2 || m.ord = 3) && !lanes.isEmpty
    let clean (l sz : Nat) : Prop := inside l sz ∧ k.scratchBad (base + addr l) sz = false
    (fld w 63 57 = 0x0D → cvtOk g w = true → k.blocked slot ((opd v.ud f.dest 1).regs ++ (opd v.ua f.srcA 1).regs) = 0 →
      Issues (.cvt c slot) s c slot (s.setCore c ((if v.rnd = 2 then k.advance slot mask else k).setGroup slot
        (some ((g.write (opd v.ud f.dest 1) mask (fun l => cvtVal v (k.cvtMode v slot l)
          (g.read (opd v.ua f.srcA 1) l) (g.read (opd v.ud f.dest 1) l))).next 8))))) ∧
    (fld w 63 57 = 0x20 → lsOk g f m true true = true → k.blocked slot ((opd m.ud f.dest n).regs ++ (opd m.ua f.srcA 1).regs) = 0 →
      (∀ l ∈ actLanes mask m.ud, clean l size) → k.drainHolds slot (actLanes mask m.ud) (fun l => base + addr l) size = false →
      StepsGroup (.lds c slot .none) s c slot
        ((g.write (opd m.ud f.dest n) mask (fun l => loadValue m.op size (k.scratch.bytes (base + addr l) size))).next 8)) ∧
    (fld w 63 57 = 0x21 → lsOk g f m false true = true → k.blocked slot ((opd m.ud f.srcB n).regs ++ (opd m.ua f.srcA 1).regs) = 0 →
      (∀ l ∈ lanesOf mask, inside l size) →
      let k' := (lanesOf mask).foldl (fun k l => k.scratchWrite (base + addr l) (leBytes size (g.read (opd m.ud f.srcB n) l))) k
      Issues (.sts c slot) s c slot
        (s.setCore c ((if rel (lanesOf mask) then k'.release 1 else k').setGroup slot (some (g.next 8))))) ∧
    (fld w 63 57 = 0x24 → atomOk g f m true = true →
      let n := if m.wide then 2 else 1
      let dest := opd m.ud f.dest n
      let src := opd m.ud f.srcB n
      k.blocked slot (dest.regs ++ src.regs ++ (opd m.ua f.srcA 1).regs) = 0 →
      (∀ l ∈ actLanes mask m.ud, clean l (4 * n)) → k.drainHolds slot (actLanes mask m.ud) (fun l => base + addr l) (4 * n) = false →
      let done := scratchAtomics k.scratch (fun l => base + addr l) (4 * n) (fun l old =>
        (old, atomicOp m.op m.aty (8 * (4 * n)) old (g.read src l) (g.read dest l) (freeFor (Config.free s.freeCount) l 0)))
        (actLanes mask m.ud)
      let k' := { k with scratch := done.1 }
      Issues (.atoms c slot .none) s c slot (s.setCore c ((if rel (actLanes mask m.ud) then k'.release 1 else k').setGroup slot
        (some ((g.write dest mask (fun l => (SMap.get none done.2 l).getD 0)).next 8)))))

/-- Global loads, stores and atomics go out once every lane is translated, aligned and clean (04 R161, 04 R162, 04 R165, 04 R167, 04 R168, 09 R334, 09 R336, 09 R339, 09 R355); it takes in choices of the model: log 1, 54, 90, 97. -/
def Obligations.DeviceMemoryInstructions : Prop :=
  ∀ (s : State) (c : Fin 192) (slot : Fin 64) (g : Group) (w : Word), s.Canon → s.Issuable c slot g w →
    let k := s.core c
    let f := iFields w
    let m := fmtM w
    let mask := execMask g f
    let size := sizeBytes m.size
    let n := sizeRegs size
    let addr := globalAddr g f m
    let ctx := k.groupCtx g
    let from_ := k.groupLaunch g
    let rel := (m.ord = 2 || m.ord = 3) && !(lanesOf mask).isEmpty
    let acq := m.ord = 1 || m.ord = 3
    let wide := acq && decide (2 ≤ m.scope)
    (fld w 63 57 = 0x22 → lsOk g f m true false = true → k.blocked slot ((opd m.ud f.dest n).regs ++ (opd m.ua f.srcA 2).regs) = 0 →
      let lanes := actLanes mask m.ud
      (∀ l ∈ lanes, addr l % size = 0) →
      ∀ (pas : List LanePa) (u v v' : State) (acc : LoadAcc) (want : List (Nat × Nat)),
      s.xlateLanes c (s.viewOf from_ ctx) lanes addr needR = (pas, [], u) →
      (∀ p ∈ pas, u.placeOf p.pa ≠ .remote) →
      (u.core c).behindDevice (pas.filter (fun p => p.region = 2)) = false →
      u.pci.reqs.length + (pas.filter (fun p => u.placeOf p.pa = .host)).length ≤ 768 →
      u.loadLanes c g ctx size m wide pas = (acc, v) → acc.bad = [] →
      v.hostLanes c slot g ctx size m pas = (want, v') →
      let t := if wide && !lanes.isEmpty then v'.updCore c Core.acquire else v'
      let ld : Load := {
        slot := slot, dest := f.dest, regs := n, uni := m.ud, mask := mask, vals := acc.vals, want := want, bad := 0,
        fill := (if wide then [] else acc.fill), keySlot := u.keySlotOf (u.viewOf from_ ctx) (addr (lanes.headD 0)),
        first := decide (m.hint = 2), acq := (if wide then 2 else if acq then 1 else 0), pc := g.pc, turn := (t.core c).turns + 1,
        op := m.op, size := size, lanes := t.lanesOut pas, again := true }
      let k' := if lanes.isEmpty then t.core c else { t.core c with loads := (t.core c).loads ++ [ld] }
      Issues (.ldg c slot) s c slot (t.setCore c (k'.setGroup slot (some (g.next 8))))) ∧
    (fld w 63 57 = 0x23 → lsOk g f m false false = true → k.blocked slot ((opd m.ud f.srcB n).regs ++ (opd m.ua f.srcA 2).regs) = 0 →
      (∀ l ∈ lanesOf mask, addr l % size = 0) →
      ∀ (pas : List LanePa) (u : State), s.xlateLanes c (s.viewOf from_ ctx) (lanesOf mask) addr needW = (pas, [], u) →
      (rel && !u.released c m.scope) = false →
      (rel && decide (m.scope = 4) && (u.core c).lost.contains slot) = false →
      let k' := if rel then (u.core c).release m.scope else u.core c
      let entry (p : LanePa) : StoreEntry :=
        u.storeEntry slot (k'.turns + 1) from_ ctx m (leBytes size (g.read (opd m.ud f.srcB n) p.lane)) p
      let stores := pas.foldl (fun l p => putStore l (entry p)) k'.stores
      stores.length ≤ 64 →
      Issues (.stg c slot) s c slot
        (u.setCore c ({ k' with stores := stores, l1 := u.l1Stored entry pas k'.l1 }.setGroup slot (some (g.next 8))))) ∧
    (fld w 63 57 = 0x25 → atomOk g f m false = true →
      let n := if m.wide then 2 else 1
      let dest := opd m.ud f.dest n
      let src := opd m.ud f.srcB n
      let lanes := actLanes mask m.ud
      let rel := (m.ord = 2 || m.ord = 3) && !lanes.isEmpty
      k.blocked slot (dest.regs ++ src.regs ++ (opd m.ua f.srcA 2).regs) = 0 →
      (∀ l ∈ lanes, addr l % (4 * n) = 0) →
      ∀ (pas : List LanePa) (u v v' : State) (olds : SMap (Option Nat)),
      s.xlateLanes c (s.viewOf from_ ctx) lanes addr needRW = (pas, [], u) → (∀ p ∈ pas, u.placeOf p.pa = .localMem) →
      (u.core c).behindDevice pas = false →
      u.atomPoison c from_ ctx (4 * n) m.hint pas = ([], v) → (rel && !v.released c m.scope) = false →
      (rel && decide (m.scope = 4) && (v.core c).lost.contains slot) = false →
      (pas.any (fun p => v.inPool (paOffset p.pa) (4 * n))) = false →
      { v with freeCount := v.freeCount + 1 }.atomLanes c from_ ctx (4 * n) m.hint (fun l old =>
        (old, atomicOp m.op m.aty (8 * (4 * n)) old (g.read src l) (g.read dest l) (freeFor (Config.free v.freeCount) l 0))) pas =
        (olds, v') →
      let k1 := if rel then (v'.core c).release m.scope else v'.core c
      let k2 := if wide && !lanes.isEmpty then k1.acquire else k1
      let ld := v'.atomLoad c slot g f.dest n m.ud mask (4 * n) (if wide then 2 else if acq then 1 else 0) olds pas
      let k' := if lanes.isEmpty then k2 else { k2 with loads := k2.loads ++ [ld] }
      Issues (.atomg c slot) s c slot (v'.setCore c (k'.setGroup slot (some (g.next 8)))))

/-- ATOM.ACQ and ATOM.REL take and give back lock words lane by lane, at the core or at the home slice (03 R104, 03 R106, 03 R107, 03 R109, 04 R169); it takes in choices of the model: log 30, 90. -/
def Obligations.LockInstructions : Prop :=
  ∀ (s : State) (c : Fin 192) (slot : Fin 64) (g : Group) (w : Word) (acq : Bool), s.Canon → s.Issuable c slot g w →
    let k := s.core c
    let f := iFields w
    let m := fmtM w
    let mask := execMask g f
    let lanes := lanesOf mask
    let ctx := k.groupCtx g
    let from_ := k.groupLaunch g
    let i : Instr := if acq then .atomAcq c slot else .atomRel c slot
    let op (l old : Nat) : Nat × Nat :=
      if acq then lockAcquire old ctx c slot l (g.read (opd false f.srcB 1) l) else lockRelease old ctx c slot l
    fld w 63 57 = 0x26 → fld w 23 21 = (if acq then 0 else 1) → lockOk g f m = true →
    k.blocked slot ((opd false f.dest 1).regs ++ (opd m.ua f.srcA (if m.aty = 0 then 1 else 2)).regs ++ (if acq then [f.srcB] else [])) = 0 →
    (m.aty = 0 →
      let addr := scratchAddr g f m
      let base := (k.alloc g).1
      (∀ l ∈ lanes, addr l % 8 = 0 ∧ addr l + 8 ≤ (k.alloc g).2 ∧ k.scratchBad (base + addr l) 8 = false) →
      k.drainHolds slot lanes (fun l => base + addr l) 8 = false →
      let done := scratchAtomics k.scratch (fun l => base + addr l) 8 op lanes
      let got := done.2.filterMap (fun (e : Nat × Option Nat) => e.2)
      let k' := { k with scratch := done.1 }
      let g' := { g.write (opd false f.dest 1) mask (fun l => (SMap.get none done.2 l).getD 0) with
        selfLock := selfLockNext acq g.selfLock got }
      Issues i s c slot (s.setCore c ((if !acq && got.contains 3 then k'.release 1 else k').setGroup slot (some (g'.next 8))))) ∧
    (m.aty = 1 →
      let addr := globalAddr g f m
      (∀ l ∈ lanes, addr l % 8 = 0) →
      ∀ (pas : List LanePa) (u v v' : State) (codes : SMap (Option Nat)),
      s.xlateLanes c (s.viewOf from_ ctx) lanes addr needRW = (pas, [], u) → (∀ p ∈ pas, u.placeOf p.pa = .localMem) →
      (u.core c).behindDevice pas = false → u.atomPoison c from_ ctx 8 m.hint pas = ([], v) →
      (!acq && !lanes.isEmpty && !v.released c m.scope) = false →
      (!acq && !lanes.isEmpty && decide (m.scope = 4) && (v.core c).lost.contains slot) = false →
      (pas.any (fun p => v.inPool (paOffset p.pa) 8)) = false →
      v.atomLanes c from_ ctx 8 m.hint op pas = (codes, v') →
      let got := codes.filterMap (fun (e : Nat × Option Nat) => e.2)
      let k1 := if !acq && got.contains 3 then (v'.core c).release m.scope else v'.core c
      let granted := acq && got.contains 0
      let k2 := if granted && decide (2 ≤ m.scope) then k1.acquire else k1
      let ld := v'.atomLoad c slot g f.dest 1 false mask 8 (if !granted then 0 else if 2 ≤ m.scope then 2 else 1) codes pas
      let k' := if lanes.isEmpty then k2 else { k2 with loads := k2.loads ++ [ld] }
      Issues i s c slot (v'.setCore c
        (k'.setGroup slot (some ({ g with selfLock := selfLockNext acq g.selfLock got }.next 8)))))

/-- EXIT, barriers and fences: a group ends, arrives, waits and goes on as their rules say (03 R92, 03 R93, 03 R94, 03 R97, 04 R170, 04 R171, 04 R174, 04 R175, 09 R338, 09 R339); it takes in choices of the model: log 90. -/
def Obligations.ExitBarriersAndFences : Prop :=
  ∀ (s : State) (c : Fin 192) (slot : Fin 64) (g : Group) (w : Word), s.Canon → s.Issuable c slot g w →
    let k := s.core c
    let f := iFields w
    let left := g.live &&& ~~~execMask g f
    (fld w 63 57 = 0x33 → fld w 52 0 = 0 →
      (left ≠ 0 → StepsGroup (.exit c slot) s c slot { g.next 8 with live := left }) ∧
      (left = 0 →
        let u := (s.setGroup c slot { g.next 8 with live := left }).endGroup c slot
        Ends (.exit c slot) s c slot u ∧ (SMap.Canon (fun _ => none) k.groups → (u.core c).group slot = none))) ∧
    (∀ b, k.block g.block = some b → fld w 63 57 = 0x34 → f.pred = 7 → f.pinv = false → fld w 20 4 = 0 → f.dest = 0 → f.srcA = 0 →
      f.srcB = 0 →
      let n := fld w 3 0
      let wait : Group := { g with stat := .waiting, wait := 2, hold := false }
      let u := s.updCore c (fun k => k.release 1)
      (fld w 28 21 = 0 → Ends (.barSync c slot) s c slot
        ((u.setGroup c slot wait).barStep c g.block n (fun x => x.arrive slot s.now true))) ∧
      (fld w 28 21 = 1 → Ends (.barArrive c slot) s c slot
        ((u.setGroup c slot (if (b.bar n).arrived.contains (slot : Nat) then wait else g.next 8)).barStep c g.block n
          (fun x => x.arrive slot s.now false)))) ∧
    (∀ (x : Barrier) (sync : Bool), x.arrived.contains (slot : Nat) = false → x.again = [] →
      let y := (x.arrive slot s.now sync).settle s.now 2
      (x.arrived.length + 1 = x.expected →
        y = (⟨x.expected - x.dropNext, [], [], [], 0, none, none⟩, x.waiting ++ (if sync then [(slot : Nat)] else []))) ∧
      (x.arrived.length + 1 ≠ x.expected → y = (x.arrive slot s.now sync, []))) ∧
    (∀ (kind : Nat) (i : Instr), (kind, i) ∈ [(0, Instr.fenceFull c slot), (1, .fenceAcq c slot), (2, .fenceRel c slot)] →
      fld w 63 57 = 0x35 → fld w 25 24 = kind → fenceOk w = true → execMask g f ≠ 0 →
      let scope := fld w 28 26
      let nofault := bit w 23
      k.blocked slot (if nofault then [256 + f.dest] else []) = 0 →
      let waits := s.pointsPending c slot || (kind ≠ 1 && !s.released c scope) ||
        (kind ≠ 2 && decide (2 ≤ scope) && k.loads.any (fun l => l.slot = ↑slot && !l.want.isEmpty))
      let k1 := if kind ≠ 1 then k.release scope else k
      let k2 := if kind = 2 then k1 else if 2 ≤ scope then k1.acquire else k1.ordered slot
      let lost := kind ≠ 1 && decide (scope = 4) && k.lost.contains (slot : Nat)
      let k3 := { k2 with lost := k2.lost.filter (fun x => !decide (x = ↑slot)) }
      (waits = true → StepsTo i s (s.setCore c (k1.setGroup slot (some { g with stat := .waiting, wait := 4, hold := true })))) ∧
      (waits = false → lost = false →
        Issues i s c slot (s.setCore c (k2.setGroup slot (some ((if nofault then g.setU f.dest 0x00 else g).next 8))))) ∧
      (waits = false → lost = true → nofault = true →
        Issues i s c slot (s.setCore c (k3.setGroup slot (some ((g.setU f.dest 0x07).next 8))))) ∧
      (waits = false → lost = true → nofault = false →
        Ends i s c slot ((s.setCore c k3).faultGroup c slot 0x05 (execMask g f) 0)))

/-- The self-lock and barrier guards count, log and fault the groups they find past their limits (03 R98, 03 R109, 03 R121, 03 R123, 03 R124); it takes in choices of the model: log 59, 93. -/
def Obligations.GuardsStopStuckGroups : Prop :=
  ∀ (s : State) (c : Fin 192) (slot set : Fin 64) (n : Fin 16) (g : Group) (b : Block),
    ((s.core c).group slot = some g → (s.core c).block g.block = some b → g.fault = none →
      let limit := if b.lockGuard < 0x100 then 0x100 else b.lockGuard
      (limit ≤ g.selfLock → exec (.selfLock c slot) s =
        .next ((((s.guardFault c 2 slot 0).surveyTrigger 2 (clusterOf c)).faultGroup c slot 0x03 g.live 0).traceTrigger 2)) ∧
      (g.selfLock < limit → exec (.selfLock c slot) s = .next s)) ∧
    (∀ t e : Nat, (s.core c).block set = some b → (b.bar n).since = some t → (b.bar n).earliest = some e → b.stopped = false →
      let guard := if b.barGuard < 0x10000 then 0x10000 else b.barGuard
      (guard < 2 * (s.now - t) →
        let u := (s.guardFault c 1 e n).surveyTrigger 1 (clusterOf c)
        exec (.barrierStall c set n) s = .next ((((u.core c).groupList.filter (fun x => x.2.block = ↑set)).foldl
          (fun s x => s.faultGroup c x.1 0x04 x.2.live 0) u).traceTrigger 2)) ∧
      (2 * (s.now - t) ≤ guard → exec (.barrierStall c set n) s = .next s))

/-- TCOPY.GO takes the lowest free slot and TCOPY.WAIT goes on when the slots it names are done (03 R112, 03 R113, 03 R114, 03 R117, 04 R177); it takes in choices of the model: log 57, 90, 91. -/
def Obligations.TensorCopyInstructions : Prop :=
  ∀ (s : State) (c : Fin 192) (slot : Fin 64) (g : Group) (w : Word), s.Canon → s.Issuable c slot g w →
    let k := s.core c
    let f := iFields w
    let m := execMask g f
    let a := g.getU f.srcA
    let base := (k.alloc g).1
    let d := k.scratch.bytes (base + a) 64
    let t := tcopyOf d g.block base (k.alloc g).2 (k.groupCtx g) (k.groupLaunch g)
    fld w 63 57 = 0x36 → m ≠ 0 → f.srcA < 64 → fld w 20 0 = 0 → f.srcB = 0 →
    (fld w 28 21 = 0 → f.dest < 64 → k.blocked slot [256 + f.dest, 256 + f.srcA] = 0 → a % 64 = 0 → a + 64 ≤ (k.alloc g).2 →
      (tcopyOk d t = false → Ends (.tcopyGo c slot) s c slot (s.faultGroup c slot 0x0B m a)) ∧
      (tcopyOk d t = true → k.scratchBad (base + a) 64 = false →
        (∀ n < 8, (k.tslot n).isNone → (∀ j < n, (k.tslot j).isSome) →
          Issues (.tcopyGo c slot) s c slot (s.setCore c ({ k with tcopy := SMap.put none k.tcopy n (some t) }.setGroup slot
            (some ((g.setU f.dest n).next 8))))) ∧
        ((∀ n < 8, (k.tslot n).isSome) →
          Holds (.tcopyGo c slot) s c slot g 5))) ∧
    (fld w 28 21 = 1 → f.dest = 0 → k.blocked slot [256 + f.srcA] = 0 →
      let named := (List.range 8).filter (fun n => a.testBit n)
      let mine := named.filter (k.tmine g.block)
      ((∃ n ∈ named, k.tdone g.block n = false) →
        Holds (.tcopyWait c slot) s c slot g 5) ∧
      ((∀ n ∈ named, k.tdone g.block n = true) → (∀ n ∈ mine, ∀ t, k.tslot n = some t → t.fault = none) →
        StepsGroup (.tcopyWait c slot) s c slot (g.next 8)) ∧
      (∀ code, (∀ n ∈ named, k.tdone g.block n = true) → mine.findSome? (fun n => (k.tslot n).bind (fun t => t.fault)) = some code →
        Ends (.tcopyWait c slot) s c slot ((s.setCore c { k with tcopy := mine.foldl (fun t n => SMap.put none t n none) k.tcopy }).faultGroup
          c slot code m 0)))

/-- SEM.SIG, SEM.WAIT, SEM.DEC and SEM.READ act on a local semaphore and give the group their status (04 R176, 04 R178, 09 R353, 11 R421, 11 R422, 11 R423, 11 R427, 11 R428, 16 R561); it takes in choices of the model: log 90. -/
def Obligations.SemaphoreInstructions : Prop :=
  ∀ (s : State) (c : Fin 192) (slot : Fin 64) (g : Group) (w : Word) (n : Nat) (u : Upset), s.Canon → s.Issuable c slot g w →
    let k := s.core c
    let f := iFields w
    let count := g.getU f.srcB
    let tenant := s.tenantOf (k.groupCtx g)
    fld w 63 57 = 0x37 → execMask g f ≠ 0 → f.dest < 64 → f.srcA < 64 → fld w 20 0 = 0 →
    semOperand (g.getU f.srcA) = some (n, none) →
    let good := s.semState n = 1 ∧ s.fld (R.semCfg n) 59 54 = tenant
    let broken := s.semState n = 2 ∧ s.fld (R.semCfg n) 59 54 = tenant
    let foreign_ := s.semState n = 0 ∨ s.fld (R.semCfg n) 59 54 ≠ tenant
    (fld w 28 21 = 0 → f.srcB < 64 → k.blocked slot [256 + f.dest, 256 + f.srcA, 256 + f.srcB] = 0 → s.released c 3 = true →
      let t := (s.updCore c (fun k => k.release 3)).semUpset n u
      let r := t.semSignal n count (s.groupSignaller c g 1)
      Issues (.semSig c ⟨slot, u⟩) s c slot (r.2.setGroup c slot (((((r.2.core c).group slot).getD g).setU f.dest r.1).next 8)) ∧
      (broken → r.1 = stSemBroken) ∧ (u ≠ .lost → foreign_ → r.1 = stSemForeign) ∧
      (u ≠ .lost → good → 0 < count → s.semWaiters n = [] → s.semVal n + count < 2 ^ 48 → r.1 = stOk ∧ r.2.semVal n = s.semVal n + count) ∧
      (u = .lost → t.semState n = 2 ∧ t.semVal n = 0 ∧ t.rd (R.semLast n) = 0 ∧ t.semWaiters n = [] ∧
        (good → r.1 = stSemBroken))) ∧
    (fld w 28 21 = 0 → f.srcB < 64 → k.blocked slot [256 + f.dest, 256 + f.srcA, 256 + f.srcB] = 0 → s.released c 3 = false →
      StepsTo (.semSig c ⟨slot, u⟩) s (s.setCore c ((k.release 3).setGroup slot (some { g with stat := .waiting, wait := 4, hold := true })))) ∧
    (fld w 28 21 = 1 → f.srcB < 64 → k.blocked slot [256 + f.dest, 256 + f.srcA, 256 + f.srcB] = 0 →
      (good → count = 0 → Issues (.semWait c slot) s c slot
        (s.setCore c ((k.setGroup slot (some ((g.setU f.dest stOk).next 8))).acquire))) ∧
      (good → 0 < count → s.semWaiters n = [] → count ≤ s.semVal n → Issues (.semWait c slot) s c slot
        ((s.setFld (R.semValue n) 47 0 (s.semVal n - count)).setCore c
          ((k.setGroup slot (some ((g.setU f.dest stOk).next 8))).acquire))) ∧
      (good → 0 < count → (s.semWaiters n ≠ [] ∨ s.semVal n < count) → Issues (.semWait c slot) s c slot
        ((s.setWaiters n (s.semWaiters n ++ [⟨0, k.groupCtx g, 64 * c + slot, count, s.now, f.dest⟩])).setGroup c slot
          { g with stat := .waiting, wait := 6, hold := false })) ∧
      (foreign_ → Issues (.semWait c slot) s c slot
        ((s.count R.dbgSemForeignCount 32 1).setGroup c slot ((g.setU f.dest stSemForeign).next 8))) ∧
      (broken → StepsGroup (.semWait c slot) s c slot ((g.setU f.dest stSemBroken).next 8))) ∧
    (fld w 28 21 = 2 → f.srcB < 64 → k.blocked slot [256 + f.dest, 256 + f.srcA, 256 + f.srcB] = 0 →
      (good → count ≤ s.semVal n → Issues (.semDec c slot) s c slot
        ((s.setFld (R.semValue n) 47 0 (s.semVal n - count)).setCore c
          ((k.setGroup slot (some ((g.setU f.dest stOk).next 8))).acquire))) ∧
      (good → s.semVal n < count → Issues (.semDec c slot) s c slot
        ((s.count R.dbgSemUnderflowCount 32 1).setGroup c slot ((g.setU f.dest stSemUnderflow).next 8))) ∧
      (foreign_ → Issues (.semDec c slot) s c slot
        ((s.count R.dbgSemForeignCount 32 1).setGroup c slot ((g.setU f.dest stSemForeign).next 8))) ∧
      (broken → StepsGroup (.semDec c slot) s c slot ((g.setU f.dest stSemBroken).next 8))) ∧
    (fld w 28 21 = 3 → f.srcB = 0 → f.dest % 2 = 0 → k.blocked slot [256 + f.dest, 256 + f.srcA, 257 + f.dest] = 0 →
      (good ∨ broken → Issues (.semRead c slot) s c slot (s.setGroup c slot ((g.setUs f.dest 2 (s.semVal n)).next 8))) ∧
      (foreign_ → Issues (.semRead c slot) s c slot ((s.count R.dbgSemForeignCount 32 1).setGroup c slot ((g.setUs f.dest 2 0).next 8))))

/-- Remote SEM.SIG goes to a port controller, PTS.SUB joins its points unit, TRACE.MARK writes its record (04 R176, 04 R178, 04 R179, 04 R180, 06 R238, 06 R239, 11 R433, 19 R620, 19 R623); it takes in choices of the model: log 25, 42, 90, 102. -/
def Obligations.RemoteSignalsAndMarks : Prop :=
  ∀ (s : State) (c : Fin 192) (slot : Fin 64) (g : Group) (w : Word), s.Canon → s.Issuable c slot g w →
    let k := s.core c
    let f := iFields w
    let m := execMask g f
    m ≠ 0 → f.srcA < 64 →
    (∀ (n d : Nat) (u : Upset), fld w 63 57 = 0x37 → f.dest < 64 → fld w 20 0 = 0 → semOperand (g.getU f.srcA) = some (n, some d) →
      (fld w 28 21 = 0 → f.srcB < 64 → k.blocked slot [256 + f.dest, 256 + f.srcA, 256 + f.srcB] = 0 → s.released c 3 = true → d ≠ s.con.node →
        let s' := s.updCore c (fun k => k.release 3)
        let msg := s'.signalMsg (s.groupSignaller c g 1) d n (g.getU f.srcB)
        let cmd := ((s'.launch ((s'.core c).groupLaunch g)).map Launch.cmd).getD 0
        (∀ t, s'.mlnAccept msg c (s'.flowsOf cmd) = some t →
          Issues (.semSig c ⟨slot, u⟩) s c slot (t.setGroup c slot ((g.setU f.dest stOk).next 8))) ∧
        (s'.mlnAccept msg c (s'.flowsOf cmd) = none → StepsTo (.semSig c ⟨slot, u⟩) s (s'.holdAt c slot g 4))) ∧
      (fld w 28 21 = 2 → f.srcB < 64 → k.blocked slot [256 + f.dest, 256 + f.srcA, 256 + f.srcB] = 0 →
        Ends (.semDec c slot) s c slot (s.faultGroup c slot 0x01 m 0))) ∧
    (fld w 63 57 = 0x38 → fld w 28 21 = 0 → fld w 20 0 = 0 → f.dest < 64 → f.srcB < 64 →
      k.blocked slot [256 + f.dest, 256 + f.srcA, 256 + f.srcB] = 0 →
      let a := g.getU f.srcA
      let count := g.getU f.srcB
      let base := (k.alloc g).1
      let limit := (k.alloc g).2
      let rec_ := k.scratch.nat (base + a) 4
      let sco := k.scratch.nat (base + a + 4) 4
      let str := k.scratch.nat (base + a + 8) 4
      (∀ p, s.pts.steps.find? (fun p => p.launch = k.groupLaunch g) = some p →
        a % 16 = 0 → 1 ≤ count → count ≤ 4096 → a + 16 ≤ limit → rec_ % 32 = 0 → sco % 16 = 0 → str % 16 = 0 →
        p.dests * scoreBytes p.sfmt ≤ str → k.scratch.nat (base + a + 12) 4 = 0 → rec_ + 32 * count ≤ limit →
        sco + (count - 1) * str + p.dests * scoreBytes p.sfmt ≤ limit →
        (∀ i < count, recordOk (k.scratch.bytes (base + rec_ + 32 * i) 32) = true) → k.scratchBad (base + a) 16 = false →
        let u := s.unit (clusterOf c)
        let b : Submission := ⟨c, slot, g.block, k.groupLaunch g, k.groupCtx g, base + rec_, base + sco, str, count, 0, 0, f.dest⟩
        Issues (.ptsSub c slot) s c slot ((s.setUnit (clusterOf c) { u with subs := u.subs ++ [b] }).setGroup c slot
          { g with stat := .waiting, wait := 10, hold := false })) ∧
      (s.pts.steps.find? (fun p => p.launch = k.groupLaunch g) = none →
        Ends (.ptsSub c slot) s c slot (s.faultGroup c slot 0x0B m a))) ∧
    (fld w 63 57 = 0x39 → fld w 28 17 = 0 → f.dest = 0 → f.srcB = 0 → (bit w 16 = false → f.srcA = 0) →
      k.blocked slot (if bit w 16 then [256 + f.srcA] else []) = 0 →
      let r : TraceRec := ⟨0x01, 0, c, k.groupCtx g, (s.launchTag (k.groupLaunch g)).2, fld w 16 0, if bit w 16 then g.getU f.srcA else 0⟩
      let t := (s.setGroup c slot (g.next 8)).trace r
      Ends (.traceMark c slot) s c slot (if fld w 15 0 = t.fld R.dbgTraceTrigMark 15 0 then t.traceTrigger 3 else t))

/-- Fetched lines, returning loads, stores performed and expiring L1 lines change just what their rules say (03 R85, 04 R127, 04 R128, 04 R134, 09 R332, 09 R336, 09 R357, 09 R358); it takes in choices of the model: log 1, 97. -/
def Obligations.CoreMemoryEvents : Prop :=
  ∀ (s : State) (c : Fin 192), s.Canon →
    let k := s.core c
    (∀ (slot : Fin 64) (g : Group) (pc : Nat), k.group slot = some g → g.fetching = some pc → s.coreCut c = false →
      let ctx := s.viewOf (k.groupLaunch g) (k.groupCtx g)
      (∀ cause lv u, s.xlate (.core c) 0 ctx pc needX = (.fault cause lv, u) →
        exec (.icacheFill c slot) s = .next (u.fetchFault c slot (causeCode cause))) ∧
      (∀ pa region u, s.xlate (.core c) 0 ctx pc needX = (.ok pa region, u) → u.placeOf pa = .localMem →
        u.linkCut c (paOffset pa / 128 * 128) = true → exec (.icacheFill c slot) s = .next (u.fetchFault c slot 0x06)) ∧
      (∀ pa region u b t, s.xlate (.core c) 0 ctx pc needX = (.ok pa region, u) → u.placeOf pa = .localMem →
        u.linkCut c (paOffset pa / 128 * 128) = false →
        u.lineRead (paOffset pa / 128 * 128) 128 0 (u.keySlotOf ctx pc) (decide (region ≤ 1)) false = (b, false, t) →
        exec (.icacheFill c slot) s = .next (t.icachePut c (pc / 128) b))) ∧
    (∀ (n : Nat) (struct : Fin 32) (ld : Load) (g : Group), k.loads[n]? = some ld → ld.want = [] → s.coreCut c = false →
      let v := s.setCore c { k with loads := k.loads.eraseIdx n }
      let u := ld.fill.foldl (fun s line => s.l1Fill c line ld.keySlot ld.first) v
      (ld.bad = 0 → (u.core c).group ld.slot = some g → g.stopping = false → g.stopped = false → g.fault = none →
        let g' := g.write (opd ld.uni ld.dest ld.regs) ld.mask (fun l => (SMap.get none ld.vals l).getD 0)
        exec (.loadReturn c n struct .none) s = .next (u.setGroup c ld.slot
          (if g'.hold && (decide (g'.wait = 4) || decide (g'.wait = 1)) then { g' with stat := .ready, wait := 0 } else g'))) ∧
      (ld.bad ≠ 0 → (v.core c).group ld.slot = some g → g.stopping = false → g.stopped = false → g.fault = none →
        exec (.loadReturn c n struct .none) s = .next (v.loadFaults c ld))) ∧
    (∀ (n : Nat) (e : StoreEntry), k.stores[n]? = some e →
      ((k.stores.take n).any (fun x => s.storeBehind e x) = false → s.coreCut c = false → e.place = .localMem →
        exec (.storePerform c n) s =
          .next ((((s.updCore c (fun k => k.eraseStore n)).rled 5 1).performLocal c e).settleFaults c)) ∧
      ((k.stores.take n).any (fun x => s.storeBehind e x) = true → exec (.storePerform c n) s = .next s)) ∧
    (∀ line : Nat, ∃ t, exec (.l1LineExpire c line) s = .next t ∧ t = { s with cores := t.cores } ∧
      t.core c = { k with l1 := SMap.put none k.l1 line none } ∧ ∀ d : Nat, d ≠ c → t.core d = s.core d)

/-- A tensor copy slot moves its elements, then performs its completion actions and frees, or holds its fault (03 R115, 03 R116, 03 R118); it takes in choices of the model: log 57. -/
def Obligations.TensorCopySlots : Prop :=
  ∀ (s : State) (c : Fin 192) (n : Fin 8) (host : HostData) (t u : TSlot) (f : Option VmFault) (r : State),
    (s.core c).tslot n = some t → t.fault = none → (s.hostIn host).tcopyRun c n t t.turns = (u, f, r) →
    let left := decide (u.pos < (u.xfer r c).total) || r.awaitsRead (.tcopy c n)
    (f = none → left = true → exec (.tcopySlotComplete c n host) s = .next r.hostOut) ∧
    (f = none → left = false → ∀ v, r.tcopyActions c n u = some v → exec (.tcopySlotComplete c n host) s = .next v.hostOut) ∧
    (f = none → left = false → u.flags = 0 → exec (.tcopySlotComplete c n host) s = .next (r.setTslot c n none).hostOut) ∧
    (f.isSome → exec (.tcopySlotComplete c n host) s = .next (s.hostIn host).hostOut) ∧
    (∀ code cause x, f = some (.code code cause) →
      let v := r.dropReads (.tcopy c n)
      (v.core c).tslot n = some x →
        (x.block ≠ 64 → exec (.tcopySlotFault c n host .none) s =
          .next (v.setTslot c n (some { x with fault := x.fault.or (some code) })).hostOut) ∧
        (x.block = 64 → exec (.tcopySlotFault c n host .none) s =
          .next ((v.setTslot c n none).launchFault x.launch code 0).hostOut)) ∧
    exec (.tcopySlotFault c n host .lost) s =
      .next ((((s.hostIn host).detect 2 c 0 .lost).consumedPoison).tcopyFails c n t (.code 0x06 0)).hostOut

/-- MX.ISSUE, MX.DRAIN, MV.ISSUE and MX.WAIT queue their operations, wait for room, or report a fault (04 R140, 04 R181, 04 R182, 04 R183, 04 R185, 04 R186, 05 R191, 05 R193, 05 R195); it takes in choices of the model: log 27, 28, 90. -/
def Obligations.MatrixInstructions : Prop :=
  ∀ (s : State) (c : Fin 192) (slot : Fin 64) (g : Group) (w w2 : Word), s.Canon → s.Issuable c slot g w →
    let k := s.core c
    let f := iFields w
    let m := execMask g f
    let n := fld w2 56 54
    let limit := (k.alloc g).2
    let view := s.viewOf (k.groupLaunch g) (k.groupCtx g)
    let two := k.word (g.pc + 8) = some w2 ∧ fld w2 63 57 = 0x7F
    let reported (i : Instr) (named : Nat → Bool) : Prop := ∀ x, k.mx.faults.find? (fun x => decide (x.group = ↑slot) && named x.slot) = some x →
      Ends i s c slot ((s.setCore c { k with mx := { k.mx with
        faults := k.mx.faults.filter (fun y => !(decide (y.group = ↑slot) && named y.slot)) } }).faultGroup c slot x.code m 0)
    let none_ (named : Nat → Bool) : Prop := k.mx.faults.find? (fun x => decide (x.group = ↑slot) && named x.slot) = none
    let waits (i : Instr) : Prop := Holds i s c slot g 7
    m ≠ 0 →
    (fld w 63 57 = 0x40 → two → xOk w [f.srcA, f.srcB, f.srcC] = true → f.dest = 0 → fld w2 38 0 = 0 → fld w2 42 41 ≠ 3 →
      fmtKnown (fld w2 52 48) = true → fmtKnown (fld w2 47 43) = true → k.blocked slot [256 + f.srcA, 256 + f.srcB, 256 + f.srcC] = 0 →
      reported (.mxIssue c slot) (fun i => i = n) ∧
      (none_ (fun i => i = n) →
        firstCode ((descrAddr (g.getU f.srcA) limit).toList ++ (descrAddr (g.getU f.srcB) limit).toList) = none →
        rateClass (fld w2 52 48) (fld w2 47 43) ≠ none → g.getU f.srcC % 16 = 0 → 0 < g.getU f.srcC → g.getU f.srcC ≤ 2 ^ 20 →
        (fld w2 42 41 = 2 → g.getU f.srcC % 64 = 0) →
        let t := k.newTile g slot w w2
        (4 ≤ k.mx.queue.length → waits (.mxIssue c slot)) ∧
        (k.mx.queue.length < 4 → t.fault.isSome → Issues (.mxIssue c slot) s c slot (s.setCore c
          ({ k with mx := { k.mx with queue := k.mx.queue ++ [t], nextOrder := k.mx.nextOrder + 1 } }.setGroup slot (some (g.next 16))))) ∧
        (∀ p u, k.mx.queue.length < 4 → t.fault = none → s.readProduct c view limit t.product = (p, u) →
          Issues (.mxIssue c slot) s c slot (u.setCore c ({ u.core c with mx := { (u.core c).mx with
            queue := (u.core c).mx.queue ++ [{ t with a := p.a, b := p.b }], nextOrder := (u.core c).mx.nextOrder + 1 } }.setGroup slot (some (g.next 16))))))) ∧
    (fld w 63 57 = 0x41 → two → xOk w ([f.srcB, f.srcC] ++ (if bit w2 53 then [] else [f.dest])) = true → fld w2 40 0 = 0 → outFmt (fld w2 52 48) = true → fld w2 47 46 ≠ 3 →
      ¬(fld w2 52 48 = 9 ∧ fld w2 47 46 = 2) →
      (if bit w2 53 then fld w2 52 48 ≠ 8 ∧ f.srcA = 0 ∧ f.dest + bandRegs (fld w2 52 48) ≤ g.decl else f.srcA < 64) →
      k.blocked slot (if bit w2 53 then (List.range (bandRegs (fld w2 52 48))).map (f.dest + ·) else [256 + f.srcA]) = 0 →
      reported (.mxDrain c slot) (fun i => i = n) ∧
      (none_ (fun i => i = n) →
        (bit w2 53 = false → g.getU f.srcA % 128 = 0 ∧ g.getU f.srcA + 768 * elemBits (fld w2 52 48) ≤ limit) →
        (8 ≤ k.mx.drains.length → waits (.mxDrain c slot)) ∧
        (k.mx.drains.length < 8 → Issues (.mxDrain c slot) s c slot (s.setCore c
          ({ k with mx := { k.mx with
            drains := k.mx.drains ++ [k.newDrain g slot w w2], nextOrder := k.mx.nextOrder + 1 } }.setGroup slot
              (some (if bit w2 53 then { g with stat := .waiting, wait := 7, hold := false } else g.next 16))))))) ∧
    (fld w 63 57 = 0x43 → two → xOk w [f.srcA, f.srcB, f.srcC, f.dest] = true → fld w2 31 0 = 0 → fld w2 43 42 ≠ 3 →
      fmtKnown (fld w2 53 49) = true → fmtKnown (fld w2 48 44) = true → outFmt (fld w2 39 35) = true → fld w2 34 33 ≠ 3 →
      ¬(fld w2 39 35 = 9 ∧ fld w2 34 33 = 2) → k.blocked slot [256 + f.srcA, 256 + f.srcB, 256 + f.srcC, 256 + f.dest] = 0 →
      reported (.mvIssue c slot) (fun i => i = 8) ∧
      (none_ (fun i => i = 8) →
        firstCode ((descrAddr (g.getU f.srcA) limit).toList ++ (descrAddr (g.getU f.srcB) limit).toList) = none →
        g.getU f.dest % 128 = 0 → rateClass (fld w2 53 49) (fld w2 48 44) ≠ none →
        let o := k.newMv g slot w w2
        (3 ≤ k.mx.mv.length → waits (.mvIssue c slot)) ∧
        (k.mx.mv.length < 3 → o.fault.isSome → Issues (.mvIssue c slot) s c slot (s.setCore c
          ({ k with mx := { k.mx with mv := k.mx.mv ++ [o] } }.setGroup slot (some (g.next 16))))) ∧
        (∀ o' u, k.mx.mv.length < 3 → o.fault = none → s.readProducts c view limit o = (o', u) →
          Issues (.mvIssue c slot) s c slot (u.setCore c ({ u.core c with mx := { (u.core c).mx with
            mv := (u.core c).mx.mv ++ [o'] } }.setGroup slot (some (g.next 16))))))) ∧
    (fld w 63 57 = 0x3A → fld w 28 21 = 0 → fld w 20 9 = 0 → f.dest = 0 → f.srcA = 0 → f.srcB = 0 →
      let busy := (List.range 8).any (fun i => bit w i && k.mx.pending i) || (bit w 8 && k.mx.mv.any (fun o => o.group = ↑slot))
      reported (.mxWait c slot) (fun i => bit w i) ∧
      (none_ (fun i => bit w i) → busy = true → waits (.mxWait c slot)) ∧
      (none_ (fun i => bit w i) → busy = false → StepsGroup (.mxWait c slot) s c slot (g.next 8)))

/-- Tiles, drains and matrix-vector operations run in order, and each completion changes just its results (05 R196, 05 R197, 05 R200, 05 R202, 05 R203, 05 R209, 05 R212, 05 R214, 05 R215); it takes in choices of the model: log 1, 23, 28. -/
def Obligations.MatrixEngine : Prop :=
  ∀ (s : State) (c : Fin 192), s.Canon →
    let k := s.core c
    let r := Config.free s.freeCount
    let becomes (i : Instr) (k' : Core) : Prop := ∃ u, exec i s = .next u ∧ u.core c = k' ∧ (∀ d : Nat, d ≠ c → u.core d = s.core d) ∧
      u = { s with cores := u.cores, regs := u.regs, freeCount := u.freeCount, dbg := { s.dbg with sat := u.dbg.sat } } ∧
      ∀ off, isCounter off = false → off ∉ [R.coreMxStep c, R.coreMxTiles c, R.coreMvBytes c, R.coreZskipSlices c] → u.rd off = s.rd off
    (∀ t rest, k.mx.queue = t :: rest → k.mx.flight.length < 4 → t.early = none →
      becomes (.tileStart c) { k with mx := { k.mx with queue := rest, flight := k.mx.flight ++ [t] } }) ∧
    (∀ t rest, k.mx.flight = t :: rest → k.mx.drainsFirst t = false → t.fails = none →
      becomes (.tileComplete c) { k with mx :=
        { k.mx with flight := rest, acc := t.result k.mx.acc t.product.units r, accPoison := t.marks k.mx.accPoison } } ∧
      ((s.rd (R.coreMxTiles c)).toNat + 1 < 2 ^ 64 →
        ∃ u, exec (.tileComplete c) s = .next u ∧ u.rd (R.coreMxTiles c) = s.rd (R.coreMxTiles c) + 1#64)) ∧
    (∀ i d, findPos (fun d => d.reading.isNone && d.fault.isNone) k.mx.drains = some i → k.mx.drains[i]? = some d →
      k.mx.tilesFirst d = false →
      let read := d.cells.takeWhile (fun a => !SMap.get false k.mx.accPoison a)
      let vals := read.map (fun a => (SMap.get 0 k.mx.acc a).toNat)
      let zeroed := if d.keep then k.mx.acc else read.foldl (fun a n => SMap.put 0 a n 0) k.mx.acc
      (read.length = d.cells.length → becomes (.drainStart c .none) { k with mx := { k.mx with
        drains := k.mx.drains.set i { d with reading := some vals }, acc := zeroed } }) ∧
      (read.length < d.cells.length → becomes (.drainStart c .none) (d.stopped { k with mx := { k.mx with
        drains := k.mx.drains.set i { d with fault := some 0x06 }, acc := zeroed } } vals (r / 2 ^ 32)))) ∧
    (∀ d rest vals, k.mx.drains = d :: rest → d.reading = some vals →
      let q := (d.codes k vals).2
      let k' := { q with mx := { q.mx with drains := rest } }
      (d.target = 0 → becomes (.drainComplete c)
        (k'.scratchWrite (d.base + d.addr) (packBits (elemBits d.ofmt) (d.codes k vals).1))) ∧
      (∀ g, d.target ≠ 0 → k.group d.group = some g → becomes (.drainComplete c)
        ((k'.setGroup d.group (some (d.toRegs g (d.codes k vals).1))).drainOver d))) ∧
    (∀ o rest, k.mx.mv = o :: rest → o.fails k = none →
      (o.started = false → becomes (.mvStart c) { k with mx := { k.mx with mv := { o with started := true } :: rest } }) ∧
      (o.started = true → becomes (.mvComplete c)
        ({ k with mx := { k.mx with mv := rest } }.scratchWrite o.out (o.output k r)))) ∧
    (∀ t code, k.mx.flight.find? (fun t => t.fails.isSome) = some t → t.fails = some code →
      let m := Matrix.fault { k.mx with flight := k.mx.flight.erase t } t.slot t.group t.block code
      becomes (.matrixFault c .array) { k with mx :=
        { m with acc := t.result m.acc t.product.badUnit r, accPoison := t.marks m.accPoison } }) ∧
    (∀ t code, k.mx.flight.find? (fun t => t.fails.isSome) = none → k.mx.queue.find? (fun t => t.early.isSome) = some t →
      t.early = some code →
      becomes (.matrixFault c .array) { k with mx := Matrix.fault { k.mx with queue := k.mx.queue.erase t } t.slot t.group t.block code }) ∧
    (∀ d code, k.mx.drains.find? (fun d => d.fault.isSome) = some d → d.fault = some code →
      becomes (.matrixFault c .drain) 
        (Core.drainOver { k with mx := Matrix.fault { k.mx with drains := k.mx.drains.erase d } d.slot d.group d.block code } d)) ∧
    (∀ o rest code, k.mx.mv = o :: rest → o.fails k = some code →
      let k' := { k with mx := Matrix.fault { k.mx with mv := rest } 8 o.group o.block code }
      let b := o.output k' (r / 2 ^ 96)
      (o.started = false → becomes (.matrixFault c .path) k') ∧
      (o.started = true → becomes (.matrixFault c .path) (k'.scratchLines o.out b (r % 2 ^ 32 % (b.length / 128 + 1)))))

/-- Launches start, place their blocks in order, end their blocks and complete; switched cores let their groups go (03 R80, 03 R121, 05 R210, 09 R352, 10 R390, 10 R391, 10 R392, 10 R393, 10 R405, 14 R518, 14 R519, 14 R521); it takes in choices of the model: log 20, 52, 53, 92, 96. -/
def Obligations.LaunchesAndBlocks : Prop :=
  (∀ (t : Fin 128) (host : HostData) (s u r : State) (th : Thread) (x y : Launch) (rest : Option Launch) (more : List Launch),
    let h := s.hostIn host
    h.thread t = some th → th.queue = x :: more → h.turn x = true → h.headLaunch th.view x = (.inl (some (y, rest)), r) →
    u = r.setThread t (some { th with queue := rest.toList ++ more }) →
    (y.blocks = 0 →
      let none_ := { y with stop := some (0, 0) }
      let b := u.beginLaunch none_
      exec (.launchStart t host) s = .next (b.launchOver (b.dsp.nextLaunch - 1) none_).hostOut) ∧
    (∀ code, y.blocks ≠ 0 → u.neverFits y = some code →
      exec (.launchStart t host) s = .next (u.beginLaunch { y with stop := some (0x05, 0x300 + code) }).hostOut) ∧
    (y.blocks ≠ 0 → u.neverFits y = none → (u.placeFor y).isSome → (u.launchLane y).isSome →
      exec (.launchStart t host) s = .next (u.beginLaunch y).hostOut) ∧
    (∀ q, y.blocks ≠ 0 → u.neverFits y = none → (u.placeFor y).isSome → u.launchLane y = none →
      h.olderFirst { y with order := h.dsp.nextOrder } = false → h.sharePick h.dsp.eligibleL h.launchers = (some y.ctx, q) →
      let v := (h.launchers.foldl (fun (r : State) m => r.setVtime m (q.vtime m)) u).beginLaunch y
      exec (.launchStart t host) s = .next (State.hostOut { v with dsp := { v.dsp with eligibleL := h.launchers } }))) ∧
  (∀ (s : State) (l : Nat) (x : Launch) (n c : Nat) (r : Room), s.launch l = some x → x.unplaced = true → s.olderFirst x = false →
    s.placeFor x = some (n, c, r) → s.shut n c = false → exec (.blockPlace l) s = .next (s.placeBlock l x n c r)) ∧
  (∀ (s : State) (c : Fin 192), s.Canon → (s.core c).switching = true →
    ∃ t, exec (.coreSwitchEnd c) s = .next t ∧ t = { s with cores := t.cores } ∧ (∀ d : Nat, d ≠ c → t.core d = s.core d) ∧
      (t.core c).switching = false ∧ (SMap.Canon (fun _ => none) (s.core c).groups → ∀ slot g, (s.core c).group slot = some g →
        (t.core c).group slot = some (if g.wait = 12 then { g with stat := .ready, wait := 0, hold := false } else g))) ∧
  (∀ (s : State) (c : Fin 192) (set : Fin 64) (b : Block), (s.core c).block set = some b →
    (∀ e ∈ (s.core c).groupList, e.2.block = set → (s.core c).live e.1 e.2 = false) → (s.core c).mx.busyFor set = false →
    (∀ e ∈ (s.core c).late, e.set ≠ set) → (b.stopped = true ∨ s.pointsOf c set = false) →
    let fault := if b.stopped || b.fault.isSome then none else (s.core c).unreported set
    let u := s.dropWhere (fun r => decide (r.core = c) && decide (r.set = set)) (fun x => decide (x.core = c) && decide (x.set = set))
    let v := (u.endCopies c set b).blockGone c set b
    (fault = none → exec (.blockEnd c set) s = .next v) ∧
    (∀ code, fault = some code → exec (.blockEnd c set) s = .next (v.launchFault b.launch code 0))) ∧
  (∀ (s : State) (l : Nat) (x : Launch), s.launch l = some x → x.quiet = true → s.launchSettled l = true →
    let u := (s.setLaunch l none).mapCores (fun _ k => { k with
      launches := k.launches.filter (fun y => !decide (y = l)),
      tcopy := k.tcopy.filter (fun e => match e.2 with | some t => decide (t.launch ≠ l) | none => false) })
    exec (.launchComplete l) s = .next
      ((if x.result.1 = 0 then u else u.stopCmd x.cmd x.result.1 x.result.2.1 x.result.2.2).settleCmd x.cmd)) ∧
  (∀ (s : State) (l : Nat),
    let late := ∃ e ∈ s.cores, ∃ b ∈ e.2.blockList, b.2.launch = l ∧ b.2.due ≠ 0 ∧ b.2.due - 1 ≤ s.now
    (late → exec (.borrowOverrun l) s = .next (s.stopLaunch l 0x02 0x03)) ∧ (¬late → exec (.borrowOverrun l) s = .next s))

/-- A group of a placed block starts at the launch's entry with its indices, arguments and lanes (03 R82, 03 R83, 14 R518). -/
def Obligations.GroupsStartAsLaunched : Prop :=
  ∀ (x : Launch) (set index block : Nat) (switching : Bool), index < 32 →
    let g := startGroup x set index block switching
    g.pc = x.entry % 2 ^ 48 ∧ g.block = set ∧ g.index = index ∧ g.decl = x.vregs ∧ g.fault = none ∧ g.selfLock = 0 ∧
    g.getU 0 = block % x.gx % 2 ^ 32 ∧ g.getU 1 = block / x.gx % x.gy % 2 ^ 32 ∧ g.getU 2 = block / (x.gx * x.gy) % 2 ^ 32 ∧
    g.getU 3 = index ∧ g.getU 4 = x.groups % 2 ^ 32 ∧ g.getU 5 = x.args % 2 ^ 32 ∧ g.getU 6 = nfld x.args 47 32 ∧
    (∀ r, 7 ≤ r → g.getU r = 0) ∧ (∀ l < 32, g.getV 0 l = 32 * index + l) ∧ (∀ r l, 0 < r → l < 32 → g.getV r l = 0) ∧
    (∀ r < 7, g.getP r = 0) ∧ (∀ l < 32, g.live.getLsbD l = decide (32 * index + l < x.threads)) ∧
    (switching = false → g.stat = .ready ∧ g.wait = 0) ∧ (switching = true → g.stat = .waiting ∧ g.wait = 12)

/-- A points unit reads records in turn, places or drops their choices, and steps close; TKT_FLUSH writes records back (06 R240, 06 R241, 06 R242, 06 R246, 06 R247, 06 R251, 06 R263); it takes in choices of the model: log 14, 60, 95, 96. -/
def Obligations.PointsUnitsAndTickets : Prop :=
  (∀ (s t : State) (u : Fin 16) (b : Submission) (rest : List Submission) (p : RouteStep) (w : List Byte) (badW : Bool),
    (s.unit u).subs = b :: rest → (s.unit u).queue.length < 512 → s.stepOf b.launch = some p →
    let k := s.core b.core
    let a := b.records + 32 * b.next
    s.memRead (s.sideAddr (k.scratch.nat (a + 0xC) 4 % 2 ^ 20)) 4 3 0 true = (w, badW, t) →
    let bad := badW || k.scratchBad a 32 || k.scratchBad (b.scores + b.next * b.stride) (scoreBytes p.sfmt * p.dests)
    let exited := (leNat w).testBit 13
    let refused := bad || decide (leNat w % 4096 ≠ b.ctx) || !(leNat w).testBit 12
    let b' := { b with next := b.next + 1, accepted := if refused || exited then b.accepted else b.accepted + 1 }
    let v := if b.count ≤ b.next + 1 then ((t.poisonIf bad).setUnit u { s.unit u with subs := rest }).endSubmission b'
      else (t.poisonIf bad).setUnit u { s.unit u with subs := rest ++ [b'] }
    (refused = true → exec (.pointsRecordRead u .none) s = .next (v.setStep { p with foreign_ := p.foreign_ + 1 })) ∧
    (refused = false → exited = true → exec (.pointsRecordRead u .none) s = .next (v.setStep { p with excluded := p.excluded + 1 })) ∧
    (refused = false → exited = false → exec (.pointsRecordRead u .none) s = .next (v.acceptRecord u p b k))) ∧
  (∀ (s : State) (u : Fin 16) (r : RankedRec) (rest : List RankedRec) (p : RouteStep) (c : Choice) (cs : List Choice),
    (s.unit u).queue = r :: rest → s.stepOf r.launch = some p → r.primary = c :: cs →
    let policy := fld (s.platCfg c.plat) 47 46
    (∀ t, s.tryPlace u p r c false = .placed t → exec (.choicePlace u) s = .next (t.afterChoice u r cs rest r.alts)) ∧
    (∀ t, s.tryPlace u p r c false = .fault t →
      exec (.choicePlace u) s = .next ((t.dropChoice u r c.plat .fault).afterChoice u r cs rest r.alts)) ∧
    (s.tryPlace u p r c false = .wait → exec (.choicePlace u) s = .next s) ∧
    (s.tryPlace u p r c false = .full →
      (policy = 1 → exec (.choicePlace u) s = .next ((s.deferChoice u p r c).afterChoice u r cs rest r.alts)) ∧
      (policy = 2 → exec (.choicePlace u) s = .next ((s.dropChoice u r c.plat .full).afterChoice u r cs rest r.alts)) ∧
      (∀ alts t, policy = 0 ∨ policy = 3 → s.tryAlts u p r c.plat [] r.alts = some (alts, t) →
        exec (.choicePlace u) s = .next (t.afterChoice u r cs rest alts)))) ∧
  (∀ (s : State) (l : Nat) (x : Launch), s.launch l = some x →
    (x.quiet = true → exec (.stepClose l) s = .next (s.closeStep l)) ∧ (x.quiet = false → exec (.stepClose l) s = .next s)) ∧
  (∀ (s : State) (fn : Fin 64), s.Serves fn R.tktFlush true → exec (.tktFlush fn) s = .next s.tktFlushAll)

/-- A walk runs the stages of a translation in order; an invalidation empties every TLB of what it names, then ends (08 R304, 08 R308, 08 R318, 08 R321, 08 R322, 08 R328); it takes in choices of the model: log 1, 57, 97, 98. -/
def Obligations.TranslationAndInvalidation : Prop :=
  (∀ (q : WalkFor) (cls : Fin 8) (ctx : Fin 4096) (va : Nat) (p : Perm) (host : HostData) (s : State),
    let h := s.hostIn host
    let v := h.viewNow ctx
    (h.segmentOf v va = none →
      exec (.pageWalk q cls ctx va p host) s = .next (h.logXlat q.req.walker 0x1 0 cls v va).hostOut) ∧
    (∀ cfg, h.segmentOf v va = some cfg → segGrants cfg p.need = false →
      exec (.pageWalk q cls ctx va p host) s = .next (h.logXlat q.req.walker 0x2 0 cls v va).hostOut) ∧
    (∀ cfg, h.segmentOf v va = some cfg → segGrants cfg p.need = true →
      let tag := if bit cfg 44 then 4096 else v % 4096
      let u := h.tlbMisses q.req tag va
      (∀ e, h.tlbHit q.req tag va = some e → u.frameCause cfg (e.pa + (va - e.va)) = 0 →
        exec (.pageWalk q cls ctx va p host) s = .next u.hostOut) ∧
      (∀ e lv t, h.tlbHit q.req tag va = none → u.walk q.req.walker v va (bit cfg 44) = (.inl e, lv, t) →
        (t.tlbFill q.req e).frameCause cfg (e.pa + (va - e.va)) = 0 →
        exec (.pageWalk q cls ctx va p host) s = .next (t.tlbFill q.req e).hostOut) ∧
      (∀ cause lv t, h.tlbHit q.req tag va = none → u.walk q.req.walker v va (bit cfg 44) = (.inr cause, lv, t) →
        exec (.pageWalk q cls ctx va p host) s = .next (t.logXlat q.req.walker cause lv cls v va).hostOut))) ∧
  (∀ (s : State) (fn : Fin 64), s.Canon → s.Serves fn R.trnInvCmd true →
    let i : Inval := ⟨if s.flag R.trnInvCtx 12 then 4096 else s.fld R.trnInvCtx 11 0, s.fld R.trnInvVa 47 12 * 4096, s.fld R.trnInvPages 35 0, []⟩
    let i : Inval := { i with waits := s.cores.flatMap (fun e => (e.2.translated i).map (fun t => (e.1, t))) }
    (s.flag R.trnStatus 3 = true → exec (.tlbInvalidate fn) s = .next (s.setFlag R.trnStatus 2)) ∧
    (s.flag R.trnStatus 3 = false → exec (.tlbInvalidate fn) s =
      .next (let u := (s.invalidate i).setFlag R.trnStatus 3; { u with trn := { u.trn with inval := some i } }))) ∧
  (∀ (s : State) (i : Inval), s.Canon → SMap.Canon (fun _ => []) s.trn.cluster → let u := s.invalidate i
    (∀ c, (u.core c).tlb = (s.core c).tlb.filter (fun e => !i.hits e.tag e.va e.size)) ∧
    u.trn.hub = s.trn.hub.filter (fun e => !i.hits e.tag e.va e.size) ∧
    (∀ n, SMap.get [] u.trn.cluster n = (SMap.get [] s.trn.cluster n).filter (fun e => !i.hits e.tag e.va e.size)) ∧
    u = { s with cores := u.cores, trn := u.trn } ∧ ∀ c, u.core c = { s.core c with tlb := (u.core c).tlb }) ∧
  (∀ (s : State) (i : Inval), s.trn.inval = some i →
    ((∀ w ∈ i.waits, (s.core w.1).holdsTurn w.2 = false) →
      exec .invalidateDone s = .next ({ s with trn := { s.trn with inval := none } }.clrFlag R.trnStatus 3)) ∧
    ((∃ w ∈ i.waits, (s.core w.1).holdsTurn w.2 = true) → exec .invalidateDone s = .next s))

/-- Range and set/way maintenance act where their conditions hold, and show why they did not where they do not (09 R364, 09 R365, 09 R366); it takes in choices of the model: log 72, 98. -/
def Obligations.CacheMaintenance : Prop :=
  (∀ (s : State) (fn : Fin 64) (l1Only : Bool) (i : Instr) (o : MaintOp),
    (i, o) ∈ [(Instr.maintClean fn l1Only, (⟨true, false, l1Only⟩ : MaintOp)), (.maintInvalidate fn l1Only, ⟨false, true, l1Only⟩),
      (.maintCleanInvalidate fn l1Only, ⟨true, true, l1Only⟩)] → s.Serves fn (R.cchMaintCmd fn) true →
    let st := R.cchMaintStatus fn
    let ctx := s.fld (R.cchMaintCtx fn) 11 0
    (s.flag st 0 = true → exec i s = .next (s.setFlag st 1)) ∧
    (s.flag st 0 = false → s.tenantOf ctx ≠ fn → exec i s = .next (s.setFlag st 3)) ∧
    (∀ skipped u, s.flag st 0 = false → s.tenantOf ctx = fn →
      s.maintRange o (s.viewNow ctx) (s.fld (R.cchMaintVa fn) 47 0) (s.fld (R.cchMaintLen fn) 47 0) = (skipped, u) →
      exec i s = .next (if skipped then (u.setFlag st 0).setFlag st 2 else u.setFlag st 0))) ∧
  (∀ (s : State) (fn : Fin 64), exec (.maintDone fn) s = .next (s.clrFlag (R.cchMaintStatus fn) 0)) ∧
  (∀ (s : State) (all : Bool) (die : Fin 2) (slice : Fin 32) (set : Fin 1024) (way : Fin 16) (i : Instr) (o : MaintOp),
    (i, o) ∈ [(Instr.setwayClean 0 all die slice set way, (⟨true, false, false⟩ : MaintOp)),
      (.setwayInvalidate 0 all die slice set way, ⟨false, true, false⟩),
      (.setwayCleanInvalidate 0 all die slice set way, ⟨true, true, false⟩)] → s.Serves 0 R.cchSetwayCmd true →
    (s.flag R.cchStatus 0 = true ∨ (all = false ∧ 767 < (set : Nat)) → exec i s = .next (s.setFlag R.cchStatus 1)) ∧
    (s.flag R.cchStatus 0 = false → (all = true ∨ (set : Nat) ≤ 767) → exec i s =
      .next (((s.setwayLines all die slice set way).foldl (fun t n => t.setwayLine o n) s).setFlag R.cchStatus 0))) ∧
  (∀ (s : State) (fn : Fin 64) (all : Bool) (die : Fin 2) (slice : Fin 32) (set : Fin 1024) (way : Fin 16), (fn : Nat) ≠ 0 →
    s.reach fn R.cchSetwayCmd true = .refused → ∀ i ∈ [Instr.setwayClean fn all die slice set way, .setwayInvalidate fn all die slice set way,
      .setwayCleanInvalidate fn all die slice set way], exec i s = .next ((s.denied fn).setFlag (R.cchMaintStatus fn) 3)) ∧
  (∀ s : State, exec .setwayDone s = .next (s.clrFlag R.cchStatus 0)) ∧
  (∀ (m : MemSys) (n : Nat) (x : L2Line), SMap.Canon (fun _ => (0 : Byte)) m.dram → SMap.Canon (fun _ => none) m.l2 →
    m.line n = some x → x.dirty = true → x.bytes.length = 128 → m.stackCut n = false →
    let t := m.cleanLine n
    (∀ j < 128, t.dram.read (128 * n + j) = x.bytes.getD j 0) ∧
    (∀ a, a < 128 * n ∨ 128 * n + 128 ≤ a → t.dram.read a = m.dram.read a) ∧
    t.line n = some { x with dirty := false } ∧ ∀ k, k ≠ n → t.line k = m.line k)

/-- A doorbell moves its queue's tail or head, or shows why it did not; QUE_CFG starts a queue empty and stops its fetching (10 R371, 10 R373, 10 R374, 10 R375, 10 R388, 10 R409, 10 R419, 10 R420); it takes in choices of the model: log 19. -/
def Obligations.QueueDoorbellsAndEnabling : Prop :=
  (∀ (s : State) (fn : Fin 64) (q : Fin 16384) (size : Fin 9) (v : Word), s.fnExists fn = true → SMap.get false s.pci.d3 fn = false →
    2 ≤ s.fld R.conStatus 3 0 → s.drained = false → s.boot.stopped = false →
    let n := s.sqSize q
    let m := s.cqSize q
    let head := s.fld (R.queSqHead q) 15 0
    let old := s.fld (R.queCqHead q) 15 0
    ((size : Nat) ≠ 8 → exec (.sqTail fn q size v) s = .next (s.count R.pciDbMalformed 32 1) ∧
      exec (.cqHead fn q size false v) s = .next (s.count R.pciDbMalformed 32 1)) ∧
    ((size : Nat) = 8 → s.qFunc q ≠ fn → exec (.sqTail fn q size v) s = .next (s.count R.dspDbForeign 32 1) ∧
      exec (.cqHead fn q size false v) s = .next (s.count R.dspDbForeign 32 1)) ∧
    ((size : Nat) = 8 → s.qFunc q = fn →
      (s.qEnable q = true → v.toNat < n → s.unfetched q ≤ (v.toNat + n - head) % n →
        exec (.sqTail fn q size v) s = .next (s.wr (R.queSqTail q) v)) ∧
      (s.qEnable q = false ∨ n ≤ v.toNat ∨ (v.toNat + n - head) % n < s.unfetched q →
        exec (.sqTail fn q size v) s = .next (s.setFlag (R.queStatus q) 6)) ∧
      (s.qEnable q = true → v.toNat < m → (v.toNat + m - old) % m ≤ (s.fld (R.queCqTail q) 15 0 + m - old) % m →
        exec (.cqHead fn q size false v) s = .next (s.wr (R.queCqHead q) v)) ∧
      (s.qEnable q = false ∨ m ≤ v.toNat ∨ (s.fld (R.queCqTail q) 15 0 + m - old) % m < (v.toNat + m - old) % m →
        exec (.cqHead fn q size false v) s = .next (s.setFlag (R.queStatus q) 6)))) ∧
  (∀ (s : State) (fn : Fin 64) (q : Fin 16384) (size : Fin 9) (v : Word), s.Serves fn (R.queCqHead q) true →
    exec (.cqHead fn q size true v) s = .next (s.cqHead q v)) ∧
  (∀ (s : State) (fn : Fin 64) (q : Fin 16384) (v : Word), s.Canon → s.Serves fn (R.queCfg q) true →
    (s.qEnable q = true ∨ v.getLsbD 63 = false → exec (.queueEnable fn q v) s = .next s) ∧
    (s.qEnable q = false → v.getLsbD 63 = true → 0 < s.qInflight q ∨ s.queCfgOk q v = false →
      exec (.queueEnable fn q v) s = .next (s.setFlag (R.queStatus q) 7)) ∧
    (s.qEnable q = false → v.getLsbD 63 = true → s.qInflight q = 0 → s.queCfgOk q v = true →
      ∃ t, exec (.queueEnable fn q v) s = .next t ∧ t.rd (R.queCfg q) = v &&& 0xFFFF003F1F1F007F ∧ t.rd (R.queSqTail q) = 0 ∧
        t.rd (R.queSqHead q) = 0 ∧ t.rd (R.queCqTail q) = 0x10000 ∧ t.rd (R.queCqHead q) = 0 ∧ t.rd (R.queInflight q) = 0 ∧
        t.rd (R.queCompleted q) = 0 ∧ t.rd (R.queLost q) = 0 ∧
        (∀ off, off ∉ [R.queCfg q, R.queSqTail q, R.queSqHead q, R.queCqTail q, R.queCqHead q, R.queInflight q, R.queCompleted q,
          R.queLost q] → t.rd off = s.rd off) ∧
        t = { s.setQueue q ⟨0, [], none, none, 0⟩ with regs := t.regs })) ∧
  (∀ (s : State) (fn : Fin 64) (q : Fin 16384), s.Canon → s.Serves fn (R.queCfg q) true →
    let u := s.clrFlag (R.queCfg q) 63
    (s.qEnable q = false → exec (.queueDisable fn q) s = .next s) ∧
    (s.qEnable q = true → s.flag (R.queStatus q) 4 = false → exec (.queueDisable fn q) s = .next u) ∧
    (s.qEnable q = true → s.flag (R.queStatus q) 4 = true →
      let gone := (s.queue q).overflow.toList ++ (s.queue q).done
      let w := (u.setQueue q { s.queue q with overflow := none, done := [] }).clrFlag (R.queStatus q) 4
      exec (.queueDisable fn q) s =
        .next (((gone.foldl (fun t id => t.dropCmd q id) w).count (R.queLost q) 32 gone.length).rled 11 gone.length))) ∧
  (∀ (s : State) (fn : Fin 64) (q : Fin 16384) (size : Fin 9) (v : Word), s.fnExists fn = false → 2 ≤ s.fld R.conStatus 3 0 →
    s.drained = false → s.boot.stopped = false →
    exec (.sqTail fn q size v) s = .next s.aerLog ∧ exec (.cqHead fn q size false v) s = .next s.aerLog) ∧
  (∀ (s : State) (fn : Fin 64) (q : Fin 16384), s.Serves fn (R.queStatus q) true →
    exec (.sqFaultClear fn q) s = .next (s.clrFlag (R.queStatus q) 5)) ∧
  (∀ (s : State) (fn : Fin 64) (on : Bool), s.Serves fn R.dspControl true →
    exec (.hold fn on) s = .next (s.wr R.dspControl (if on then 1 else 0)))

/-- ENTRY_FETCH takes the next entry of an eligible queue and checks it; a failed fetch shows SQ_FAULT (10 R375, 10 R379, 10 R380, 14 R525, 14 R528); it takes in choices of the model: log 49, 50, 53, 56. -/
def Obligations.EntriesAreFetchedAndChecked : Prop :=
  (∀ (s : State) (q : Fin 16384) (data : BitVec 512) (e : HostEnd),
    let u := s.serve q
    let a := (u.rd (R.queSqBase q)).toNat + 64 * u.fld (R.queSqHead q) 15 0
    let held (words : List Nat) : Bool := u.holding && !switchLets words
    let wordsOf (b : List Byte) : List Nat := (List.range 8).map (fun i => leNat ((b.drop (8 * i)).take 8))
    let before (r : Nat) : Prop := s.qRank r < s.qRank q ∨ (s.qRank r = s.qRank q ∧ s.qTurn r < s.qTurn q)
    (s.mayFetch q = false → exec (.entryFetch q data e) s = .next s) ∧
    ((∃ r ∈ s.enabledQueues, before r ∧ s.mayFetch r = true) → exec (.entryFetch q data e) s = .next s) ∧
    (s.mayFetch q = true → (∀ r ∈ s.enabledQueues, before r → s.mayFetch r = false) →
      (u.flag (R.queCfg q) 60 = true →
        (e = .ok → held (wordsOf (leBytes 64 data.toNat)) = false →
          exec (.entryFetch q data e) s = .next (u.takeEntry q (wordsOf (leBytes 64 data.toNat)))) ∧
        (e = .ok → held (wordsOf (leBytes 64 data.toNat)) = true → exec (.entryFetch q data e) s = .next u) ∧
        (e ≠ .ok → exec (.entryFetch q data e) s = .next ((u.hostError (u.qFunc q) 0 0 a e).sqFault q))) ∧
      (u.flag (R.queCfg q) 60 = false → localEnd < a + 64 → exec (.entryFetch q data e) s = .next (u.sqFault q)) ∧
      (∀ b bad t, u.flag (R.queCfg q) 60 = false → a + 64 ≤ localEnd → u.memRead a 64 2 0 true = (b, bad, t) →
        (bad = true → exec (.entryFetch q data e) s = .next (t.consumedPoison.sqFault q)) ∧
        (bad = false → exec (.entryFetch q data e) s = .next (t.takeWords q b))))) ∧
  (∀ (s : State) (q : Nat) (words : List Nat),
    let c := s.entryOf q words
    let t := s.fetched q
    let foreign : Prop := usesContext c.opcode = true ∧ (t.tenantOf c.ctx ≠ t.qFunc q ∨ t.ctxState c.ctx = 0 ∨ t.ctxState c.ctx = 3)
    let retiring : Prop := usesContext c.opcode = true ∧ t.ctxState c.ctx = 2
    let late : Prop := t.qSched q = true ∧ laneOpcode c.opcode = true ∧ c.deadline = 0
    let put (x : Cmd) (u : State) : State := u.setCmd s.dsp.nextCmd (some x)
    (c.illegal (t.qAdmin q) = true → s.takeEntry q words = (put c t).endCmd s.dsp.nextCmd 0x05 (mkDetail 0xFFFF 0 0x07)) ∧
    (c.illegal (t.qAdmin q) = false → foreign → s.takeEntry q words = (put c t).endCmd s.dsp.nextCmd 0x04 (mkDetail 0xFFFF 0 0x10)) ∧
    (c.illegal (t.qAdmin q) = false → ¬ foreign → retiring →
      s.takeEntry q words = (put c (t.count (R.ctxAborted c.ctx) 32 1)).endCmd s.dsp.nextCmd 0x06 (mkDetail 0xFFFF 0 0)) ∧
    (c.illegal (t.qAdmin q) = false → ¬ foreign → ¬ retiring → late →
      s.takeEntry q words = (put c t).endCmd s.dsp.nextCmd 0x01 (mkDetail 0xFFFF 0 0x4)) ∧
    (c.illegal (t.qAdmin q) = false → ¬ foreign → ¬ retiring → ¬ late →
      (usesContext c.opcode = true → s.takeEntry q words = put { c with number := (t.rd (R.ctxEpochFetched c.ctx)).toNat + 1 }
        (t.count (R.ctxEpochFetched c.ctx) 64 1)) ∧
      (usesContext c.opcode = false → s.takeEntry q words = put c t)))

/-- NOP, SIGNAL, WAIT, FENCE and RETIRE entries start in ring order and end as their opcodes say; an entry ends once (10 R376, 10 R379, 11 R425, 11 R427, 14 R527, 14 R528); it takes in choices of the model: log 51, 55. -/
def Obligations.SimpleEntries : Prop :=
  (∀ (s : State) (id op : Nat) (c : Cmd) (i : Instr),
    (i, op) ∈ [(Instr.nopEntry id, 0), (.signalEntry id, 3), (.waitEntry id, 4), (.fenceEntry id, 6), (.contextRetire id, 7)] →
    s.cmd id = some c → c.opcode = op → (c.stage ≠ .held ∨ s.mayStart c = false) → exec i s = .next s) ∧
  (∀ (s : State) (c : Cmd), s.mayStart c = true ↔ ∀ e ∈ s.cmdList, e.2.queue = c.queue → e.2.index < c.index →
    e.2.stage = .ended ∨ (e.2.started = true ∧ e.2.pipe = true ∧ e.2.opcode ≠ 4)) ∧
  (∀ (s : State) (id : Nat) (c : Cmd), s.cmd id = some c → c.stage = .held → s.mayStart c = true →
    let t := s.startCmd id c
    let sem := c.op0 % 2 ^ 16
    let node := nfld c.op0 23 16
    let there := c.op0.testBit 31 && decide (node ≠ s.con.node)
    let ended (u : State) (st d : Nat) : Host.Outcome State Fault Refusal := .next (u.endCmd id st d)
    (c.opcode = 0 → exec (.nopEntry id) s = ended t 0 (mkDetail 0xFFFF 0 0)) ∧
    (c.opcode = 3 →
      (∀ st u, there = false → t.semSignal sem c.op1 (t.cmdSignaller c) = (st, u) → exec (.signalEntry id) s = ended u st (mkDetail 0xFFFF 6 0)) ∧
      (∀ u, there = true → t.mlnAccept (t.signalMsg (t.cmdSignaller c) node sem c.op1) 192 [] = some u →
        exec (.signalEntry id) s = ended u 0 (mkDetail 0xFFFF 6 0)) ∧
      (there = true → t.mlnAccept (t.signalMsg (t.cmdSignaller c) node sem c.op1) 192 [] = none → exec (.signalEntry id) s = .next s)) ∧
    (c.opcode = 4 →
      (c.op0.testBit 31 = true → node ≠ t.con.node → exec (.waitEntry id) s = ended t 0x05 (mkDetail 0xFFFF 0 0x01)) ∧
      (∀ r u x, (c.op0.testBit 31 && decide (node ≠ t.con.node)) = false →
        t.semWait sem (t.tenantOf c.ctx) ⟨2, c.ctx, id, c.op1, t.now, 0⟩ = (r, u) →
        (∀ st, r = some st → exec (.waitEntry id) s = ended u st (mkDetail 0xFFFF 6 0)) ∧
        (r = none → u.cmd id = some x → exec (.waitEntry id) s = .next (u.setCmd id (some { x with waiting := true }))))) ∧
    (c.opcode = 6 →
      ((∀ e ∈ s.cmdList, e.2.queue = c.queue → e.2.index < c.index → e.2.stage = .ended) →
        exec (.fenceEntry id) s = ended t 0 (mkDetail 0xFFFF 0 0)) ∧
      ((∃ e ∈ s.cmdList, e.2.queue = c.queue ∧ e.2.index < c.index ∧ e.2.stage ≠ .ended) → exec (.fenceEntry id) s = .next s)) ∧
    (c.opcode = 7 → let n := c.op0 % 4096
      let mine : Prop := t.ctxState n ≠ 0 ∧ (t.qFunc c.queue = 0 ∨ t.tenantOf n = t.qFunc c.queue)
      (n = c.ctx → exec (.contextRetire id) s = ended t 0x05 (mkDetail 0xFFFF 0 0x07)) ∧
      (n ≠ c.ctx → ¬ mine → exec (.contextRetire id) s = ended t 0x04 (mkDetail 0xFFFF 0 0x10)) ∧
      (n ≠ c.ctx → mine → t.ctxState n = 3 → exec (.contextRetire id) s = ended t 0 (t.fld (R.ctxRetireEpoch n) 31 0)) ∧
      (∀ r, n ≠ c.ctx → mine → t.ctxState n ≠ 3 → t.retire? n = some r →
        exec (.contextRetire id) s = .next (t.setRetire n (some { r with cmds := r.cmds ++ [id] }))) ∧
      (n ≠ c.ctx → mine → t.ctxState n ≠ 3 → t.retire? n = none → exec (.contextRetire id) s = .next (t.beginRetire n [id])))) ∧
  (∀ (s : State) (id st d : Nat) (c : Cmd), s.Canon → s.cmd id = some c → c.stage ≠ .ended → c.refused = none →
    let t := s.endCmd id st d
    let x := { c with stage := .ended, started := true, start := if c.started || c.lane.isSome then c.start else s.now, endT := s.now }
    t.cmd id = some { x with outcome := some ⟨st, d⟩, waiting := false } ∧
    (t.queue c.queue).done = (s.queue c.queue).done ++ [id] ∧ (∀ n, n ≠ id → t.cmd n = s.cmd n) ∧
    t = { s with regs := t.regs, dsp := t.dsp, ras := t.ras, freeCount := t.freeCount }) ∧
  (∀ (s : State) (id st d : Nat) (c : Cmd), s.cmd id = some c → c.stage = .ended → s.endCmd id st d = s)

/-- A queue's completions are written in the order of their ends, one at a time, and count once they are in memory (10 R385, 10 R386, 10 R387, 10 R388). -/
def Obligations.CompletionsAreWrittenInOrder : Prop :=
  (∀ (s : State) (q : Fin 16384),
    let x := s.queue q
    (x.done = [] ∨ x.writing.isSome = true ∨ s.flag (R.queStatus q) 4 = true ∨ s.boot.stopped = true → exec (.completionWrite q) s = .next s) ∧
    (∀ id rest, x.done = id :: rest → x.writing = none → s.flag (R.queStatus q) 4 = false → s.boot.stopped = false →
      exec (.completionWrite q) s = .next ((s.setQueue q { x with done := rest }).cqWrite q id))) ∧
  (∀ (s : State) (q id : Nat) (c : Cmd), s.cmd id = some c →
    let a := (s.rd (R.queCqBase q)).toNat + 32 * s.fld (R.queCqTail q) 15 0
    let b := s.cqBytes q c
    (s.flag (R.queCfg q) 59 = false → s.cqWrite q id = (s.memWrite a b 2 0 true).cqWritten q id) ∧
    (s.flag (R.queCfg q) 59 = true →
      let t := s.busWrite (s.qFunc q) a b
      s.cqWrite q id = t.setQueue q { t.queue q with writing := some id })) ∧
  (∀ (s : State) (q : Fin 16384) (e : HostEnd),
    ((s.queue q).writing = none → exec (.completionReadback q e) s = .next s) ∧
    (∀ id, (s.queue q).writing = some id →
      let t := s.setQueue q { s.queue q with writing := none }
      let a := (t.rd (R.queCqBase q)).toNat + 32 * t.fld (R.queCqTail q) 15 0 + 24
      let u := (t.hostError (t.qFunc q) 0 0 a e).setFlag (R.queStatus q) 4
      let w := u.setQueue q { u.queue q with overflow := some id }
      (e = .ok → exec (.completionReadback q e) s = .next (t.cqWritten q id)) ∧
      (∀ c o, e ≠ .ok → w.cmd id = some c → c.outcome = some o →
        exec (.completionReadback q e) s = .next (w.raiseEvent q c.evt c.cookie 1 o.status)))) ∧
  (∀ (s : State) (fn : Fin 64) (q : Fin 16384), s.Serves fn (R.queStatus q) true →
    let t := (s.clrFlag (R.queStatus q) 4).setQueue q
      { s.queue q with overflow := none, owed := (s.queue q).overflow.toList.length + (s.queue q).done.length }
    (s.flag (R.queStatus q) 4 = false → exec (.cqRetry fn q) s = .next s) ∧
    (∀ id, s.flag (R.queStatus q) 4 = true → (s.queue q).overflow = some id → exec (.cqRetry fn q) s = .next (t.cqWrite q id)) ∧
    (s.flag (R.queStatus q) 4 = true → (s.queue q).overflow = none → exec (.cqRetry fn q) s = .next t)) ∧
  (∀ (s : State) (q : Fin 16384) (id : Nat) (c : Cmd), s.Canon → s.cmd id = some c → c.event = false →
    let old := s.rd (R.queCqTail q)
    let next := (fld old 15 0 + 1) % s.cqSize q
    let t := s.cqWritten q id
    t.cmd id = none ∧ (∀ n, n ≠ id → t.cmd n = s.cmd n) ∧ t.fld (R.queCqTail q) 15 0 = next % 2 ^ 16 ∧
    (t.flag (R.queCqTail q) 16 = if next = 0 then !old.getLsbD 16 else old.getLsbD 16))

/-- CTX_CFG moves a context between its states as R515 allows; seeds, a census and a retirement act on it (14 R513, 14 R514, 14 R515, 14 R524, 14 R528, 07 R279); it takes in choices of the model: log 47, 48. -/
def Obligations.ContextsComeAndGo : Prop :=
  (∀ (s : State) (fn : Fin 64) (n : Fin 4096) (tenant : Fin 64) (weight : Fin 65536) (i : Instr) (v : Word),
    (i, v) ∈ [(Instr.contextActivate fn n tenant weight, BitVec.ofNat 64 (2 ^ 62 + (tenant : Nat) % 64 * 2 ^ 56 + (weight : Nat) % 2 ^ 16)),
      (.contextWeightChange fn n weight, BitVec.ofNat 64 (2 ^ 62 + s.tenantOf n * 2 ^ 56 + (weight : Nat) % 2 ^ 16)),
      (.contextFree fn n, 0)] → s.Serves fn (R.ctxCfg n) true → exec i s = .next (s.ctxCfgWrite n v)) ∧
  (∀ (s : State) (n : Fin 4096) (v : Word),
    let st := s.fld (R.ctxCfg n) 63 62
    let wanted := fld v 63 62
    let starts := st = 0 ∧ wanted = 1 ∧ fld v 15 0 ≠ 0 ∧ s.fnExists (fld v 61 56) = true
    let again := st = 1 ∧ wanted = 1 ∧ fld v 15 0 ≠ 0 ∧ fld v 61 56 = s.tenantOf n
    let frees := st = 3 ∧ wanted = 0
    (starts → let u := (s.wr (R.ctxCfg n) (BitVec.ofNat 64 (2 ^ 62 + fld v 61 56 * 2 ^ 56 + fld v 15 0))).zeroCounters n
      let w := (u.clrFlag (R.ctxStatus n) 3).adopt (R.ctxSeed n)
      s.ctxCfgWrite n v = (w.wr (R.ctxSeed n) (SMap.get 0 w.con.seeds n)).adjust R.dspCtxActive 1 0) ∧
    (again → s.ctxCfgWrite n v = s.setFld (R.ctxCfg n) 15 0 (fld v 15 0)) ∧
    (frees → s.ctxCfgWrite n v = ((ctxRegs n ++ [R.ctxCfg n, R.ctxStatus n, R.ctxSeed n]).foldl (fun t r => t.wr r 0)
      (s.adopt (R.ctxSeed n))).zeroCounters n) ∧
    (¬ starts → ¬ again → ¬ frees → s.ctxCfgWrite n v = s.setFlag (R.ctxStatus n) 0)) ∧
  (∀ (s : State) (n : Nat), s.Canon → (∀ r ∈ ctxCounters n, (s.zeroCounters n).rd r = 0) ∧
    ∀ r, r ∉ ctxCounters n → (s.zeroCounters n).rd r = s.rd r) ∧
  (∀ (s : State) (fn : Fin 64) (n : Fin 4096) (v : Word), s.Serves fn (R.ctxSeed n) true →
    let st := s.fld (R.ctxCfg n) 63 62
    (st = 0 → exec (.seedWrite fn n v) s = .next (s.wr (R.ctxSeed n) v)) ∧
    (st = 1 → exec (.seedWrite fn n v) s = .next ((s.wrLate (R.ctxSeed n) v).setFlag (R.ctxStatus n) 3)) ∧
    (2 ≤ st → exec (.seedWrite fn n v) s = .next (s.setFlag (R.ctxStatus n) 0))) ∧
  (∀ (s : State) (fn : Fin 64) (n : Fin 4096), s.Serves fn (R.ctxCensus n) true →
    (s.fld (R.ctxCfg n) 63 62 = 1 → s.flag (R.ctxStatus n) 1 = false → exec (.census fn n) s = .next (s.setFlag (R.ctxStatus n) 1)) ∧
    (s.fld (R.ctxCfg n) 63 62 ≠ 1 ∨ s.flag (R.ctxStatus n) 1 = true → exec (.census fn n) s = .next (s.setFlag (R.ctxStatus n) 0))) ∧
  (∀ (s u : State) (n : Fin 4096) (host : HostData) (a : Leaves),
    let h := s.hostIn host
    (s.flag (R.ctxStatus n) 1 = false → exec (.censusDone n host) s = .next s) ∧
    (s.flag (R.ctxStatus n) 1 = true → h.countLeaves ⟨0, 0, 0, false⟩ 3 (h.rootOf n false) 4 = (a, u) →
      exec (.censusDone n host) s = .next ((u.censusCounted n a).hostOut)) ∧
    (let w := (u.wr (R.ctxMapSmall n) (BitVec.ofNat 64 (a.small % 2 ^ 36))).wr (R.ctxMapMedium n) (BitVec.ofNat 64 (a.medium % 2 ^ 27))
      let x := w.wr (R.ctxMapHuge n) (BitVec.ofNat 64 (a.huge % 2 ^ 18))
      u.censusCounted n a = (x.clrFlag (R.ctxStatus n) 1).putFlag (R.ctxStatus n) 2 a.bad)) ∧
  (∀ (s : State) (n : Fin 4096), let u := s.retireRun n
    (u.retire? n = none → exec (.retireDone n) s = .next u) ∧
    (∀ r, u.retire? n = some r → r.step ≠ 6 → exec (.retireDone n) s = .next u) ∧
    (∀ r, u.retire? n = some r → r.step = 6 → exec (.retireDone n) s = .next ((u.retired n r).flrRun))) ∧
  (∀ (s : State) (n : Nat) (r : Retire), let u := s.count R.dspRetireCount 64 1
    let e := u.rd R.dspRetireCount
    let w := (u.wr (R.ctxRetireEpoch n) e).setFld (R.ctxCfg n) 63 62 3
    s.retired n r = r.cmds.foldl (fun t id => t.endCmd id 0 (fld e 31 0))
      ((w.wr (R.ctxEpochDone n) (w.rd (R.ctxEpochFetched n))).setRetire n none))

/-- Lane admission, reserved starts, best-effort grants and the two limits act exactly when their conditions hold (10 R402, 10 R403, 10 R405, 10 R406, 10 R407, 10 R408, 10 R413, 14 R521, 15 R538, 15 R542); it takes in choices of the model: log 5, 20, 55, 99, 100. -/
def Obligations.AdmissionGrantsAndLimits : Prop :=
  (∀ (s : State) (id : Nat) (c : Cmd), s.cmd id = some c →
    let turn : Prop := c.stage = .held ∧ s.qSched c.queue = true ∧ laneOpcode c.opcode = true ∧ s.mayStart c = true ∧ s.switching = false ∧
      s.dsp.draining = false
    let u := s.adopt R.dspBorrowLimit
    (¬ turn → exec (.admission id) s = .next s) ∧
    (∀ code, turn → u.laneDecision c = .inl code →
      exec (.admission id) s = .next ((u.endCmd id 0x01 (mkDetail 0xFFFF 1 code)).hit 212 0x4002 1)) ∧
    (∀ l st fin, turn → u.laneDecision c = .inr (l, st, fin) → exec (.admission id) s = .next (u.admitTo id c l st fin))) ∧
  (∀ (s : State) (c : Cmd), let d := s.laneDecision c
    let program : Prop := c.opcode = 1
    let missing : Prop := s.runnable c = none ∨ s.pslot c.slot = none
    (s.emergency = true → d = .inl 0x2) ∧
    (s.emergency = false → c.due ≤ s.now → d = .inl 0x5) ∧
    (s.emergency = false → s.now < c.due →
      (program → missing → d = .inl 0x8) ∧
      (∀ p, program → ¬ missing → s.pslot c.slot = some p → (∃ f ∈ p.flows, f ≠ 0xFFFF ∧ s.flowServed f = false) → d = .inl 0x3) ∧
      (∀ code, c.opcode = 5 → s.patchRefused c = some code → d = .inl code) ∧
      ((program → ∃ v p, s.runnable c = some v ∧ s.pslot c.slot = some p ∧ ∀ f ∈ p.flows, f ≠ 0xFFFF → s.flowServed f = true) →
        (c.opcode = 5 → s.patchRefused c = none) →
        (s.bestLane = none → d = .inl 0x1) ∧
        (∀ l st, s.bestLane = some (l, st) → let fin := st + s.classNs c.eclass
          (c.due < fin → d = .inl 0x1) ∧
          (fin ≤ c.due → s.reserveFits c.eclass st fin = false → d = .inl 0x2) ∧
          (fin ≤ c.due → s.reserveFits c.eclass st fin = true → d = .inr (l, st, fin)))))) ∧
  (∀ (s : State) (id : Nat) (c : Cmd), s.cmd id = some c →
    (c.lane = none → exec (.entryStart id) s = .next s) ∧
    (∀ l, c.lane = some l → let ready : Prop := c.stage = .admitted ∧ c.start ≤ s.now ∧ (c.opcode = 1 → s.threadFree (17 * l) = true)
      (¬ ready → exec (.entryStart id) s = .next s) ∧
      (ready → exec (.entryStart id) s = .next (s.setCmd id (some { c with
        stage := .cleared, thr := if c.opcode = 1 then some (17 * l) else none }))))) ∧
  (∀ (s : State) (id : Nat) (c : Cmd), s.cmd id = some c →
    let room : Prop := s.awaitsGrant c = true ∧ s.grantRoom c = true ∧ s.emergency = false ∧ s.switching = false ∧ s.dsp.draining = false
    (¬ room → exec (.beGrant id) s = .next s) ∧
    (∀ n r, room → s.sharePick s.dsp.eligibleT s.grantees = (some n, r) →
      (n ≠ c.ctx → exec (.beGrant id) s = .next s) ∧
      (n = c.ctx →
        let u := { r with dsp := { r.dsp with eligibleT := s.grantees, nextGrant := r.dsp.nextGrant + 1 } }
        let t := if c.opcode = 1 then u.freeThread else none
        exec (.beGrant id) s = .next ((u.setCmd id (some { c with stage := .cleared, order := r.dsp.nextGrant, thr := t })).rled 24 1)))) ∧
  (∀ (s : State) (id : Nat) (c : Cmd), s.cmd id = some c →
    let spent : Prop := c.lane.isSome = true ∧ c.inService = true ∧ c.outcome = none ∧ c.fin < s.now
    let out : Prop := c.stage ≠ .ended ∧ c.outcome = none ∧ c.lane = none ∧ (s.qSched c.queue && laneOpcode c.opcode) = false ∧
      1000 * c.timeout < s.now - c.fetched - c.held
    (¬ spent → exec (.classOverrun id) s = .next s) ∧
    (spent → exec (.classOverrun id) s = .next ((s.surveyTrigger 4 c.queue).stopCmd id 0x02 0 0x2)) ∧
    (¬ out → exec (.queueTimeout id) s = .next s) ∧
    (out → exec (.queueTimeout id) s = .next ((s.surveyTrigger 3 c.queue).stopCmd id 0x02 0 0x1))) ∧
  (∀ (s : State) (id : Nat) (i : Instr), i ∈ [Instr.admission id, .entryStart id, .beGrant id, .classOverrun id, .queueTimeout id] →
    s.cmd id = none → exec i s = .next s)

/-- RUN_PROGRAM starts a program on its thread; copies begin, move and end; PATCH, CREATE and DELETE change a slot at commit (10 R379, 10 R389, 10 R399, 10 R400, 10 R410, 10 R411, 10 R412, 10 R413); it takes in choices of the model: log 20, 51, 52, 53, 90, 98. -/
def Obligations.ProgramsAndCopies : Prop :=
  (∀ (s : State) (id : Nat) (c : Cmd), s.cmd id = some c →
    (c.stage ≠ .cleared ∨ c.opcode ≠ 1 → exec (.runProgram id) s = .next s) ∧
    (c.stage ≠ .cleared ∨ c.opcode ≠ 5 ∨ c.patchMode ≠ 2 ∨ s.patchTurn c = false → exec (.delete id) s = .next s)) ∧
  (∀ (s : State) (id mode : Nat) (c : Cmd) (host : HostData) (i : Instr), let h := s.hostIn host
    h.cmd id = some c →
    (c.stage ≠ .cleared ∨ c.opcode ≠ 2 → exec (.copyEntry id host) s = .next h.hostOut) ∧
    ((i, mode) ∈ [(Instr.patch id host, 0), (.create id host, 1)] →
      c.stage ≠ .cleared ∨ c.opcode ≠ 5 ∨ c.patchMode ≠ mode ∨ h.patchTurn c = false → exec i s = .next h.hostOut)) ∧
  (∀ (s : State) (id : Nat) (c : Cmd), s.cmd id = some c → c.stage = .cleared → c.opcode = 1 →
    let u := if c.pin.isSome then s else s.pinCmd id c
    ∀ x, u.cmd id = some x →
      (x.pin = none ∨ x.thr = none → exec (.runProgram id) s = .next (u.endCmd id 0x01 (mkDetail 0xFFFF 1 0x8))) ∧
      (∀ slot ver t, x.pin = some (slot, ver) → x.thr = some t → exec (.runProgram id) s = .next (u.startProgram id x slot ver t))) ∧
  (∀ (s : State) (id : Nat) (c : Cmd) (slot ver t view : Nat) (u : State), (s.startCmd id c).takeView c.ctx = (view, u) →
    ∃ th, s.startProgram id c slot ver t = u.setThread t (some th) ∧ th.pc = c.entry ∧ th.slot = slot ∧ th.version = ver ∧ th.cmd = id ∧
      th.ctx = c.ctx ∧ th.view = view ∧ th.stack = [] ∧ th.queue = [] ∧ th.hold = .none ∧ th.quick = true ∧
      SMap.get 0 th.x 1 = BitVec.ofNat 64 c.args ∧ SMap.get 0 th.x 2 = BitVec.ofNat 64 (if c.deadline = 0 then 0 else c.due) ∧
      SMap.get 0 th.x 3 = BitVec.ofNat 64 c.queue ∧ SMap.get 0 th.x 4 = BitVec.ofNat 64 c.ctx ∧ SMap.get 0 th.x 5 = BitVec.ofNat 64 c.cookie ∧
      ∀ n, n = 0 ∨ 5 < n → SMap.get 0 th.x n = 0) ∧
  (∀ (s : State) (id : Nat) (c : Cmd) (host : HostData) (view : Nat) (r : State), (s.hostIn host).cmd id = some c → c.stage = .cleared →
    c.opcode = 2 → (s.hostIn host).takeView c.ctx = (view, r) →
    (r.beginCopy id none c.ctx view 0xFFFF c.args = none → exec (.copyEntry id host) s = .next (s.hostIn host).hostOut) ∧
    (∀ n t x, r.beginCopy id none c.ctx view 0xFFFF c.args = some (.inl n, t) → t.cmd id = some x →
      exec (.copyEntry id host) s = .next (t.startCmd id x).hostOut) ∧
    (∀ f t x, r.beginCopy id none c.ctx view 0xFFFF c.args = some (.inr f, t) → t.cmd id = some x →
      exec (.copyEntry id host) s = .next ((t.startCmd id x).endCmd id f.ends.1 (mkDetail 0xFFFF 4 f.ends.2)).hostOut)) ∧
  (∀ (s : State) (n : Nat) (host : HostData), let h := s.hostIn host
    (h.copy? n = none → exec (.copyDone n host) s = .next h.hostOut) ∧
    (∀ x f, h.copy? n = some x → x.failed = some f → exec (.copyDone n host) s = .next (h.copyOver n x (some (vmFaultOf f))).hostOut) ∧
    (∀ x p f r, h.copy? n = some x → x.failed = none → h.copyRun n x = (p, f, r) →
      let t := (r.hit 212 0x4004 ((p - x.pos + 127) / 128)).setCopy n (some { x with pos := p })
      (f.isSome = true → exec (.copyDone n host) s = .next (t.copyOver n x f).hostOut) ∧
      (f = none → p < x.len ∨ t.awaitsRead (.copy n) = true → exec (.copyDone n host) s = .next t.hostOut) ∧
      (f = none → x.len ≤ p → t.awaitsRead (.copy n) = false → exec (.copyDone n host) s = .next (t.copyOver n x none).hostOut))) ∧
  (∀ (s : State) (id mode : Nat) (c : Cmd) (host : HostData) (i : Instr), (i, mode) ∈ [(Instr.patch id host, 0), (.create id host, 1)] →
    (s.hostIn host).cmd id = some c → c.stage = .cleared → c.opcode = 5 → c.patchMode = mode → (s.hostIn host).patchTurn c = true →
    let t := (s.hostIn host).startCmd id c
    (∀ code, t.patchRefused c = some code → exec i s = .next (t.endCmd id 0x01 (mkDetail 0xFFFF 1 code)).hostOut) ∧
    (∀ f u, t.patchRefused c = none → t.patchSource c = (.inr f, u) →
      exec i s = .next (u.endCmd id f.ends.1 (mkDetail 0xFFFF 0 f.ends.2)).hostOut) ∧
    (∀ src u, t.patchRefused c = none → t.patchSource c = (.inl src, u) → exec i s = .next (u.writeVersion id mode c src).hostOut)) ∧
  (∀ (s : State) (slot : Fin 4096),
    (SMap.get none s.dsp.patching slot = none → exec (.patchCommit slot) s = .next s) ∧
    (∀ x c, SMap.get none s.dsp.patching slot = some x →
      let t := { s with dsp := { s.dsp with patching := SMap.put none s.dsp.patching slot none } }
      t.cmd x.cmd = some c →
      exec (.patchCommit slot) s = .next (((t.commitVersion slot (t.qFunc c.queue) x).reapSlot slot).endCmd x.cmd 0 (mkDetail 0xFFFF 0 0)))) ∧
  (∀ (s : State) (id : Nat) (c : Cmd), s.cmd id = some c → c.stage = .cleared → c.opcode = 5 → c.patchMode = 2 → s.patchTurn c = true →
    let t := s.startCmd id c
    (∀ code, t.patchRefused c = some code → exec (.delete id) s = .next (t.endCmd id 0x01 (mkDetail 0xFFFF 1 code))) ∧
    (∀ p v, t.patchRefused c = none → t.pslot c.slot = some p → p.versions.getLast? = some v → exec (.delete id) s =
      .next (((t.setPslot c.slot (some { p with deleting := true, atDelete := (v.size, v.num) })).reapSlot c.slot).endCmd id 0 (mkDetail 0xFFFF 0 0))))

/-- The register instructions of dispatch code give the values of R397; x0 reads zero; NOP, TIME, TMARK, YIELD, JOIN, END (10 R389, 10 R391, 10 R396, 10 R397, 14 R522, 19 R620); it takes in choices of the model: log 53, 90. -/
def Obligations.DispatchArithmetic : Prop :=
  (∀ (s r : State) (t : Fin 128) (th : Thread) (w : DWord) (i : Instr) (op : Nat) (v : Word), s.DIssues t th w r → w.op = op →
    let x (n : Nat) : Word := if n = 0 then 0 else SMap.get 0 th.x n
    let imm := BitVec.ofNat 32 w.imm
    (i, op, v) ∈ [(Instr.dispAdd t, 0x08, x w.a + x w.b), (.dispSub t, 0x09, x w.a - x w.b), (.dispMul t, 0x0A, x w.a * x w.b),
      (.dispAnd t, 0x0B, x w.a &&& x w.b), (.dispOr t, 0x0C, x w.a ||| x w.b), (.dispXor t, 0x0D, x w.a ^^^ x w.b),
      (.dispShl t, 0x0E, x w.a <<< ((x w.b).toNat % 64)), (.dispShr t, 0x0F, x w.a >>> ((x w.b).toNat % 64)),
      (.dispAddi t, 0x10, x w.a + imm.signExtend 64), (.dispMovi t, 0x11, imm.signExtend 64),
      (.dispMovhi t, 0x12, imm ++ (x w.d).setWidth 32), (.dispTime t, 0x2A, BitVec.ofNat 64 r.now)] →
    let regs := if w.d = 0 then th.x else SMap.put 0 th.x w.d v
    exec i s = .next ((r.setThread t (some { th with x := regs, pc := th.pc + 1, hold := .none })).dcount t w.op)) ∧
  (∀ (s r : State) (t : Fin 128) (th : Thread) (w : DWord), s.DIssues t th w r →
    let on := { th with pc := th.pc + 1, hold := .none }
    let wait := r.setThread t (some { th with hold := .retry })
    let lane := ((r.cmd th.cmd).bind Cmd.lane).isSome
    let behind : Prop := ∃ n ∈ r.shareWaiters, n ≠ th.ctx ∧
      r.vtime n + 2 ^ 16 * (r.rd R.dspShareLag).toNat < r.vtime th.ctx
    (w.op = 0x00 → exec (.dispatchNop t) s = .next ((r.setThread t (some on)).dcount t w.op)) ∧
    (w.op = 0x49 → ∀ c, r.cmd th.cmd = some c → exec (.dispTmark t) s = .next (((r.trace ⟨0x02, 1, (t : Nat) / 16, th.ctx, c.queue,
      w.imm % 2 ^ 16, th.r w.a⟩).setThread t (some on)).dcount t w.op)) ∧
    (w.op = 0x02 → lane = false → behind → exec (.dispYield t) s = .next (wait.dcount t w.op)) ∧
    (w.op = 0x02 → lane = true ∨ ¬ behind → exec (.dispYield t) s = .next ((r.setThread t (some on)).dcount t w.op)) ∧
    (w.op = 0x32 → r.programBusy th = true → exec (.dispJoin t) s = .next (wait.dcount t w.op)) ∧
    (w.op = 0x32 → r.programBusy th = false → exec (.dispJoin t) s = .next ((r.setThread t (some on)).dcount t w.op)) ∧
    (w.op = 0x01 → r.programBusy th = true → exec (.dispEnd t) s = .next (wait.dcount t w.op)) ∧
    (w.op = 0x01 → r.programBusy th = false → exec (.dispEnd t) s = .next ((r.endProgram t 0 0).dcount t w.op)))

/-- Branches go where R396 says; calls nest eight deep; a word outside the program, illegal or poisoned ends the program (10 R389, 10 R396, 10 R397, 10 R398); it takes in choices of the model: log 53, 90. -/
def Obligations.DispatchBranchesAndIllegalWords : Prop :=
  (∀ (s r : State) (t : Fin 128) (th : Thread) (w : DWord) (i : Instr) (op : Nat) (taken : Bool), s.DIssues t th w r → w.op = op →
    let x (n : Nat) : Word := if n = 0 then 0 else SMap.get 0 th.x n
    (i, op, taken) ∈ [(Instr.dispBra t, 0x18, true), (.dispBeq t, 0x19, x w.a == x w.b), (.dispBne t, 0x1A, x w.a != x w.b),
      (.dispBlt t, 0x1B, (x w.a).slt (x w.b)), (.dispBge t, 0x1C, (x w.b).sle (x w.a)), (.dispBltu t, 0x1D, (x w.a).ult (x w.b)),
      (.dispBgeu t, 0x1E, (x w.b).ule (x w.a))] →
    let target := (BitVec.ofNat 64 th.pc + (BitVec.ofNat 32 w.imm).signExtend 64).toNat
    exec i s = .next ((r.setThread t (some { th with pc := if taken then target else th.pc + 1, hold := .none })).dcount t w.op)) ∧
  (∀ (s r : State) (t : Fin 128) (th : Thread) (w : DWord), s.DIssues t th w r →
    let target := (BitVec.ofNat 64 th.pc + (BitVec.ofNat 32 w.imm).signExtend 64).toNat
    (w.op = 0x1F → th.stack.length < 8 → exec (.dispatchCall t) s =
      .next ((r.setThread t (some { th with stack := (th.pc + 1) :: th.stack, pc := target, hold := .none })).dcount t w.op)) ∧
    (w.op = 0x1F → 8 ≤ th.stack.length → exec (.dispatchCall t) s = .next ((r.endProgram t 0x05 0x07).dcount t w.op)) ∧
    (∀ pc rest, w.op = 0x20 → th.stack = pc :: rest → exec (.dispatchRet t) s =
      .next ((r.setThread t (some { th with stack := rest, pc := pc, hold := .none })).dcount t w.op)) ∧
    (w.op = 0x20 → th.stack = [] → exec (.dispatchRet t) s = .next ((r.endProgram t 0x05 0x07).dcount t w.op))) ∧
  (∀ (s u : State) (t : Fin 128) (th : Thread) (b : List Byte) (bad : Bool) (i : Instr) (op : Nat),
    (i, op) ∈ [(Instr.dispatchNop t, 0x00), (.dispEnd t, 0x01), (.dispYield t, 0x02), (.dispAdd t, 0x08), (.dispSub t, 0x09), (.dispMul t, 0x0A),
      (.dispAnd t, 0x0B), (.dispOr t, 0x0C), (.dispXor t, 0x0D), (.dispShl t, 0x0E), (.dispShr t, 0x0F), (.dispAddi t, 0x10), (.dispMovi t, 0x11),
      (.dispMovhi t, 0x12), (.dispBra t, 0x18), (.dispBeq t, 0x19), (.dispBne t, 0x1A), (.dispBlt t, 0x1B), (.dispBge t, 0x1C),
      (.dispBltu t, 0x1D), (.dispBgeu t, 0x1E), (.dispatchCall t, 0x1F), (.dispatchRet t, 0x20), (.dispStore t, 0x29), (.dispTime t, 0x2A),
      (.dispJoin t, 0x32), (.dispCmo t, 0x34), (.dispatchSignal t, 0x38), (.dispatchWait t, 0x39), (.dispTalloc t, 0x40), (.dispTfree t, 0x41),
      (.dispTset t, 0x42), (.dispDump t, 0x48), (.dispTmark t, 0x49)] →
    (s.thread t = none → exec i s = .next s) ∧
    (s.thread t = some th → th.hold ≠ .none → th.hold ≠ .retry → exec i s = .next s) ∧
    (s.thread t = some th → s.dturn t = false → exec i s = .next s) ∧
    (s.thread t = some th → th.hold = .none ∨ th.hold = .retry → s.dturn t = true →
      let v := s.codeOf th
      (v.size ≤ th.pc → exec i s = .next ((s.firstIssue t th).endProgram t 0x05 0x07)) ∧
      (th.pc < v.size → s.memRead (s.wordAt v th.pc) 8 2 0 true = (b, bad, u) →
        let w := dword (BitVec.ofNat 64 (leNat b))
        (bad = true → exec i s = .next ((u.firstIssue t th).consumedPoison.endProgram t 0x0A 0)) ∧
        (bad = false → w.ok = false → exec i s = .next ((u.firstIssue t th).endProgram t 0x05 0x07)) ∧
        (bad = false → w.ok = true → w.op ≠ op → exec i s = .next s))))

/-- LOADT, STORE and CMO access memory as the program's context; LAUNCH and COPY queue work, or end the program as R390 to R400 say (09 R364, 10 R390, 10 R391, 10 R394, 10 R397, 10 R398, 10 R399, 10 R400, 06 R256); it takes in choices of the model: log 21, 49, 53, 90. -/
def Obligations.DispatchMemoryAndLaunches : Prop :=
  (∀ (s r : State) (t : Fin 128) (th : Thread) (w : DWord) (host : HostData), (s.hostIn host).DIssues t th w r → w.op = 0x28 →
    let a := th.addr w
    (a % 2 ^ w.m ≠ 0 → exec (.dispLoadt t host) s = .next ((r.endProgram t 0x05 0x02).dcount t w.op).hostOut) ∧
    (∀ b u, a % 2 ^ w.m = 0 → r.vaRead (hubUser th.view) a (2 ^ w.m) = (.inl b, u) →
      exec (.dispLoadt t host) s = .next ((u.setThread t (some (th.w w.d (leNat b)).next)).dcount t w.op).hostOut) ∧
    (∀ f u, a % 2 ^ w.m = 0 → r.vaRead (hubUser th.view) a (2 ^ w.m) = (.inr f, u) →
      exec (.dispLoadt t host) s = .next ((u.programFault t f).dcount t w.op).hostOut)) ∧
  (∀ (s r : State) (t : Fin 128) (th : Thread) (w : DWord), s.DIssues t th w r → w.op = 0x29 →
    let a := th.addr w
    let b := leBytes (2 ^ w.m) (th.r w.b)
    (a % 2 ^ w.m ≠ 0 → exec (.dispStore t) s = .next ((r.endProgram t 0x05 0x02).dcount t w.op)) ∧
    (∀ c lv u, a % 2 ^ w.m = 0 → r.xlate .hub 2 th.view a needW = (.fault c lv, u) →
      exec (.dispStore t) s = .next ((u.programFault t (.code (causeCode c) c)).dcount t w.op)) ∧
    (∀ pa region u, a % 2 ^ w.m = 0 → r.xlate .hub 2 th.view a needW = (.ok pa region, u) →
      let sent := u.mlnAccept (u.writeMsg (u.tenantOf th.ctx) (paNode pa) (paOffset pa) (decide (region = 2)) b) 192 (u.flowsOf th.cmd)
      (∀ v, u.placeOf pa = .remote → sent = some v → exec (.dispStore t) s = .next ((v.setThread t (some th.next)).dcount t w.op)) ∧
      (u.placeOf pa = .remote → sent = none → exec (.dispStore t) s = .next ((r.setThread t (some { th with hold := .retry })).dcount t w.op)) ∧
      (∀ v, u.placeOf pa ≠ .remote → u.pageWrite (hubUser th.view) a b = (none, v) →
        exec (.dispStore t) s = .next ((v.setThread t (some th.next)).dcount t w.op)) ∧
      (∀ f v, u.placeOf pa ≠ .remote → u.pageWrite (hubUser th.view) a b = (some f, v) →
        exec (.dispStore t) s = .next ((v.programFault t f).dcount t w.op)))) ∧
  (∀ (s r u : State) (t : Fin 128) (th : Thread) (w : DWord) (skipped : Bool), s.DIssues t th w r → w.op = 0x34 →
    let k := nfld w.m 2 1
    r.maintRange ⟨decide (k = 1) || decide (k = 3), decide (k = 2) || decide (k = 3), w.m.testBit 3⟩ th.view (th.r w.a) (th.r w.b) = (skipped, u) →
    exec (.dispCmo t) s = .next ((u.setThread t (some (th.w w.d (if skipped then 1 else 0)).next)).dcount t w.op)) ∧
  (∀ (s r : State) (t : Fin 128) (th : Thread) (w : DWord) (host : HostData), (s.hostIn host).DIssues t th w r →
    let first := nfld (th.r w.b) 9 0
    let count := nfld (th.r w.b) 26 16
    let mine : Prop := 0 < count ∧ first + count ≤ 1024 ∧ ∀ i < count, r.platKind (first + i) = 0 ∧ r.platOwner (first + i) = th.ctx
    (w.op = 0x30 → exec (.dispLaunch t host) s = .next ((r.queueLaunch t th (th.addr w) none).dcount t w.op).hostOut) ∧
    (w.op = 0x31 →
      (8 ≤ th.queue.length → exec (.dispLaunchPlat t host) s = .next ((r.setThread t (some { th with hold := .retry })).dcount t w.op).hostOut) ∧
      (th.queue.length < 8 → w.imm % 2 ^ 16 = 0 → exec (.dispLaunchPlat t host) s = .next ((r.endProgram t 0x05 0x07).dcount t w.op).hostOut) ∧
      (th.queue.length < 8 → w.imm % 2 ^ 16 ≠ 0 → ¬ mine → exec (.dispLaunchPlat t host) s = .next ((r.endProgram t 0x05 0x0B).dcount t w.op).hostOut) ∧
      (th.queue.length < 8 → w.imm % 2 ^ 16 ≠ 0 → mine → exec (.dispLaunchPlat t host) s =
        .next ((r.queueLaunch t th (th.r w.a) (some ⟨first, count, w.imm % 2 ^ 16, 0, 0⟩)).dcount t w.op).hostOut))) ∧
  (∀ (r : State) (t : Nat) (th : Thread) (a : Nat) (plat : Option PlatRange),
    (8 ≤ th.queue.length → r.queueLaunch t th a plat = r.setThread t (some { th with hold := .retry })) ∧
    (th.queue.length < 8 → a % 64 ≠ 0 → r.queueLaunch t th a plat = r.endProgram t 0x05 0x02) ∧
    (∀ f u, th.queue.length < 8 → a % 64 = 0 → r.vaRead (hubUser th.view) a 64 = (.inr f, u) → r.queueLaunch t th a plat = u.programFault t f) ∧
    (∀ b u, th.queue.length < 8 → a % 64 = 0 → r.vaRead (hubUser th.view) a 64 = (.inl b, u) →
      (∀ code, launchOf b th plat = .inr code → r.queueLaunch t th a plat = u.endProgram t 0x05 code) ∧
      (∀ x, launchOf b th plat = .inl x → r.queueLaunch t th a plat =
        u.setThread t (some { th with queue := th.queue ++ [{ x with thread := t }], pc := th.pc + 1, hold := .none })))) ∧
  (∀ (s r u : State) (t : Fin 128) (th : Thread) (w : DWord) (host : HostData) (view : Nat), (s.hostIn host).DIssues t th w r → w.op = 0x33 →
    r.takeView th.ctx = (view, u) → let begun := u.beginCopy th.cmd (some t) th.ctx view th.pc (th.addr w)
    (begun = none → exec (.dispatchCopy t host) s = .next ((r.setThread t (some { th with hold := .retry })).dcount t w.op).hostOut) ∧
    (∀ f v, begun = some (.inr f, v) → exec (.dispatchCopy t host) s = .next ((v.stopCmd th.cmd f.ends.1 4 f.ends.2).dcount t w.op).hostOut) ∧
    (∀ n v, begun = some (.inl n, v) →
      (w.m = 1 → exec (.dispatchCopy t host) s = .next ((v.setThread t (some { th with hold := .copy n })).dcount t w.op).hostOut) ∧
      (w.m = 0 → exec (.dispatchCopy t host) s = .next ((v.setThread t (some th.next)).dcount t w.op).hostOut)))

/-- Dispatch code signals and waits on semaphores; DUMP holds its thread where a request matches, and DUMP_DONE lets it go on (10 R397, 11 R425, 11 R427, 19 R624, 19 R625, 19 R626); it takes in choices of the model: log 21, 90. -/
def Obligations.DispatchSemaphoresAndDumps : Prop :=
  (∀ (s r : State) (t : Fin 128) (th : Thread) (w : DWord), s.DIssues t th w r → w.op = 0x38 ∨ w.op = 0x39 →
    let x := th.r w.a
    let n := th.r w.b
    let bad := semLayoutBad x || decide (2 ^ 48 ≤ n)
    let there := x.testBit 31 && decide (nfld x 23 16 ≠ r.con.node)
    (bad = true →
      (w.op = 0x38 → exec (.dispatchSignal t) s = .next ((r.endProgram t 0x05 0x07).dcount t w.op)) ∧
      (w.op = 0x39 → exec (.dispatchWait t) s = .next ((r.endProgram t 0x05 0x07).dcount t w.op))) ∧
    (bad = false → w.op = 0x38 →
      let sent := r.mlnAccept (r.signalMsg (r.threadSignaller th) (nfld x 23 16) (x % 2 ^ 16) n) 192 (r.flowsOf th.cmd)
      (∀ u, there = true → sent = some u → exec (.dispatchSignal t) s = .next ((u.setThread t (some (th.w w.d stOk).next)).dcount t w.op)) ∧
      (there = true → sent = none → exec (.dispatchSignal t) s = .next ((r.setThread t (some { th with hold := .retry })).dcount t w.op)) ∧
      (∀ st u y, there = false → (r.setThread t (some th.next)).semSignal (x % 2 ^ 16) n (r.threadSignaller th) = (st, u) → u.thread t = some y →
        exec (.dispatchSignal t) s = .next ((u.setThread t (some (y.w w.d st))).dcount t w.op))) ∧
    (bad = false → w.op = 0x39 →
      (there = true → exec (.dispatchWait t) s = .next ((r.endProgram t 0x05 0x01).dcount t w.op)) ∧
      (∀ st u, there = false → r.semWait (x % 2 ^ 16) (r.tenantOf th.ctx) ⟨1, th.ctx, t, n, r.now, w.d⟩ = (some st, u) →
        exec (.dispatchWait t) s = .next ((u.setThread t (some (th.w w.d st).next)).dcount t w.op)) ∧
      (∀ u, there = false → r.semWait (x % 2 ^ 16) (r.tenantOf th.ctx) ⟨1, th.ctx, t, n, r.now, w.d⟩ = (none, u) →
        exec (.dispatchWait t) s = .next ((u.setThread t (some { th with hold := .sem, dest := w.d })).dcount t w.op)))) ∧
  (∀ (s r : State) (t : Fin 128) (th : Thread) (w : DWord), s.DIssues t th w r → w.op = 0x48 →
    (r.dumpMatch th w = none → exec (.dispDump t) s = .next ((r.setThread t (some th.next)).dcount t w.op)) ∧
    (∀ i, r.dumpMatch th w = some i →
      let x : Dumping := ⟨t, i, r.rd (R.dbgDumpCfg i), r.fld (R.dbgDumpDest i) 55 0, w.imm, th.r w.d, th.r w.a, th.r w.b⟩
      let u := (r.clrFlag (R.dbgDumpCfg i) 63).setThread t (some { th with hold := .dump })
      exec (.dispDump t) s = .next ({ u with dbg := { u.dbg with dumps := u.dbg.dumps ++ [x] } }.dcount t w.op))) ∧
  (∀ (s : State) (th : Thread) (w : DWord) (i : Nat), s.dumpMatch th w = some i ↔ i < 16 ∧
    (let fits (j : Nat) : Prop := s.flag (R.dbgDumpCfg j) 63 = true ∧ s.fld (R.dbgDumpId j) 31 0 = w.imm ∧
        (s.rd (R.dbgDumpStep j)).toNat = th.r w.d ∧ (s.flag (R.dbgDumpCfg j) 62 = true ∨ s.fld (R.dbgDumpCfg j) 61 50 = th.ctx);
      fits i ∧ ∀ j < i, ¬ fits j)) ∧
  (∀ (s : State) (t : Fin 128) (host : HostData), let h := s.hostIn host
    (h.dbg.dumps.find? (fun x => x.thread = (t : Nat)) = none → exec (.dumpDone t host) s = .next h.hostOut) ∧
    (∀ x, h.dbg.dumps.find? (fun x => x.thread = (t : Nat)) = some x →
      let u := { h with dbg := { h.dbg with dumps := h.dbg.dumps.filter (fun y => !decide (y.thread = (t : Nat))) } }
      (h.thread t = none → exec (.dumpDone t host) s = .next u.hostOut) ∧
      (∀ th, h.thread t = some th → th.hold ≠ .dump → exec (.dumpDone t host) s = .next u.hostOut) ∧
      (∀ th, h.thread t = some th → th.hold = .dump → h.programBusy th = true → exec (.dumpDone t host) s = .next h.hostOut) ∧
      (∀ th, h.thread t = some th → th.hold = .dump → h.programBusy th = false →
        exec (.dumpDone t host) s = .next (u.dumpWrite t x th).hostOut)))

/-- The ticket instructions allocate, free, read, write and batch tickets of their own context, and skip any other (06 R259, 06 R260, 06 R261, 06 R262, 06 R263, 16 R561); it takes in choices of the model: log 53, 90. -/
def Obligations.TicketInstructions : Prop :=
  (∀ (s r : State) (t : Fin 128) (th : Thread) (w : DWord), s.DIssues t th w r →
    let k := th.r w.a
    let goes (u : State) (y : Thread) : Host.Outcome State Fault Refusal := .next ((u.setThread t (some { y with pc := th.pc + 1, hold := .none })).dcount t w.op)
    (w.op = 0x40 → r.tktFree 0 0x100000 = none → exec (.dispTalloc t) s = goes r (th.w w.d 0xFFFFFFFF)) ∧
    (∀ n, w.op = 0x40 → r.tktFree 0 0x100000 = some n →
      let b := leBytes 2 th.ctx ++ leBytes 1 1 ++ leBytes 1 0 ++ leBytes 4 0xFFFFFFFF ++ leBytes 56 0
      let u := ((r.tktWrite n b true).sideWrite n b).count R.tktAllocs 64 1
      exec (.dispTalloc t) s = goes (u.wr R.tktActive (BitVec.ofNat 64 ((u.rd R.tktActive).toNat + 1))) (th.w w.d n)) ∧
    (w.op = 0x41 → 0x100000 ≤ k → exec (.dispTfree t) s = goes r (th.w w.d 1)) ∧
    (∀ b bad u, w.op = 0x41 → k < 0x100000 → r.tktRead k = (b, bad, u) →
      let mine := if bad then u.sideOwned k th.ctx else tktOwned b th.ctx
      (mine = true → exec (.dispTfree t) s = goes (u.tktRelease k) (th.w w.d 0)) ∧
      (mine = false → exec (.dispTfree t) s = goes u (th.w w.d 1))) ∧
    (∀ u, r.tktMine th.ctx k = (.inr (), u) → w.op = 0x42 → exec (.dispTset t) s = .next ((u.endProgram t 0x0A 0).dcount t w.op)) ∧
    (∀ u, r.tktMine th.ctx k = (.inl none, u) → w.op = 0x42 → exec (.dispTset t) s = goes u (th.w w.d 1)) ∧
    (∀ b u, r.tktMine th.ctx k = (.inl (some b), u) → w.op = 0x42 → exec (.dispTset t) s =
      goes (u.tktWrite k (tktSet b (tktField w.m).1 (tktField w.m).2 (tktClip w.m (th.r w.b))) false) (th.w w.d 0)) ∧
    (∀ upset, w.op = 0x43 → let v := if upset = .none ∨ 0x100000 ≤ k then r else ((r.tktRead k).2.2).tktUpset k upset
      (∀ u, v.tktMine th.ctx k = (.inr (), u) → exec (.dispTget t upset) s = .next ((u.endProgram t 0x0A 0).dcount t w.op)) ∧
      (∀ u, v.tktMine th.ctx k = (.inl none, u) → exec (.dispTget t upset) s = goes u ((th.w w.d 0).w w.b 1)) ∧
      (∀ b u, v.tktMine th.ctx k = (.inl (some b), u) →
        exec (.dispTget t upset) s = goes u ((th.w w.d (tktFld b (tktField w.m).1 (tktField w.m).2)).w w.b 0)))) ∧
  (∀ (s r : State) (t : Fin 128) (th : Thread) (w : DWord) (host : HostData), (s.hostIn host).DIssues t th w r →
    let n := th.r w.b
    let at4 := r.vaRead (hubUser th.view) (th.r w.a) (4 * n)
    let at8 := r.vaRead (hubUser th.view) (th.r w.a) (8 * n)
    let ends (u : State) : Host.Outcome State Fault Refusal := .next (u.dcount t w.op).hostOut
    let goes (u : State) (v : Nat) : Host.Outcome State Fault Refusal := ends (u.setThread t (some (th.w w.d v).next))
    (w.op = 0x44 →
      (∀ f u, at4 = (.inr f, u) → exec (.dispTbatch t host) s = ends (u.programFault t f)) ∧
      (∀ b u, at4 = (.inl b, u) →
        let got := u.batchOf th.ctx w.m ((List.range n).map (fun i => leNat ((b.drop (4 * i)).take 4)))
        (∀ v, got = (none, v) → exec (.dispTbatch t host) s = ends (v.endProgram t 0x0A 0)) ∧
        (∀ l v, got = (some l, v) → let out := (l.take w.imm).map Prod.snd
          let put := v.vaWrite (hubUser th.view) (th.r w.a + 4 * n) (out.flatMap (leBytes 4))
          (∀ f x, put = (some f, x) → exec (.dispTbatch t host) s = ends (x.programFault t f)) ∧
          (∀ x, put = (none, x) → exec (.dispTbatch t host) s = goes (x.setSteps (th.r w.d) out) out.length)))) ∧
    (∀ i op f, (i, op, f) ∈ [(Instr.dispTexit t host, 0x45, texitRec), (.dispTadvance t host, 0x46, tadvanceRec)] → w.op = op →
      (∀ g u, at8 = (.inr g, u) → exec i s = ends (u.programFault t g)) ∧
      (∀ b u, at8 = (.inl b, u) →
        let got := ((List.range n).map (fun i => leNat ((b.drop (8 * i)).take 8))).foldl (State.listEntry f th.ctx) (some 0, u)
        (∀ v, got = (none, v) → exec i s = ends (v.endProgram t 0x0A 0)) ∧
        (∀ skipped v, got = (some skipped, v) → exec i s = goes v skipped)))) ∧
  (∀ (b : List Byte) (v : Nat), b.length = 64 → v < 2 ^ 32 →
    (let x := texitRec b v;
      tktFld x 0x20 4 = tktFld b 0x20 4 ||| 1 ∧ tktFld x 4 4 = if tktFld b 4 4 = 0xFFFFFFFF then v else tktFld b 4 4) ∧
    (let x := tadvanceRec b v;
      tktFld x 8 8 = (tktFld b 8 8 + v) % 2 ^ 64 ∧ tktFld x 0x20 4 = tktFld b 0x20 4 / 2 * 2 ∧ tktFld x 4 4 = 0xFFFFFFFF))

/-- SEM_CFG moves a semaphore between its states as R424 allows; SEM_VALUE forces its value; a snapshot shows its waiters (11 R421, 11 R422, 11 R424, 11 R435, 11 R436, 11 R437, 11 R438); it takes in choices of the model: log 62. -/
def Obligations.SemaphoreRegisters : Prop :=
  (∀ (s : State) (fn : Fin 64) (n : Fin 65536) (ctx : Fin 4096) (remote : Bool) (i : Instr) (v : Word),
    let r := if remote then 2 ^ 61 else 0
    let owner := s.fld (R.semCfg n) 53 42
    (i, v) ∈ [(Instr.semActivate fn n ctx remote, BitVec.ofNat 64 (2 ^ 62 + r + (ctx : Nat) % 4096 * 2 ^ 42)),
      (.semRemoteChange fn n remote, BitVec.ofNat 64 (2 ^ 62 + r + owner * 2 ^ 42)),
      (.semBreak fn n, BitVec.ofNat 64 (2 ^ 63 + owner * 2 ^ 42)), (.semFree fn n, 0)] → s.Serves fn (R.semCfg n) true →
    exec i s = .next (s.semCfgWrite n v)) ∧
  (∀ (s : State) (n : Fin 65536) (v : Word),
    let st := s.semState n
    let wanted := fld v 63 62
    let owner := fld v 53 42
    let same : Prop := wanted = st ∧ owner = s.fld (R.semCfg n) 53 42
    let u := if v.getLsbD 60 then s.clrFlag (R.semCfg n) 60 else s
    (same → st = 1 → s.semCfgWrite n v = u.putFlag (R.semCfg n) 61 (v.getLsbD 61)) ∧
    (same → st ≠ 1 → s.semCfgWrite n v = u) ∧
    (¬ same → st = 0 → wanted = 1 → s.fld (R.ctxCfg owner) 63 62 = 1 → s.semCfgWrite n v = (s.wr (R.semCfg n) (BitVec.ofNat 64
      (2 ^ 62 + (if v.getLsbD 61 then 2 ^ 61 else 0) + s.tenantOf owner * 2 ^ 54 + owner * 2 ^ 42))).semClear n) ∧
    (¬ same → st = 0 → wanted = 1 → s.fld (R.ctxCfg owner) 63 62 ≠ 1 → s.semCfgWrite n v = s.setFlag R.dbgSemStatus 0) ∧
    (¬ same → st = 1 → wanted = 2 → s.semCfgWrite n v = s.semBreak n none) ∧
    (¬ same → st = 1 ∨ st = 2 → wanted = 0 → s.semCfgWrite n v = s.semFree n) ∧
    (¬ same → ¬ (st = 0 ∧ wanted = 1) → ¬ (st = 1 ∧ wanted = 2) → ¬ ((st = 1 ∨ st = 2) ∧ wanted = 0) →
      s.semCfgWrite n v = s.setFlag R.dbgSemStatus 0)) ∧
  (∀ (s : State) (n : Nat), s.semWaiters n = [] →
    s.semBreak n none = (s.setWaiters n []).setFld (R.semCfg n) 63 62 2 ∧ s.semFree n = ((s.setWaiters n []).wr (R.semCfg n) 0).semClear n) ∧
  (∀ (s : State) (n : Nat) (ws : List Waiter), s.semWaiters n = ws →
    s.semBreak n none = ws.foldl (fun t w => t.wake w stSemBroken) ((s.setWaiters n []).setFld (R.semCfg n) 63 62 2) ∧
    s.semFree n = (ws.foldl (fun t w => t.wake w stSemBroken) ((s.setWaiters n []).wr (R.semCfg n) 0)).semClear n) ∧
  (∀ (s : State) (fn : Fin 64) (n : Fin 65536) (v : Word), s.Serves fn (R.semValue n) true →
    (s.semState n ≠ 1 → exec (.semForce fn n v) s = .next (s.setFlag R.dbgSemStatus 0)) ∧
    (s.semState n = 1 →
      let t := (s.wr (R.semValue n) (BitVec.ofNat 64 (fld v 47 0))).semStamp n 5 0 0 s.con.node 0
      let u := (t.count R.dbgSemForceCount 32 1)
      let w := u.fillLog R.dbgSemForceLog (BitVec.ofNat 64 (2 ^ 63 + (fn : Nat) * 2 ^ 56 + (n : Nat) * 2 ^ 40 + t.time40))
      exec (.semForce fn n v) s = .next
        ((w.trace ⟨0x08, 8, 0, 0, 0, (n : Nat) * 2 ^ 48 + s.semVal n, (fn : Nat) * 2 ^ 58 + fld v 47 0⟩).semServe n))) ∧
  (∀ (s : State) (fn : Fin 64) (n : Fin 65536), s.Serves fn R.dbgSemSel true →
    let t := (s.wr R.dbgSemSel (BitVec.ofNat 64 n)).clrFlag R.dbgSemSnap 31
    exec (.semSnapshot fn n) s = .next { t with sem := { t.sem with snapping := some (n : Nat), snap := t.semTake n } }) ∧
  (∀ s : State, (s.sem.snapping = none → exec .semSnapshotReady s = .next s) ∧
    (∀ n, s.sem.snapping = some n → let t := s.semShow s.sem.snap
      exec .semSnapshotReady s = .next { t with sem := { t.sem with snapping := none } })) ∧
  (∀ (s : State) (n i : Nat) (x : Waiter), s.Canon → i < 64 → (s.semWaiters n)[i]? = some x →
    let y := s.semTake n
    let t := s.semShow y
    y.cfg = s.rd (R.semCfg n) ∧ y.value = s.rd (R.semValue n) ∧ y.last = s.rd (R.semLast n) ∧ y.cookie = s.rd (R.semLastCookie n) ∧
    t.rd (R.dbgSemWaiter i) = s.waiterWord x ∧ t.rd (R.dbgSemWaiterCount i) = BitVec.ofNat 64 x.count ∧
    t.rd R.dbgSemSnap = BitVec.ofNat 64 (2 ^ 31 + (s.semWaiters n).length * 2 ^ 16 + min 64 (s.semWaiters n).length) ∧
    t.rd R.dbgSemLastTime = BitVec.ofNat 64 (SMap.get 0 s.sem.lastTime n) ∧ t = { s with regs := t.regs })

/-- A port takes a role, trains, goes down and tries again; frames, timetables, replays and CRC errors act as their rules say (12 R441, 12 R442, 12 R446, 12 R447, 12 R452, 12 R457, 12 R466, 12 R467, 12 R468, 12 R471, 12 R472, 15 R549); it takes in choices of the model: log 42, 43, 44, 63, 89, 101, 103. -/
def Obligations.PortsAndFrames : Prop :=
  (∀ (s : State) (fn : Fin 64) (p : Fin 8) (role : Fin 4), s.Serves fn (R.mlnPortCfg p) true →
    let free : Prop := (s.portState p = 0 ∨ s.portState p = 3) ∧ (role : Nat) ≤ 1 ∧ ((role : Nat) = 1 → s.facesMesh p = true)
    (free → exec (.portRoleWrite fn p role) s = .next ((s.wr (R.mlnPortCfg p) (BitVec.ofNat 64 role)).setPort p role 0)) ∧
    (¬ free → exec (.portRoleWrite fn p role) s = .next (s.setFlag R.mlnStatus 11))) ∧
  (∀ (s : State) (p : Fin 8) (peer : Option Peer) (i : Instr),
    (i = .portTrainingDone p peer ∧ s.portState p ≠ 1) ∨
      (i = .portRetrainAttempt p peer ∧ ¬ (s.portState p = 3 ∧ s.fld (R.mlnPortCfg p) 1 0 = 1)) → exec i s = .next s) ∧
  (∀ (s : State) (p : Fin 8) (peer : Option Peer) (i : Instr),
    (i = .portTrainingDone p peer ∧ s.portState p = 1) ∨
      (i = .portRetrainAttempt p peer ∧ s.portState p = 3 ∧ s.fld (R.mlnPortCfg p) 1 0 = 1) →
    (s.portUsable p = true → (s.trained p peer).portUp p = false → exec i s = .next ((s.portDown p).trained p peer)) ∧
    (s.portUsable p = false ∨ (s.trained p peer).portUp p = true → exec i s = .next (s.trained p peer))) ∧
  (∀ (s : State) (p : Fin 8) (peer : Option Peer),
    (peer = none → s.trained p peer = s.setPort p 3 0) ∧
    (∀ q, peer = some q → let t := s.setFld (R.mlnPortStatus p) 23 16 q.node.toNat
      let expected : Prop := q.node.toNat = stepTo s.con.node ((p : Nat) / 2) ∧ (q.port : Nat) = ((p : Nat) + 4) % 8
      (¬ expected → s.trained p peer = ((t.setPort p 3 0).setFlag (R.mlnPortStatus p) 4).setFlag R.mlnStatus 12) ∧
      (expected → t.portLanes p = 0 → s.trained p peer = (t.setPort p 3 0).clrFlag (R.mlnPortStatus p) 4) ∧
      (expected → t.portLanes p ≠ 0 → s.trained p peer = t.cameUp p q))) ∧
  (∀ (s : State) (p : Fin 8), (s.portUsable p = true → exec (.portDown p) s = .next (s.portDown p)) ∧
    (s.portUsable p = false → exec (.portDown p) s = .next s)) ∧
  (∀ s : State, let t := s.settleSlots.count R.mlnFrame 48 1
    let u := (if t.con.node = 0 then (t.setFlag R.mlnStatus 0).setFlag R.mlnStatus 1 else t).adoptWindows
    exec .frameBoundary s = .next
      (u.setMln { u.mln with slot := 0, frameAt := u.now, used := 0, lostSlots := 0, flows := u.mln.flows.map u.flowNextFrame }).reviveFlows) ∧
  (∀ (s : State) (heard : List Heard), let t := ((List.range 8).filter s.portUp).foldl (fun u p => (u.sendSlot p).payCredits p) s
    let v := heard.foldl (fun u h => h.credits.foldl (fun w e => w.creditBack h.port e) u) t
    let u := v.setMln { v.mln with slot := min 4095 (v.mln.slot + 1) }
    (u.con.node = 0 → exec (.controlWindow heard) s = .next (u.wr R.mlnRootDist 0xF00).reviveFlows) ∧
    (∀ h, u.con.node ≠ 0 → u.reference heard = some h → exec (.controlWindow heard) s = .next
      ((((u.wr R.mlnFrame (h.frame.setWidth 64)).wr R.mlnRootDist (BitVec.ofNat 64 ((h.port : Nat) * 256 + h.hops + 1))).setFlag
        R.mlnStatus 0).reviveFlows)) ∧
    (u.con.node ≠ 0 → u.reference heard = none →
      exec (.controlWindow heard) s = .next (((u.wr R.mlnRootDist 0xF00).clrFlag R.mlnStatus 0).declareFlows true))) ∧
  (∀ s : State, (s.mln.pending = none → exec .timetableInstall s = .next s) ∧
    (∀ x, s.mln.pending = some x →
      (s.mln.slot = 0 → x.activate ≤ s.fld R.mlnFrame 47 0 → exec .timetableInstall s = .next (s.installTimetable x)) ∧
      (s.mln.slot ≠ 0 ∨ s.fld R.mlnFrame 47 0 < x.activate → exec .timetableInstall s = .next s))) ∧
  (∀ (s : State) (p : Fin 8) (lane : Fin 8), exec (.blockCrcError p lane) s =
    .next ((((s.count (R.mlnPortCrcErr p) 32 1).detect 8 0 0 .corrected).partEvent 0 (8 * (p : Nat) + lane)).emit (.mlnReplay (p : Nat)))) ∧
  (∀ (s : State) (p : Fin 8) (again : Bool) (delayed : List Nat), let n := if again then SMap.get 0 s.mln.replays p + 1 else 1
    let t := (s.count (R.mlnPortRetry p) 32 1).hit 213 (0x5010 + (p : Nat)) 1
    let u := t.setMln { t.mln with replays := SMap.put 0 t.mln.replays p n }
    let late := delayed ++ (u.mln.leaving.filter (fun l => decide (l.port = (p : Nat)) && decide (l.msg.cls = 1))).map (fun l => l.msg.flow)
    let v := late.foldl (fun w f => w.declareFlow f 2 4 true) u
    ((n < 8 ∨ v.portUp p = false) → exec (.replayRequest p again delayed) s = .next v) ∧
    (8 ≤ n → v.portUp p = true → let w := (v.setMln { v.mln with replays := SMap.put 0 v.mln.replays p 0 }).setPort p 1 0
      exec (.replayRequest p again delayed) s = .next (w.setMln { w.mln with
        retraining := if v.mln.retraining.contains p then v.mln.retraining else v.mln.retraining ++ [(p : Nat)] }))) ∧
  (∀ (s : State) (p : Fin 8) (slot : Fin 4096), let owner := SMap.get 0xFFFF s.mln.slotMap (4096 * (p : Nat) + slot)
    (s.portState p ≠ 2 ∨ 0xFFFE ≤ owner → exec (.linkMaintOverrun p slot) s = .next s) ∧
    (s.portState p = 2 → owner < 0xFFFE → exec (.linkMaintOverrun p slot) s =
      .next (((s.setFlag R.pwrStatus 4).trace ⟨0x0E, 7, p, 0, 0, p, 0⟩).declareFlow owner 2 4 true)))

/-- Messages are accepted, forwarded, performed once and in order, acknowledged, and answered (12 R444, 12 R457, 12 R460, 12 R461, 12 R462, 12 R463, 12 R464, 12 R471, 11 R432); it takes in choices of the model: log 34, 42, 43, 80, 101, 102. -/
def Obligations.MainlineMessages : Prop :=
  (∀ (s : State) (m : Msg) (i : Instr) (typ : Nat), (i, typ) ∈ [(Instr.writeReceive m, 1), (.readReceive m, 2), (.remoteSignalReceive m, 4)] →
    let e := SMap.get 0 s.mln.expect m.src
    let ahead := (m.seq + 2 ^ 16 - e) % 2 ^ 16
    let u := m.size / 16
    let t := s.led 3 0 u
    let held := t.mln.hold.any (fun h => decide (h.src = m.src) && decide (h.seq = m.seq))
    (m.typ ≠ typ ∨ m.dst ≠ s.con.node → exec i s = .next s) ∧
    (m.typ = typ → m.dst = s.con.node → m.malformed = true → exec i s = .next ((s.count R.mlnRxMalformed 32 1).freed m)) ∧
    (m.typ = typ → m.dst = s.con.node → m.malformed = false → s.mln.needReset.contains m.src = true →
      exec i s = .next ((t.led 3 3 u).freed m)) ∧
    (m.typ = typ → m.dst = s.con.node → m.malformed = false → s.mln.needReset.contains m.src = false →
      (ahead = 0 → exec i s = .next ((t.performMsg m).performHeld m.src t.mln.hold.length)) ∧
      (0 < ahead → ahead < 2 ^ 15 → held = false → exec i s =
        .next ((t.led 3 2 u).setMln { (t.led 3 2 u).mln with hold := (t.led 3 2 u).mln.hold ++ [m] })) ∧
      (0 < ahead → 2 ^ 15 ≤ ahead ∨ held = true → exec i s = .next ((t.led 3 1 u).freed m)))) ∧
  (∀ (s : State) (m : Msg),
    (m.dst = s.con.node → exec (.messageForward m) s = .next s) ∧
    (m.dst ≠ s.con.node → m.malformed = true → exec (.messageForward m) s = .next ((s.count R.mlnRxMalformed 32 1).freed m)) ∧
    (∀ x, m.dst ≠ s.con.node → m.malformed = false →
      x = (if m.cls = 1 ∧ (∀ f, s.flow? m.flow = some f → f.state ≠ 1) then { m with cls := 2, flow := 0xFFFF } else m) →
      let t := (s.led 3 0 (m.size / 16)).led 3 2 (m.size / 16)
      (t.outPort x = none → exec (.messageForward m) s = .next (t.discard ⟨8, x, false, true, s.inPortOf m, m.lane⟩)) ∧
      (∀ p, t.outPort x = some p → exec (.messageForward m) s =
        .next (t.setMln { t.mln with leaving := t.mln.leaving ++ [⟨p, x, false, true, s.inPortOf m, m.lane⟩] })))) ∧
  (∀ (s : State) (l : Leaving), let u := l.msg.size / 16
    (l.credit = false → l.transit = true → s.discard l = ((s.led 3 3 u).unhold 3 u).owe l.from_ l.lane u)) ∧
  (∀ (s : State) (m : Msg), let done (u : Unacked) : Bool := decide (u.dest = m.src) && decide ((m.seq + 2 ^ 16 - u.seq) % 2 ^ 16 < 2 ^ 15)
    let p := s.passed m
    let n := (p.mln.unacked.filter done).length
    (m.typ ≠ 5 ∨ m.dst ≠ s.con.node → exec (.mlnAck m) s = .next s) ∧
    (m.typ = 5 → m.dst = s.con.node → m.malformed = true → exec (.mlnAck m) s = .next ((s.count R.mlnRxMalformed 32 1).freed m)) ∧
    (m.typ = 5 → m.dst = s.con.node → m.malformed = false → exec (.mlnAck m) s =
      .next (((p.setMln { p.mln with unacked := p.mln.unacked.filter (fun u => !done u) }).led 0 1 n).unhold 0 n))) ∧
  (∀ (s : State) (src : Fin 256),
    (s.dead (src : Nat) = true ∨ (src : Nat) = s.con.node ∨ SMap.get 0 s.mln.performed (src : Nat) = 0 → exec (.ackSend src) s = .next s) ∧
    (s.dead (src : Nat) = false → (src : Nat) ≠ s.con.node → SMap.get 0 s.mln.performed (src : Nat) ≠ 0 →
      exec (.ackSend src) s = .next (s.ackTo (src : Nat)))) ∧
  (∀ (s : State) (c : Fin 192) (n : Fin 8) (x : TSlot) (u : TSlot) (g : Option VmFault) (r : State),
    let v := s.rspRun (.tcopy c n) s.mln.reads.length
    (v.core c).tslot n = some x → x.fault = none → v.tcopyRun c n x x.turns = (u, g, r) →
    let sent := r.xferAccept (u.xfer r c) u.pos c (.tcopy c n) (r.flowsOf (((r.launch u.launch).map Launch.cmd).getD 0))
    (sent = none → exec (.messageAccept (.tcopy c n)) s = .next v) ∧
    (∀ p t, sent = some (p, none, t) → exec (.messageAccept (.tcopy c n)) s = .next (t.setTslot c n (some { u with pos := p }))) ∧
    (∀ p f t, sent = some (p, some f, t) → exec (.messageAccept (.tcopy c n)) s = .next (t.tcopyFails c n u f))) ∧
  (∀ (s : State) (n p : Nat) (x : Copy) (g : Option VmFault) (r : State), let v := s.rspRun (.copy n) s.mln.reads.length
    v.copy? n = some x → x.failed = none → v.copyRun n x = (p, g, r) → let sent := r.xferAccept x.xfer p 192 (.copy n) (r.flowsOf x.cmd)
    (sent = none → exec (.messageAccept (.copy n)) s = .next v) ∧
    (∀ q t, sent = some (q, none, t) → exec (.messageAccept (.copy n)) s = .next (t.setCopy n (some { x with pos := q }))) ∧
    (∀ q f t, sent = some (q, some f, t) →
      exec (.messageAccept (.copy n)) s = .next (t.setCopy n (some { x with pos := q, failed := some f.num })))) ∧
  (∀ (s : State) (m : Msg),
    (m.typ ≠ 3 ∨ m.dst ≠ s.con.node → exec (.readRsp m) s = .next s) ∧
    (m.typ = 3 → m.dst = s.con.node → m.malformed = true → exec (.readRsp m) s = .next ((s.count R.mlnRxMalformed 32 1).freed m)) ∧
    (m.typ = 3 → m.dst = s.con.node → m.malformed = false →
      let asked := s.mln.reads.find? (fun r => decide (r.tag = m.tag) && decide (r.dest = m.src) && r.got.isNone)
      let u := m.size / 16
      (asked = none → exec (.readRsp m) s = .next (s.passed m)) ∧
      (∀ r, asked = some r → exec (.readRsp m) s = .next ((((s.led 3 0 u).led 3 2 u).setMln { s.mln with
        reads := s.mln.reads.map (fun x => if x.tag = m.tag then { x with got := some m } else x) }).rspRun r.who s.mln.reads.length)))) ∧
  (∀ (s : State) (who : MlnReader) (fuel : Nat), let first := s.mln.reads.find? (fun r => decide (r.who = who))
    (first = none → s.rspRun who (fuel + 1) = s) ∧
    (∀ r, first = some r → r.got = none → s.rspRun who (fuel + 1) = s) ∧
    (∀ r m, first = some r → r.got = some m → s.rspPut r m = none → s.rspRun who (fuel + 1) = s) ∧
    (∀ r m t, first = some r → r.got = some m → s.rspPut r m = some t → s.rspRun who (fuel + 1) = t.rspRun who fuel)) ∧
  (∀ (s t : State) (r : MlnRead) (m : Msg) (x : Xfer),
    t = ((s.setMln { s.mln with reads := s.mln.reads.filter (fun x => !decide (x.tag = r.tag)) }).unhold 3 (m.size / 16) |>.led 3 1 (m.size / 16)
      |>.freed m) →
    (t.readerXfer r.who = none → s.rspPut r m = some t) ∧
    (t.readerXfer r.who = some x →
      (m.status ≠ 0 → s.rspPut r m = some ((t.rspRecord x r.pos (rspFault m.status)).readerFails r.who (rspFault m.status))) ∧
      (∀ f u, m.status = 0 → t.xferPut x r.pos m.data = (.fault f, u) → s.rspPut r m = some (u.readerFails r.who f)) ∧
      (∀ d off dev b u, m.status = 0 → t.xferPut x r.pos m.data = (.sendWrite d off dev b, u) → ∃ core flows,
        s.rspPut r m = u.mlnAccept (u.writeMsg (u.tenantOf x.user.ctx) d off dev b) core flows) ∧
      (∀ y u, m.status = 0 → t.xferPut x r.pos m.data = (y, u) → (∀ f, y ≠ .fault f) → (∀ d off dev b, y ≠ .sendWrite d off dev b) →
        s.rspPut r m = some u)))

/-- A NOTICE takes effect here and goes on where it is for another package; each kind changes what its rule says (12 R452, 12 R457, 12 R461, 12 R468, 12 R469, 12 R471); it takes in choices of the model: log 43. -/
def Obligations.MainlineNotices : Prop :=
  (∀ (s : State) (m : Msg) (i : Instr) (k : Nat) (act : State → State),
    (i, k) ∈ [(Instr.linkDown m, 1), (.linkUp m, 2), (.peerDown m, 3), (.flowLate m, 4), (.flowDown m, 5), (.mlnEpoch m, 6), (.pairReset m, 7)] →
    act = (match k with
      | 1 => State.hearLinkDown m | 2 => State.hearLinkUp m | 3 => State.hearPeerDown m | 4 => fun t => t.declareFlow (m.part 4 2) 2 4 false
      | 5 => State.hearFlowDown m | 6 => State.hearEpoch m | _ => State.hearPairReset m) →
    (m.typ ≠ 6 → exec i s = .next s) ∧
    (m.typ = 6 → m.malformed = true → exec i s = .next ((s.count R.mlnRxMalformed 32 1).freed m)) ∧
    (m.typ = 6 → m.malformed = false → m.part 0 1 ≠ k → exec i s = .next s) ∧
    (m.typ = 6 → m.malformed = false → m.part 0 1 = k →
      (m.dst = s.con.node → exec i s = .next (act (s.passed m))) ∧
      (m.dst ≠ s.con.node → exec i s = .next ((act s).passOn m m)))) ∧
  (∀ (s : State) (num st reason : Nat) (origin : Bool),
    (s.flow? num = none → s.declareFlow num st reason origin = s) ∧
    (∀ f, s.flow? num = some f → st ≤ f.state → s.declareFlow num st reason origin = s) ∧
    (∀ f, s.flow? num = some f → f.state < st →
      let late := if f.declared then f.late else min 0xFFFF (f.late + 1)
      let t := s.setFlow { f with state := st, reason := reason, late := late, declared := true }
      let u := if f.state = 1 then ((t.count R.mlnLateCount 32 1).setFlag R.mlnStatus 14).voidCmds (fun _ c => (t.cmdFlows c).contains num) else t
      (origin = false → s.declareFlow num st reason origin = u) ∧
      (origin = true → s.declareFlow num st reason origin =
        (f.nodes.filter (fun n => decide (n ≠ u.con.node) && !u.dead n)).foldl (fun v n =>
          v.notice (if st = 2 then 4 else 5) n v.con.node 0 num 0) u))) ∧
  (∀ (s : State) (m : Msg), m.dst = s.con.node →
    let ml := { s.mln with nextSeq := SMap.put 0 s.mln.nextSeq m.src 0, expect := SMap.put 0 s.mln.expect m.src 0 }
    let mm := { ml with performed := SMap.put 0 s.mln.performed m.src 0, refused := SMap.put 0 s.mln.refused m.src 0 }
    let t := s.setMln { mm with needReset := s.mln.needReset.filter (fun x => !decide (x = m.src)) }
    (s.mln.needReset.contains m.src = true → State.hearPairReset m s = t) ∧
    (s.mln.needReset.contains m.src = false → State.hearPairReset m s = t.notice 7 m.src t.con.node 0 0 0))

/-- Functions come, go and are reset; configuration, window and host reads answer as R480 to R491 say (13 R480, 13 R481, 13 R486, 13 R487, 13 R488, 13 R489, 13 R491, 10 R414, 14 R511, 20 R634, 20 R643, 20 R644); it takes in choices of the model: log 15, 38, 39, 61, 104. -/
def Obligations.FunctionsAndHostWindow : Prop :=
  (∀ (s : State) (fn : Fin 64),
    ((fn : Nat) = 0 ∨ s.fnExists fn = false → exec (.functionLevelReset fn) s = .next s) ∧
    ((fn : Nat) ≠ 0 → s.fnExists fn = true → exec (.functionLevelReset fn) s = .next (s.flrBegin fn).flrRun) ∧
    exec .pfFunctionLevelReset s = .next (s.flrBegin 0).flrRun ∧ exec .vfDisable s = .next s.vfOff.flrRun ∧
    s.flrBegin fn = { s with pci := { s.pci with flr := addOnce s.pci.flr fn } }.retireTenant fn) ∧
  (∀ (s : State) (num : Nat),
    (s.answers = false → exec .vfEnable s = .next s) ∧
    (s.answers = true → exec .vfEnable s = .next { s with pci := { s.pci with vfEnable := true } }) ∧
    (s.answers = false ∨ s.con.totalVfs < num → exec (.numvfsWrite num) s = .next s) ∧
    (s.answers = true → num ≤ s.con.totalVfs → exec (.numvfsWrite num) s = .next { s with pci := { s.pci with numVfs := num } })) ∧
  (∀ (s : State) (fn : Fin 64) (req : CfgReq),
    (s.answers = false → exec (.configRequest fn req) s = .next (s.emit .retry)) ∧
    (s.answers = true → s.fnExists fn = false → exec (.configRequest fn req) s = .next (s.aerLog.emit .unsupported)) ∧
    (s.answers = true → s.fnExists fn = true →
      (req = .read 0 → exec (.configRequest fn req) s = .next (s.emit (.config 0 (if (fn : Nat) = 0 then 0x96001F3B else 0x96011F3B)))) ∧
      (req = .read 8 → exec (.configRequest fn req) s = .next (s.emit (.config 8 0x120000A2))) ∧
      (∀ off, req = .read off → off ≠ 0 → off ≠ 8 → ∃ v, exec (.configRequest fn req) s =
        .next ({ s with freeCount := s.freeCount + 1 }.emit (.config off v))) ∧
      (∀ on mask, req = .msix on mask →
        let p := { s.pci with msixOn := SMap.put false s.pci.msixOn fn on, msixMask := SMap.put false s.pci.msixMask fn mask }
        exec (.configRequest fn req) s = .next ({ s with pci := p }.sendPending fn)) ∧
      (∀ v off, req = .timeout v off → exec (.configRequest fn req) s =
        .next { s with pci := { s.pci with timeout := SMap.put 0 s.pci.timeout fn ((v : Nat) + if off then 16 else 0) } }))) ∧
  (∀ (s : State) (fn : Fin 64) (d3 : Bool),
    (s.fnExists fn = false → exec (.powerStateChange fn d3) s = .next s) ∧
    (s.fnExists fn = true → exec (.powerStateChange fn d3) s =
      .next ({ s with pci := { s.pci with d3 := SMap.put false s.pci.d3 fn d3 } }.sendPending fn))) ∧
  (∀ (s : State) (off len : Nat) (data : MaskedBytes), let base := s.fld R.pciWinBase 55 0
    (s.windowOpen = false → exec (.hostWindowWrite off data) s = .next s ∧ exec (.hostWindowRead off len) s = .next s) ∧
    (s.windowOpen = true → s.flag R.pciWinCfg 8 = false → exec (.hostWindowWrite off data) s = .next (s.count R.pciWinDiscards 32 1) ∧
      exec (.hostWindowRead off len) s = .next (s.emit .unsupported)) ∧
    (s.windowOpen = true → s.flag R.pciWinCfg 8 = true →
      exec (.hostWindowWrite off data) s = .next ((enabledRuns data (off % 0x4000000)).foldl (fun t r => t.windowRun r) s) ∧
      (∀ b bad t, s.memRead (base + off % 0x4000000) len 5 s.windowSlot true = (b, bad, t) →
        exec (.hostWindowRead off len) s = .next ((t.poisonIf bad).emit (.window b bad)))) ∧
    (∀ n b, (s.inPool (base + n) b.length = true → s.windowRun (n, b) = s.sealHit (base + n)) ∧
      (s.inPool (base + n) b.length = false → s.windowRun (n, b) = s.memWrite (base + n) b 5 s.windowSlot true))) ∧
  (∀ (s : State) (tag : Nat) (data : List Byte) (e : HostEnd),
    exec (.hostReadCompletion tag data e) s = .next (s.hostEnds tag data e)) ∧
  (∀ (s : State) (tag : Nat), let asked := s.pci.reqs.find? (fun r => decide (r.tag = tag))
    (asked = none → exec (.hostReadTimeout tag) s = .next s) ∧
    (∀ r, asked = some r → let v := SMap.get 0 s.pci.timeout r.fn
      (16 ≤ v ∨ s.now < r.sent + timeoutFloor v → exec (.hostReadTimeout tag) s = .next s) ∧
      (v < 16 → r.sent + timeoutFloor v ≤ s.now → exec (.hostReadTimeout tag) s = .next (s.hostEnds tag [] .timeout)))) ∧
  (∀ (s : State) (tag : Nat) (data : List Byte) (e : HostEnd), let asked := s.pci.reqs.find? (fun r => decide (r.tag = tag))
    (asked = none → s.hostEnds tag data e = s) ∧
    (∀ r, asked = some r → let t := { s with pci := { s.pci with reqs := s.pci.reqs.filter (fun x => !decide (x.tag = tag)) } }
      (∀ c slot op, r.who = .thread c slot op → s.hostEnds tag data e = (t.hostError r.fn 1 (t.slotCtx c slot) r.addr e).updCore c
        (fun k => k.answeredBy tag op r.len data e)) ∧
      (∀ c slot line, r.who = .fetch c slot line → e = .ok →
        s.hostEnds tag data e = (t.hostError r.fn 1 (t.slotCtx c slot) r.addr e).icachePut c line (data ++ leBytes (128 - data.length) 0)) ∧
      (∀ c slot line, r.who = .fetch c slot line → e ≠ .ok →
        s.hostEnds tag data e = (t.hostError r.fn 1 (t.slotCtx c slot) r.addr e).consumedPoison.fetchFault c slot 0x06))) ∧
  (∀ (s : State) (speed : Fin 16) (width : Byte) (flit : Bool),
    (s.boot.perst = true ∨ s.bootStep < 4 ∨ s.boot.stopped = true → exec (.pcieLinkUp speed width flit) s = .next s) ∧
    (s.boot.perst = false → 4 ≤ s.bootStep → s.boot.stopped = false → exec (.pcieLinkUp speed width flit) s =
      .next ((((s.setFlag R.pciStatus 10).putFlag R.pciStatus 11 flit).setFld R.pciStatus 15 12 speed).setFld R.pciStatus 23 16 width.toNat)))

/-- The steps of the start run in their order, each where its condition holds: power, firmware, converters, PLL, stacks, consist (20 R634, 20 R635, 01 R31, 01 R32, 01 R33, 01 R34, 02 R61, 17 R578, 17 R580); it takes in choices of the model: log 7, 11, 13, 66. -/
def Obligations.StartUp : Prop :=
  (∀ (s : State) (factory : Factory) (straps : Fin 4), let t := { s with boot := { s.boot with power := true, straps := (straps : Nat) } }.toStep 1
    (s.boot.power = true → exec (.standbyPowerOn factory straps) s = .next s) ∧
    (s.boot.power = false → s.boot.made = true → exec (.standbyPowerOn factory straps) s = .next t) ∧
    (s.boot.power = false → s.boot.made = false → s.Canon → ∃ u, exec (.standbyPowerOn factory straps) s = .next u ∧ u.boot.made = true ∧
      u.bootStep = 1 ∧ u.rd R.secSerial = factory.serial ∧ u.sec.fuses.fwCount = factory.fwCount ∧ u.sec.fuses.conCount = factory.conCount ∧
      u.mgt.flash = factory.flash.foldl (fun m e => SMap.put 0xFF m e.1 e.2) [] ∧
      u.sec = { s.sec with fuses := u.sec.fuses, ownerKeys := factory.ownerKeys.take 8 } ∧
      u = { s with regs := u.regs, boot := u.boot, mgt := { s.mgt with flash := u.mgt.flash }, sec := u.sec })) ∧
  (∀ (s : State) (badA badB : Bool),
    let skip : Prop := s.boot.power = false ∨ (s.mgt.running.isSome = true ∧ (s.fld R.conStatus 3 0 ≠ 1 ∨ s.boot.stopped = true))
    (skip → exec (.bootRomVerify badA badB) s = .next s) ∧
    (∀ i, ¬ skip → s.firmware badA badB = some i → let img := slotImage s.mgt.flash (fwSlot i) 0x1000000
      let t := { s with mgt := { s.mgt with running := some i }, sec := { s.sec with fwMeas := measure img, fwVersion := num img 0x1C 4 } }
      let u := ((t.setFlag R.mgtStatus 0).clrFlag R.mgtStatus 2).setFld R.mgtStatus 9 8 i
      exec (.bootRomVerify badA badB) s = .next (if u.bootStep < 2 then u.toStep 2 else u)) ∧
    (¬ skip → s.firmware badA badB = none → ∃ a b, let t := { s with mgt := { s.mgt with running := none } }
      let u := (t.clrFlag R.mgtStatus 0).setFlag R.mgtStatus 2
      exec (.bootRomVerify badA badB) s = .next ((u.logEvent 0x08 u.mgt.fwPref a).logEvent 0x08 (1 - u.mgt.fwPref) b))) ∧
  (∀ s : State, (s.mgt.running = none ∨ s.boot.main = true → exec .mainInputValid s = .next s) ∧
    (s.mgt.running.isSome = true → s.boot.main = false →
      exec .mainInputValid s = .next { s with boot := { s.boot with main := true, converters := false, pll := 0 } }) ∧
    (s.boot.main = false ∨ s.boot.converters = true → ∀ ok, exec (.convertersSettled ok) s = .next s) ∧
    (s.boot.main = true → s.boot.converters = false →
      exec (.convertersSettled true) s = .next ({ s with boot := { s.boot with converters := true, pll := 0 } }.toStep 3) ∧
      exec (.convertersSettled false) s = .next (s.mainFail 0)) ∧
    (s.bootStep ≠ 3 → exec .pllLockTimeout s = .next s ∧ exec .rootPllLock s = .next s) ∧
    (s.bootStep = 3 → s.boot.pll < 3 → exec .pllLockTimeout s = .next { s with boot := { s.boot with pll := s.boot.pll + 1 } }) ∧
    (s.bootStep = 3 → 3 ≤ s.boot.pll → exec .pllLockTimeout s = .next (s.mainFail 0)) ∧
    (s.bootStep = 3 → let t := (({ s with dbg := { s.dbg with mxBase := [] } }.wr R.clkTsNow 0).setFlag R.clkStatus 4).putFlag R.clkStatus 7 s.boot.lossStart
      exec .rootPllLock s = .next ({ t with boot := { s.boot with pll := 0, lossStart := false } }.toStep 4))) ∧
  (∀ (s : State) (failed : Byte), let skip : Prop := s.bootStep ≠ 4 ∨ s.fld R.conStatus 3 0 ≠ 1 ∨ s.boot.stopped = true ∨
      (s.boot.waiting = true ∧ s.boot.perst = true)
    (skip → exec (.stackTrainingDone failed) s = .next s) ∧
    (¬ skip → failed = 0 → s.Canon → ∃ t, exec (.stackTrainingDone failed) s = .next t ∧ t.bootStep = 5 ∧
      (∀ i < 8, t.rd (R.memSpareLeft i) = BitVec.ofNat 64 (2048 - SMap.get 0 s.mgt.spares i)) ∧
      t = { s with regs := t.regs, boot := { s.boot with waiting := false } }) ∧
    (¬ skip → failed ≠ 0 → exec (.stackTrainingDone failed) s = .next (((List.range 8).filter (fun i => failed.toNat.testBit i)).foldl
      (fun t i => t.logEvent 0x0D i 3) ((s.setFlag R.pwrBootStatus 0).setFld R.pwrBootStatus 15 8 failed.toNat)).noConsist)) ∧
  (∀ (s : State) (badA badB : Bool), let skip : Prop := s.bootStep ≠ 5 ∨ s.fld R.conStatus 3 0 ≠ 1 ∨ s.boot.stopped = true
    let one := s.fld R.conBootSlot 0 0
    let bad (i : Nat) : Bool := if i = 0 then badA else badB
    (skip → exec (.consistLoad badA badB) s = .next s) ∧
    (¬ skip → s.baseFault one (bad one) = none → exec (.consistLoad badA badB) s = .next (s.baseTaken one)) ∧
    (∀ e, ¬ skip → s.baseFault one (bad one) = some e → let t := s.baseRefused one e
      (t.baseFault (1 - one) (bad (1 - one)) = none →
        exec (.consistLoad badA badB) s = .next ((t.baseTaken (1 - one)).raiseCause 0 8)) ∧
      (∀ f, t.baseFault (1 - one) (bad (1 - one)) = some f → let u := t.baseRefused (1 - one) f
        exec (.consistLoad badA badB) s =
          .next ((u.logEvent 0x08 one (e.2 * 2 ^ 16 + e.1)).logEvent 0x08 (1 - one) (f.2 * 2 ^ 16 + f.1)).noConsist))) ∧
  (∀ (s : State) (bad : Bool), let skip : Prop := s.bootStep ≠ 7 ∨ s.fld R.conStatus 3 0 ≠ 1 ∨ s.boot.stopped = true
    let n := s.fld R.conStartSlot 3 0
    let img := slotImage s.mgt.flash (ovlSlot n) 0x100000
    (skip → exec (.startOverlay bad) s = .next s) ∧
    (¬ skip → n = 0xF → exec (.startOverlay bad) s = .next (s.showOverlay 0xF none).startRun) ∧
    (∀ e, ¬ skip → n ≠ 0xF → s.verifySlot (ovlSlot n) 0x100000 2 s.conCounter bad = some e →
      exec (.startOverlay bad) s = .next ((s.conFail e).showOverlay 0xF none).startRun) ∧
    (¬ skip → n ≠ 0xF → s.verifySlot (ovlSlot n) 0x100000 2 s.conCounter bad = none →
      exec (.startOverlay bad) s = .next ((s.loadFields s.baseImage (some img) true).showOverlay n (some img)).startRun)) ∧
  (∀ s : State, let t := { s with boot := { s.boot with perst := false }, tap := { s.tap with driving := false } }
    exec .perstDeassert s = .next (if t.bootStep = 8 then t.toStep 9 else t) ∧
    (s.boot.main = true → exec .thermtripRelease s = .next s) ∧
    (s.boot.main = false → exec .thermtripRelease s = .next { s with boot := { s.boot with trip := false } }) ∧
    exec .standbyCrystalStop s = .next (s.clrFlag R.clkStatus 6))

/-- Loss of the PLL or of power clears all but what R634 and R638 keep; warm resets, the drain and unit resets run their steps (20 R634, 20 R636, 20 R637, 20 R638, 20 R640, 20 R641, 20 R645, 20 R648, 15 R535, 02 R61, 21 R656); it takes in choices of the model: log 66, 67, 89. -/
def Obligations.ResetsAndPowerLoss : Prop :=
  (∀ s : State, let t := ((s.clearMain false).resetCause 8 s.drained).clrFlag R.clkStatus 4
    (s.bootStep < 4 → exec .rootPllLockLoss s = .next s) ∧
    (4 ≤ s.bootStep → exec .rootPllLockLoss s =
      .next (({ t with boot := { t.boot with lossStart := true, pll := 0, warm := none } }.toStep 3).alert 3 |>.withFree fun r u => u.logEvent 0x01 0 r)) ∧
    (s.boot.main = false → exec .mainPowerLoss s = .next s ∧ exec .mainInputOvervoltage s = .next s) ∧
    (s.boot.main = true → s.drained = true → exec .mainPowerLoss s = .next (s.powerOff.withFree fun r u => u.logEvent 0x0B 0 r)) ∧
    (s.boot.main = true → s.drained = false → exec .mainPowerLoss s = .next (s.powerOff.logEvent 0x0C 0 0)) ∧
    (s.boot.main = true → exec .mainInputOvervoltage s = .next (s.powerOff.logEvent 0x0C 0 1))) ∧
  (∀ (s : State) (unit : HeatUnit), let u := unit.num
    (s.boot.main = false ∨ s.tripped u = false → exec (.thermalTrip unit) s = .next s) ∧
    (s.boot.main = true → s.tripped u = true → ∃ n, let t := s.powerOff
      let v := { t with boot := { t.boot with trip := true }, freeCount := t.freeCount + 1 }
      exec (.thermalTrip unit) s = .next (v.logEvent 0x04 (if u = 10 then 0 else if 2 ≤ u then u - 2 else u) n))) ∧
  (∀ s : State, s.Canon →
    (s.boot.power = false → exec .standbyPowerLoss s = .next s) ∧
    (s.boot.power = true → ∃ t, exec .standbyPowerLoss s = .next t ∧ t.bootStep = 0 ∧ t.boot.power = false ∧ t.mgt.running = none ∧
      t.mgt.events = [] ∧ t.mgt.flash = s.powerOff.mgt.flash ∧ t.sec.fuses = s.sec.fuses ∧ t.boot.perst = s.boot.perst ∧ t.boot.made = s.boot.made)) ∧
  (∀ (s : State) (warm : Bool), s.Canon → let t := s.clearMain warm
    t.cores = [] ∧ t.mem.l2 = [] ∧ t.dsp = dspReset ∧ t.eth = ethReset ∧ t.mln = mlnReset ∧ t.pts = ptsReset ∧ t.trn = trnReset ∧
      t.pci = pciReset ∧ t.sem = semReset ∧ t.con = conReset ∧ t.sec.fuses = s.sec.fuses ∧
    (∀ off, off ≠ R.mgtStatus → keptAlways off = false → (warm = true → keptWarm s.boot.startWritten off = false) → t.rd off = resetOf off)) ∧
  (∀ s : State,
    (s.boot.perst = true → exec .perstAssert s = .next s ∧ exec .hotReset s = .next s) ∧
    (s.boot.perst = false → exec .perstAssert s = .next ({ s with boot := { s.boot with perst := true } }.warmStart false) ∧
      exec .hotReset s = .next (s.warmStart true)) ∧
    (∀ hot, (s.bootStep < 4 → s.warmStart hot = s) ∧ (4 ≤ s.bootStep → s.boot.warm = none → s.warmStart hot = s.warmBegin hot)) ∧
    (s.boot.stopped = false → exec .warmResetDomainReset s = .next s) ∧
    (s.boot.stopped = true → let u := s.finishStores.finishMainline.finishCaches
      let t := ((u.clearMain true).resetCause (if s.boot.warm = some true then 4 else 2) s.drained).toStep 4
      exec .warmResetDomainReset s = .next { t with boot := { t.boot with waiting := true } }) ∧
    (s.boot.drain = false ∨ s.entriesGone = false → exec .drainDone s = .next s) ∧
    (s.boot.drain = true → s.entriesGone = true → let t := s.finishStores.finishMainline.finishCaches.logFlush
      exec .drainDone s = .next (({ t with boot := { t.boot with drain := false } }.setFlag R.pwrDrain 1).raiseCause 0 14)) ∧
    exec .unitResetDone s = .next ({ s with boot := { s.boot with unit := none } }.clrFlag R.pwrUnitReset 30)) ∧
  (∀ (s : State) (fn : Fin 64), s.Serves fn R.pwrDrain true →
    (s.boot.drain = true ∨ s.drained = true → exec (.drainRequest fn) s = .next s) ∧
    (s.boot.drain = false → s.drained = false → exec (.drainRequest fn) s = .next ({ s with boot := { s.boot with drain := true } }.stopAll))) ∧
  (∀ (s : State) (fn : Fin 64) (index : Byte) (i : Instr) (kind : Nat), s.Serves fn R.pwrUnitReset true →
    let n := index.toNat
    let t := (s.setFld R.pwrUnitReset 11 8 kind).setFld R.pwrUnitReset 7 0 n
    let u := { t with boot := { t.boot with unit := some (kind, n) } }.setFlag R.pwrUnitReset 30
    let link := if u.flag R.ethStatus (8 + n) then (u.clrFlag R.ethStatus (8 + n)).raiseCause 0 13 else u
    ∀ (free : Bool) (v : State), (i, kind, free, v) ∈ [
      (Instr.coreReset fn index, 1, decide (n < 192) && s.coreIdle n, u.resetCore n),
      (.clusterReset fn index, 2, decide (n < 16) && (coresOf n).all s.coreIdle && !s.stepOpen n, u.resetCluster n),
      (.mainlinePortReset fn index, 3, decide (n < 8) && decide (s.fld (R.mlnPortCfg n) 1 0 = 1),
        ((u.portDown n).setPort n 1 0).crossingReset (fun e => e = (5, 0))),
      (.ethernetPortReset fn index, 4, decide (n < 2) && s.flag (R.ethPortCfg n) 55, link)] →
    (s.flag R.pwrUnitReset 30 = true ∨ free = false → exec i s = .next (s.setFlag R.pwrUnitReset 29)) ∧
    (s.flag R.pwrUnitReset 30 = false → free = true → exec i s = .next v)) ∧
  (∀ (s : State) (sel : Nat × Nat → Bool), let r := Config.free s.freeCount
    let u := { s with freeCount := s.freeCount + 1 }
    ((∀ e ∈ s.mem.fenced, sel e = false) → s.crossingReset sel = s) ∧
    ((∃ e ∈ s.mem.fenced, sel e = true) → s.crossingReset sel = if r % 2 = 1 then
      { u with mem := { u.mem with fenced := u.mem.fenced.filter (fun e => !sel e) } } else u))

/-- BAR0 takes aligned accesses of 4 and 8 bytes; any other answers Unsupported Request and leaves every register as it was (00 R5). -/
def Obligations.MisalignedAccessesAreUnsupported : Prop :=
  ∀ (s : State) (fn : Fin 64) (off size : Nat) (v : Word), off < 0x2000000 →
    let aligned : Prop := (size = 4 ∨ size = 8) ∧ off % size = 0
    (¬ aligned → exec (.registerWrite fn off size v) s = .next (s.emit .unsupported) ∧
      exec (.rcCounterRead fn off size) s = .next (s.emit .unsupported) ∧ ∀ r, (s.emit .unsupported).rd r = s.rd r) ∧
    (aligned → let r := off / 8 * 8
      let m : Word := if size = 8 then 0xFFFFFFFFFFFFFFFF else if off % 8 = 4 then 0xFFFFFFFF00000000 else 0xFFFFFFFF
      (s.Serves fn r true → r ≠ R.cchSetwayCmd → r ≠ R.dbgMemData → exec (.registerWrite fn off size v) s =
        .next (s.regStore fn r ⟨(if size = 4 ∧ off % 8 = 4 then v <<< 32 else v) &&& m, m⟩)) ∧
      (∀ x t, s.Serves fn r false → r ≠ R.dbgMemData → s.regTake fn r m = (x, t) →
        exec (.rcCounterRead fn off size) s = .next (t.emit (.answer off (if size = 4 ∧ off % 8 = 4 then x >>> 32 else x).toNat))))

/-- A write of SEM_VALUE forces an ACTIVE semaphore for the physical function or its tenant's, and serves its waiters; else busy (11 R435). -/
def Obligations.ForcedSemaphoreValues : Prop :=
  (∀ (s : State) (fn : Fin 64) (n : Fin 65536) (v : Word), s.Canon → s.fnExists fn = true → SMap.get false s.pci.d3 fn = false → s.answers = true →
    s.fld R.conStatus 3 0 ≠ 0 → s.drained = false →
    ((fn : Nat) = 0 ∨ s.fld (R.semCfg n) 59 54 = fn →
      (s.semState n = 1 → ∃ u : State, exec (.semForce fn n v) s = .next (u.semServe n) ∧ u.semVal n = fld v 47 0 ∧ u.semWaiters n = s.semWaiters n) ∧
      (s.semState n ≠ 1 → exec (.semForce fn n v) s = .next (s.setFlag R.dbgSemStatus 0))) ∧
    ((fn : Nat) ≠ 0 → s.fld (R.semCfg n) 59 54 ≠ fn → ∃ u : State, exec (.semForce fn n v) s = .next u ∧ u.semVal n = s.semVal n ∧
      u.sem = s.sem))

/-- A write changes a register's bits by their access codes; a read clears what it counts; refused accesses change nothing they name (00 R6, 00 R7, 00 R8, 05 R217, 11 R421, 13 R482, 17 R589, 19 R631, 20 R641); it takes in choices of the model: log 16, 17, 71. -/
def Obligations.RegistersReadAndWritten : Prop :=
  (∀ (w : RegWrite) (fs : List RegField) (old : Word) (i : Nat), i < 64 → w.raw &&& ~~~w.mask = 0 →
    let rw := (accMask fs .rw).getLsbD i
    let clr := (accMask fs .rw1c).getLsbD i
    let set := (accMask fs .rw1s).getLsbD i
    let got := (w.plain fs old).getLsbD i
    (rw = true → clr = false → set = false → got = if w.mask.getLsbD i then w.raw.getLsbD i else old.getLsbD i) ∧
    (rw = false → clr = true → set = false → got = (old.getLsbD i && !w.raw.getLsbD i)) ∧
    (rw = false → clr = false → set = true → got = (old.getLsbD i || w.raw.getLsbD i)) ∧
    (rw = false → clr = false → set = false → got = old.getLsbD i)) ∧
  (∀ (s : State) (fn off : Nat) (m : Word),
    (s.coreLocked off = true → s.regTake fn off m = (0, s.setFlag R.secStatus 13)) ∧
    (∀ r, s.coreLocked off = false → off ≠ R.secNonce → findReg off = some r →
      let rc := accMask r.fields .rc &&& m
      let t := s.mxLatch off
      (s.regTake fn off m).1 = s.view fn off &&& fieldsMask r.fields &&& ~~~accMask r.fields .wo &&& m ∧
      (rc = 0 → (s.regTake fn off m).2 = t) ∧ (rc ≠ 0 → (s.regTake fn off m).2 = t.wr off (t.rd off &&& ~~~rc)))) ∧
  (∀ (s : State) (fn : Fin 64) (c : Fin 192) (r : RegRow), s.Serves fn (R.coreMxStep c) false → s.coreLocked (R.coreMxStep c) = false →
    findReg (R.coreMxStep c) = some r → accMask r.fields .rc = 0 → s.Canon → ∃ (v : Nat) (t : State), exec (.mxCounterLatch fn c 8) s = .next (t.emit (.answer (R.coreMxStep c) v)) ∧
      (t.core c).mx.latched = [s.rd (R.coreMxBubble c), s.rd (R.coreMxFreezeA c), s.rd (R.coreMxFreezeB c), s.rd (R.coreMxFreezeDrain c), BitVec.ofNat 64 (s.mxIdle c)] ∧
      t = s.setCore c { s.core c with mx := (t.core c).mx }) ∧
  (∀ (s : State) (fn : Fin 64) (v : Word), s.Serves fn R.dbgMemData false → s.Serves fn R.dbgMemData true →
    let a := (s.rd R.dbgMemAddr).toNat
    let there (t : State) (x : Word) : Host.Outcome State Fault Refusal := .next (t.emit (.answer R.dbgMemData x.toNat))
    (s.unlocked.testBit 1 = false → exec (.debugMemoryRead fn 8) s = there (s.setFlag R.secStatus 13) 0 ∧
      exec (.debugMemoryWrite fn 8 v) s = .next (s.setFlag R.secStatus 13)) ∧
    (s.unlocked.testBit 1 = true → a % 8 = 0 → inLocal a 8 = true →
      (∀ b t, s.memRead a 8 7 s.debugSlot true = (b, false, t) → exec (.debugMemoryRead fn 8) s =
        there t (BitVec.ofNat 64 (leNat b) &&& 0xFFFFFFFFFFFFFFFF)) ∧
      (∀ b t, s.memRead a 8 7 s.debugSlot true = (b, true, t) → exec (.debugMemoryRead fn 8) s = there (t.setFlag R.dbgMemStatus 1) 0) ∧
      exec (.debugMemoryWrite fn 8 v) s = .next (s.memWrite a (leBytes 8 v.toNat) 7 s.debugSlot true)) ∧
    (s.unlocked.testBit 1 = true → a % 8 ≠ 0 ∨ (inLocal a 8 = false ∧ inAlias a = false) →
      exec (.debugMemoryRead fn 8) s = there (s.setFlag R.dbgMemStatus 0) 0 ∧ exec (.debugMemoryWrite fn 8 v) s = .next (s.setFlag R.dbgMemStatus 0))) ∧
  (∀ (s : State) (fn : Fin 64) (off size : Nat) (v : Word), goodAccess off size = true → off / 8 * 8 ≠ R.cchSetwayCmd →
    let got := exec (.rcCounterRead fn off size) s
    let put := exec (.registerWrite fn off size v) s
    let rd := s.reach fn (off / 8 * 8) false
    let wr := s.reach fn (off / 8 * 8) true
    (rd = .refused → got = .next ((s.denied fn).emit (.answer off 0))) ∧ (wr = .refused → put = .next (s.denied fn)) ∧
    (rd = .unsupported → got = .next (s.emit .unsupported)) ∧ (wr = .unsupported → put = .next (s.emit .unsupported)) ∧
    (rd = .absent → got = .next s) ∧ (wr = .absent → put = .next s) ∧ (rd = .foreign → got = .next (s.emit (.answer off 0))) ∧
    (wr = .foreign → put = .next s) ∧ (wr = .semRefused → put = .next (s.setFlag R.dbgSemStatus 0)) ∧
    (rd = .noFunction → got = .next (s.aerLog.emit .unsupported)) ∧ (wr = .noFunction → put = .next s.aerLog) ∧
    (s.mgtCut (off / 8 * 8) = true → (rd = .acts → got = .next (s.emit (.poisoned off))) ∧ (wr = .acts → put = .next (s.rled 3 1))))

/-- A switch is asked for, verified, applied at the quiesce point or abandoned; clock and crossing events show and are logged (01 R35, 01 R36, 01 R39, 01 R43, 08 R326, 02 R56, 02 R67, 02 R70, 02 R75, 16 R556); it takes in choices of the model: log 11, 68, 78, 81, 82, 86, 87, 88. -/
def Obligations.ConsistSwitchesAndClocks : Prop :=
  (∀ (s : State) (fn : Fin 64) (v : Word), s.Serves fn R.conControl true →
    let t := s.wr R.conControl (v &&& 0xF10#64)
    let run : Prop := s.fld R.conStatus 3 0 = 3 ∨ s.fld R.conStatus 3 0 = 4
    let st := t.fld R.conStatus 3 0
    let slot := fld v 11 8
    let a := (t.rd R.conOvlAddr).toNat
    let len := (t.rd R.conOvlLen).toNat
    let u0 := t.setFld R.conStatus 3 0 3
    let u := { u0 with con := { u0.con with
      next := none, asked := t.now, reqSlot := slot, reqMem := v.getLsbD 4, reqAddr := a, reqLen := len, quiet := false } }
    (v.getLsbD 0 = false → exec (.switchRequest fn v) s = .next s) ∧
    (v.getLsbD 0 = true → run → exec (.switchRequest fn v) s = .next (s.setFlag R.conStatus 15)) ∧
    (v.getLsbD 0 = true → ¬ run → v.getLsbD 4 = false → 8 ≤ slot → slot ≤ 14 → exec (.switchRequest fn v) s = .next (t.setFlag R.conStatus 14)) ∧
    (v.getLsbD 0 = true → ¬ run → st ≠ 2 → v.getLsbD 4 = true ∨ slot < 8 ∨ slot = 15 → exec (.switchRequest fn v) s = .next t) ∧
    (v.getLsbD 0 = true → ¬ run → st = 2 → v.getLsbD 4 = false → slot < 8 ∨ slot = 15 → exec (.switchRequest fn v) s = .next u.markQuiet) ∧
    (v.getLsbD 0 = true → ¬ run → st = 2 → v.getLsbD 4 = true →
      (u.unlocked.testBit 3 = false → exec (.switchRequest fn v) s = .next ((u.setFlag R.secStatus 13).abandon (0xF, 0))) ∧
      (u.unlocked.testBit 3 = true → a % 256 ≠ 0 ∨ localEnd < a + len → exec (.switchRequest fn v) s = .next (u.abandon (2, 0))) ∧
      (u.unlocked.testBit 3 = true → a % 256 = 0 → a + len ≤ localEnd → exec (.switchRequest fn v) s = .next u.markQuiet))) ∧
  (∀ s : State, (s.fld R.conStatus 3 0 = 3 → s.switchQuiet = true → s.markQuiet = { s with con := { s.con with quiet := true } }) ∧
    (s.fld R.conStatus 3 0 ≠ 3 ∨ s.switchQuiet = false → s.markQuiet = s)) ∧
  (∀ (s : State) (bad : Bool), let q := s.markQuiet
    let writing : Prop := ∃ u, s.mgt.update = some u ∧ u.writing = true
    let img := slotImage q.mgt.flash (ovlSlot q.con.reqSlot) 0x100000
    let skip : Prop := s.fld R.conStatus 3 0 ≠ 3 ∨ s.con.next.isSome = true ∨ (s.con.reqMem = false ∧ writing)
    (skip → exec (.overlayVerifyDone bad) s = .next s) ∧
    (¬ skip → q.con.reqMem = false → q.con.reqSlot = 0xF →
      exec (.overlayVerifyDone bad) s = .next { q with con := { q.con with next := some ([], 0) } }) ∧
    (¬ skip → q.con.reqMem = false → q.con.reqSlot ≠ 0xF → let why := verifyImage (q.signers 2) img bad 0x100000 2 q.conCounter q.baseImage
      (∀ e, why = some e → exec (.overlayVerifyDone bad) s = .next (q.abandon e)) ∧
      (why = none → exec (.overlayVerifyDone bad) s = .next { q with con := { q.con with next := some (Mem.store [] 0 img, img.length) } })) ∧
    (∀ b p t, ¬ skip → q.con.reqMem = true → let room := min q.con.reqLen 0x100000
      q.memRead q.con.reqAddr room 7 0 true = (b, p, t) →
      let x := b.take (max 64 (imgLen b))
      let w := t.poisonIf p
      let why := verifyImage (w.signers 2) x p room 2 w.conCounter w.baseImage
      (∀ e, why = some e → exec (.overlayVerifyDone bad) s = .next (w.abandon e)) ∧
      (why = none → exec (.overlayVerifyDone bad) s = .next { w with con := { w.con with next := some (Mem.store [] 0 x, x.length) } }))) ∧
  (∀ (s : State) (e : Nat × Nat), let t := (((s.conFail e).setFld R.conStatus 3 0 2).setFlag R.conStatus 12).raiseCause 0 14
    s.abandon e = { t with con := { t.con with next := none } }) ∧
  (∀ s : State, let lim := (s.rd R.conQuiesceLimit).toNat
    let reached : Prop := s.con.quiet = true ∨ s.switchQuiet = true
    (s.fld R.conStatus 3 0 = 3 → lim ≠ 0 → s.con.asked + 1000 * lim ≤ s.now → ¬ reached → exec .quiesceTimeout s = .next (s.abandon (0xE, 0))) ∧
    (s.fld R.conStatus 3 0 ≠ 3 ∨ lim = 0 ∨ s.now < s.con.asked + 1000 * lim ∨ reached → exec .quiesceTimeout s = .next s) ∧
    (s.con.next = none → exec .switchApply s = .next s) ∧
    (∀ m len, s.con.next = some (m, len) →
      (s.fld R.conStatus 3 0 ≠ 3 ∨ s.switchQuiet = false → exec .switchApply s = .next s) ∧
      (s.fld R.conStatus 3 0 = 3 → s.switchQuiet = true → exec .switchApply s =
        .next (s.switchTo (if s.con.reqMem then 8 else s.con.reqSlot) (if len = 0 then none else some (m.bytes 0 len)))))) ∧
  (∀ (s : State) (fn : Fin 64) (mirror : Bool), s.Serves fn R.trnMode true →
    let denied : Prop := mirror = true ∧ s.flag R.trnMode 1 = false
    let quiet : Prop := s.quiesced = true ∧ s.cmdList = []
    (¬ denied → quiet → exec (.modeSwitch fn mirror) s = .next (s.putFlag R.trnMode 0 mirror).flushTlbs) ∧
    (denied → quiet → exec (.modeSwitch fn mirror) s = .next (s.setFlag R.trnStatus 1)) ∧
    (¬ denied → ¬ quiet → exec (.modeSwitch fn mirror) s = .next (s.setFlag R.trnStatus 0)) ∧
    (denied → ¬ quiet → exec (.modeSwitch fn mirror) s = .next ((s.setFlag R.trnStatus 1).setFlag R.trnStatus 0))) ∧
  (∀ (s : State) (ppm : BitVec 16), let good := decide (ppm.toInt.natAbs ≤ 1000)
    let t := (s.wr R.clkRefPpm (BitVec.ofNat 64 ppm.toNat)).putFlag R.clkStatus 5 good
    (s.boot.main = false → exec (.refDeviation ppm) s = .next s) ∧
    (s.boot.main = true → good = true ∨ s.flag R.clkStatus 5 = false → exec (.refDeviation ppm) s = .next t) ∧
    (s.boot.main = true → good = false → s.flag R.clkStatus 5 = true →
      exec (.refDeviation ppm) s = .next ((t.alert 1).withFree fun r u => u.logEvent 0x02 0 r))) ∧
  (∀ (s : State) (g : Fin 9), let line := SMap.get ⟨0, false, 0⟩ s.mem.events g
    ((g : Nat) ∈ [0, 1, 6, 7] → line.acc ≤ 63 → line.full = false →
      let t := { s with mem := { s.mem with events := SMap.put ⟨0, false, 0⟩ s.mem.events g ⟨0, false, 63⟩ } }
      exec (.cdcOverrun g) s = .next ((t.setFlag R.clkCdcOverrun g).count R.clkCdcOverrunCount 32 1)) ∧
    ((g : Nat) ∉ [0, 1, 6, 7] → exec (.cdcOverrun g) s = .next s)) ∧
  (∀ (s : State) (again : Bool), let t := s.detect 7 0 0 (if again then .lost else .corrected)
    let u := { t with freeCount := t.freeCount + 1 }
    (again = false ∨ t.cutOff 9 0 = true → exec (.dieLinkReplay again) s = .next t) ∧
    (again = true → t.cutOff 9 0 = false → exec (.dieLinkReplay again) s =
      .next (if Config.free t.freeCount % 2 = 0 then u else { u with mem := { u.mem with fenced := (9, 0) :: u.mem.fenced } }))) ∧
  (∀ (s : State) (g : Fin 9) (inst : Byte) (detect stopped : Fin 8), let i := stallInstance g inst.toNat
    let sides : Prop := ((detect : Nat), (stopped : Nat)) ∈ groupSides g ∨ ((stopped : Nat), (detect : Nat)) ∈ groupSides g
    (stallOk g i = false ∨ ¬ sides ∨ s.cutOff g i = true ∨ s.halfWaits g i = false → exec (.cdcStall g inst detect stopped) s = .next s) ∧
    (stallOk g i = true → sides → s.cutOff g i = false → s.halfWaits g i = true →
      let t := (s.setFlag R.clkCdcStall g).count R.clkCdcStallCount 32 1
      let u := t.fillLog R.clkCdcStallLog (BitVec.ofNat 64 (2 ^ 63 + (detect : Nat) * 2 ^ 59 + (stopped : Nat) * 2 ^ 55 + (g : Nat) * 2 ^ 48 + i * 2 ^ 40 + s.time40))
      let v := { u with mem := { u.mem with fenced := ((g : Nat), i) :: u.mem.fenced } }
      let w := if (g : Nat) < 2 then v.fenceCore i stopped else if (g : Nat) = 5 then v.fenceMainline else v
      let x := if s.flag R.clkCdcStall g then w else w.raiseCause 0 9
      exec (.cdcStall g inst detect stopped) s = .next ((x.alert 2).withFree fun r y => y.logEvent 0x03 i r)))

/-- Samples keep the excursion account and the times of each condition; steps rise, fall and show as R534 to R537 say (15 R533, 15 R534, 15 R535, 15 R537, 15 R540, 15 R541, 02 R72); it takes in choices of the model: log 65. -/
def Obligations.PowerAndHeat : Prop :=
  (∀ (s : State) (input west east : BitVec 32), let shown := s.showInput input.toNat
    let t := shown.sampled input.toNat west.toNat east.toNat
    (s.boot.main = false → exec (.powerSample input west east) s = .next s) ∧
    (s.boot.main = true → s.fld R.conStatus 3 0 ≤ 1 → exec (.powerSample input west east) s = .next shown) ∧
    (s.boot.main = true → 2 ≤ s.fld R.conStatus 3 0 → t.stepDue = true → exec (.powerSample input west east) s = .next (t.raiseStep 2)) ∧
    (s.boot.main = true → 2 ≤ s.fld R.conStatus 3 0 → t.stepDue = false → exec (.powerSample input west east) s = .next t)) ∧
  (∀ (s : State) (p : Nat), s.Canon → let t := s.showInput p
    t.rd R.pwrInputMw = BitVec.ofNat 64 p ∧ t.rd (R.mgtRailMw 0) = BitVec.ofNat 64 p ∧ t = { s with regs := t.regs } ∧
    ∀ off, off ∉ [R.pwrInputMw, R.mgtRailMw 0] → t.rd off = s.rd off) ∧
  (∀ (s : State) (p w e : Nat), s.Canon → let t := s.sampled p w e
    let sus := 1000 * s.fld R.pwrPartition 63 48
    let cap := (1000 * s.pwr.excursionW - sus) * s.pwr.excursionUs
    let time (m : SMap Nat) (u : Nat) : Nat := SMap.get 0 m u
    let low : Prop := 2 * t.pwr.account < cap
    t.pwr.account = s.pwr.account + p - sus ∧
    (1000 * s.pwr.excursionW < p → t.pwr.above = s.pwr.above + 1) ∧ (p ≤ 1000 * s.pwr.excursionW → t.pwr.above = 0) ∧
    (s.pwr.dieOver.Canon (fun _ => 0) → (time t.pwr.dieOver 0 = if 1000 * s.pwr.dieW < w then time s.pwr.dieOver 0 + 1 else 0) ∧
      (time t.pwr.dieOver 1 = if 1000 * s.pwr.dieW < e then time s.pwr.dieOver 1 + 1 else 0)) ∧
    (s.pwr.calm.Canon (fun _ => 0) → (low → p ≤ sus → time t.pwr.calm 2 = time s.pwr.calm 2 + 1) ∧ (¬ low ∨ sus < p → time t.pwr.calm 2 = 0) ∧
      (low → w ≤ 1000 * s.pwr.dieW → time t.pwr.calm 0 = time s.pwr.calm 0 + 1) ∧ (¬ low ∨ 1000 * s.pwr.dieW < w → time t.pwr.calm 0 = 0)) ∧
    (t.stepDue = true ↔ cap ≤ t.pwr.account ∨ 50 ≤ t.pwr.above) ∧
    t.rd R.pwrBucketMj = BitVec.ofNat 64 (t.pwr.account / 1000000 % 2 ^ 32) ∧ ∀ off, off ≠ R.pwrBucketMj → t.rd off = s.rd off) ∧
  (∀ (s : State) (u : Nat),
    (3 ≤ s.curStep u → s.raiseStep u = s) ∧ (∀ at_, SMap.get none s.pwr.raised u = some at_ → s.now < at_ + 100000 → s.raiseStep u = s) ∧
    (s.curStep u < 3 → (∀ at_, SMap.get none s.pwr.raised u = some at_ → at_ + 100000 ≤ s.now) →
      let p := { s.pwr with steps := SMap.put 0 s.pwr.steps u (s.curStep u + 1), raised := SMap.put none s.pwr.raised u (some s.now) }
      s.raiseStep u = { s with pwr := { p with calm := SMap.put 0 s.pwr.calm u 0 } }.declareStep (if u = 2 then 2 else 3) (if u = 2 then 10 else u)
        (s.curStep u + 1) 0)) ∧
  (∀ (s : State) (unit : StepUnit), let u := unit.num
    (s.curStep u = 0 ∨ SMap.get 0 s.pwr.calm u < 1000 → exec (.stepLower unit) s = .next s) ∧
    (s.curStep u ≠ 0 → 1000 ≤ SMap.get 0 s.pwr.calm u →
      let p := { s.pwr with steps := SMap.put 0 s.pwr.steps u (s.curStep u - 1), calm := SMap.put 0 s.pwr.calm u 0 }
      exec (.stepLower unit) s = .next { s with pwr := p }.showSteps)) ∧
  (∀ (s : State) (d : Fin 2), (SMap.get 0 s.pwr.dieOver d < 1000 → exec (.diePowerStep d) s = .next s) ∧
    (1000 ≤ SMap.get 0 s.pwr.dieOver d → exec (.diePowerStep d) s =
      .next ({ s with pwr := { s.pwr with dieOver := SMap.put 0 s.pwr.dieOver d 0 } }.raiseStep d))) ∧
  (∀ (s : State) (unit : HeatUnit) (sensor : Nat) (temp : Int), let u := unit.num
    s.hottest u = (sensor, temp) → let n := heatReached u temp
    let put (k : Nat) : State := { s with pwr := { s.pwr with heat := SMap.put 0 s.pwr.heat u k } }
    (s.heatStep u < n → u ≠ 10 → exec (.thermalStep unit) s = .next ((put n).declareStep 1 u n sensor)) ∧
    (s.heatStep u < n → u = 10 → exec (.thermalStep unit) s = .next (((put n).declareStep 1 0 n sensor).declareStep 1 1 n sensor)) ∧
    (n ≤ s.heatStep u → exec (.thermalStep unit) s = .next (put (s.heatKept u)).showSteps)) ∧
  (∀ (s : State) (n : Fin 16), let wait := (s.rd R.pwrGateIdle).toNat
    let idle : Prop := ∀ e ∈ s.cores, clusterOf e.1 = n → e.2.blockList = []
    let may : Prop := wait ≠ 0 ∧ s.laneMask.testBit n = false ∧ idle ∧ s.pwr.gated.contains (n : Nat) = false ∧
      SMap.get 0 s.pwr.lastBlock n + 1000 * wait ≤ s.now
    (may → exec (.clusterGate n) s = .next { s with pwr := { s.pwr with gated := (n : Nat) :: s.pwr.gated } }) ∧
    (¬ may → exec (.clusterGate n) s = .next s) ∧
    (let g := s.pwr.gated.filter (fun m => !decide (m = (n : Nat)));
      exec (.clusterWake n) s = .next { s with pwr := { s.pwr with gated := g, lastBlock := SMap.put 0 s.pwr.lastBlock n s.now } }))

/-- Maintenance runs in windows or overruns; lasting faults retire parts or report them; a ledger snapshot checks every identity (15 R545, 15 R547, 15 R548, 15 R555, 16 R563, 16 R565, 16 R566, 16 R567, 16 R570, 16 R571, 09 R363, 12 R467); it takes in choices of the model: log 1, 63, 64, 107, 108. -/
def Obligations.MaintenanceRetirementAndLedgers : Prop :=
  (∀ (s : State) (channel : Byte) (task : Fin 4) (cycles : Fin 2000) (work : MaintWork), let k := channel.toNat
    let inside : Prop := ∃ w ∈ s.mln.windows, w.1 = k ∧ ((s.now - s.mln.frameAt) % 262144 + 262144 - w.2.1 % 262144) % 262144 < w.2.2
    (inside → exec (.maintWindowOpen channel work) s = .next (s.maintain k work)) ∧
    (¬ inside → exec (.maintWindowOpen channel work) s = .next s) ∧
    ((∀ e ∈ s.cmdList, e.2.lane = none ∨ e.2.inService = false) → exec (.maintOverrun channel task cycles work) s = .next (s.maintain k work)) ∧
    ((∃ e ∈ s.cmdList, e.2.lane.isSome = true ∧ e.2.inService = true) → let n := (cycles : Nat) + 1
      let log := 2 ^ 63 + ((task : Nat) + 1) * 2 ^ 60 + k * 2 ^ 52 + n * 2 ^ 40 + s.time40
      let t := (s.count R.memOverrunCount 32 1).count R.memOverrunCycles 64 n
      let u := ((if t.keepsOverrun k then t else t.wr R.memOverrunLog (BitVec.ofNat 64 log)).setFlag R.memStatus 1).setFlag R.pwrStatus 4
      let v := { u with pwr := { u.pwr with overrun := SMap.put 0 u.pwr.overrun k (u.now + n) } }
      exec (.maintOverrun channel task cycles work) s =
        .next (((v.voidCmds (fun _ _ => true)).trace ⟨0x0E, 6, k, 0, 0, log, 0⟩).maintain k work))) ∧
  (∀ (s : State) (part : Part), let retire := s.fld (R.rasPolicy part.kind) 23 16 = 1
    let reached : Prop := s.fld (R.rasPolicy part.kind) 15 0 ≤ s.partEvents part ∧ 0 < s.partEvents part
    (¬ reached → exec (.lastingFault part) s = .next s) ∧
    (∀ c, reached → part = .core c → exec (.lastingFault part) s = .next (s.keepPart part false)) ∧
    (reached → ¬ retire → part.kind ≠ 3 → exec (.lastingFault part) s = .next (s.keepPart part false)) ∧
    (∀ p l, reached → retire → part = .lane p l → exec (.lastingFault part) s = .next ((s.retireLane p l).retireLog part true false)) ∧
    (∀ d sl w, reached → retire → part = .way d sl w → let reg := R.cchWayRetired (32 * (d : Nat) + sl)
      (s.flag reg w = true → exec (.lastingFault part) s = .next s) ∧
      (s.flag reg w = false → 8 ≤ ones 16 (s.fld reg 15 0) → exec (.lastingFault part) s = .next ((s.setFlag R.rasStatus 4).keepPart part true)) ∧
      (s.flag reg w = false → ones 16 (s.fld reg 15 0) < 8 → exec (.lastingFault part) s = .next ((s.retireWay d sl w).retireLog part true false))) ∧
    (∀ k pc bg b r, reached → retire → part = .row k pc bg b r → let st := k.toNat / 32
      let waiting := (s.ras.sparing.filter (fun x => decide (x / 2 ^ 48 / 32 = st))).length
      (s.rd (R.memSpareLeft st) = 0 → exec (.lastingFault part) s = .next (s.keepPart part true)) ∧
      (s.rd (R.memSpareLeft st) ≠ 0 → 16 ≤ waiting → exec (.lastingFault part) s = .next s) ∧
      (s.rd (R.memSpareLeft st) ≠ 0 → waiting < 16 → exec (.lastingFault part) s =
        .next (({ s with ras := { s.ras with sparing := s.ras.sparing ++ [part.place] } }.retireLog part true false).raiseCause 0 15)))) ∧
  (∀ (s : State) (channel : Byte), let found := s.ras.sparing.find? (fun r => decide (r / 2 ^ 48 = channel.toNat))
    (found = none → exec (.rowSpareDone channel) s = .next s) ∧
    (∀ r, s.Canon → found = some r → ∃ t, exec (.rowSpareDone channel) s = .next t ∧
      (let st := channel.toNat / 32
        if (s.rd (R.memSpareLeft st)).toNat ≤ 1 then
          t.ras.sparing = (s.ras.sparing.erase r).filter (fun x => decide (x / 2 ^ 48 / 32 ≠ st)) ∧ t.flag R.rasSparesOut st = true
        else t.ras.sparing = s.ras.sparing.erase r) ∧ t.mgt.rows = s.mgt.rows ++ [r] ∧
      t.rd (R.memSpareLeft (channel.toNat / 32)) = BitVec.ofNat 64 ((s.rd (R.memSpareLeft (channel.toNat / 32))).toNat - 1) ∧
      t.mem = s.mem ∧ t.cores = s.cores)) ∧
  (∀ (s : State) (fn : Fin 64) (v : Word), s.Serves fn R.rasSnap true →
    (v.getLsbD 0 = false ∨ s.flag R.rasStatus 8 = true → exec (.ledgerSnapshot fn v) s = .next s) ∧
    (v.getLsbD 0 = true → s.flag R.rasStatus 8 = false → ∃ n, let t := { s with freeCount := s.freeCount + 1 }
      exec (.ledgerSnapshot fn v) s = .next { t.setFlag R.rasStatus 8 with ras := { t.ras with snap := some (t.ledgers n, t.settledMask) } })) ∧
  (∀ s : State, (s.ras.snap = none → exec .ledgerSnapshotDone s = .next s) ∧
    (∀ l settled, s.ras.snap = some (l, settled) →
      let t := (List.range 48).foldl (fun u j => u.wr (R.rasLedger j) (BitVec.ofNat 64 (l.getD j 0))) s
      let bad := ledgerFaults l settled
      let u := (t.wr R.rasLedgerState (BitVec.ofNat 64 (2 ^ 63 + bad * 2 ^ 32 + settled))).clrFlag R.rasStatus 8
      let v := { u with ras := { u.ras with snap := none } }
      (bad = 0 → exec .ledgerSnapshotDone s = .next v) ∧
      (bad ≠ 0 → exec .ledgerSnapshotDone s = .next (((v.setFlag R.rasStatus 6).raiseCause 0 15).alert 6 |>.logEvent 0x07 0 bad)))) ∧
  (∀ (l : List Nat) (settled k : Nat), k < 12 → ((ledgerFaults l settled).testBit k = true ↔ settled.testBit k = true ∧
    l.getD (4 * k) 0 ≠ l.getD (4 * k + 1) 0 + l.getD (4 * k + 2) 0 + l.getD (4 * k + 3) 0))

/-- A rollback counter rises only by a commit in RUNNING; a key change purges its slot; a token replaces every grant, and grants end (17 R579, 17 R586, 17 R590, 17 R593, 17 R594); it takes in choices of the model: log 31, 73. -/
def Obligations.SecurityControls : Prop :=
  (∀ (s : State) (fn : Fin 64), s.Canon → s.Serves fn R.secControl true →
    let running := s.fld R.conStatus 3 0
    (running ≠ 2 → exec (.commitFw fn) s = .next (s.setFlag R.secStatus 9) ∧ exec (.commitConsist fn) s = .next (s.setFlag R.secStatus 9)) ∧
    (running = 2 → (∃ t : State, exec (.commitFw fn) s = .next t ∧
        t.sec.fuses = { s.sec.fuses with fwCount := max s.sec.fuses.fwCount (min 64 s.sec.fwVersion) } ∧
        (∀ off, off ∉ [R.secRollback, R.secFuses] → t.rd off = s.rd off) ∧ t.mem = s.mem ∧ t.cores = s.cores ∧ t.mgt = s.mgt) ∧
      (∃ t : State, exec (.commitConsist fn) s = .next t ∧
        t.sec.fuses = { s.sec.fuses with conCount := max s.sec.fuses.conCount (min 64 s.sec.baseVersion) } ∧
        (∀ off, off ∉ [R.secRollback, R.secFuses] → t.rd off = s.rd off) ∧ t.mem = s.mem ∧ t.cores = s.cores ∧ t.mgt = s.mgt)) ∧
    (s.sec.checking.isSome = true → exec (.tokenSubmit fn) s = .next (s.setFlag R.secStatus 11)) ∧
    (s.sec.checking = none → let ws := (List.range 18).map (SMap.get 0 s.sec.token)
      exec (.tokenSubmit fn) s = .next ({ s with sec := { s.sec with checking := some ws } }.setFlag R.secStatus 10)) ∧
    exec (.relock fn) s = .next { s with sec := { s.sec with scopes := 0, until_ := 0 } } ∧
    (let v := { s with sec := { s.sec with scopes := 0, until_ := 0 } }; v.unlocked = s.sec.opened)) ∧
  (∀ (s : State) (fn : Fin 64), s.Serves fn R.secNonce false → let n : Word := BitVec.ofNat 64 (Config.free s.freeCount)
    let t := { s with freeCount := s.freeCount + 1 }
    exec (.nonceRead fn) s = .next ({ t with sec := { t.sec with nonce := some n } }.emit (.answer R.secNonce n.toNat))) ∧
  (∀ s : State, (s.sec.checking = none → exec .tokenVerifyDone s = .next s) ∧
    (∀ ws, s.sec.checking = some ws → let b := tokenBytes ws
      let t := { s with sec := { s.sec with checking := none, nonce := none } }.clrFlag R.secStatus 10
      (s.tokenErr b ≠ 0 → exec .tokenVerifyDone s = .next ((t.setFlag R.secStatus 11).setFld R.secStatus 7 0 (s.tokenErr b))) ∧
      (s.tokenErr b = 0 → let x := { t.sec with scopes := num b 6 2, until_ := t.now + 1000000000 * num b 0x18 4 }
        exec .tokenVerifyDone s = .next ({ t with sec := x }.setFlag R.secStatus 12)))) ∧
  (∀ s : State, let over_ : Prop := s.sec.scopes ≠ 0 ∧ s.sec.until_ ≤ s.now
    (¬ over_ → exec .unlockExpire s = .next s) ∧
    (over_ → exec .unlockExpire s = .next { s with sec := { s.sec with scopes := 0, until_ := 0 } })) ∧
  (∀ (s : State) (fn : Fin 64) (slot : Fin 128), s.Serves fn R.secKeyCmd true →
    let may : Prop := 0 < (slot : Nat) ∧ (slot : Nat) ≤ 64 ∧ s.sec.rekeying = none ∧ ((slot : Nat) = 64 → s.quiesced = true) ∧
      ((slot : Nat) < 64 → ∀ n, n < 4096 → s.tenantOf n = slot → s.ctxState n = 0 ∨ s.ctxState n = 3)
    (¬ may → exec (.keyChange fn slot) s = .next (s.setFlag R.secStatus 14)) ∧
    (may → let t := { s with sec := { s.sec with rekeying := some (slot : Nat) } }
      let m := t.mem.purge slot
      exec (.keyChange fn slot) s = .next ((t.setMem { m with gen := SMap.put 0 m.gen slot (SMap.get 0 m.gen slot + 1) }).setFlag R.secStatus 15))) ∧
  (∀ s : State, (s.sec.rekeying = none → exec .keyInstalled s = .next s) ∧
    (∀ k, s.sec.rekeying = some k → exec .keyInstalled s = .next ({ s with sec := { s.sec with rekeying := none } }.clrFlag R.secStatus 15)))

/-- SPDM answers in turn; MCTP serves its types and counts the rest; sensors show samples; updates write, verify and activate in order (17 R580, 17 R581, 17 R582, 18 R595, 18 R596, 18 R597, 18 R598, 18 R600, 18 R602, 18 R603, 18 R605, 18 R606); it takes in choices of the model: log 12, 13, 32, 33, 75. -/
def Obligations.SpdmAndManagementMessages : Prop :=
  (∀ (s : State) (m : Medium) (off len : Nat), let p := SMap.get 0 s.sec.spdm m.num
    let turn (k : Nat) : State := { s with sec := { s.sec with spdm := SMap.put 0 s.sec.spdm m.num k } }
    let err := s.emit (.spdm m 7 [] 0 0)
    let chain := hashBytes (Config.sha384 Config.certChain)
    let sign := Config.deviceSign (Config.free s.freeCount)
    let u := { s with freeCount := s.freeCount + 1 }
    let late : List Instr := [.getDigests m, .getCertificate m off len, .challenge m, .getMeasurements m]
    (s.spdmServed m = false → ∀ i ∈ [.getVersion m, .getCapabilities m, .negotiateAlgorithms m] ++ late, exec i s = .next s) ∧
    (s.spdmServed m = true →
      exec (.getVersion m) s = .next ((turn 1).emit (.spdm m 0 (leBytes 2 0x1200) 0 0)) ∧
      (p < 1 → exec (.getCapabilities m) s = .next err) ∧ (1 ≤ p → exec (.getCapabilities m) s = .next ((turn 2).emit (.spdm m 1 [] 0 0))) ∧
      (p < 2 → exec (.negotiateAlgorithms m) s = .next err) ∧
      (2 ≤ p → exec (.negotiateAlgorithms m) s = .next ((turn 3).emit (.spdm m 2 [] 0 0))) ∧
      (p < 3 → ∀ i ∈ late, exec i s = .next err) ∧
      (3 ≤ p → exec (.getDigests m) s = .next (s.emit (.spdm m 3 chain 0 0)) ∧
        exec (.getCertificate m off len) s = .next (s.emit (.spdm m 4 ((Config.certChain.drop off).take len) 0 0)) ∧
        exec (.challenge m) s = .next (u.emit (.spdm m 5 chain sign.1 sign.2)) ∧
        exec (.getMeasurements m) s = .next (u.emit (.spdm m 6 s.measurements sign.1 sign.2))))) ∧
  (∀ (s : State) (m : Medium) (req : MctpReq), (s.mctpServed m = false → exec (.mctpControl m req) s = .next s) ∧
    (s.mctpServed m = true →
      (∀ eid, req = .setEid eid → m = .smbus → exec (.mctpControl m req) s = .next ((s.setFld R.mgtEid 7 0 eid.toNat).emit (.mctp m))) ∧
      (∀ eid, req = .setEid eid → m ≠ .smbus → exec (.mctpControl m req) s = .next ((s.setFld R.mgtEid 15 8 eid.toNat).emit (.mctp m))) ∧
      (∀ on, req = .events on → exec (.mctpControl m req) s =
        .next ({ s with mgt := { s.mgt with events := SMap.put false s.mgt.events m.num on } }.emit (.mctp m))) ∧
      (req = .other → exec (.mctpControl m req) s = .next (s.emit (.mctp m))) ∧
      (req = .foreign → exec (.mctpControl m req) s = .next (s.count R.mgtMctpDropped 32 1)))) ∧
  (∀ (s : State) (m : Medium) (id n : Nat), let up : Prop := s.mctpServed m = true ∧ s.mgt.running.isSome = true
    (¬ up → exec (.pldmSensorRead m id) s = .next s ∧ exec (.pldmEventLogRead m n) s = .next s) ∧
    (up → exec (.pldmSensorRead m id) s = .next (s.emit (.sensor m id (s.reading id))) ∧
      (∀ r, s.mgt.log.reverse[n]? = some r → exec (.pldmEventLogRead m n) s = .next (s.emit (.logRecord m r.time r.code r.unit r.data))) ∧
      (s.mgt.log.reverse[n]? = none → exec (.pldmEventLogRead m n) s = .next s)) ∧
    (s.boot.main = false → (id < 0x400 ∨ 0x40A < id) → id ≠ 0x207 → s.reading id = none)) ∧
  (∀ (s : State) (id : Nat) (v : BitVec 32),
    (sensorOf id = none → exec (.sensorSample id v) s = .next s) ∧
    (∀ u, sensorOf id = some (.eol u) → exec (.sensorSample id v) s = .next (s.putReading id (s.rd (R.mgtEol u)).toNat)) ∧
    (sensorOf id = some (.rail 7) → s.boot.power = true →
      exec (.sensorSample id v) s = .next ((s.wr (R.mgtRailMw 7) (BitVec.ofNat 64 v.toNat)).putReading id v.toNat)) ∧
    (s.boot.main = false → (∀ u, sensorOf id ≠ some (.eol u)) → sensorOf id ≠ some (.rail 7) → exec (.sensorSample id v) s = .next s) ∧
    (s.boot.main = true →
      (∀ u r, sensorOf id = some (.temp u r) →
        exec (.sensorSample id v) s = .next ((s.setTemp u r (v.setWidth 16)).putReading id (v.setWidth 16).toNat)) ∧
      (∀ n, sensorOf id = some (.stack n) → exec (.sensorSample id v) s = .next (s.putReading id (s.rd (R.memStackTemp n)).toNat)) ∧
      (∀ n, sensorOf id = some (.rail n) → n ≠ 7 → let w := if n = 0 then (s.rd R.pwrInputMw).toNat else v.toNat
        exec (.sensorSample id v) s = .next ((s.wr (R.mgtRailMw n) (BitVec.ofNat 64 w)).putReading id w)) ∧
      (∀ f, sensorOf id = some (.util f) → let q := 10000 * (s.tenantNs f - SMap.get 0 s.mgt.utilBase f) / (192 * 1000000000)
        ∃ t : State, exec (.sensorSample id v) s = .next t ∧ t.regs = s.regs ∧ t.mem = s.mem ∧
          (∃ w : Nat, (w = q ∨ w = q + 1) ∧ t.mgt.readings = SMap.put none s.mgt.readings id (some w))))) ∧
  (∀ (s : State) (m : Medium),
    (s.mctpServed m = false → exec (.requestUpdate m) s = .next s) ∧
    (s.mctpServed m = true → s.mgt.update.isSome = true → exec (.requestUpdate m) s = .next (s.emit (.update m 0 false))) ∧
    (s.mctpServed m = true → s.mgt.update = none → let t := { s with mgt := { s.mgt with update := some ⟨m, [], [], true⟩ } }
      exec (.requestUpdate m) s = .next ((t.setFlag R.mgtStatus 1).emit (.update m 0 true)))) ∧
  (∀ (s : State) (m : Medium) (comp off : Nat) (data : List Byte) (bad : Bool),
    (s.updateOf m = none → ∀ i ∈ [.updateWrite m comp off data, .transferComplete m comp bad, .activateFirmware m, .cancelUpdate m],
      exec i s = .next s) ∧
    (∀ u, s.updateOf m = some u →
      (∀ base size, s.target comp = some (base, size) → off + data.length ≤ size →
        exec (.updateWrite m comp off data) s = .next ((s.flashStore (base + off) data).updateWritten m comp u)) ∧
      (∀ base size, s.target comp = some (base, size) → size < off + data.length →
        exec (.updateWrite m comp off data) s = .next (s.emit (.update m 1 false))) ∧
      (s.target comp = none → (comp = 0x20 ∨ comp = 0x21) → off + data.length ≤ 208 →
        exec (.updateWrite m comp off data) s = .next (s.updateWritten m comp { u with buf := u.buf.store (fuseBuf comp + off) data })) ∧
      (s.target comp = none → ((comp ≠ 0x20 ∧ comp ≠ 0x21) ∨ 208 < off + data.length) →
        exec (.updateWrite m comp off data) s = .next (s.emit (.update m 1 false))) ∧
      (s.componentErr u comp bad = none → ∃ t : State, exec (.transferComplete m comp bad) s = .next t ∧ t.mgt.waiting = [] ∧
        t.mgt.update = some { u with passed := if u.passed.contains comp then u.passed else u.passed ++ [comp], writing := false } ∧
        t.mgt.flash = s.mgt.flash ∧ t.sec = s.sec ∧ t.regs = s.regs) ∧
      (∀ e, s.componentErr u comp bad = some e → let v := { s with mgt := { s.mgt with update := some { u with writing := false } } }.logFlush
        exec (.transferComplete m comp bad) s =
          .next (((v.conFail e).logEvent 0x08 (v.compSlot comp) (e.2 * 2 ^ 16 + e.1)).emit (.update m 2 false))) ∧
      (u.passed = [] → exec (.activateFirmware m) s = .next (s.emit (.update m 3 false))) ∧
      (u.passed ≠ [] → exec (.activateFirmware m) s =
        .next (((componentOrder.filter u.passed.contains).foldl (fun t c => t.activate u c) s.endUpdate).emit (.update m 3 true))) ∧
      exec (.cancelUpdate m) s = .next (s.endUpdate.emit (.update m 4 true)))) ∧
  (∀ s : State, s.endUpdate.mgt.update = none ∧ s.endUpdate.mgt.waiting = []) ∧
  (∀ (s : State) (r : WearReading), let t := s.count R.mgtPowerOnDays 32 1
    (s.boot.main = false → exec (.wearSample r) s = .next s) ∧
    (s.boot.main = true → s.mgt.update = none → exec (.wearSample r) s = .next (t.addWear (t.wearSample r))) ∧
    (s.boot.main = true → s.mgt.update.isSome = true →
      exec (.wearSample r) s = .next { t with mgt := { t.mgt with wearHeld := some (t.wearSample r) } })) ∧
  (∀ (s : State) (x : WearSample), (s.addWear x).mgt.wear = (s.mgt.wear ++ [x]).drop (s.mgt.wear.length + 1 - 400)) ∧
  (∀ (s : State) (u : Nat), s.mgt.wear.length < 30 → s.eolOf u = (0, 0xFFFF))

/-- A sample stores every enabled set or is counted lost; trace and surveys start, latch and end; the test port acts while PERST# is low (19 R612, 19 R614, 19 R615, 19 R616, 19 R618, 19 R622, 19 R623, 19 R627, 19 R628, 19 R629, 21 R666); it takes in choices of the model: log 25, 69, 70, 76. -/
def Obligations.SamplesTraceSurveysAndTestPort : Prop :=
  (∀ s : State, let due : Prop := s.flag R.dbgSampleCfg 63 = true ∧ s.now % (1000 * max 1 (s.fld R.dbgSampleCfg 19 0)) = 0
    let n := (s.rd R.dbgSampleSize).toNat / 256
    let wr := (s.rd R.dbgSampleWr).toNat
    let k := s.enabledSets.length
    let t := { s with dbg := { s.dbg with sampleSeq := s.dbg.sampleSeq + 1 } }
    (¬ due → exec .counterSample s = .next s) ∧
    (due → s.sampleRoom < k → exec .counterSample s = .next (t.count R.dbgSampleLost 32 1)) ∧
    (due → k ≤ s.sampleRoom → exec .counterSample s = .next (((t.samplePut s.enabledSets wr n s.dbg.sampleSeq).wr R.dbgSampleWr
      (BitVec.ofNat 64 (if n = 0 then 0 else (wr + k) % n))).markBoundary s.enabledSets))) ∧
  (∀ (s : State) (i : Nat), i < 214 → (i ∈ s.enabledSets ↔ s.flag (R.dbgSetEn (i / 64)) (i % 64) = true)) ∧
  (∀ (s : State) (n seq : Nat), (s.setShown n).2.2.2.length = 24 → (s.sampleRecord n seq).length = 256) ∧
  (∀ (s : State) (fn : Fin 64) (set : Fin 214) (v : Word), s.Serves fn (R.dbgSetCfg set) true →
    (v.getLsbD 1 = false → exec (.counterClear fn set v) s = .next s) ∧
    (v.getLsbD 1 = true → let t := (s.setFld (R.dbgSetCfg set) 0 0 (if v.getLsbD 0 then 1 else 0)).restartSet set
      let o := (SMap.get none t.dbg.owners set).map (fun x => { x with shared := false })
      exec (.counterClear fn set v) s = .next { t with dbg := { t.dbg with owners := SMap.put none t.dbg.owners set o } })) ∧
  (∀ (s : State) (fn : Fin 64), s.Serves fn R.dbgTraceCtl true → let t := (s.wr R.dbgTraceWr 0).setFld R.dbgStatus 5 2 0
    exec (.traceRestart fn) s = .next { t with dbg := { t.dbg with postLeft := none, traceFilled := false, fillLost := 0 } }) ∧
  (∀ (s : State) (fn : Fin 64), s.Serves fn R.dbgTraceCtl true →
    let t := s.traceWrite ⟨0x0C, 9, 0, 0, 0, 0, 0⟩
    let u := (t.setFlag R.dbgStatus 4).wr R.dbgTraceTrigTime (BitVec.ofNat 64 t.now)
    (s.flag R.dbgTraceCfg 8 = false ∨ s.flag R.dbgStatus 4 = true → exec (.traceTrigger fn) s = .next s) ∧
    (s.flag R.dbgTraceCfg 8 = true → s.flag R.dbgStatus 4 = false → u.fld R.dbgTraceCfg 1 0 ≠ 3 → exec (.traceTrigger fn) s = .next u) ∧
    (s.flag R.dbgTraceCfg 8 = true → s.flag R.dbgStatus 4 = false → u.fld R.dbgTraceCfg 1 0 = 3 →
      exec (.traceTrigger fn) s = .next { u with dbg := { u.dbg with postLeft := some (u.fld R.dbgTraceCfg 63 32) } })) ∧
  (∀ (s : State) (r : TraceRec), let n := s.traceSlots
    let w := s.fld R.dbgTraceWr 31 0
    let mode := s.fld R.dbgTraceCfg 1 0
    let stored := s.traceStore (w % n) r
    let put := stored.wr R.dbgTraceWr (BitVec.ofNat 64 ((w + 1) % n))
    let ring := if put.dbg.traceFilled then put.setFlag R.dbgStatus 3
      else if w + 1 = n then { put with dbg := { put.dbg with traceFilled := true } } else put
    (n = 0 ∨ mode = 0 ∨ (mode = 3 ∧ s.dbg.postLeft = some 0) → s.traceWrite r = s.count R.dbgTraceLost 64 1) ∧
    (n ≠ 0 → mode = 1 → w + 1 < n → let u := (s.traceStore w r).wr R.dbgTraceWr (BitVec.ofNat 64 (w + 1))
      s.traceWrite r = if w + 2 = n then u.setFlag R.dbgStatus 2 else u) ∧
    (n ≠ 0 → mode = 1 → n ≤ w + 1 → let u := (s.count R.dbgTraceLost 64 1).setFlag R.dbgStatus 2
      s.traceWrite r = { u with dbg := { u.dbg with fillLost := s.dbg.fillLost + 1 } }.traceStore (n - 1)
        ⟨0x7F, 9, 0, 0, 0, s.dbg.fillLost + 1, r.unit + 2 ^ 16 * r.source⟩) ∧
    (n ≠ 0 → mode = 2 ∨ (mode = 3 ∧ s.dbg.postLeft = none) → s.traceWrite r = ring) ∧
    (∀ k, n ≠ 0 → mode = 3 → s.dbg.postLeft = some (k + 1) → s.traceWrite r = { ring with dbg := { ring.dbg with postLeft := some k } })) ∧
  (∀ s : State, let over_ : Prop := s.fld R.dbgTraceCfg 1 0 = 3 ∧ s.dbg.postLeft = some 0
    (over_ → exec .traceFreeze s = .next (s.setFlag R.dbgStatus 5)) ∧ (¬ over_ → exec .traceFreeze s = .next s)) ∧
  (∀ (s : State) (fn : Fin 64) (v : Word), s.Serves fn R.dbgSurveyCtl true → let t := s.wr R.dbgSurveyCtl (v &&& 0xF02#64)
    let ignored : Prop := t.flag R.dbgStatus 6 = true ∨ (t.flag R.dbgSurveyCtl 1 = true ∧ t.flag R.dbgStatus 7 = true) ∨ t.fld R.dbgSurveyBase 55 0 = 0
    (v.getLsbD 0 = false → exec (.surveyStart fn v) s = .next s) ∧
    (v.getLsbD 0 = true → ignored → exec (.surveyStart fn v) s = .next (t.count R.dbgSurveyIgnored 32 1)) ∧
    (v.getLsbD 0 = true → ¬ ignored → let d := { t.dbg with survey := some 0, surveyWho := 0, latched := false, frozen := none }
      exec (.surveyStart fn v) s = .next { t.setFlag R.dbgStatus 6 with dbg := d })) ∧
  (∀ s : State, let t := { s with freeCount := s.freeCount + 1 }
    let u := t.surveyWrite (t.surveyView.surveyParts (Config.free s.freeCount % 2 ^ 63))
    (s.dbg.survey = none ∨ s.dbg.latched = true → exec .surveyLatch s = .next s) ∧
    (s.dbg.survey.isSome = true → s.dbg.latched = false → exec .surveyLatch s =
      .next ({ u with dbg := { u.dbg with latched := true, surveyTime := t.surveyView.now, frozen := none } }.traceTrigger 7))) ∧
  (∀ s : State, let l := s.surveySems
    (s.dbg.survey = none ∨ s.dbg.latched = false → exec .surveyDone s = .next s) ∧
    (∀ code, s.dbg.survey = some code → s.dbg.latched = true →
      let t := s.surveyWrite (((List.range l.length).zip l).map (fun e => (0x60000 + 64 * e.1, s.semRecord e.2)))
      let u := ((t.surveyPut 0 (s.surveyHeader code l.length)).clrFlag R.dbgStatus 6).setFlag R.dbgStatus 7
      let v := { u with dbg := { u.dbg with survey := none, latched := false, surveySeq := s.dbg.surveySeq + 1 } }
      let w := { v with freeCount := v.freeCount + 1 }
      exec .surveyDone s = .next (w.trace ⟨0x0B, Config.free v.freeCount % 10, 0, 0, 0, s.dbg.surveySeq, code⟩))) ∧
  (∀ (s : State) (code : Nat), (s.surveyHeader code s.surveySems.length).length = 64) ∧
  (∀ (s : State) (cells : Nat), let acts : Prop := s.boot.perst = true ∧ s.boot.waiting = true
    let put (i : TapInstr) (d : Bool) : State := { s with tap := { s.tap with instr := i, driving := d } }
    let id := s.fld R.glbIdentity 11 8 * 2 ^ 28 + s.fld R.glbIdentity 31 16 * 2 ^ 12 + 5 * 2 ^ 8 + 0x4E * 2 + 1
    let cell : State := { put .sample false with tap := ⟨.sample, cells, false⟩, freeCount := s.freeCount + 1 }
    exec .bypass s = .next ((put .bypass false).emit (.tap 0)) ∧
    (¬ acts → ∀ i ∈ [.idcode, .samplePreload cells, .extest, .extestPulse], exec i s = .next (put .bypass false)) ∧
    (acts → exec .idcode s = .next ((put .idcode false).emit (.tap id)) ∧
      exec (.samplePreload cells) s = .next (cell.emit (.tap (Config.free s.freeCount))) ∧
      exec .extest s = .next (put .extest true) ∧ exec .extestPulse s = .next (put .extestPulse true)))

/-- A queue pair comes and goes by command, sends its entries in ring order, and completes, resends or fails as R497 to R504 say (13 R494, 13 R497, 13 R498, 13 R499, 13 R500, 13 R504, 13 R509); it takes in choices of the model: log 36, 45, 97, 105, 106. -/
def Obligations.QueuePairsAndSends : Prop :=
  (∀ (s : State) (fn : Fin 64) (q : Fin 4096) (b : List Byte) (bad : Bool) (t : State), s.Serves fn (R.ethQpCmd q) true →
    s.memRead (s.fld R.ethQpTable 55 0 + 128 * q) 128 4 0 true = (b, bad, t) →
    let may : Prop := s.qpState q = 0 ∧ bad = false ∧ s.qpOk q b = true
    (¬ may → exec (.qpReady fn q) s = .next (s.setFlag R.ethStatus 2)) ∧
    (may → exec (.qpReady fn q) s = .next ((t.wr (R.ethQpStatus q) (BitVec.ofNat 64 (2 ^ 62))).setQp q (some (qpOf b t.now))))) ∧
  (∀ (s : State) (fn : Fin 64) (q : Fin 4096), s.Serves fn (R.ethQpCmd q) true →
    (s.qp q = none → exec (.qpReset fn q) s = .next (s.wr (R.ethQpStatus q) 0)) ∧
    (∀ x, s.qp q = some x → let t := if s.qpState q = 1 then s.qpFlush q x 6 .nothing else s
      exec (.qpReset fn q) s = .next ((t.setQp q none).wr (R.ethQpStatus q) 0))) ∧
  (∀ (s : State) (fn : Fin 64) (q : Fin 4096) (db : BitVec 32), s.Serves fn (R.ethQpDb q) true →
    exec (.qpDoorbell fn q db) s = .next (s.post q (nfld db.toNat 15 0) (nfld db.toNat 31 16))) ∧
  (∀ (s : State) (q sq rq : Nat),
    (s.qp q = none → s.post q sq rq = s) ∧
    (∀ x, s.qp q = some x → s.qpState q = 1 → let y := { x with sqPi := if sq < 2 ^ x.sqLog then sq else x.sqPi, rqPi := if rq < 2 ^ x.rqLog then rq else x.rqPi }
      (sq < 2 ^ x.sqLog → rq < 2 ^ x.rqLog → s.post q sq rq = s.setQp q (some y)) ∧
      ((sq < 2 ^ x.sqLog ↔ ¬ rq < 2 ^ x.rqLog) → s.Canon → s.post q sq rq = (s.count R.ethRxDenied 32 1).setQp q (some y)))) ∧
  (∀ (s : State) (q : Fin 4096) (host : HostData), let h := s.hostIn host
    (h.qp q = none → exec (.producerPoll q host) s = .next h.hostOut) ∧
    (∀ x, h.qp q = some x → let may : Prop := h.qpState q = 1 ∧ x.flags.testBit 2 = true
      (¬ may → exec (.producerPoll q host) s = .next h.hostOut) ∧
      (∀ b t, may → h.qpRead q x x.piAddr 8 = (some b, t) →
        exec (.producerPoll q host) s = .next (t.post q (leNat (b.take 2)) (leNat ((b.drop 2).take 2))).hostOut) ∧
      (∀ t, may → h.qpRead q x x.piAddr 8 = (none, t) → exec (.producerPoll q host) s = .next (t.qpError q 4 .nothing).hostOut))) ∧
  (∀ (s : State) (q : Fin 4096) (host : HostData) (i : Instr) (op : Nat),
    (i, op) ∈ [(.send q host, 0), (.sendImm q host, 1), (.rdmaWrite q host, 2), (.writeImm q host, 3), (.rdmaRead q host, 4)] → let h := s.hostIn host
    (h.qp q = none → exec i s = .next h.hostOut) ∧
    (∀ x, h.qp q = some x → h.maySend q x = false → exec i s = .next h.hostOut) ∧
    (∀ x t, h.qp q = some x → h.maySend q x = true → h.qpRead q x (x.sqAt x.sqNext) 64 = (none, t) →
      exec i s = .next (if op = 0 then t.qpError q 4 (.send x.sqNext) else h).hostOut) ∧
    (∀ x b t, h.qp q = some x → h.maySend q x = true → h.qpRead q x (x.sqAt x.sqNext) 64 = (some b, t) →
      let w := wqeOf x b t.now
      let next := (x.sqNext + 1) % 2 ^ x.sqLog
      let y := { x with sqNext := next, sendPsn := psnAdd w.last 1, flight := x.flight ++ [w] }
      (wqeOk q b w = false → exec i s = .next (if op = 0 then t.qpError q 4 (.send x.sqNext) else h).hostOut) ∧
      (wqeOk q b w = true → w.op ≠ op → exec i s = .next h.hostOut) ∧
      (wqeOk q b w = true → w.op = op →
        (op = 4 → w.flags.testBit 1 = true → x.flight ≠ [] → exec i s = .next h.hostOut) ∧
        (op = 4 → (w.flags.testBit 1 = false ∨ x.flight = []) → 2 ≤ (q : Nat) → exec i s = .next ((t.sendWqe x w []).setQp q (some y)).hostOut) ∧
        (∀ u, op ≠ 4 → t.qpRead q x w.addr w.len = (none, u) → exec i s = .next (u.qpError q 4 (.send x.sqNext)).hostOut) ∧
        (∀ d u, op ≠ 4 → 2 ≤ (q : Nat) → t.qpRead q x w.addr w.len = (some d, u) → exec i s = .next ((u.sendWqe x w d).setQp q (some y)).hostOut) ∧
        (∀ d u, op = 0 → (q : Nat) < 2 → t.qpRead q x w.addr w.len = (some d, u) → u.prioPaused x.port (framePrio d) = true →
          exec i s = .next u.hostOut) ∧
        (∀ d u, op = 0 → (q : Nat) < 2 → t.qpRead q x w.addr w.len = (some d, u) → u.prioPaused x.port (framePrio d) = false →
          let v := u.emit (.frame x.port (if w.flags.testBit 3 then withCsum d else d))
          exec i s = .next ((v.sendDone q x w.index 0 (w.flags.testBit 0)).setQp q (some { x with sqNext := next })).hostOut)))) ∧
  (∀ (s : State) (q : Fin 4096) (psn : Fin (2 ^ 24)),
    (s.qp q = none ∨ s.qpState q ≠ 1 → exec (.rdmaAck q psn) s = .next s) ∧
    (∀ x, s.qp q = some x → s.qpState q = 1 →
      let fl := x.flight.map (fun w => if w.op ≠ 4 ∧ psnLe w.last psn = true then { w with acked := true } else w)
      exec (.rdmaAck q psn) s = .next (((s.hit 212 0x4006 1).setQp q (some { x with flight := fl })).qpRetire q fl.length))) ∧
  (∀ (s : State) (q : Fin 4096) (data : List Byte) (x : Qp) (w : Wqe), s.qp q = some x → x.flight.find? (fun v => v.op = 4 && !v.acked) = some w →
    let h := s.hit 212 0x4006 (x.packets data.length)
    (s.qpState q ≠ 1 ∨ data.length ≠ w.len → exec (.rdmaReadResponse q data) s = .next s) ∧
    (∀ u, s.qpState q = 1 → data.length = w.len → h.qpWrite q x w.addr data = (false, u) →
      exec (.rdmaReadResponse q data) s = .next (u.qpError q 4 (.send w.index))) ∧
    (∀ u, s.qpState q = 1 → data.length = w.len → h.qpWrite q x w.addr data = (true, u) →
      let fl := x.flight.map (fun v => if v.index = w.index then { v with acked := true } else v)
      exec (.rdmaReadResponse q data) s = .next ((u.setQp q (some { x with flight := fl })).qpRetire q fl.length))) ∧
  (∀ (s : State) (q n : Nat) (x : Qp) (w : Wqe) (rest : List Wqe), s.qp q = some x → x.flight = w :: rest →
    (w.acked = false → s.qpRetire q n = s) ∧
    (w.acked = true → s.qpRetire q (n + 1) =
      ((s.sendDone q x w.index 0 (w.flags.testBit 0)).setQp q (some { x with flight := rest, tries := 0, rnrTries := 0 })).qpRetire q n)) ∧
  (∀ (s : State) (q : Fin 4096) (host : HostData) (x : Qp) (w : Wqe), let h := s.hostIn host
    h.qp q = some x → x.flight.find? (fun v => !v.acked) = some w →
    let due : Prop := h.qpState q = 1 ∧ w.sent + 4096 * 2 ^ x.timeout ≤ h.now
    (¬ due → exec (.ackTimeout q host) s = .next h.hostOut) ∧
    (due → x.retry % 8 ≤ x.tries → exec (.ackTimeout q host) s = .next (h.qpError q 1 (.send w.index)).hostOut) ∧
    (due → x.tries < x.retry % 8 → exec (.ackTimeout q host) s = .next ((h.setQp q (some { x with tries := x.tries + 1 })).resend q x).hostOut) ∧
    (let lim := x.retry / 16 % 8
      let u := h.hit 212 0x4006 1
      (h.qpState q ≠ 1 → exec (.rnrNakReceive q host) s = .next h.hostOut) ∧
      (h.qpState q = 1 → lim ≠ 7 → lim ≤ x.rnrTries → exec (.rnrNakReceive q host) s = .next (u.qpError q 5 x.oldest).hostOut) ∧
      (h.qpState q = 1 → (lim = 7 ∨ x.rnrTries < lim) → exec (.rnrNakReceive q host) s =
        .next ((u.setQp q (some { x with rnrTries := x.rnrTries + 1 })).resend q x).hostOut))) ∧
  (∀ (s : State) (q code : Nat) (x : Qp) (fail : Failing), let sends := ringFrom (s.sqCi q) x.sqPi x.sqLog
    let recvs := ringFrom (s.rqCi q) x.rqPi x.rqLog
    let t := sends.foldl (fun t i => (t.wantsEvent q x i).2.sendDone q x i (if fail = .send i then code else 6) (t.wantsEvent q x i).1) s
    (fail ≠ .receive → s.qpFlush q x code fail = recvs.foldl (fun t i => t.recvDone q x i 6) t) ∧
    (∀ r rest, fail = .receive → recvs = r :: rest → r ∉ rest → s.qpFlush q x code fail = rest.foldl (fun t i => t.recvDone q x i 6) (t.recvDone q x r code))) ∧
  (∀ (s : State) (q : Fin 4096) (invalid : Bool) (x : Qp), s.qp q = some x →
    (x.flight = [] → exec (.remoteAccessNak q invalid) s = .next s) ∧
    (x.flight ≠ [] → exec (.remoteAccessNak q invalid) s = .next ((s.hit 212 0x4006 1).qpError q (if invalid then 3 else 2) x.oldest)))

/-- An inbound packet is checked in order; a good WRITE is placed, a READ answered, a SEND consumed; a refused one is NAKed and ends in ERROR (13 R494, 13 R495, 13 R497, 13 R498, 13 R502, 13 R503, 13 R504); it takes in choices of the model: log 35, 37, 97, 105. -/
def Obligations.InboundMessages : Prop :=
  (∀ (s : State) (m : Inbound), let port : Nat := m.port
    let live : Prop := s.flag (R.ethPortCfg port) 55 = true ∧ s.flag R.ethStatus (8 + port) = true ∧ 2 ≤ (m.qp : Nat)
    let h := s.hit 212 0x4006 1
    (¬ live → s.gate m = (none, s)) ∧
    (live → m.icrc = false → s.gate m = (none, h.count R.ethRxIcrc 32 1)) ∧
    (live → m.icrc = true → s.qp m.qp = none → s.gate m = (none, (h.count R.ethRxDenied 32 1).send1 (.rdmaAck port none 0 m.psn 1))) ∧
    (∀ x, live → m.icrc = true → s.qp m.qp = some x → let t := s.hit 212 0x4006 (x.packets m.data.length)
      let wrong : Prop := x.port ≠ port ∨ (s.flag (R.ethPortCfg 1) 56 = true ∧ ¬ (x.flags.testBit 1 = true ↔ port = 1))
      (wrong → s.gate m = (none, t.count R.ethRxDenied 32 1)) ∧
      (¬ wrong → s.qpState m.qp ≠ 1 → s.gate m = (none, (t.count R.ethRxDenied 32 1).ack x m.psn 1)) ∧
      (¬ wrong → s.qpState m.qp = 1 → m.psn ≠ x.recvPsn → s.gate m = (none, t)) ∧
      (¬ wrong → s.qpState m.qp = 1 → m.psn = x.recvPsn → s.gate m = (some x, t.notify m x)) ∧
      (m.ce = false → t.notify m x = t))) ∧
  (∀ (s t : State) (m : Inbound), s.gate m = (none, t) →
    ∀ i ∈ [.inboundWrite m, .inboundWriteImm m, .inboundRead m, .inboundSend m], exec i s = .next t) ∧
  (∀ (s u : State) (m : Inbound) (x : Qp), s.gate m = (some x, u) → let q : Nat := m.qp
    let last := psnAdd m.psn (x.packets m.data.length - 1)
    let refused (t : State) : State := ((t.count R.ethRxDenied 32 1).ack x m.psn 1).qpError q 2 .nothing
    (∀ t, u.regionFor x m.rkey.toNat m.va.toNat m.data.length true = (none, t) →
      exec (.inboundWrite m) s = .next (refused t) ∧ exec (.inboundWriteImm m) s = .next (refused t)) ∧
    (∀ v t, u.regionFor x m.rkey.toNat m.va.toNat m.data.length true = (some v, t) → let w := (t.vaWrite (rdmaUser v) m.va.toNat m.data).2
      exec (.inboundWrite m) s = .next ((w.setQp q (some { x with recvPsn := psnAdd last 1 })).ack x last 0) ∧
      exec (.inboundWriteImm m) s = .next (w.consume q x last [] (some (m.imm.getD 0)) false)) ∧
    (∀ t, u.regionFor x m.rkey.toNat m.va.toNat m.len false = (none, t) → exec (.inboundRead m) s = .next (refused t)) ∧
    (∀ v t b w, u.regionFor x m.rkey.toNat m.va.toNat m.len false = (some v, t) → t.vaRead (rdmaUser v) m.va.toNat m.len = (.inl b, w) →
      let y := { x with recvPsn := psnAdd m.psn (x.packets m.len) }
      let n := w.hit 212 0x4005 (x.packets m.len)
      exec (.inboundRead m) s = .next ((n.setQp q (some y)).emit (.rdmaRead x.port (n.path x) x.peer m.psn b))) ∧
    exec (.inboundSend m) s = .next (u.consume q x m.psn m.data m.imm false)) ∧
  (∀ (s : State) (q psn : Nat) (x : Qp) (data : List Byte) (imm : Option (BitVec 32)) (raw : Bool), let i := s.rqCi q
    let ret (t : State) : State := if raw then t else
      (t.setQp q (some { x with recvPsn := psnAdd (psnAdd psn (x.packets data.length - 1)) 1 })).ack x (psnAdd psn (x.packets data.length - 1)) 0
    (i = x.rqPi → s.consume q x psn data imm raw = (if raw then s else s.ack x psn 3)) ∧
    (∀ t, i ≠ x.rqPi → s.qpRead q x (x.rqAt i) 32 = (none, t) → s.consume q x psn data imm raw = t.qpError q 4 .receive) ∧
    (∀ b t, i ≠ x.rqPi → s.qpRead q x (x.rqAt i) 32 = (some b, t) → let room := leNat ((b.drop 8).take 4)
      let tail := leBytes 4 data.length ++ leBytes 4 ((imm.map BitVec.toNat).getD 0)
      (room < data.length → s.consume q x psn data imm raw =
        (if raw then t else ((t.count R.ethRxDenied 32 1).ack x psn 2).qpError q 3 .receive)) ∧
      (data.length ≤ room → data = [] → s.consume q x psn data imm raw =
        ret ((t.qpWrite q x (x.rqAt i + 0x10) tail).2.recvDone q x i 0)) ∧
      (∀ u, data.length ≤ room → data ≠ [] → t.qpWrite q x (leNat ((b.drop 0).take 8)) data = (false, u) →
        s.consume q x psn data imm raw = u.qpError q 4 .receive) ∧
      (∀ u, data.length ≤ room → data ≠ [] → t.qpWrite q x (leNat ((b.drop 0).take 8)) data = (true, u) →
        s.consume q x psn data imm raw = ret ((u.qpWrite q x (x.rqAt i + 0x10) tail).2.recvDone q x i 0)))) ∧
  (∀ (s : State) (port : Fin 2) (data : List Byte) (host : HostData), let h := s.hostIn host
    let live : Prop := h.flag (R.ethPortCfg port) 55 = true ∧ h.flag R.ethStatus (8 + port) = true ∧ h.qpState port = 1 ∧ h.rawFrame port data = true
    (¬ live ∨ h.qp port = none → exec (.rawFrameReceive port data host) s = .next h.hostOut) ∧
    (∀ x, live → h.qp port = some x → exec (.rawFrameReceive port data host) s = .next (h.consume port x 0 data none true).hostOut)) ∧
  (∀ (s : State) (port : Nat) (b : List Byte), (b.length < 64 ∨ 9216 < b.length → s.rawFrame port b = false) ∧
    (64 ≤ b.length → b.length ≤ 9216 → beNat (b.take 6) = s.fld (R.ethPortMac port) 47 0 ∨ beNat (b.take 1) % 2 = 1 →
      beNat ((b.drop 12).take 2) ∉ [0x8100, 0x0800, 0x86DD] → s.rawFrame port b = true)) ∧
  (∀ (s : State) (x : Qp) (psn nak : Nat), let g := 16 * x.port + x.gid
    let path : RdmaPath := ⟨(s.rd (R.ethGidLo g)).toNat + 2 ^ 64 * (s.rd (R.ethGidHi g)).toNat, x.peerIp, x.peerMac, x.vlan, x.dscp⟩
    s.ack x psn nak = (s.hit 212 0x4005 1).emit (.rdmaAck x.port (some path) x.peer psn nak)) ∧
  (∀ (s : State) (q : Fin 4096) (code : Byte) (fail : Failing) (x : Qp), s.Canon → s.qp q = some x → s.qpState q = 1 →
    let t := s.qpError q code.toNat fail
    t.qpState q = 2 ∧ t.fld (R.ethQpStatus q) 61 54 = code.toNat ∧ (t.qp q).map (fun y => y.flight) = some []) ∧
  (∀ (s : State) (q code : Nat) (fail : Failing), s.qpState q ≠ 1 → s.qpError q code fail = s)

/-- Pauses, storms, rates, links, the hold and region records change as R484, R495, R501 and R505 say (13 R484, 13 R495, 13 R501, 13 R505, 13 R509); it takes in choices of the model: log 45, 47, 77. -/
def Obligations.EthernetPortsAndRegions : Prop :=
  (∀ (s : State) (port : Fin 2) (prio : Fin 8) (on : Bool), let k := 8 * (port : Nat) + prio
    let live : Prop := s.flag (R.ethPortCfg port) 55 = true ∧ s.flag (R.ethPortCfg port) (40 + prio) = true
    let put (v : Option Nat) : State := { s with eth := { s.eth with paused := SMap.put none s.eth.paused k v } }
    let held : Prop := s.now < SMap.get 0 s.eth.ignored k ∨ (SMap.get none s.eth.paused k).isSome = true
    (¬ live → exec (.pfcPauseReceive port prio on) s = .next s) ∧
    (live → on = false → exec (.pfcPauseReceive port prio on) s = .next (put none)) ∧
    (live → on = true → held → exec (.pfcPauseReceive port prio on) s = .next s) ∧
    (live → on = true → ¬ held → exec (.pfcPauseReceive port prio on) s = .next (put (some s.now))) ∧
    (SMap.get none s.eth.paused k = none → exec (.pfcStorm port prio) s = .next s) ∧
    (∀ t, SMap.get none s.eth.paused k = some t → s.now < t + 100000000 → exec (.pfcStorm port prio) s = .next s) ∧
    (∀ t, SMap.get none s.eth.paused k = some t → t + 100000000 ≤ s.now →
      let e := { (put none).eth with ignored := SMap.put 0 s.eth.ignored k (s.now + 100000000) }
      exec (.pfcStorm port prio) s = .next (({ s with eth := e }.count (R.ethPfcStorms port) 32 1).raiseCause 0 13))) ∧
  (∀ (s : State) (q : Fin 4096),
    (s.qp q = none → exec (.cnpReceive q) s = .next s ∧ exec (.cnpRateIncrease q) s = .next s) ∧
    (∀ x, s.qp q = some x → let t := s.hit 212 0x4006 1
      exec (.cnpReceive q) s = .next (t.setQp q (some { x with rate := max 1000 (x.rate / 2), rateAt := s.now })) ∧
      (s.now < x.rateAt + 55000 → exec (.cnpRateIncrease q) s = .next s) ∧
      (x.rateAt + 55000 ≤ s.now → exec (.cnpRateIncrease q) s =
        .next (s.setQp q (some { x with rate := min 400000 (x.rate + 20000), rateAt := s.now }))))) ∧
  (∀ (s : State) (port : Fin 2) (up : Bool), let on := s.flag (R.ethPortCfg port) 55
    (on = false ∨ s.flag R.ethStatus (8 + port) = up → exec (.ethLinkChange port up) s = .next s) ∧
    (on = true → s.flag R.ethStatus (8 + port) ≠ up → s.Canon →
      exec (.ethLinkChange port up) s = .next ((s.putFlag R.ethStatus (8 + port) up).raiseCause 0 13) ∧
      (s.putFlag R.ethStatus (8 + port) up).flag R.ethStatus (8 + port) = up)) ∧
  (∀ (s : State) (fn : Fin 64) (index : BitVec 16), s.Serves fn R.ethRegionInv true → let k := index.toNat
    (s.flag R.ethStatus 3 = true → exec (.regionInvalidate fn index) s = .next (s.setFlag R.ethStatus 4)) ∧
    (s.flag R.ethStatus 3 = false → let e := { s.eth with regions := SMap.put none s.eth.regions k none, invalidating := some k }
      exec (.regionInvalidate fn index) s = .next ({ s with eth := e }.setFlag R.ethStatus 3))) ∧
  (∀ s : State, (s.eth.invalidating = none → exec .regionInvDone s = .next s) ∧
    (∀ k, s.eth.invalidating = some k → s.Canon → ∃ t : State, exec .regionInvDone s = .next t ∧ t.flag R.ethStatus 3 = false ∧
      t.eth = { s.eth with regions := SMap.put none s.eth.regions k none, invalidating := none } ∧ t.mem = s.mem ∧ t.cores = s.cores ∧
      (∀ off, off ≠ R.ethStatus → t.rd off = s.rd off))) ∧
  (∀ (s : State) (fn : Fin 64) (on : Bool), s.Canon → s.Serves fn R.ethControl true → ∃ t : State, exec (.rdmaHold fn on) s = .next t ∧
    t.rd R.ethControl = (if on then 1 else 0) ∧ t.flag R.ethStatus 1 = on ∧ t.eth = s.eth ∧ t.mem = s.mem ∧
    (∀ off, off ∉ [R.ethControl, R.ethStatus] → t.rd off = s.rd off) ∧
    (s.flag R.ethControl 0 = on → t.out = s.out) ∧
    (s.flag R.ethControl 0 ≠ on →
      let say (p : Nat) : List Out := if s.flag (R.ethPortCfg p) 55 then [.pause p (s.fld (R.ethPortCfg p) 50 48) on] else []
      t.out = say 1 ++ say 0 ++ s.out))
end

