-- ==== Sys2Proof/Laws/Access.lean ====
section
/-! SUPPORT. What an access to a register of BAR0 does, by the way it ends. -/

namespace Sys2Proof.Machine

theorem State.mmio_serves {s : State} {fn off : Nat} {write : Bool} (h : s.Serves fn off write) (act : State → State) :
    s.mmio fn off write act = act s := by
  unfold State.mmio; simp [h.reach, h.clear]

/-- A write to a register behind a fenced crossing is discarded and counted (R70). -/
theorem State.mmio_write_cut {s : State} {fn off : Nat} (h : s.reach fn off true = .acts) (c : s.mgtCut off = true) (act : State → State) :
    s.mmio fn off true act = s.rled 3 1 := by
  unfold State.mmio; simp [h, c]

end Sys2Proof.Machine
end

