-- ==== Sys2Proof/Laws/Tables.lean ====
section
/-! SUPPORT. Laws of sparse tables and byte memory: a read after a write, and that every operation keeps the canonical form. -/

namespace Sys2Proof

/-- The keys of a table rise. -/
def SMap.Rising {α : Type} (m : SMap α) : Prop := m.Pairwise (fun a b => a.1 < b.1)

theorem SMap.get_below {α : Type} (d : α) {m : SMap α} {k : Nat} (h : ∀ e ∈ m, k < e.1) : m.get d k = d := by
  cases m with
  | nil => rfl
  | cons e t =>
    obtain ⟨k', v'⟩ := e
    have := h (k', v') (by simp)
    simp only at this
    simp [SMap.get, this, Nat.ne_of_lt this]

/-- Storing under a key makes that key read as the stored value. -/
theorem SMap.get_put_same {α : Type} [DecidableEq α] (d v : α) (k : Nat) {m : SMap α} (h : m.Rising) :
    (m.put d k v).get d k = v := by
  induction m with
  | nil => by_cases hv : v = d <;> simp [SMap.put, SMap.get, hv]
  | cons e t ih =>
    obtain ⟨k', v'⟩ := e
    rw [SMap.Rising, List.pairwise_cons] at h
    unfold SMap.put
    split
    · rename_i hk
      split
      · rename_i hv
        rw [hv]; exact SMap.get_below d (fun e he => by
          rcases List.mem_cons.1 he with rfl | he
          · exact hk
          · exact Nat.lt_trans hk (h.1 e he))
      · simp [SMap.get]
    · split
      · rename_i hk _
        subst_vars
        split
        · rename_i hv
          rw [hv]; exact SMap.get_below d (fun e he => h.1 e he)
        · simp [SMap.get]
      · rename_i hk hne
        simp [SMap.get, hne, hk, ih h.2]

/-- Storing under a key leaves every other key alone. -/
theorem SMap.get_put_other {α : Type} [DecidableEq α] {d : Nat → α} (m : SMap α) {k j : Nat} (v : α) (hj : j ≠ k) (h : m.Rising) :
    (m.put (d k) k v).get (d j) j = m.get (d j) j := by
  induction m with
  | nil => by_cases hv : v = d k <;> simp [SMap.put, SMap.get, hv, hj]
  | cons e t ih =>
    obtain ⟨k', v'⟩ := e
    rw [SMap.Rising, List.pairwise_cons] at h
    unfold SMap.put
    split
    · rename_i hk
      split
      · rfl
      · by_cases hjk : j < k
        · have : j < k' := Nat.lt_trans hjk hk
          simp [SMap.get, hj, hjk, this, Nat.ne_of_lt this]
        · simp [SMap.get, hj, hjk]
    · split
      · rename_i hk he
        subst he
        by_cases hjk : j < k
        · split
          · rw [SMap.get_below _ (fun e he => Nat.lt_trans hjk (h.1 e he))]
            simp [SMap.get, hj, hjk]
          · simp [SMap.get, hj, hjk]
        · split <;> simp [SMap.get, hj, hjk]
      · simp only [SMap.get]
        rw [ih h.2]

theorem SMap.get_put_ne {α : Type} [DecidableEq α] (d v : α) {k j : Nat} (hj : j ≠ k) {m : SMap α} (h : m.Rising) :
    (m.put d k v).get d j = m.get d j := SMap.get_put_other (d := fun _ => d) m v hj h

/-- Storing what a table already holds changes nothing. -/
theorem SMap.put_get {α : Type} [DecidableEq α] (d : α) (k : Nat) {m : SMap α} (h : m.Rising) (w : ∀ e ∈ m, e.2 ≠ d) :
    m.put d k (m.get d k) = m := by
  induction m with
  | nil => simp [SMap.put, SMap.get]
  | cons e t ih =>
    obtain ⟨k', v'⟩ := e
    rw [SMap.Rising, List.pairwise_cons] at h
    have wv : v' ≠ d := w (k', v') (by simp)
    unfold SMap.put SMap.get
    by_cases hk : k < k'
    · simp [hk, Nat.ne_of_lt hk]
    · by_cases he : k = k'
      · subst he; simp [wv]
      · simp only [if_neg hk, if_neg he, ih h.2 fun e he => w e (List.mem_cons_of_mem _ he)]

theorem SMap.mem_put {α : Type} [DecidableEq α] {d v : α} {k : Nat} {m : SMap α} {e : Nat × α} (h : e ∈ m.put d k v) :
    e = (k, v) ∧ v ≠ d ∨ e ∈ m := by
  induction m with
  | nil =>
    unfold SMap.put at h
    split at h <;> simp_all
  | cons x t ih =>
    obtain ⟨k', v'⟩ := x
    unfold SMap.put at h
    split at h
    · split at h <;> simp_all
    · split at h
      · split at h <;> simp_all
        rcases h with h | h <;> simp [h]
      · rcases List.mem_cons.1 h with h | h
        · simp [h]
        · rcases ih h with h | h <;> simp [h]

theorem SMap.put_rising {α : Type} [DecidableEq α] (d v : α) (k : Nat) {m : SMap α} (h : m.Rising) : (m.put d k v).Rising := by
  induction m with
  | nil => unfold SMap.put; split <;> simp [SMap.Rising]
  | cons x t ih =>
    obtain ⟨k', v'⟩ := x
    have h0 := h
    rw [SMap.Rising, List.pairwise_cons] at h
    unfold SMap.put
    split
    · rename_i hk
      split
      · exact h0
      · refine List.pairwise_cons.2 ⟨fun e he => ?_, h0⟩
        rcases List.mem_cons.1 he with rfl | he
        · exact hk
        · exact Nat.lt_trans hk (h.1 e he)
    · split
      · split
        · exact h.2
        · rename_i hk _
          subst_vars
          exact List.pairwise_cons.2 h
      · rename_i hk hne
        refine List.pairwise_cons.2 ⟨fun e he => ?_, ih h.2⟩
        rcases SMap.mem_put he with ⟨rfl, _⟩ | he
        · simp only; omega
        · exact h.1 e he

/-- Storing keeps the canonical form. -/
theorem SMap.put_canon {α : Type} [DecidableEq α] {d : Nat → α} {m : SMap α} (h : m.Canon d) (k : Nat) (v : α) :
    (m.put (d k) k v).Canon d := by
  refine ⟨SMap.put_rising (d k) v k h.1, fun e he => ?_⟩
  rcases SMap.mem_put he with ⟨rfl, hv⟩ | he
  · exact hv
  · exact h.2 e he

/-- Removing entries keeps the canonical form. -/
theorem SMap.filter_canon {α : Type} {d : Nat → α} {m : SMap α} (h : m.Canon d) (p : Nat × α → Bool) :
    SMap.Canon d (m.filter p) :=
  ⟨h.1.sublist List.filter_sublist, fun e he => h.2 e (List.mem_filter.1 he).1⟩

/-- Applying a function to every value keeps the canonical form. -/
theorem SMap.mapv_canon {α : Type} [DecidableEq α] {d : α} {m : SMap α} (h : m.Canon (fun _ => d)) (f : Nat → α → α) :
    SMap.Canon (fun _ => d) (m.mapv d f) := by
  have go (l : List (Nat × α)) : ∀ a : SMap α, a.Canon (fun _ => d) →
      SMap.Canon (fun _ => d) (l.foldl (fun (a : SMap α) (e : Nat × α) => a.put d e.1 (f e.1 e.2)) a) := by
    induction l with
    | nil => exact fun _ ha => ha
    | cons e l ih => exact fun a ha => ih _ (SMap.put_canon ha e.1 (f e.1 e.2))
  exact go m m h

theorem SMap.nil_canon {α : Type} (d : Nat → α) : SMap.Canon d [] := ⟨List.Pairwise.nil, fun e he => by simp at he⟩

/-- Storing bytes keeps the canonical form of memory. -/
theorem Mem.store_canon {m : Mem} (h : SMap.Canon (fun _ => (0 : Byte)) m) (a : Nat) (b : List Byte) :
    SMap.Canon (fun _ => (0 : Byte)) (m.store a b) := by
  induction b generalizing m a with
  | nil => exact h
  | cons x t ih => exact ih (SMap.put_canon h a x) (a + 1)

/-- A byte outside a stored range reads as before. -/
theorem Mem.read_store_out {m : Mem} (h : SMap.Rising m) (a : Nat) (b : List Byte) (j : Nat) (hj : j < a ∨ a + b.length ≤ j) :
    (m.store a b).read j = m.read j := by
  induction b generalizing m a with
  | nil => rfl
  | cons x t ih =>
    have hne : j ≠ a := by simp only [List.length_cons] at hj; omega
    have := ih (m := m.write a x) (SMap.put_rising 0 x a h) (a + 1) (by simp only [List.length_cons] at hj; omega)
    rw [Mem.store, this]
    exact SMap.get_put_ne 0 x hne h

/-- A byte inside a stored range reads as it was stored. -/
theorem Mem.read_store_in {m : Mem} (h : SMap.Rising m) (a : Nat) (b : List Byte) (i : Nat) (hi : i < b.length) :
    (m.store a b).read (a + i) = b.getD i 0 := by
  induction b generalizing m a i with
  | nil => simp at hi
  | cons x t ih =>
    have hr := SMap.put_rising 0 x a h
    cases i with
    | zero =>
      rw [Mem.store, Nat.add_zero]
      exact (Mem.read_store_out hr (a + 1) t a (by omega)).trans (SMap.get_put_same 0 x a h)
    | succ i =>
      have := ih (m := m.write a x) hr (a + 1) i (by simpa using hi)
      rw [Mem.store, show a + (i + 1) = a + 1 + i by omega, this]
      simp

/-- The check of the canonical form agrees with the statement of it. -/
theorem SMap.wf_iff {α : Type} [DecidableEq α] (d : Nat → α) (m : SMap α) : m.wf d = true ↔ m.Canon d := by
  simp [SMap.wf, SMap.Canon]

theorem Mem.wf_iff (m : Mem) : m.wf = true ↔ SMap.Canon (fun _ => (0 : Byte)) m := SMap.wf_iff _ m

theorem Mem.write_wf {m : Mem} (h : m.wf = true) (a : Nat) (b : Byte) : (m.write a b).wf = true :=
  (Mem.wf_iff _).2 (SMap.put_canon ((Mem.wf_iff m).1 h) a b)

theorem Mem.store_wf {m : Mem} (h : m.wf = true) (a : Nat) (b : List Byte) : (m.store a b).wf = true :=
  (Mem.wf_iff _).2 (Mem.store_canon ((Mem.wf_iff m).1 h) a b)

theorem Mem.putNat_wf {m : Mem} (h : m.wf = true) (a n v : Nat) : (m.putNat a n v).wf = true := Mem.store_wf h a _

theorem reset_memory_wf : Machine.State.reset.mem.dram.wf = true := rfl

end Sys2Proof
end

