-- ==== Sys2Proof/Laws/Keeps.lean ====
section
/-! SUPPORT. What every command keeps: the queue, the canonical form, the record of what was sent, the fuses, and that no debug scope
opens. `State.Keeps s t` says it of a state `t` made from `s`; the lemmas of Laws/Keeps*.lean say it once for each shared
operation and for each meaning. -/

namespace Sys2Proof.Machine

theorem Fuses.Grow.refl (f : Fuses) : f.Grow f := ⟨Nat.le_refl _, Nat.le_refl _, List.prefix_refl _, fun _ h => h, fun _ h => h⟩

theorem Fuses.Grow.trans {f g h : Fuses} (a : f.Grow g) (b : g.Grow h) : f.Grow h :=
  ⟨a.1.trans b.1, a.2.1.trans b.2.1, a.2.2.1.trans b.2.2.1, fun i k => b.2.2.2.1 i (a.2.2.2.1 i k),
    fun i k => b.2.2.2.2 i (a.2.2.2.2 i k)⟩

/-- The queue is untouched, the canonical form is kept, what was sent stays recorded, free values are used up in order, and the
fuses of a module that has left the factory only grow. -/
structure State.KeepsMost (s t : State) : Prop where
  pending : t.pending = s.pending
  canon : s.Canon → t.Canon
  sent : s.out <:+ t.out
  used : s.freeCount ≤ t.freeCount
  made : s.boot.made = true → t.boot.made = true
  fuses : s.boot.made = true → s.sec.fuses.Grow t.sec.fuses

/-- Beside that, the scopes granted by a token stand or end. -/
structure State.Keeps (s t : State) : Prop extends State.KeepsMost s t where
  scopes : t.sec.scopes = s.sec.scopes ∨ t.sec.scopes = 0

theorem State.KeepsMost.trans {s t u : State} (h : s.KeepsMost t) (k : t.KeepsMost u) : s.KeepsMost u where
  pending := k.pending.trans h.pending
  canon := k.canon ∘ h.canon
  sent := h.sent.trans k.sent
  used := h.used.trans k.used
  made := k.made ∘ h.made
  fuses m := (h.fuses m).trans (k.fuses (h.made m))

theorem State.Keeps.refl (s : State) : s.Keeps s where
  pending := rfl
  canon := id
  sent := List.suffix_refl _
  used := Nat.le_refl _
  made := id
  fuses _ := Fuses.Grow.refl _
  scopes := .inl rfl

theorem State.Keeps.trans {s t u : State} (h : s.Keeps t) (k : t.Keeps u) : s.Keeps u where
  toKeepsMost := h.toKeepsMost.trans k.toKeepsMost
  scopes := by
    rcases k.scopes with e | e
    · rcases h.scopes with e' | e'
      · exact .inl (e.trans e')
      · exact .inr (e.trans e')
    · exact .inr e

/-- A state made from `t` by what the fields of these claims allow. -/
theorem State.Keeps.change {s t u : State} (h : s.Keeps t) (p : u.pending = t.pending) (k : t.Canon → u.Canon)
    (o : t.out <:+ u.out) (f : t.freeCount ≤ u.freeCount) (m : t.boot.made = true → u.boot.made = true)
    (z : t.boot.made = true → t.sec.fuses.Grow u.sec.fuses) (c : u.sec.scopes = t.sec.scopes ∨ u.sec.scopes = 0) : s.Keeps u :=
  h.trans { pending := p, canon := k, sent := o, used := f, made := m, fuses := z, scopes := c }

/-- The tables that the canonical form speaks of, device memory apart, are the same. -/
structure State.Tables (t u : State) : Prop where
  regs : u.regs = t.regs
  cores : u.cores = t.cores
  launches : u.dsp.launches = t.dsp.launches
  cmds : u.dsp.cmds = t.dsp.cmds
  threads : u.dsp.threads = t.dsp.threads
  units : u.pts.units = t.pts.units
  qps : u.eth.qps = t.eth.qps

theorem State.Tables.canon {t u : State} (e : t.Tables u)
    (d : SMap.Canon (fun _ => (0 : Byte)) t.mem.dram → SMap.Canon (fun _ => (0 : Byte)) u.mem.dram) (k : t.Canon) : u.Canon where
  dram := d k.dram
  regs := e.regs ▸ k.regs
  cores := e.cores ▸ k.cores
  launches := e.launches ▸ k.launches
  cmds := e.cmds ▸ k.cmds
  threads := e.threads ▸ k.threads
  units := e.units ▸ k.units
  qps := e.qps ▸ k.qps

/-- A state that agrees with `t` on everything `Keeps` speaks of. -/
theorem State.Keeps.same {s t u : State} (h : s.Keeps t) (p : u.pending = t.pending) (e : t.Tables u)
    (d : u.mem.dram = t.mem.dram) (o : u.out = t.out) (f : u.freeCount = t.freeCount) (m : u.boot.made = t.boot.made)
    (z : u.sec.fuses = t.sec.fuses) (c : u.sec.scopes = t.sec.scopes) : s.Keeps u :=
  h.change p (e.canon fun k => d ▸ k) (o ▸ List.suffix_refl _) (f ▸ Nat.le_refl _) (fun k => m ▸ k)
    (fun _ => z ▸ Fuses.Grow.refl _) (.inl c)

/-- The same for a state written as a record. -/
theorem keeps_mk {s t : State} {pending freeCount out regs force mem trn cores pts dsp pci con sem dbg ras mln eth boot pwr sec mgt tap}
    (p : pending = t.pending) (r : regs = t.regs) (d : mem.dram = t.mem.dram) (o : out = t.out) (f : freeCount = t.freeCount)
    (b : boot.made = t.boot.made) (z : sec.fuses = t.sec.fuses) (c : sec.scopes = t.sec.scopes) (k : cores = t.cores)
    (l : dsp.launches = t.dsp.launches) (m : dsp.cmds = t.dsp.cmds) (x : dsp.threads = t.dsp.threads) (u : pts.units = t.pts.units)
    (q : eth.qps = t.eth.qps) (h : s.Keeps t) :
    s.Keeps (State.mk pending freeCount out regs force mem trn cores pts dsp pci con sem dbg ras mln eth boot pwr sec mgt tap) :=
  h.same p ⟨r, k, l, m, x, u, q⟩ d o f b z c

/-- The memory system keeps the canonical form of device memory. -/
def MemSys.Keeps (m n : MemSys) : Prop :=
  SMap.Canon (fun _ => (0 : Byte)) m.dram → SMap.Canon (fun _ => (0 : Byte)) n.dram

theorem MemSys.Keeps.refl (m : MemSys) : m.Keeps m := id

theorem MemSys.Keeps.same {m n k : MemSys} (h : m.Keeps n) (d : k.dram = n.dram) : m.Keeps k := fun c => d ▸ h c

theorem memKeeps_mk {m n : MemSys} {dram key poison l2 clock gen fenced events cut tally} (d : dram = n.dram) (h : m.Keeps n) :
    m.Keeps (MemSys.mk dram key poison l2 clock gen fenced events cut tally) := h.same d

theorem memKeeps_ite {s t u : MemSys} {c : Prop} [Decidable c] (h : s.Keeps t) (k : s.Keeps u) :
    s.Keeps (if c then t else u) := by
  split <;> assumption

theorem State.Keeps.mem {s t : State} (h : s.Keeps t) {m : MemSys} (k : t.mem.Keeps m) : s.Keeps { t with mem := m } :=
  h.change rfl (State.Tables.canon ⟨rfl, rfl, rfl, rfl, rfl, rfl, rfl⟩ k) (List.suffix_refl _) (Nat.le_refl _) id
    (fun _ => Fuses.Grow.refl _) (.inl rfl)

/-- What an answer keeps when it is a next state. -/
def State.AnsKeeps (s : State) (a : Answer) : Prop := ∀ t, a = .next t → s.Keeps t

theorem State.AnsKeeps.next {s t : State} (h : s.Keeps t) : s.AnsKeeps (.next t) := fun _ e => by
  cases e; exact h

/-- A property of the value of an option, if there is one. -/
def OptK {α : Type} (P : α → Prop) (o : Option α) : Prop := ∀ a, o = some a → P a

theorem OptK.none {α : Type} {P : α → Prop} : OptK P none := fun a e => by cases e
theorem OptK.some {α : Type} {P : α → Prop} {a : α} (h : P a) : OptK P (some a) := fun b e => by cases e; exact h

theorem OptK.map {α β : Type} {P : α → Prop} {Q : β → Prop} {f : α → β} {o : Option α} (h : OptK P o)
    (k : ∀ a, P a → Q (f a)) : OptK Q (o.map f) := fun b e => by
  obtain ⟨a, ha, rfl⟩ := Option.map_eq_some_iff.1 e
  exact k a (h a ha)

theorem keeps_map {s : State} {f : State → State} {o : Option State} (h : OptK (s.Keeps ·) o)
    (k : ∀ a, s.Keeps a → s.Keeps (f a)) : OptK (s.Keeps ·) (o.map f) := h.map k

theorem keeps_map3 {α β : Type} {s : State} {f : State → α × β × State} {o : Option State} (h : OptK (s.Keeps ·) o)
    (k : ∀ a, s.Keeps a → s.Keeps (f a).2.2) : OptK (fun x => s.Keeps x.2.2) (o.map f) := h.map k

theorem keeps_foldlo {β : Type} {s : State} {f : State → β → Option State} {l : List β} {o : Option State}
    (h : OptK (s.Keeps ·) o) (k : ∀ u b, s.Keeps u → OptK (s.Keeps ·) (f u b)) :
    OptK (s.Keeps ·) (l.foldl (fun a b => a.bind fun u => f u b) o) := by
  induction l generalizing o with
  | nil => exact h
  | cons b l ih =>
    refine ih fun v e => ?_
    obtain ⟨a, ha, hv⟩ := Option.bind_eq_some_iff.1 e
    exact k a b (h a ha) v hv

theorem keeps_eq2 {α : Type} {s u : State} {e : α × State} {a : α} (h : s.Keeps e.2) (he : e = (a, u)) : s.Keeps u := by
  subst he; exact h

theorem keeps_eq3 {α β : Type} {s u : State} {e : α × β × State} {a : α} {b : β} (h : s.Keeps e.2.2)
    (he : e = (a, b, u)) : s.Keeps u := by
  subst he; exact h

theorem keeps_eq4 {α β γ : Type} {s u : State} {e : α × β × γ × State} {a : α} {b : β} {c : γ} (h : s.Keeps e.2.2.2)
    (he : e = (a, b, c, u)) : s.Keeps u := by
  subst he; exact h

theorem keeps_eqs {α β : Type} {s : State} {e : α × β × State} {a : α} {p : β × State} (h : s.Keeps e.2.2)
    (he : e = (a, p)) : s.Keeps p.2 := by
  subst he; exact h

theorem keeps_eqo {s u : State} {o : Option State} (h : OptK (s.Keeps ·) o) (he : o = some u) : s.Keeps u := h u he

theorem keeps_eqo2 {α : Type} {s u : State} {o : Option (α × State)} {a : α} (h : OptK (fun x => s.Keeps x.2) o)
    (he : o = some (a, u)) : s.Keeps u := h _ he

theorem keeps_eqo3 {α β : Type} {s u : State} {o : Option (α × β × State)} {a : α} {b : β}
    (h : OptK (fun x => s.Keeps x.2.2) o) (he : o = some (a, b, u)) : s.Keeps u := h _ he

theorem keeps_ite {s t u : State} {c : Prop} [Decidable c] (h : s.Keeps t) (k : s.Keeps u) :
    s.Keeps (if c then t else u) := by
  split <;> assumption

theorem keeps_getD {s t : State} {o : Option State} (h : OptK (s.Keeps ·) o) (k : s.Keeps t) : s.Keeps (o.getD t) := by
  cases o with
  | none => exact k
  | some u => exact h u rfl

theorem keeps_foldl {β : Type} {s t : State} {f : State → β → State} {l : List β} (h : s.Keeps t)
    (k : ∀ u b, s.Keeps u → s.Keeps (f u b)) : s.Keeps (l.foldl f t) := by
  induction l generalizing t with
  | nil => exact h
  | cons b l ih => exact ih (k t b h)

theorem keeps_foldr {β : Type} {s t : State} {f : β → State → State} {l : List β} (h : s.Keeps t)
    (k : ∀ b u, s.Keeps u → s.Keeps (f b u)) : s.Keeps (l.foldr f t) := by
  induction l with
  | nil => exact h
  | cons b l ih => exact k b _ ih

theorem keeps_foldl2 {α β : Type} {s : State} {f : α × State → β → α × State} {l : List β} {x : α × State} (h : s.Keeps x.2)
    (k : ∀ u b, s.Keeps u.2 → s.Keeps (f u b).2) : s.Keeps (l.foldl f x).2 := by
  induction l generalizing x with
  | nil => exact h
  | cons b l ih => exact ih (k x b h)

theorem keeps_foldl3 {α γ β : Type} {s : State} {f : α × γ × State → β → α × γ × State} {l : List β} {x : α × γ × State}
    (h : s.Keeps x.2.2) (k : ∀ u b, s.Keeps u.2.2 → s.Keeps (f u b).2.2) : s.Keeps (l.foldl f x).2.2 := by
  induction l generalizing x with
  | nil => exact h
  | cons b l ih => exact ih (k x b h)

theorem keeps_foldl4 {α γ δ β : Type} {s : State} {f : α × γ × δ × State → β → α × γ × δ × State} {l : List β}
    {x : α × γ × δ × State} (h : s.Keeps x.2.2.2) (k : ∀ u b, s.Keeps u.2.2.2 → s.Keeps (f u b).2.2.2) :
    s.Keeps (l.foldl f x).2.2.2 := by
  induction l generalizing x with
  | nil => exact h
  | cons b l ih => exact ih (k x b h)

theorem memKeeps_foldl {β : Type} {s t : MemSys} {f : MemSys → β → MemSys} {l : List β} (h : s.Keeps t)
    (k : ∀ u b, s.Keeps u → s.Keeps (f u b)) : s.Keeps (l.foldl f t) := by
  induction l generalizing t with
  | nil => exact h
  | cons b l ih => exact ih (k t b h)

/-- A record with another memory system. -/
theorem keeps_mkm {s t : State} {pending freeCount out regs force mem trn cores pts dsp pci con sem dbg ras mln eth boot pwr sec mgt tap}
    (p : pending = t.pending) (r : regs = t.regs) (o : out = t.out) (f : freeCount = t.freeCount)
    (b : boot.made = t.boot.made) (z : sec.fuses = t.sec.fuses) (c : sec.scopes = t.sec.scopes) (k : cores = t.cores)
    (l : dsp.launches = t.dsp.launches) (n : dsp.cmds = t.dsp.cmds) (x : dsp.threads = t.dsp.threads) (u : pts.units = t.pts.units)
    (q : eth.qps = t.eth.qps) (m : t.mem.Keeps mem) (h : s.Keeps t) :
    s.Keeps (State.mk pending freeCount out regs force mem trn cores pts dsp pci con sem dbg ras mln eth boot pwr sec mgt tap) :=
  (h.mem m).same p ⟨r, k, l, n, x, u, q⟩ rfl o f b z c

/-- A record after a free value was taken. -/
theorem keeps_mkf {s t : State} {pending freeCount out regs force mem trn cores pts dsp pci con sem dbg ras mln eth boot pwr sec mgt tap}
    (p : pending = t.pending) (r : regs = t.regs) (d : mem.dram = t.mem.dram) (o : out = t.out)
    (b : boot.made = t.boot.made) (z : sec.fuses = t.sec.fuses) (c : sec.scopes = t.sec.scopes) (k : cores = t.cores)
    (l : dsp.launches = t.dsp.launches) (n : dsp.cmds = t.dsp.cmds) (x : dsp.threads = t.dsp.threads) (u : pts.units = t.pts.units)
    (q : eth.qps = t.eth.qps) (f : freeCount = t.freeCount + 1) (h : s.Keeps t) :
    s.Keeps (State.mk pending freeCount out regs force mem trn cores pts dsp pci con sem dbg ras mln eth boot pwr sec mgt tap) :=
  h.change p (State.Tables.canon ⟨r, k, l, n, x, u, q⟩ fun y => d ▸ y) (o ▸ List.suffix_refl _) (f ▸ Nat.le_succ _) (fun y => b ▸ y)
    (fun _ => z ▸ Fuses.Grow.refl _) (.inl c)

/-! ### The primitives -/

/-- A change of one table. -/
theorem State.Keeps.table {s t u : State} (h : s.Keeps t) (p : u.pending = t.pending) (k : t.Canon → u.Canon)
    (o : u.out = t.out) (f : u.freeCount = t.freeCount) (m : u.boot = t.boot) (z : u.sec = t.sec) : s.Keeps u :=
  h.change p k (o ▸ List.suffix_refl _) (f ▸ Nat.le_refl _) (fun x => m ▸ x) (fun _ => z ▸ Fuses.Grow.refl _) (.inl (z ▸ rfl))

theorem State.wr_keeps {s0 s : State} {off : Nat} {v : Word} (h : s0.Keeps s) : s0.Keeps (s.wr off v) :=
  h.table rfl (fun k => { k with regs := SMap.put_canon k.regs off v }) rfl rfl rfl rfl

theorem State.setCore_keeps {s0 s : State} {c : Nat} {x : Core} (h : s0.Keeps s) : s0.Keeps (s.setCore c x) :=
  h.table rfl (fun k => { k with cores := SMap.put_canon k.cores c x }) rfl rfl rfl rfl

theorem State.mapCores_keeps {s0 s : State} {f : Nat → Core → Core} (h : s0.Keeps s) : s0.Keeps (s.mapCores f) :=
  h.table rfl (fun k => { k with cores := SMap.mapv_canon k.cores f }) rfl rfl rfl rfl

theorem State.setLaunch_keeps {s0 s : State} {n : Nat} {x : Option Launch} (h : s0.Keeps s) : s0.Keeps (s.setLaunch n x) :=
  h.table rfl (fun k => { k with launches := SMap.put_canon k.launches n x }) rfl rfl rfl rfl

theorem State.setCmd_keeps {s0 s : State} {n : Nat} {x : Option Cmd} (h : s0.Keeps s) : s0.Keeps (s.setCmd n x) :=
  h.table rfl (fun k => { k with cmds := SMap.put_canon k.cmds n x }) rfl rfl rfl rfl

theorem State.setThread_keeps {s0 s : State} {n : Nat} {x : Option Thread} (h : s0.Keeps s) : s0.Keeps (s.setThread n x) :=
  h.table rfl (fun k => { k with threads := SMap.put_canon k.threads n x }) rfl rfl rfl rfl

theorem State.bumpFree_keeps {s0 s : State} (h : s0.Keeps s) : s0.Keeps { s with freeCount := s.freeCount + 1 } :=
  keeps_mkf rfl rfl rfl rfl rfl rfl rfl rfl rfl rfl rfl rfl rfl rfl h

theorem State.withFree_keeps {s0 s : State} {f : Nat → State → State} (h : s0.Keeps s)
    (k : ∀ n t, s0.Keeps t → s0.Keeps (f n t)) : s0.Keeps (s.withFree f) := k _ _ (State.bumpFree_keeps h)

theorem State.free_keeps {s0 s : State} (h : s0.Keeps s) : s0.Keeps s.free.2 := State.bumpFree_keeps h

theorem State.emit_keeps {s0 s : State} {o : Out} (h : s0.Keeps s) : s0.Keeps (s.emit o) :=
  h.change rfl (State.Tables.canon ⟨rfl, rfl, rfl, rfl, rfl, rfl, rfl⟩ id) (List.suffix_cons _ _) (Nat.le_refl _) id
    (fun _ => Fuses.Grow.refl _) (.inl rfl)

end Sys2Proof.Machine
end

