-- ==== Sys2Proof/Laws/State.lean ====
section
/-! SUPPORT. What each update of the state leaves of each field, and what a register reads as after a write. -/

namespace Sys2Proof.Machine

/-! ### wr -/

@[simp] theorem State.wr_pending (s : State) (off : Nat) (v : Word) : (s.wr off v).pending = s.pending := rfl
@[simp] theorem State.wr_freeCount (s : State) (off : Nat) (v : Word) : (s.wr off v).freeCount = s.freeCount := rfl
@[simp] theorem State.wr_out (s : State) (off : Nat) (v : Word) : (s.wr off v).out = s.out := rfl
@[simp] theorem State.wr_force (s : State) (off : Nat) (v : Word) : (s.wr off v).force = s.force := rfl
@[simp] theorem State.wr_mem (s : State) (off : Nat) (v : Word) : (s.wr off v).mem = s.mem := rfl
@[simp] theorem State.wr_trn (s : State) (off : Nat) (v : Word) : (s.wr off v).trn = s.trn := rfl
@[simp] theorem State.wr_cores (s : State) (off : Nat) (v : Word) : (s.wr off v).cores = s.cores := rfl
@[simp] theorem State.wr_pts (s : State) (off : Nat) (v : Word) : (s.wr off v).pts = s.pts := rfl
@[simp] theorem State.wr_dsp (s : State) (off : Nat) (v : Word) : (s.wr off v).dsp = s.dsp := rfl
@[simp] theorem State.wr_pci (s : State) (off : Nat) (v : Word) : (s.wr off v).pci = s.pci := rfl
@[simp] theorem State.wr_con (s : State) (off : Nat) (v : Word) : (s.wr off v).con = s.con := rfl
@[simp] theorem State.wr_sem (s : State) (off : Nat) (v : Word) : (s.wr off v).sem = s.sem := rfl
@[simp] theorem State.wr_dbg (s : State) (off : Nat) (v : Word) : (s.wr off v).dbg = s.dbg := rfl
@[simp] theorem State.wr_ras (s : State) (off : Nat) (v : Word) : (s.wr off v).ras = s.ras := rfl
@[simp] theorem State.wr_mln (s : State) (off : Nat) (v : Word) : (s.wr off v).mln = s.mln := rfl
@[simp] theorem State.wr_eth (s : State) (off : Nat) (v : Word) : (s.wr off v).eth = s.eth := rfl
@[simp] theorem State.wr_boot (s : State) (off : Nat) (v : Word) : (s.wr off v).boot = s.boot := rfl
@[simp] theorem State.wr_pwr (s : State) (off : Nat) (v : Word) : (s.wr off v).pwr = s.pwr := rfl
@[simp] theorem State.wr_sec (s : State) (off : Nat) (v : Word) : (s.wr off v).sec = s.sec := rfl
@[simp] theorem State.wr_mgt (s : State) (off : Nat) (v : Word) : (s.wr off v).mgt = s.mgt := rfl
@[simp] theorem State.wr_tap (s : State) (off : Nat) (v : Word) : (s.wr off v).tap = s.tap := rfl

/-! ### setFld -/

@[simp] theorem State.setFld_pending (s : State) (off hi lo v : Nat) : (s.setFld off hi lo v).pending = s.pending := rfl
@[simp] theorem State.setFld_freeCount (s : State) (off hi lo v : Nat) : (s.setFld off hi lo v).freeCount = s.freeCount := rfl
@[simp] theorem State.setFld_out (s : State) (off hi lo v : Nat) : (s.setFld off hi lo v).out = s.out := rfl
@[simp] theorem State.setFld_force (s : State) (off hi lo v : Nat) : (s.setFld off hi lo v).force = s.force := rfl
@[simp] theorem State.setFld_mem (s : State) (off hi lo v : Nat) : (s.setFld off hi lo v).mem = s.mem := rfl
@[simp] theorem State.setFld_trn (s : State) (off hi lo v : Nat) : (s.setFld off hi lo v).trn = s.trn := rfl
@[simp] theorem State.setFld_cores (s : State) (off hi lo v : Nat) : (s.setFld off hi lo v).cores = s.cores := rfl
@[simp] theorem State.setFld_pts (s : State) (off hi lo v : Nat) : (s.setFld off hi lo v).pts = s.pts := rfl
@[simp] theorem State.setFld_dsp (s : State) (off hi lo v : Nat) : (s.setFld off hi lo v).dsp = s.dsp := rfl
@[simp] theorem State.setFld_pci (s : State) (off hi lo v : Nat) : (s.setFld off hi lo v).pci = s.pci := rfl
@[simp] theorem State.setFld_con (s : State) (off hi lo v : Nat) : (s.setFld off hi lo v).con = s.con := rfl
@[simp] theorem State.setFld_sem (s : State) (off hi lo v : Nat) : (s.setFld off hi lo v).sem = s.sem := rfl
@[simp] theorem State.setFld_dbg (s : State) (off hi lo v : Nat) : (s.setFld off hi lo v).dbg = s.dbg := rfl
@[simp] theorem State.setFld_ras (s : State) (off hi lo v : Nat) : (s.setFld off hi lo v).ras = s.ras := rfl
@[simp] theorem State.setFld_mln (s : State) (off hi lo v : Nat) : (s.setFld off hi lo v).mln = s.mln := rfl
@[simp] theorem State.setFld_eth (s : State) (off hi lo v : Nat) : (s.setFld off hi lo v).eth = s.eth := rfl
@[simp] theorem State.setFld_boot (s : State) (off hi lo v : Nat) : (s.setFld off hi lo v).boot = s.boot := rfl
@[simp] theorem State.setFld_pwr (s : State) (off hi lo v : Nat) : (s.setFld off hi lo v).pwr = s.pwr := rfl
@[simp] theorem State.setFld_sec (s : State) (off hi lo v : Nat) : (s.setFld off hi lo v).sec = s.sec := rfl
@[simp] theorem State.setFld_mgt (s : State) (off hi lo v : Nat) : (s.setFld off hi lo v).mgt = s.mgt := rfl
@[simp] theorem State.setFld_tap (s : State) (off hi lo v : Nat) : (s.setFld off hi lo v).tap = s.tap := rfl

/-! ### setFlag -/

@[simp] theorem State.setFlag_pending (s : State) (off i : Nat) : (s.setFlag off i).pending = s.pending := rfl
@[simp] theorem State.setFlag_freeCount (s : State) (off i : Nat) : (s.setFlag off i).freeCount = s.freeCount := rfl
@[simp] theorem State.setFlag_out (s : State) (off i : Nat) : (s.setFlag off i).out = s.out := rfl
@[simp] theorem State.setFlag_force (s : State) (off i : Nat) : (s.setFlag off i).force = s.force := rfl
@[simp] theorem State.setFlag_mem (s : State) (off i : Nat) : (s.setFlag off i).mem = s.mem := rfl
@[simp] theorem State.setFlag_trn (s : State) (off i : Nat) : (s.setFlag off i).trn = s.trn := rfl
@[simp] theorem State.setFlag_cores (s : State) (off i : Nat) : (s.setFlag off i).cores = s.cores := rfl
@[simp] theorem State.setFlag_pts (s : State) (off i : Nat) : (s.setFlag off i).pts = s.pts := rfl
@[simp] theorem State.setFlag_dsp (s : State) (off i : Nat) : (s.setFlag off i).dsp = s.dsp := rfl
@[simp] theorem State.setFlag_pci (s : State) (off i : Nat) : (s.setFlag off i).pci = s.pci := rfl
@[simp] theorem State.setFlag_con (s : State) (off i : Nat) : (s.setFlag off i).con = s.con := rfl
@[simp] theorem State.setFlag_sem (s : State) (off i : Nat) : (s.setFlag off i).sem = s.sem := rfl
@[simp] theorem State.setFlag_dbg (s : State) (off i : Nat) : (s.setFlag off i).dbg = s.dbg := rfl
@[simp] theorem State.setFlag_ras (s : State) (off i : Nat) : (s.setFlag off i).ras = s.ras := rfl
@[simp] theorem State.setFlag_mln (s : State) (off i : Nat) : (s.setFlag off i).mln = s.mln := rfl
@[simp] theorem State.setFlag_eth (s : State) (off i : Nat) : (s.setFlag off i).eth = s.eth := rfl
@[simp] theorem State.setFlag_boot (s : State) (off i : Nat) : (s.setFlag off i).boot = s.boot := rfl
@[simp] theorem State.setFlag_pwr (s : State) (off i : Nat) : (s.setFlag off i).pwr = s.pwr := rfl
@[simp] theorem State.setFlag_sec (s : State) (off i : Nat) : (s.setFlag off i).sec = s.sec := rfl
@[simp] theorem State.setFlag_mgt (s : State) (off i : Nat) : (s.setFlag off i).mgt = s.mgt := rfl
@[simp] theorem State.setFlag_tap (s : State) (off i : Nat) : (s.setFlag off i).tap = s.tap := rfl

/-! ### clrFlag -/

@[simp] theorem State.clrFlag_pending (s : State) (off i : Nat) : (s.clrFlag off i).pending = s.pending := rfl
@[simp] theorem State.clrFlag_freeCount (s : State) (off i : Nat) : (s.clrFlag off i).freeCount = s.freeCount := rfl
@[simp] theorem State.clrFlag_out (s : State) (off i : Nat) : (s.clrFlag off i).out = s.out := rfl
@[simp] theorem State.clrFlag_force (s : State) (off i : Nat) : (s.clrFlag off i).force = s.force := rfl
@[simp] theorem State.clrFlag_mem (s : State) (off i : Nat) : (s.clrFlag off i).mem = s.mem := rfl
@[simp] theorem State.clrFlag_trn (s : State) (off i : Nat) : (s.clrFlag off i).trn = s.trn := rfl
@[simp] theorem State.clrFlag_cores (s : State) (off i : Nat) : (s.clrFlag off i).cores = s.cores := rfl
@[simp] theorem State.clrFlag_pts (s : State) (off i : Nat) : (s.clrFlag off i).pts = s.pts := rfl
@[simp] theorem State.clrFlag_dsp (s : State) (off i : Nat) : (s.clrFlag off i).dsp = s.dsp := rfl
@[simp] theorem State.clrFlag_pci (s : State) (off i : Nat) : (s.clrFlag off i).pci = s.pci := rfl
@[simp] theorem State.clrFlag_con (s : State) (off i : Nat) : (s.clrFlag off i).con = s.con := rfl
@[simp] theorem State.clrFlag_sem (s : State) (off i : Nat) : (s.clrFlag off i).sem = s.sem := rfl
@[simp] theorem State.clrFlag_dbg (s : State) (off i : Nat) : (s.clrFlag off i).dbg = s.dbg := rfl
@[simp] theorem State.clrFlag_ras (s : State) (off i : Nat) : (s.clrFlag off i).ras = s.ras := rfl
@[simp] theorem State.clrFlag_mln (s : State) (off i : Nat) : (s.clrFlag off i).mln = s.mln := rfl
@[simp] theorem State.clrFlag_eth (s : State) (off i : Nat) : (s.clrFlag off i).eth = s.eth := rfl
@[simp] theorem State.clrFlag_boot (s : State) (off i : Nat) : (s.clrFlag off i).boot = s.boot := rfl
@[simp] theorem State.clrFlag_pwr (s : State) (off i : Nat) : (s.clrFlag off i).pwr = s.pwr := rfl
@[simp] theorem State.clrFlag_sec (s : State) (off i : Nat) : (s.clrFlag off i).sec = s.sec := rfl
@[simp] theorem State.clrFlag_mgt (s : State) (off i : Nat) : (s.clrFlag off i).mgt = s.mgt := rfl
@[simp] theorem State.clrFlag_tap (s : State) (off i : Nat) : (s.clrFlag off i).tap = s.tap := rfl

/-! ### putFlag -/

@[simp] theorem State.putFlag_pending (s : State) (off i : Nat) (b : Bool) : (s.putFlag off i b).pending = s.pending := rfl
@[simp] theorem State.putFlag_freeCount (s : State) (off i : Nat) (b : Bool) : (s.putFlag off i b).freeCount = s.freeCount := rfl
@[simp] theorem State.putFlag_out (s : State) (off i : Nat) (b : Bool) : (s.putFlag off i b).out = s.out := rfl
@[simp] theorem State.putFlag_force (s : State) (off i : Nat) (b : Bool) : (s.putFlag off i b).force = s.force := rfl
@[simp] theorem State.putFlag_mem (s : State) (off i : Nat) (b : Bool) : (s.putFlag off i b).mem = s.mem := rfl
@[simp] theorem State.putFlag_trn (s : State) (off i : Nat) (b : Bool) : (s.putFlag off i b).trn = s.trn := rfl
@[simp] theorem State.putFlag_cores (s : State) (off i : Nat) (b : Bool) : (s.putFlag off i b).cores = s.cores := rfl
@[simp] theorem State.putFlag_pts (s : State) (off i : Nat) (b : Bool) : (s.putFlag off i b).pts = s.pts := rfl
@[simp] theorem State.putFlag_dsp (s : State) (off i : Nat) (b : Bool) : (s.putFlag off i b).dsp = s.dsp := rfl
@[simp] theorem State.putFlag_pci (s : State) (off i : Nat) (b : Bool) : (s.putFlag off i b).pci = s.pci := rfl
@[simp] theorem State.putFlag_con (s : State) (off i : Nat) (b : Bool) : (s.putFlag off i b).con = s.con := rfl
@[simp] theorem State.putFlag_sem (s : State) (off i : Nat) (b : Bool) : (s.putFlag off i b).sem = s.sem := rfl
@[simp] theorem State.putFlag_dbg (s : State) (off i : Nat) (b : Bool) : (s.putFlag off i b).dbg = s.dbg := rfl
@[simp] theorem State.putFlag_ras (s : State) (off i : Nat) (b : Bool) : (s.putFlag off i b).ras = s.ras := rfl
@[simp] theorem State.putFlag_mln (s : State) (off i : Nat) (b : Bool) : (s.putFlag off i b).mln = s.mln := rfl
@[simp] theorem State.putFlag_eth (s : State) (off i : Nat) (b : Bool) : (s.putFlag off i b).eth = s.eth := rfl
@[simp] theorem State.putFlag_boot (s : State) (off i : Nat) (b : Bool) : (s.putFlag off i b).boot = s.boot := rfl
@[simp] theorem State.putFlag_pwr (s : State) (off i : Nat) (b : Bool) : (s.putFlag off i b).pwr = s.pwr := rfl
@[simp] theorem State.putFlag_sec (s : State) (off i : Nat) (b : Bool) : (s.putFlag off i b).sec = s.sec := rfl
@[simp] theorem State.putFlag_mgt (s : State) (off i : Nat) (b : Bool) : (s.putFlag off i b).mgt = s.mgt := rfl
@[simp] theorem State.putFlag_tap (s : State) (off i : Nat) (b : Bool) : (s.putFlag off i b).tap = s.tap := rfl

/-! ### emit -/

@[simp] theorem State.emit_pending (s : State) (o : Out) : (s.emit o).pending = s.pending := rfl
@[simp] theorem State.emit_freeCount (s : State) (o : Out) : (s.emit o).freeCount = s.freeCount := rfl
@[simp] theorem State.emit_regs (s : State) (o : Out) : (s.emit o).regs = s.regs := rfl
@[simp] theorem State.emit_force (s : State) (o : Out) : (s.emit o).force = s.force := rfl
@[simp] theorem State.emit_mem (s : State) (o : Out) : (s.emit o).mem = s.mem := rfl
@[simp] theorem State.emit_trn (s : State) (o : Out) : (s.emit o).trn = s.trn := rfl
@[simp] theorem State.emit_cores (s : State) (o : Out) : (s.emit o).cores = s.cores := rfl
@[simp] theorem State.emit_pts (s : State) (o : Out) : (s.emit o).pts = s.pts := rfl
@[simp] theorem State.emit_dsp (s : State) (o : Out) : (s.emit o).dsp = s.dsp := rfl
@[simp] theorem State.emit_pci (s : State) (o : Out) : (s.emit o).pci = s.pci := rfl
@[simp] theorem State.emit_con (s : State) (o : Out) : (s.emit o).con = s.con := rfl
@[simp] theorem State.emit_sem (s : State) (o : Out) : (s.emit o).sem = s.sem := rfl
@[simp] theorem State.emit_dbg (s : State) (o : Out) : (s.emit o).dbg = s.dbg := rfl
@[simp] theorem State.emit_ras (s : State) (o : Out) : (s.emit o).ras = s.ras := rfl
@[simp] theorem State.emit_mln (s : State) (o : Out) : (s.emit o).mln = s.mln := rfl
@[simp] theorem State.emit_eth (s : State) (o : Out) : (s.emit o).eth = s.eth := rfl
@[simp] theorem State.emit_boot (s : State) (o : Out) : (s.emit o).boot = s.boot := rfl
@[simp] theorem State.emit_pwr (s : State) (o : Out) : (s.emit o).pwr = s.pwr := rfl
@[simp] theorem State.emit_sec (s : State) (o : Out) : (s.emit o).sec = s.sec := rfl
@[simp] theorem State.emit_mgt (s : State) (o : Out) : (s.emit o).mgt = s.mgt := rfl
@[simp] theorem State.emit_tap (s : State) (o : Out) : (s.emit o).tap = s.tap := rfl

/-! ### setCore -/

@[simp] theorem State.setCore_pending (s : State) (c : Nat) (k : Core) : (s.setCore c k).pending = s.pending := rfl
@[simp] theorem State.setCore_freeCount (s : State) (c : Nat) (k : Core) : (s.setCore c k).freeCount = s.freeCount := rfl
@[simp] theorem State.setCore_out (s : State) (c : Nat) (k : Core) : (s.setCore c k).out = s.out := rfl
@[simp] theorem State.setCore_regs (s : State) (c : Nat) (k : Core) : (s.setCore c k).regs = s.regs := rfl
@[simp] theorem State.setCore_force (s : State) (c : Nat) (k : Core) : (s.setCore c k).force = s.force := rfl
@[simp] theorem State.setCore_mem (s : State) (c : Nat) (k : Core) : (s.setCore c k).mem = s.mem := rfl
@[simp] theorem State.setCore_trn (s : State) (c : Nat) (k : Core) : (s.setCore c k).trn = s.trn := rfl
@[simp] theorem State.setCore_pts (s : State) (c : Nat) (k : Core) : (s.setCore c k).pts = s.pts := rfl
@[simp] theorem State.setCore_dsp (s : State) (c : Nat) (k : Core) : (s.setCore c k).dsp = s.dsp := rfl
@[simp] theorem State.setCore_pci (s : State) (c : Nat) (k : Core) : (s.setCore c k).pci = s.pci := rfl
@[simp] theorem State.setCore_con (s : State) (c : Nat) (k : Core) : (s.setCore c k).con = s.con := rfl
@[simp] theorem State.setCore_sem (s : State) (c : Nat) (k : Core) : (s.setCore c k).sem = s.sem := rfl
@[simp] theorem State.setCore_dbg (s : State) (c : Nat) (k : Core) : (s.setCore c k).dbg = s.dbg := rfl
@[simp] theorem State.setCore_ras (s : State) (c : Nat) (k : Core) : (s.setCore c k).ras = s.ras := rfl
@[simp] theorem State.setCore_mln (s : State) (c : Nat) (k : Core) : (s.setCore c k).mln = s.mln := rfl
@[simp] theorem State.setCore_eth (s : State) (c : Nat) (k : Core) : (s.setCore c k).eth = s.eth := rfl
@[simp] theorem State.setCore_boot (s : State) (c : Nat) (k : Core) : (s.setCore c k).boot = s.boot := rfl
@[simp] theorem State.setCore_pwr (s : State) (c : Nat) (k : Core) : (s.setCore c k).pwr = s.pwr := rfl
@[simp] theorem State.setCore_sec (s : State) (c : Nat) (k : Core) : (s.setCore c k).sec = s.sec := rfl
@[simp] theorem State.setCore_mgt (s : State) (c : Nat) (k : Core) : (s.setCore c k).mgt = s.mgt := rfl
@[simp] theorem State.setCore_tap (s : State) (c : Nat) (k : Core) : (s.setCore c k).tap = s.tap := rfl

/-! ### updCore -/

@[simp] theorem State.updCore_pending (s : State) (c : Nat) (f : Core → Core) : (s.updCore c f).pending = s.pending := rfl
@[simp] theorem State.updCore_freeCount (s : State) (c : Nat) (f : Core → Core) : (s.updCore c f).freeCount = s.freeCount := rfl
@[simp] theorem State.updCore_out (s : State) (c : Nat) (f : Core → Core) : (s.updCore c f).out = s.out := rfl
@[simp] theorem State.updCore_regs (s : State) (c : Nat) (f : Core → Core) : (s.updCore c f).regs = s.regs := rfl
@[simp] theorem State.updCore_force (s : State) (c : Nat) (f : Core → Core) : (s.updCore c f).force = s.force := rfl
@[simp] theorem State.updCore_mem (s : State) (c : Nat) (f : Core → Core) : (s.updCore c f).mem = s.mem := rfl
@[simp] theorem State.updCore_trn (s : State) (c : Nat) (f : Core → Core) : (s.updCore c f).trn = s.trn := rfl
@[simp] theorem State.updCore_pts (s : State) (c : Nat) (f : Core → Core) : (s.updCore c f).pts = s.pts := rfl
@[simp] theorem State.updCore_dsp (s : State) (c : Nat) (f : Core → Core) : (s.updCore c f).dsp = s.dsp := rfl
@[simp] theorem State.updCore_pci (s : State) (c : Nat) (f : Core → Core) : (s.updCore c f).pci = s.pci := rfl
@[simp] theorem State.updCore_con (s : State) (c : Nat) (f : Core → Core) : (s.updCore c f).con = s.con := rfl
@[simp] theorem State.updCore_sem (s : State) (c : Nat) (f : Core → Core) : (s.updCore c f).sem = s.sem := rfl
@[simp] theorem State.updCore_dbg (s : State) (c : Nat) (f : Core → Core) : (s.updCore c f).dbg = s.dbg := rfl
@[simp] theorem State.updCore_ras (s : State) (c : Nat) (f : Core → Core) : (s.updCore c f).ras = s.ras := rfl
@[simp] theorem State.updCore_mln (s : State) (c : Nat) (f : Core → Core) : (s.updCore c f).mln = s.mln := rfl
@[simp] theorem State.updCore_eth (s : State) (c : Nat) (f : Core → Core) : (s.updCore c f).eth = s.eth := rfl
@[simp] theorem State.updCore_boot (s : State) (c : Nat) (f : Core → Core) : (s.updCore c f).boot = s.boot := rfl
@[simp] theorem State.updCore_pwr (s : State) (c : Nat) (f : Core → Core) : (s.updCore c f).pwr = s.pwr := rfl
@[simp] theorem State.updCore_sec (s : State) (c : Nat) (f : Core → Core) : (s.updCore c f).sec = s.sec := rfl
@[simp] theorem State.updCore_mgt (s : State) (c : Nat) (f : Core → Core) : (s.updCore c f).mgt = s.mgt := rfl
@[simp] theorem State.updCore_tap (s : State) (c : Nat) (f : Core → Core) : (s.updCore c f).tap = s.tap := rfl

/-! ### mapCores -/

@[simp] theorem State.mapCores_pending (s : State) (f : Nat → Core → Core) : (s.mapCores f).pending = s.pending := rfl
@[simp] theorem State.mapCores_freeCount (s : State) (f : Nat → Core → Core) : (s.mapCores f).freeCount = s.freeCount := rfl
@[simp] theorem State.mapCores_out (s : State) (f : Nat → Core → Core) : (s.mapCores f).out = s.out := rfl
@[simp] theorem State.mapCores_regs (s : State) (f : Nat → Core → Core) : (s.mapCores f).regs = s.regs := rfl
@[simp] theorem State.mapCores_force (s : State) (f : Nat → Core → Core) : (s.mapCores f).force = s.force := rfl
@[simp] theorem State.mapCores_mem (s : State) (f : Nat → Core → Core) : (s.mapCores f).mem = s.mem := rfl
@[simp] theorem State.mapCores_trn (s : State) (f : Nat → Core → Core) : (s.mapCores f).trn = s.trn := rfl
@[simp] theorem State.mapCores_pts (s : State) (f : Nat → Core → Core) : (s.mapCores f).pts = s.pts := rfl
@[simp] theorem State.mapCores_dsp (s : State) (f : Nat → Core → Core) : (s.mapCores f).dsp = s.dsp := rfl
@[simp] theorem State.mapCores_pci (s : State) (f : Nat → Core → Core) : (s.mapCores f).pci = s.pci := rfl
@[simp] theorem State.mapCores_con (s : State) (f : Nat → Core → Core) : (s.mapCores f).con = s.con := rfl
@[simp] theorem State.mapCores_sem (s : State) (f : Nat → Core → Core) : (s.mapCores f).sem = s.sem := rfl
@[simp] theorem State.mapCores_dbg (s : State) (f : Nat → Core → Core) : (s.mapCores f).dbg = s.dbg := rfl
@[simp] theorem State.mapCores_ras (s : State) (f : Nat → Core → Core) : (s.mapCores f).ras = s.ras := rfl
@[simp] theorem State.mapCores_mln (s : State) (f : Nat → Core → Core) : (s.mapCores f).mln = s.mln := rfl
@[simp] theorem State.mapCores_eth (s : State) (f : Nat → Core → Core) : (s.mapCores f).eth = s.eth := rfl
@[simp] theorem State.mapCores_boot (s : State) (f : Nat → Core → Core) : (s.mapCores f).boot = s.boot := rfl
@[simp] theorem State.mapCores_pwr (s : State) (f : Nat → Core → Core) : (s.mapCores f).pwr = s.pwr := rfl
@[simp] theorem State.mapCores_sec (s : State) (f : Nat → Core → Core) : (s.mapCores f).sec = s.sec := rfl
@[simp] theorem State.mapCores_mgt (s : State) (f : Nat → Core → Core) : (s.mapCores f).mgt = s.mgt := rfl
@[simp] theorem State.mapCores_tap (s : State) (f : Nat → Core → Core) : (s.mapCores f).tap = s.tap := rfl

/-! ### setLaunch -/

@[simp] theorem State.setLaunch_pending (s : State) (l : Nat) (x : Option Launch) : (s.setLaunch l x).pending = s.pending := rfl
@[simp] theorem State.setLaunch_freeCount (s : State) (l : Nat) (x : Option Launch) : (s.setLaunch l x).freeCount = s.freeCount := rfl
@[simp] theorem State.setLaunch_out (s : State) (l : Nat) (x : Option Launch) : (s.setLaunch l x).out = s.out := rfl
@[simp] theorem State.setLaunch_regs (s : State) (l : Nat) (x : Option Launch) : (s.setLaunch l x).regs = s.regs := rfl
@[simp] theorem State.setLaunch_force (s : State) (l : Nat) (x : Option Launch) : (s.setLaunch l x).force = s.force := rfl
@[simp] theorem State.setLaunch_mem (s : State) (l : Nat) (x : Option Launch) : (s.setLaunch l x).mem = s.mem := rfl
@[simp] theorem State.setLaunch_trn (s : State) (l : Nat) (x : Option Launch) : (s.setLaunch l x).trn = s.trn := rfl
@[simp] theorem State.setLaunch_cores (s : State) (l : Nat) (x : Option Launch) : (s.setLaunch l x).cores = s.cores := rfl
@[simp] theorem State.setLaunch_pts (s : State) (l : Nat) (x : Option Launch) : (s.setLaunch l x).pts = s.pts := rfl
@[simp] theorem State.setLaunch_pci (s : State) (l : Nat) (x : Option Launch) : (s.setLaunch l x).pci = s.pci := rfl
@[simp] theorem State.setLaunch_con (s : State) (l : Nat) (x : Option Launch) : (s.setLaunch l x).con = s.con := rfl
@[simp] theorem State.setLaunch_sem (s : State) (l : Nat) (x : Option Launch) : (s.setLaunch l x).sem = s.sem := rfl
@[simp] theorem State.setLaunch_dbg (s : State) (l : Nat) (x : Option Launch) : (s.setLaunch l x).dbg = s.dbg := rfl
@[simp] theorem State.setLaunch_ras (s : State) (l : Nat) (x : Option Launch) : (s.setLaunch l x).ras = s.ras := rfl
@[simp] theorem State.setLaunch_mln (s : State) (l : Nat) (x : Option Launch) : (s.setLaunch l x).mln = s.mln := rfl
@[simp] theorem State.setLaunch_eth (s : State) (l : Nat) (x : Option Launch) : (s.setLaunch l x).eth = s.eth := rfl
@[simp] theorem State.setLaunch_boot (s : State) (l : Nat) (x : Option Launch) : (s.setLaunch l x).boot = s.boot := rfl
@[simp] theorem State.setLaunch_pwr (s : State) (l : Nat) (x : Option Launch) : (s.setLaunch l x).pwr = s.pwr := rfl
@[simp] theorem State.setLaunch_sec (s : State) (l : Nat) (x : Option Launch) : (s.setLaunch l x).sec = s.sec := rfl
@[simp] theorem State.setLaunch_mgt (s : State) (l : Nat) (x : Option Launch) : (s.setLaunch l x).mgt = s.mgt := rfl
@[simp] theorem State.setLaunch_tap (s : State) (l : Nat) (x : Option Launch) : (s.setLaunch l x).tap = s.tap := rfl

/-! ### setThread -/

@[simp] theorem State.setThread_pending (s : State) (n : Nat) (x : Option Thread) : (s.setThread n x).pending = s.pending := rfl
@[simp] theorem State.setThread_freeCount (s : State) (n : Nat) (x : Option Thread) : (s.setThread n x).freeCount = s.freeCount := rfl
@[simp] theorem State.setThread_out (s : State) (n : Nat) (x : Option Thread) : (s.setThread n x).out = s.out := rfl
@[simp] theorem State.setThread_regs (s : State) (n : Nat) (x : Option Thread) : (s.setThread n x).regs = s.regs := rfl
@[simp] theorem State.setThread_force (s : State) (n : Nat) (x : Option Thread) : (s.setThread n x).force = s.force := rfl
@[simp] theorem State.setThread_mem (s : State) (n : Nat) (x : Option Thread) : (s.setThread n x).mem = s.mem := rfl
@[simp] theorem State.setThread_trn (s : State) (n : Nat) (x : Option Thread) : (s.setThread n x).trn = s.trn := rfl
@[simp] theorem State.setThread_cores (s : State) (n : Nat) (x : Option Thread) : (s.setThread n x).cores = s.cores := rfl
@[simp] theorem State.setThread_pts (s : State) (n : Nat) (x : Option Thread) : (s.setThread n x).pts = s.pts := rfl
@[simp] theorem State.setThread_pci (s : State) (n : Nat) (x : Option Thread) : (s.setThread n x).pci = s.pci := rfl
@[simp] theorem State.setThread_con (s : State) (n : Nat) (x : Option Thread) : (s.setThread n x).con = s.con := rfl
@[simp] theorem State.setThread_sem (s : State) (n : Nat) (x : Option Thread) : (s.setThread n x).sem = s.sem := rfl
@[simp] theorem State.setThread_dbg (s : State) (n : Nat) (x : Option Thread) : (s.setThread n x).dbg = s.dbg := rfl
@[simp] theorem State.setThread_ras (s : State) (n : Nat) (x : Option Thread) : (s.setThread n x).ras = s.ras := rfl
@[simp] theorem State.setThread_mln (s : State) (n : Nat) (x : Option Thread) : (s.setThread n x).mln = s.mln := rfl
@[simp] theorem State.setThread_eth (s : State) (n : Nat) (x : Option Thread) : (s.setThread n x).eth = s.eth := rfl
@[simp] theorem State.setThread_boot (s : State) (n : Nat) (x : Option Thread) : (s.setThread n x).boot = s.boot := rfl
@[simp] theorem State.setThread_pwr (s : State) (n : Nat) (x : Option Thread) : (s.setThread n x).pwr = s.pwr := rfl
@[simp] theorem State.setThread_sec (s : State) (n : Nat) (x : Option Thread) : (s.setThread n x).sec = s.sec := rfl
@[simp] theorem State.setThread_mgt (s : State) (n : Nat) (x : Option Thread) : (s.setThread n x).mgt = s.mgt := rfl
@[simp] theorem State.setThread_tap (s : State) (n : Nat) (x : Option Thread) : (s.setThread n x).tap = s.tap := rfl

/-! ### setCmd -/

@[simp] theorem State.setCmd_pending (s : State) (n : Nat) (x : Option Cmd) : (s.setCmd n x).pending = s.pending := rfl
@[simp] theorem State.setCmd_freeCount (s : State) (n : Nat) (x : Option Cmd) : (s.setCmd n x).freeCount = s.freeCount := rfl
@[simp] theorem State.setCmd_out (s : State) (n : Nat) (x : Option Cmd) : (s.setCmd n x).out = s.out := rfl
@[simp] theorem State.setCmd_regs (s : State) (n : Nat) (x : Option Cmd) : (s.setCmd n x).regs = s.regs := rfl
@[simp] theorem State.setCmd_force (s : State) (n : Nat) (x : Option Cmd) : (s.setCmd n x).force = s.force := rfl
@[simp] theorem State.setCmd_mem (s : State) (n : Nat) (x : Option Cmd) : (s.setCmd n x).mem = s.mem := rfl
@[simp] theorem State.setCmd_trn (s : State) (n : Nat) (x : Option Cmd) : (s.setCmd n x).trn = s.trn := rfl
@[simp] theorem State.setCmd_cores (s : State) (n : Nat) (x : Option Cmd) : (s.setCmd n x).cores = s.cores := rfl
@[simp] theorem State.setCmd_pts (s : State) (n : Nat) (x : Option Cmd) : (s.setCmd n x).pts = s.pts := rfl
@[simp] theorem State.setCmd_pci (s : State) (n : Nat) (x : Option Cmd) : (s.setCmd n x).pci = s.pci := rfl
@[simp] theorem State.setCmd_con (s : State) (n : Nat) (x : Option Cmd) : (s.setCmd n x).con = s.con := rfl
@[simp] theorem State.setCmd_sem (s : State) (n : Nat) (x : Option Cmd) : (s.setCmd n x).sem = s.sem := rfl
@[simp] theorem State.setCmd_dbg (s : State) (n : Nat) (x : Option Cmd) : (s.setCmd n x).dbg = s.dbg := rfl
@[simp] theorem State.setCmd_ras (s : State) (n : Nat) (x : Option Cmd) : (s.setCmd n x).ras = s.ras := rfl
@[simp] theorem State.setCmd_mln (s : State) (n : Nat) (x : Option Cmd) : (s.setCmd n x).mln = s.mln := rfl
@[simp] theorem State.setCmd_eth (s : State) (n : Nat) (x : Option Cmd) : (s.setCmd n x).eth = s.eth := rfl
@[simp] theorem State.setCmd_boot (s : State) (n : Nat) (x : Option Cmd) : (s.setCmd n x).boot = s.boot := rfl
@[simp] theorem State.setCmd_pwr (s : State) (n : Nat) (x : Option Cmd) : (s.setCmd n x).pwr = s.pwr := rfl
@[simp] theorem State.setCmd_sec (s : State) (n : Nat) (x : Option Cmd) : (s.setCmd n x).sec = s.sec := rfl
@[simp] theorem State.setCmd_mgt (s : State) (n : Nat) (x : Option Cmd) : (s.setCmd n x).mgt = s.mgt := rfl
@[simp] theorem State.setCmd_tap (s : State) (n : Nat) (x : Option Cmd) : (s.setCmd n x).tap = s.tap := rfl

/-! ### setUnit -/

@[simp] theorem State.setUnit_pending (s : State) (n : Nat) (x : PtsUnit) : (s.setUnit n x).pending = s.pending := rfl
@[simp] theorem State.setUnit_freeCount (s : State) (n : Nat) (x : PtsUnit) : (s.setUnit n x).freeCount = s.freeCount := rfl
@[simp] theorem State.setUnit_out (s : State) (n : Nat) (x : PtsUnit) : (s.setUnit n x).out = s.out := rfl
@[simp] theorem State.setUnit_regs (s : State) (n : Nat) (x : PtsUnit) : (s.setUnit n x).regs = s.regs := rfl
@[simp] theorem State.setUnit_force (s : State) (n : Nat) (x : PtsUnit) : (s.setUnit n x).force = s.force := rfl
@[simp] theorem State.setUnit_mem (s : State) (n : Nat) (x : PtsUnit) : (s.setUnit n x).mem = s.mem := rfl
@[simp] theorem State.setUnit_trn (s : State) (n : Nat) (x : PtsUnit) : (s.setUnit n x).trn = s.trn := rfl
@[simp] theorem State.setUnit_cores (s : State) (n : Nat) (x : PtsUnit) : (s.setUnit n x).cores = s.cores := rfl
@[simp] theorem State.setUnit_dsp (s : State) (n : Nat) (x : PtsUnit) : (s.setUnit n x).dsp = s.dsp := rfl
@[simp] theorem State.setUnit_pci (s : State) (n : Nat) (x : PtsUnit) : (s.setUnit n x).pci = s.pci := rfl
@[simp] theorem State.setUnit_con (s : State) (n : Nat) (x : PtsUnit) : (s.setUnit n x).con = s.con := rfl
@[simp] theorem State.setUnit_sem (s : State) (n : Nat) (x : PtsUnit) : (s.setUnit n x).sem = s.sem := rfl
@[simp] theorem State.setUnit_dbg (s : State) (n : Nat) (x : PtsUnit) : (s.setUnit n x).dbg = s.dbg := rfl
@[simp] theorem State.setUnit_ras (s : State) (n : Nat) (x : PtsUnit) : (s.setUnit n x).ras = s.ras := rfl
@[simp] theorem State.setUnit_mln (s : State) (n : Nat) (x : PtsUnit) : (s.setUnit n x).mln = s.mln := rfl
@[simp] theorem State.setUnit_eth (s : State) (n : Nat) (x : PtsUnit) : (s.setUnit n x).eth = s.eth := rfl
@[simp] theorem State.setUnit_boot (s : State) (n : Nat) (x : PtsUnit) : (s.setUnit n x).boot = s.boot := rfl
@[simp] theorem State.setUnit_pwr (s : State) (n : Nat) (x : PtsUnit) : (s.setUnit n x).pwr = s.pwr := rfl
@[simp] theorem State.setUnit_sec (s : State) (n : Nat) (x : PtsUnit) : (s.setUnit n x).sec = s.sec := rfl
@[simp] theorem State.setUnit_mgt (s : State) (n : Nat) (x : PtsUnit) : (s.setUnit n x).mgt = s.mgt := rfl
@[simp] theorem State.setUnit_tap (s : State) (n : Nat) (x : PtsUnit) : (s.setUnit n x).tap = s.tap := rfl

/-! ### Registers after a write -/

/-- The stored registers are in rising order of their offsets. -/
abbrev State.RegsRise (s : State) : Prop := SMap.Rising s.regs

theorem State.Canon.rise {s : State} (h : s.Canon) : s.RegsRise := h.regs.1

@[simp] theorem State.wr_rise {s : State} (h : s.RegsRise) (off : Nat) (v : Word) : (s.wr off v).RegsRise :=
  SMap.put_rising _ _ _ h

@[simp] theorem State.rd_wr_same {s : State} (h : s.RegsRise) (off : Nat) (v : Word) : (s.wr off v).rd off = v :=
  SMap.get_put_same _ _ _ h

theorem State.rd_wr_ne {s : State} (h : s.RegsRise) {off j : Nat} (v : Word) (e : j ≠ off) : (s.wr off v).rd j = s.rd j := by
  show SMap.get (resetOf j) (SMap.put (resetOf off) s.regs off v) j = SMap.get (resetOf j) s.regs j
  exact SMap.get_put_other _ _ e h

/-- A read of a register depends on the stored registers alone. -/
theorem State.rd_congr {s t : State} (h : t.regs = s.regs) (off : Nat) : t.rd off = s.rd off := by
  unfold State.rd; rw [h]

/-- A read of a bit field of a register that was written as a field. -/
theorem getLsbD_fieldMask (hi lo i : Nat) (h : hi < 64) : (fieldMask hi lo).getLsbD i = (decide (lo ≤ i) && decide (i ≤ hi)) := by
  unfold fieldMask
  simp only [BitVec.getLsbD_ofNat, Nat.testBit_shiftLeft, Nat.testBit_two_pow_sub_one]
  by_cases a : lo ≤ i <;> by_cases b : i ≤ hi <;> simp [a, b] <;> omega

theorem getLsbD_setFld (w : Word) (hi lo v i : Nat) (h : hi < 64) :
    (setFld w hi lo v).getLsbD i = if lo ≤ i ∧ i ≤ hi then v.testBit (i - lo) else w.getLsbD i := by
  by_cases hi64 : i < 64
  · unfold setFld
    simp only [BitVec.getLsbD_or, BitVec.getLsbD_and, BitVec.getLsbD_not, getLsbD_fieldMask hi lo i h, BitVec.getLsbD_ofNat,
      Nat.testBit_shiftLeft, hi64]
    by_cases a : lo ≤ i <;> by_cases b : i ≤ hi <;> simp [a, b]
  · have e1 : (setFld w hi lo v).getLsbD i = false := BitVec.getLsbD_of_ge _ _ (by omega)
    have e2 : w.getLsbD i = false := BitVec.getLsbD_of_ge _ _ (by omega)
    rw [e1, e2]; split
    · omega
    · rfl

theorem fld_testBit (w : Word) (hi lo i : Nat) :
    (fld w hi lo).testBit i = (decide (i < hi + 1 - lo) && w.getLsbD (lo + i)) := by
  unfold fld nfld
  rw [Nat.testBit_mod_two_pow, Nat.testBit_shiftRight]
  rfl

/-- A field reads as it was written, as far as it is wide. -/
theorem fld_setFld_same (w : Word) (hi lo v : Nat) (h : hi < 64) (k : lo ≤ hi) :
    fld (setFld w hi lo v) hi lo = v % 2 ^ (hi + 1 - lo) := by
  apply Nat.eq_of_testBit_eq
  intro i
  rw [fld_testBit, getLsbD_setFld _ _ _ _ _ h, Nat.testBit_mod_two_pow]
  by_cases a : i < hi + 1 - lo
  · rw [if_pos (by omega)]; simp [a]
  · simp [a]

/-- A field outside the written one reads as before. -/
theorem fld_setFld_ne (w : Word) (hi lo v h2 l2 : Nat) (h : hi < 64) (e : h2 < lo ∨ hi < l2) :
    fld (setFld w hi lo v) h2 l2 = fld w h2 l2 := by
  apply Nat.eq_of_testBit_eq
  intro i
  rw [fld_testBit, fld_testBit, getLsbD_setFld _ _ _ _ _ h]
  by_cases a : i < h2 + 1 - l2
  · rw [if_neg (by omega)]
  · simp [a]

theorem bit_setFld_same (w : Word) (i v : Nat) (h : i < 64) : bit (setFld w i i v) i = v.testBit 0 := by
  unfold bit
  rw [getLsbD_setFld _ _ _ _ _ h, if_pos ⟨Nat.le_refl _, Nat.le_refl _⟩, Nat.sub_self]

theorem bit_setFld_ne (w : Word) (hi lo v i : Nat) (h : hi < 64) (e : i < lo ∨ hi < i) : bit (setFld w hi lo v) i = bit w i := by
  unfold bit
  rw [getLsbD_setFld _ _ _ _ _ h, if_neg (by omega)]

@[simp] theorem State.rd_setFld_same {s : State} (h : s.RegsRise) (off hi lo v : Nat) :
    (s.setFld off hi lo v).rd off = Machine.setFld (s.rd off) hi lo v := State.rd_wr_same h _ _

@[simp] theorem State.setFld_rise {s : State} (h : s.RegsRise) (off hi lo v : Nat) : (s.setFld off hi lo v).RegsRise :=
  State.wr_rise h _ _

theorem State.rd_setFld_ne {s : State} (h : s.RegsRise) {off j : Nat} (hi lo v : Nat) (e : j ≠ off) :
    (s.setFld off hi lo v).rd j = s.rd j := State.rd_wr_ne h _ e

/-- A bit that was set reads as 1. -/
theorem State.flag_setFlag_same {s : State} (h : s.RegsRise) (off i : Nat) (k : i < 64) : (s.setFlag off i).flag off i = true := by
  show bit ((s.wr off _).rd off) i = true
  rw [State.rd_wr_same h, bit_setFld_same _ _ _ k]
  rfl

/-- A bit that was cleared reads as 0. -/
theorem State.flag_clrFlag_same {s : State} (h : s.RegsRise) (off i : Nat) (k : i < 64) : (s.clrFlag off i).flag off i = false := by
  show bit ((s.wr off _).rd off) i = false
  rw [State.rd_wr_same h, bit_setFld_same _ _ _ k]
  rfl

/-! ### Tables after a write -/

theorem State.core_setCore_same {s : State} (h : s.Canon) (c : Nat) (k : Core) : (s.setCore c k).core c = k :=
  SMap.get_put_same _ _ _ h.cores.1

theorem State.core_setCore_ne {s : State} (h : s.Canon) {c d : Nat} (k : Core) (e : d ≠ c) : (s.setCore c k).core d = s.core d :=
  SMap.get_put_ne _ _ e h.cores.1

/-- Replacing a core by itself changes nothing. -/
theorem State.setCore_self {s : State} (h : s.Canon) (c : Nat) : s.setCore c (s.core c) = s := by
  unfold State.setCore State.core
  rw [SMap.put_get Core.empty c h.cores.1 h.cores.2]

theorem State.thread_setThread_same {s : State} (h : s.Canon) (n : Nat) (x : Option Thread) : (s.setThread n x).thread n = x :=
  SMap.get_put_same _ _ _ h.threads.1

theorem State.thread_setThread_ne {s : State} (h : s.Canon) {n m : Nat} (x : Option Thread) (e : m ≠ n) :
    (s.setThread n x).thread m = s.thread m := SMap.get_put_ne _ _ e h.threads.1

theorem State.launch_setLaunch_same {s : State} (h : s.Canon) (n : Nat) (x : Option Launch) : (s.setLaunch n x).launch n = x :=
  SMap.get_put_same _ _ _ h.launches.1

theorem State.cmd_setCmd_same {s : State} (h : s.Canon) (n : Nat) (x : Option Cmd) : (s.setCmd n x).cmd n = x :=
  SMap.get_put_same _ _ _ h.cmds.1

theorem State.cmd_setCmd_ne {s : State} (h : s.Canon) {n m : Nat} (x : Option Cmd) (e : m ≠ n) : (s.setCmd n x).cmd m = s.cmd m :=
  SMap.get_put_ne _ _ e h.cmds.1

theorem State.unit_setUnit_same {s : State} (h : s.Canon) (n : Nat) (x : PtsUnit) : (s.setUnit n x).unit n = x :=
  SMap.get_put_same _ _ _ h.units.1

/-! ### The canonical form after an update -/

theorem State.wr_canon {s : State} (h : s.Canon) (off : Nat) (v : Word) : (s.wr off v).Canon :=
  (State.wr_keeps (State.Keeps.refl s)).canon h

end Sys2Proof.Machine
end

