-- ==== Sys2Proof/Laws/Counters.lean ====
section
/-! SUPPORT. What counting leaves: events touch only counters, so a group's instruction changes its group and nothing else. -/

namespace Sys2Proof.Machine

theorem State.Counted.refl (s : State) : s.Counted s := ⟨rfl, fun _ _ => rfl⟩

theorem State.Counted.trans {s t u : State} (h : s.Counted t) (k : t.Counted u) : s.Counted u := by
  refine ⟨?_, fun off e => (k.2 off e).trans (h.2 off e)⟩
  have e1 := h.1
  have e2 := k.1
  rw [e2, e1]

theorem State.rise_congr {s t : State} (h : t.regs = s.regs) (k : s.RegsRise) : t.RegsRise := by
  unfold State.RegsRise; rw [h]; exact k

/-- Counting keeps the registers in rising order. -/
theorem State.Counted.wr {s t : State} (h : s.Counted t) (r : t.RegsRise) {off : Nat} {v : Word} (c : isCounter off = true) :
    s.Counted (t.wr off v) := by
  refine h.trans ⟨rfl, fun j e => State.rd_wr_ne r v ?_⟩
  rintro rfl
  rw [c] at e
  cases e

theorem State.countSat_counted {s t : State} (h : s.Counted t) (r : t.RegsRise) {set off n : Nat} (c : isCounter off = true) :
    s.Counted (t.countSat set off n) ∧ (t.countSat set off n).RegsRise := by
  unfold State.countSat
  dsimp only
  split
  · exact ⟨h.wr r c, State.wr_rise r _ _⟩
  · refine ⟨State.Counted.trans (h.wr r c) ⟨rfl, fun _ _ => rfl⟩, State.wr_rise r _ _⟩

theorem isCounter_ctr {set i : Nat} (h : set < 214) (k : i < 16) : isCounter (R.dbgCtr set i) = true := by
  unfold isCounter R.dbgCtr
  simp only [Bool.and_eq_true, decide_eq_true_eq]
  omega

theorem isCounter_fix {set i : Nat} (h : set < 214) (k : i < 8) : isCounter (R.dbgFix set i) = true := by
  unfold isCounter R.dbgFix
  simp only [Bool.and_eq_true, decide_eq_true_eq]
  omega

theorem counted_foldl {β : Type} {s t : State} {f : State → β → State} (l : List β) (h : s.Counted t) (r : t.RegsRise)
    (k : ∀ u, ∀ b ∈ l, s.Counted u → u.RegsRise → s.Counted (f u b) ∧ (f u b).RegsRise) :
    s.Counted (l.foldl f t) ∧ (l.foldl f t).RegsRise := by
  induction l generalizing t with
  | nil => exact ⟨h, r⟩
  | cons b l ih =>
    obtain ⟨h1, r1⟩ := k t b (List.mem_cons_self ..) h r
    exact ih h1 r1 fun u b hb => k u b (List.mem_cons_of_mem _ hb)

/-- An event touches only counters. -/
theorem State.hit_counted {s t : State} (h : s.Counted t) (r : t.RegsRise) {set code n : Nat} (k : set < 214) :
    s.Counted (t.hit set code n) ∧ (t.hit set code n).RegsRise := by
  unfold State.hit
  refine counted_foldl _ h r fun u j hj hu ru => ?_
  have hj := List.mem_range.1 hj
  dsimp only
  split
  · exact ⟨hu, ru⟩
  · refine counted_foldl _ hu ru fun v i hi hv rv => ?_
    have hi := List.mem_range.1 hi
    split
    · exact State.countSat_counted hv rv (isCounter_ctr k (by omega))
    · exact ⟨hv, rv⟩

/-- Counting an issue touches only counters. -/
theorem State.countIssue_counted {s t : State} (h : s.Counted t) (r : t.RegsRise) {c slot lanes : Nat} (k : c < 192) :
    s.Counted (t.countIssue c slot lanes) ∧ (t.countIssue c slot lanes).RegsRise := by
  have h1 := State.countSat_counted h r (set := c) (n := 1) (isCounter_fix (set := c) (i := 1) (by omega) (by omega))
  have h2 := State.hit_counted h1.1 h1.2 (set := c) (code := 1 + slot % 4) (n := 1) (by omega)
  have h3 := State.hit_counted h2.1 h2.2 (set := c) (code := 0x29) (n := lanes) (by omega)
  unfold State.countIssue
  by_cases hl : lanes = 0
  · simp only [hl, if_true]; exact h2
  · simp only [hl, if_false]; exact h3

/-- Marking an issue carries over to counted states. -/
theorem State.Counted.mark {s t : State} (h : s.Counted t) (c slot : Nat) : (s.markIssue c slot).Counted (t.markIssue c slot) := by
  have e := h.2 R.clkTsNow (by decide)
  have k : t.now = s.now := by unfold State.now; rw [e]
  refine ⟨?_, fun off o => h.2 off o⟩
  unfold State.markIssue State.updCore State.core
  rw [k, h.1]
  rfl

/-- Counted states agree on cores. -/
theorem State.Counted.cores {s t : State} (h : s.Counted t) : t.cores = s.cores := by
  rw [h.1]

/-- Taking a free value is counted. -/
theorem State.bumpFree_counted (s : State) : s.Counted { s with freeCount := s.freeCount + 1 } := ⟨rfl, fun _ _ => rfl⟩

/-- A row that issues: the word's own effect, counted and marked unless it holds the group. -/
theorem State.issue_eq {s : State} {c slot : Nat} {g : Group} {w : Word} (h : s.Issuable c slot g w) {row : Word → Bool}
    (act : Group → Word → State) (k : row w = true) :
    s.issue c slot row act = (act g w).afterIssue c slot (vectorLanes g w) := by
  have e : (isAccess w && (s.core c).acquiring slot) = false := by
    cases a : isAccess w
    · rfl
    · rw [h.clear a]; rfl
  unfold State.issue
  simp only [h.group, h.can, h.turn, h.word, k, e, Bool.not_true, Bool.or_self, Bool.false_eq_true, if_false]

/-- The wait reason that shows is none just where no register is still to be written. -/
theorem Core.why_eq_zero (k : Core) (slot : Nat) (srcs regs : List Nat) : k.why slot srcs regs = 0 ↔ k.blocked slot regs = 0 := by
  unfold Core.why
  by_cases n : k.blocked slot regs = 0
  · simp [n]
  · simp only [n, iff_false]
    split
    · decide
    · exact n

theorem State.Canon.of_pair {α : Type} {x : α × State} {a : α} {u : State} (h : x = (a, u)) (k : x.2.Canon) : u.Canon := by
  subst h; exact k

theorem State.Canon.of_triple {α β : Type} {x : α × β × State} {a : α} {b : β} {u : State} (h : x = (a, b, u)) (k : x.2.2.Canon) :
    u.Canon := by
  subst h; exact k

/-- A row whose word's effect is `u` but for counters, and holds no group, issues and ends in `u`. -/
theorem issues_of_issue {i : Instr} {s u : State} {c slot : Nat} {g : Group} {w : Word} {row : Word → Bool} {act : Group → Word → State}
    (e : exec i s = .next (s.issue c slot row act)) (a : s.Issuable c slot g w) (k : row w = true) (n : c < 192)
    (x : u.Counted (act g w)) (y : (act g w).RegsRise) (free : ∀ h, ((act g w).core c).group slot = some h → h.hold = false) :
    Issues i s c slot u := by
  refine ⟨_, e.trans (by rw [State.issue_eq a act k]), ?_⟩
  have m := (State.countIssue_counted (slot := slot) (lanes := vectorLanes g w) x y n).1.mark c slot
  unfold State.afterIssue
  split
  · rename_i h eh
    simp only [free h eh, Bool.false_eq_true, if_false]
    exact m
  · exact m

/-- A row whose word's effect is `u` but for counters, and holds its group, ends in `u`. -/
theorem steps_to_of_hold {i : Instr} {s u : State} {c slot : Nat} {g h : Group} {w : Word} {row : Word → Bool} {act : Group → Word → State}
    (e : exec i s = .next (s.issue c slot row act)) (a : s.Issuable c slot g w) (k : row w = true) (x : u.Counted (act g w))
    (eh : ((act g w).core c).group slot = some h) (held : h.hold = true) : StepsTo i s u := by
  refine ⟨_, e.trans (by rw [State.issue_eq a act k]), ?_⟩
  unfold State.afterIssue
  rw [eh]
  simp only [held, if_true]
  exact x

/-- A row whose word's effect is `u` but for counters ends in `u`, its issue noted unless `u` holds the group. -/
theorem ends_of_issue {i : Instr} {s u : State} {c slot : Nat} {g : Group} {w : Word} {row : Word → Bool} {act : Group → Word → State}
    (e : exec i s = .next (s.issue c slot row act)) (a : s.Issuable c slot g w) (k : row w = true) (n : c < 192)
    (x : u.Counted (act g w)) (y : (act g w).RegsRise) : Ends i s c slot u := by
  refine ⟨_, e.trans (by rw [State.issue_eq a act k]), ?_⟩
  have m := (State.countIssue_counted (slot := slot) (lanes := vectorLanes g w) x y n).1.mark c slot
  have q : ((act g w).core c).group slot = (u.core c).group slot := by unfold State.core; rw [x.cores]
  unfold State.noted State.afterIssue
  rw [q]
  cases (u.core c).group slot with
  | none => exact m
  | some h =>
    cases eh : h.hold
    · simp only [eh, Bool.false_eq_true, if_false]; exact m
    · simp only [eh, if_true]; exact x

/-- A row that ends in a group's new value, not held, steps that group. -/
theorem steps_of_issue {i : Instr} {s : State} {c slot : Nat} {g h : Group} {w : Word} {row : Word → Bool} {act : Group → Word → State}
    (e : exec i s = .next (s.issue c slot row act)) (a : s.Issuable c slot g w) (k : row w = true) (n : c < 192)
    (x : (s.setGroup c slot h).Counted (act g w)) (y : (act g w).RegsRise)
    (free : ∀ h, ((act g w).core c).group slot = some h → h.hold = false) : StepsGroup i s c slot h :=
  issues_of_issue e a k n x y free

end Sys2Proof.Machine
end

