-- ==== Sys2Proof/Laws/KeepsShared.lean ====
section
/-! SUPPORT. What the operations that every unit shares keep. -/

namespace Sys2Proof.Machine

/-! ### Machine/Ops.lean -/

theorem State.setFld_keeps {s0 : State} {s : State} {off hi lo v : Nat} (hs : s0.Keeps s) :
    s0.Keeps (State.setFld s off hi lo v) := by
  unfold State.setFld
  repeat' with_reducible first
    | assumption
    | exact State.Keeps.refl _
    | intro _
    | lift_lets
    | apply keeps_ite
    | apply State.wr_keeps

theorem State.setFlag_keeps {s0 : State} {s : State} {off i : Nat} (hs : s0.Keeps s) :
    s0.Keeps (State.setFlag s off i) := by
  unfold State.setFlag
  repeat' with_reducible first
    | assumption
    | exact State.Keeps.refl _
    | intro _
    | lift_lets
    | apply keeps_ite
    | apply State.setFld_keeps

theorem State.clrFlag_keeps {s0 : State} {s : State} {off i : Nat} (hs : s0.Keeps s) :
    s0.Keeps (State.clrFlag s off i) := by
  unfold State.clrFlag
  repeat' with_reducible first
    | assumption
    | exact State.Keeps.refl _
    | intro _
    | lift_lets
    | apply keeps_ite
    | apply State.setFld_keeps

theorem State.putFlag_keeps {s0 : State} {s : State} {off i : Nat} {b : Bool} (hs : s0.Keeps s) :
    s0.Keeps (State.putFlag s off i b) := by
  unfold State.putFlag
  repeat' with_reducible first
    | assumption
    | exact State.Keeps.refl _
    | intro _
    | lift_lets
    | apply keeps_ite
    | apply State.setFld_keeps

theorem State.adopt_keeps {s0 : State} {s : State} {off : Nat} (hs : s0.Keeps s) :
    s0.Keeps (State.adopt s off) := by
  unfold State.adopt
  repeat' with_reducible first
    | assumption
    | exact State.Keeps.refl _
    | intro _
    | lift_lets
    | apply keeps_ite
    | split
    | fail_if_no_progress refine keeps_mk rfl rfl rfl rfl rfl rfl rfl rfl rfl rfl rfl rfl rfl rfl ?_

theorem State.wrLate_keeps {s0 : State} {s : State} {off : Nat} {v : Word} (hs : s0.Keeps s) :
    s0.Keeps (State.wrLate s off v) := by
  unfold State.wrLate
  repeat' with_reducible first
    | assumption
    | exact State.Keeps.refl _
    | intro _
    | lift_lets
    | apply keeps_ite
    | apply State.wr_keeps
    | split
    | fail_if_no_progress refine keeps_mk rfl rfl rfl rfl rfl rfl rfl rfl rfl rfl rfl rfl rfl rfl ?_

theorem State.count_keeps {s0 : State} {s : State} {off w k : Nat} (hs : s0.Keeps s) :
    s0.Keeps (State.count s off w k) := by
  unfold State.count
  repeat' with_reducible first
    | assumption
    | exact State.Keeps.refl _
    | intro _
    | lift_lets
    | apply keeps_ite
    | apply State.withFree_keeps
    | apply State.wr_keeps

theorem State.countSat_keeps {s0 : State} {s : State} {set off n : Nat} (hs : s0.Keeps s) :
    s0.Keeps (State.countSat s set off n) := by
  unfold State.countSat
  repeat' with_reducible first
    | assumption
    | exact State.Keeps.refl _
    | intro _
    | lift_lets
    | apply keeps_ite
    | apply State.wr_keeps
    | split
    | fail_if_no_progress refine keeps_mk rfl rfl rfl rfl rfl rfl rfl rfl rfl rfl rfl rfl rfl rfl ?_

theorem State.countFld_keeps {s0 : State} {s : State} {off hi lo k : Nat} (hs : s0.Keeps s) :
    s0.Keeps (State.countFld s off hi lo k) := by
  unfold State.countFld
  repeat' with_reducible first
    | assumption
    | exact State.Keeps.refl _
    | intro _
    | lift_lets
    | apply keeps_ite
    | apply State.setFld_keeps
    | apply State.withFree_keeps

theorem State.resetLog_keeps {s0 : State} {s : State} {host remote : Nat} (hs : s0.Keeps s) :
    s0.Keeps (State.resetLog s host remote) := by
  unfold State.resetLog
  repeat' with_reducible first
    | assumption
    | exact State.Keeps.refl _
    | intro _
    | lift_lets
    | apply keeps_ite
    | apply State.countFld_keeps

theorem State.hit_keeps {s0 : State} {s : State} {set code n : Nat} (hs : s0.Keeps s) :
    s0.Keeps (State.hit s set code n) := by
  unfold State.hit
  repeat' with_reducible first
    | assumption
    | exact State.Keeps.refl _
    | intro _
    | lift_lets
    | apply keeps_ite
    | apply State.countSat_keeps
    | apply keeps_foldl

theorem State.fillLog_keeps {s0 : State} {s : State} {off : Nat} {v : Word} (hs : s0.Keeps s) :
    s0.Keeps (State.fillLog s off v) := by
  unfold State.fillLog
  repeat' with_reducible first
    | assumption
    | exact State.Keeps.refl _
    | intro _
    | lift_lets
    | apply keeps_ite
    | apply State.wr_keeps

theorem State.sendVector_keeps {s0 : State} {s : State} {f v : Nat} (hs : s0.Keeps s) :
    s0.Keeps (State.sendVector s f v) := by
  unfold State.sendVector
  repeat' with_reducible first
    | assumption
    | exact State.Keeps.refl _
    | intro _
    | lift_lets
    | apply keeps_ite
    | apply State.emit_keeps
    | split
    | fail_if_no_progress refine keeps_mk rfl rfl rfl rfl rfl rfl rfl rfl rfl rfl rfl rfl rfl rfl ?_

theorem State.raiseCause_keeps {s0 : State} {s : State} {f c : Nat} (hs : s0.Keeps s) :
    s0.Keeps (State.raiseCause s f c) := by
  unfold State.raiseCause
  repeat' with_reducible first
    | assumption
    | exact State.Keeps.refl _
    | intro _
    | lift_lets
    | apply keeps_ite
    | apply State.sendVector_keeps
    | apply State.setFlag_keeps

theorem State.updCore_keeps {s0 : State} {s : State} {c : Nat} {f : Core → Core} (hs : s0.Keeps s) :
    s0.Keeps (State.updCore s c f) := by
  unfold State.updCore
  repeat' with_reducible first
    | assumption
    | exact State.Keeps.refl _
    | intro _
    | lift_lets
    | apply keeps_ite
    | apply State.setCore_keeps

theorem State.setUnit_keeps {s0 s : State} {u : Nat} {x : PtsUnit} (hs : s0.Keeps s) : s0.Keeps (s.setUnit u x) :=
  hs.table rfl (fun k => { k with units := SMap.put_canon k.units u x }) rfl rfl rfl rfl

/-! ### Machine/MemOps.lean -/

theorem State.sectorRead_keeps {s0 : State} {s : State} {sector slot : Nat} (hs : s0.Keeps s) :
    s0.Keeps (State.sectorRead s sector slot).2 := by
  unfold State.sectorRead
  repeat' with_reducible first
    | assumption
    | exact State.Keeps.refl _
    | intro _
    | lift_lets
    | apply keeps_ite
    | apply State.free_keeps
    | split
    | refine keeps_mkf rfl rfl rfl rfl rfl rfl rfl rfl rfl rfl rfl rfl rfl rfl ?_

theorem State.dramBytes_keeps {s0 : State} {s : State} {line slot : Nat} (hs : s0.Keeps s) :
    s0.Keeps (State.dramBytes s line slot).2 := by
  unfold State.dramBytes
  repeat' with_reducible first
    | assumption
    | exact State.Keeps.refl _
    | intro _
    | lift_lets
    | apply keeps_ite
    | apply State.sectorRead_keeps
    | apply keeps_foldl
    | apply keeps_foldl2

theorem State.dramLine_keeps {s0 : State} {s : State} {line slot : Nat} (hs : s0.Keeps s) :
    s0.Keeps (State.dramLine s line slot).2 := by
  unfold State.dramLine
  repeat' with_reducible first
    | assumption
    | exact State.Keeps.refl _
    | intro _
    | lift_lets
    | apply keeps_ite
    | apply State.dramBytes_keeps
    | apply State.hit_keeps

theorem dramWrite_keeps {m0 m : MemSys} {line slot : Nat} {bytes : List Byte} {poison sectors : Nat} (hm : m0.Keeps m) :
    m0.Keeps (dramWrite m line slot bytes poison sectors) := by
  unfold dramWrite
  split
  · exact hm.same rfl
  · refine memKeeps_foldl (hm.same rfl) fun u b hu => ?_
    split
    · exact fun c => Mem.store_canon (hu c) _ _
    · exact hu

theorem MemSys.setLine_keeps {m0 : MemSys} {m : MemSys} {n : Nat} {x : Option L2Line} (hm : m0.Keeps m) :
    m0.Keeps (MemSys.setLine m n x) := by
  unfold MemSys.setLine
  repeat' with_reducible first
    | assumption
    | exact MemSys.Keeps.refl _
    | intro _
    | lift_lets
    | split
    | apply memKeeps_mk rfl

theorem MemSys.cleanLine_keeps {m0 : MemSys} {m : MemSys} {n : Nat} (hm : m0.Keeps m) :
    m0.Keeps (MemSys.cleanLine m n) := by
  unfold MemSys.cleanLine
  repeat' with_reducible first
    | assumption
    | exact MemSys.Keeps.refl _
    | intro _
    | lift_lets
    | apply dramWrite_keeps
    | apply MemSys.setLine_keeps
    | split
    | apply memKeeps_mk rfl

theorem MemSys.dropLine_keeps {m0 : MemSys} {m : MemSys} {n : Nat} (hm : m0.Keeps m) :
    m0.Keeps (MemSys.dropLine m n) := by
  unfold MemSys.dropLine
  repeat' with_reducible first
    | assumption
    | exact MemSys.Keeps.refl _
    | intro _
    | lift_lets
    | apply MemSys.setLine_keeps

theorem MemSys.flushLine_keeps {m0 : MemSys} {m : MemSys} {n : Nat} (hm : m0.Keeps m) :
    m0.Keeps (MemSys.flushLine m n) := by
  unfold MemSys.flushLine
  repeat' with_reducible first
    | assumption
    | exact MemSys.Keeps.refl _
    | intro _
    | lift_lets
    | apply MemSys.cleanLine_keeps
    | apply MemSys.dropLine_keeps

theorem State.setMem_keeps {s0 s : State} {m : MemSys} (hm : s.mem.Keeps m) (hs : s0.Keeps s) : s0.Keeps (s.setMem m) := by
  unfold State.setMem
  refine keeps_foldl (hs.mem hm) fun u b hu => ?_
  repeat' with_reducible first
    | assumption
    | intro _
    | lift_lets
    | apply keeps_ite
    | apply State.hit_keeps

theorem MemSys.toSiding_keeps {m0 : MemSys} {m : MemSys} {n : Nat} (hm : m0.Keeps m) :
    m0.Keeps (MemSys.toSiding m n) := by
  unfold MemSys.toSiding
  repeat' with_reducible first
    | assumption
    | exact MemSys.Keeps.refl _
    | intro _
    | lift_lets
    | apply MemSys.flushLine_keeps
    | apply MemSys.setLine_keeps
    | apply memKeeps_foldl
    | split
    | apply memKeeps_mk rfl

theorem State.placeLine_keeps {s0 s : State} {n : Nat} {x : L2Line} {mask : Nat} (hs : s0.Keeps s) :
    s0.Keeps (s.placeLine n x mask) := by
  unfold State.placeLine
  dsimp only
  split
  · exact State.Keeps.mem hs fun c => c
  · refine State.withFree_keeps hs fun r t ht => State.setMem_keeps ?_ ht
    split
    · exact fun c => MemSys.toSiding_keeps (MemSys.Keeps.refl _) c
    · exact MemSys.Keeps.refl _

theorem State.rekeyLine_keeps {s0 : State} {s : State} {n slot : Nat} {x : L2Line} (hs : s0.Keeps s) :
    s0.Keeps (State.rekeyLine s n slot x).2 := by
  unfold State.rekeyLine
  repeat' with_reducible first
    | assumption
    | exact State.Keeps.refl _
    | intro _
    | lift_lets
    | apply keeps_ite
    | apply MemSys.cleanLine_keeps
    | apply State.dramLine_keeps
    | apply MemSys.setLine_keeps
    | apply State.setMem_keeps
    | split
    | fail_if_no_progress refine keeps_mk rfl rfl rfl rfl rfl rfl rfl rfl rfl rfl rfl rfl rfl rfl ?_
    | fail_if_no_progress refine keeps_mkm rfl rfl rfl rfl rfl rfl rfl rfl rfl rfl rfl rfl rfl ?_ ?_
    | exact MemSys.Keeps.refl _

theorem State.countRecall_keeps {s0 : State} {s : State} {n : Nat} (hs : s0.Keeps s) :
    s0.Keeps (State.countRecall s n) := by
  unfold State.countRecall
  repeat' with_reducible first
    | assumption
    | exact State.Keeps.refl _
    | intro _
    | lift_lets
    | apply keeps_ite
    | apply State.count_keeps
    | apply State.hit_keeps

theorem State.countMiss_keeps {s0 : State} {s : State} {n : Nat} (hs : s0.Keeps s) :
    s0.Keeps (State.countMiss s n) := by
  unfold State.countMiss
  repeat' with_reducible first
    | assumption
    | exact State.Keeps.refl _
    | intro _
    | lift_lets
    | apply keeps_ite
    | apply State.count_keeps
    | apply State.hit_keeps

theorem State.placed_keeps {s0 : State} {s : State} {n : Nat} {x : L2Line} {mask : Nat} (hs : s0.Keeps s) :
    s0.Keeps (State.placed s n x mask).2 := by
  unfold State.placed
  repeat' with_reducible first
    | assumption
    | exact State.Keeps.refl _
    | intro _
    | lift_lets
    | apply keeps_ite
    | apply State.placeLine_keeps

theorem State.lineFor_keeps {s0 : State} {s : State} {n cls slot : Nat} {alloc first : Bool} (hs : s0.Keeps s) :
    s0.Keeps (State.lineFor s n cls slot alloc first).2 := by
  unfold State.lineFor
  repeat' with_reducible first
    | assumption
    | exact State.Keeps.refl _
    | intro _
    | lift_lets
    | apply keeps_ite
    | apply State.countMiss_keeps
    | apply State.countRecall_keeps
    | apply State.dramLine_keeps
    | apply State.hit_keeps
    | apply State.placed_keeps
    | apply State.rekeyLine_keeps
    | split
    | fail_if_no_progress refine keeps_mk rfl rfl rfl rfl rfl rfl rfl rfl rfl rfl rfl rfl rfl rfl ?_
    | refine keeps_eq2 ?_ (by assumption)

theorem State.lineNow_keeps {s0 : State} {s : State} {n slot : Nat} (hs : s0.Keeps s) :
    s0.Keeps (State.lineNow s n slot).2 := by
  unfold State.lineNow
  repeat' with_reducible first
    | assumption
    | exact State.Keeps.refl _
    | intro _
    | lift_lets
    | apply keeps_ite
    | apply State.dramBytes_keeps
    | apply State.rekeyLine_keeps
    | split

theorem State.lineRead_keeps {s0 : State} {s : State} {a len cls slot : Nat} {alloc first : Bool} (hs : s0.Keeps s) :
    s0.Keeps (State.lineRead s a len cls slot alloc first).2.2 := by
  unfold State.lineRead
  repeat' with_reducible first
    | assumption
    | exact State.Keeps.refl _
    | intro _
    | lift_lets
    | apply keeps_ite
    | apply State.lineFor_keeps

theorem State.lineUpdate_keeps {s0 : State} {s : State} {n : Nat} {x : L2Line} {data : SMap (Option Byte)} {slot : Nat} (hs : s0.Keeps s) :
    s0.Keeps (State.lineUpdate s n x data slot) := by
  unfold State.lineUpdate
  repeat' with_reducible first
    | assumption
    | exact State.Keeps.refl _
    | intro _
    | lift_lets
    | apply keeps_ite
    | apply dramWrite_keeps
    | apply MemSys.setLine_keeps
    | apply State.setMem_keeps
    | split
    | fail_if_no_progress refine keeps_mkm rfl rfl rfl rfl rfl rfl rfl rfl rfl rfl rfl rfl rfl ?_ ?_
    | exact MemSys.Keeps.refl _

theorem State.lineWrite_keeps {s0 s : State} {n : Nat} {data : SMap (Option Byte)} {cls slot : Nat} {alloc first : Bool}
    (hs : s0.Keeps s) : s0.Keeps (s.lineWrite n data cls slot alloc first) := by
  unfold State.lineWrite
  split
  · exact hs.mem fun c => c
  · have h2 := State.lineFor_keeps (n := n) (cls := cls) (slot := slot) (alloc := alloc) (first := first) hs
    generalize s.lineFor n cls slot alloc first = p at h2 ⊢
    obtain ⟨x, t⟩ := p
    exact State.lineUpdate_keeps h2

theorem State.memRead_keeps {s0 : State} {s : State} {a len cls slot : Nat} {alloc : Bool} (hs : s0.Keeps s) :
    s0.Keeps (State.memRead s a len cls slot alloc).2.2 := by
  unfold State.memRead
  repeat' with_reducible first
    | assumption
    | exact State.Keeps.refl _
    | intro _
    | lift_lets
    | apply keeps_ite
    | apply State.lineRead_keeps
    | apply keeps_foldl
    | apply keeps_foldl2
    | apply keeps_foldl3

theorem State.memPut_keeps {s0 : State} {s : State} {a : Nat} {b : List Byte} {cls slot : Nat} {alloc : Bool} (hs : s0.Keeps s) :
    s0.Keeps (State.memPut s a b cls slot alloc) := by
  unfold State.memPut
  repeat' with_reducible first
    | assumption
    | exact State.Keeps.refl _
    | intro _
    | lift_lets
    | apply keeps_ite
    | apply State.lineWrite_keeps
    | apply keeps_foldl

theorem State.memWrite_keeps {s0 : State} {s : State} {a : Nat} {b : List Byte} {cls slot : Nat} {alloc : Bool} (hs : s0.Keeps s) :
    s0.Keeps (State.memWrite s a b cls slot alloc) := by
  unfold State.memWrite
  repeat' with_reducible first
    | assumption
    | exact State.Keeps.refl _
    | intro _
    | lift_lets
    | apply keeps_ite
    | apply State.lineWrite_keeps
    | apply keeps_foldl

theorem MemSys.poisonRange_keeps {m0 : MemSys} {m : MemSys} {a len : Nat} (hm : m0.Keeps m) :
    m0.Keeps (MemSys.poisonRange m a len) := by
  unfold MemSys.poisonRange
  repeat' with_reducible first
    | assumption
    | exact MemSys.Keeps.refl _
    | intro _
    | lift_lets
    | apply MemSys.setLine_keeps
    | apply memKeeps_foldl
    | split
    | apply memKeeps_mk rfl

theorem State.consumedPoison_keeps {s0 : State} {s : State} (hs : s0.Keeps s) :
    s0.Keeps (State.consumedPoison s) := by
  unfold State.consumedPoison
  repeat' with_reducible first
    | assumption
    | exact State.Keeps.refl _
    | intro _
    | lift_lets
    | apply keeps_ite
    | apply State.count_keeps
    | apply State.setFlag_keeps

theorem State.poisonIf_keeps {s0 : State} {s : State} {b : Bool} (hs : s0.Keeps s) :
    s0.Keeps (State.poisonIf s b) := by
  unfold State.poisonIf
  repeat' with_reducible first
    | assumption
    | exact State.Keeps.refl _
    | intro _
    | lift_lets
    | apply keeps_ite
    | apply State.consumedPoison_keeps

/-! ### Machine/Ras.lean -/

theorem State.partEvent_keeps {s0 : State} {s : State} {kind place : Nat} (hs : s0.Keeps s) :
    s0.Keeps (State.partEvent s kind place) := by
  unfold State.partEvent
  repeat' with_reducible first
    | assumption
    | exact State.Keeps.refl _
    | intro _
    | lift_lets
    | apply keeps_ite
    | split
    | fail_if_no_progress refine keeps_mk rfl rfl rfl rfl rfl rfl rfl rfl rfl rfl rfl rfl rfl rfl ?_

theorem State.rowEvent_keeps {s0 : State} {s : State} {a : Nat} (hs : s0.Keeps s) :
    s0.Keeps (State.rowEvent s a) := by
  unfold State.rowEvent
  repeat' with_reducible first
    | assumption
    | exact State.Keeps.refl _
    | intro _
    | lift_lets
    | apply keeps_ite
    | apply State.partEvent_keeps
    | apply keeps_foldl
    | apply keeps_foldl2
    | apply keeps_foldl3
    | apply keeps_foldl4
    | split
    | fail_if_no_progress refine keeps_mk rfl rfl rfl rfl rfl rfl rfl rfl rfl rfl rfl rfl rfl rfl ?_

theorem State.rled_keeps {s0 : State} {s : State} {j n : Nat} (hs : s0.Keeps s) :
    s0.Keeps (State.rled s j n) := by
  unfold State.rled
  repeat' with_reducible first
    | assumption
    | exact State.Keeps.refl _
    | intro _
    | lift_lets
    | apply keeps_ite
    | split
    | fail_if_no_progress refine keeps_mk rfl rfl rfl rfl rfl rfl rfl rfl rfl rfl rfl rfl rfl rfl ?_

theorem State.detect_keeps {s0 : State} {s : State} {st unit addr : Nat} {u : Upset} (hs : s0.Keeps s) :
    s0.Keeps (State.detect s st unit addr u) := by
  unfold State.detect
  repeat' with_reducible first
    | assumption
    | exact State.Keeps.refl _
    | intro _
    | lift_lets
    | apply keeps_ite
    | apply State.count_keeps
    | apply State.hit_keeps
    | apply State.raiseCause_keeps
    | apply State.setFlag_keeps
    | apply State.wr_keeps
    | split

theorem State.hostError_keeps {s0 : State} {s : State} {fn requester ctx addr : Nat} {e : HostEnd} (hs : s0.Keeps s) :
    s0.Keeps (State.hostError s fn requester ctx addr e) := by
  unfold State.hostError
  repeat' with_reducible first
    | assumption
    | exact State.Keeps.refl _
    | intro _
    | lift_lets
    | apply keeps_ite
    | apply State.count_keeps
    | apply State.raiseCause_keeps
    | apply State.wr_keeps

theorem State.hostIn_keeps {s0 : State} {s : State} {h : HostData} (hs : s0.Keeps s) :
    s0.Keeps (State.hostIn s h) := by
  unfold State.hostIn
  repeat' with_reducible first
    | assumption
    | exact State.Keeps.refl _
    | intro _
    | lift_lets
    | apply keeps_ite
    | split
    | fail_if_no_progress refine keeps_mk rfl rfl rfl rfl rfl rfl rfl rfl rfl rfl rfl rfl rfl rfl ?_

theorem State.hostOut_keeps {s0 : State} {t : State} (ht : s0.Keeps t) :
    s0.Keeps (State.hostOut t) := by
  unfold State.hostOut
  repeat' with_reducible first
    | assumption
    | exact State.Keeps.refl _
    | intro _
    | lift_lets
    | apply keeps_ite
    | split
    | fail_if_no_progress refine keeps_mk rfl rfl rfl rfl rfl rfl rfl rfl rfl rfl rfl rfl rfl rfl ?_

theorem State.withHost_keeps {s0 : State} {s : State} {h : HostData} {f : State → State} (hs : s0.Keeps s) (hf : ∀ (x : State), s0.Keeps x → s0.Keeps (f x)) :
    s0.Keeps (State.withHost s h f) := by
  unfold State.withHost
  repeat' with_reducible first
    | assumption
    | exact State.Keeps.refl _
    | intro _
    | lift_lets
    | apply keeps_ite
    | apply hf
    | apply State.hostIn_keeps
    | apply State.hostOut_keeps

theorem State.busRead_keeps {s0 s : State} {fn requester ctx a len : Nat} (hs : s0.Keeps s) :
    s0.Keeps (s.busRead fn requester ctx a len).2.2 := by
  unfold State.busRead
  refine State.hostError_keeps (State.emit_keeps ?_)
  exact hs.change rfl (State.Tables.canon ⟨rfl, rfl, rfl, rfl, rfl, rfl, rfl⟩ id) (List.suffix_refl _) (Nat.le_add_right _ 2) id
    (fun _ => Fuses.Grow.refl _) (.inl rfl)

/-! ### Machine/Bar.lean -/

theorem State.denied_keeps {s0 : State} {s : State} {fn : Nat} (hs : s0.Keeps s) :
    s0.Keeps (State.denied s fn) := by
  unfold State.denied
  repeat' with_reducible first
    | assumption
    | exact State.Keeps.refl _
    | intro _
    | lift_lets
    | apply keeps_ite
    | apply State.count_keeps
    | apply State.raiseCause_keeps

theorem State.aerLog_keeps {s0 : State} {s : State} (hs : s0.Keeps s) :
    s0.Keeps (State.aerLog s) := by
  unfold State.aerLog
  repeat' with_reducible first
    | assumption
    | exact State.Keeps.refl _
    | intro _
    | lift_lets
    | apply keeps_ite
    | split
    | fail_if_no_progress refine keeps_mk rfl rfl rfl rfl rfl rfl rfl rfl rfl rfl rfl rfl rfl rfl ?_

theorem State.mmio_keeps {s0 : State} {s : State} {fn off : Nat} {write : Bool} {act : State → State} (hs : s0.Keeps s) (hact : ∀ (x : State), s0.Keeps x → s0.Keeps (act x)) :
    s0.Keeps (State.mmio s fn off write act) := by
  unfold State.mmio
  repeat' with_reducible first
    | assumption
    | exact State.Keeps.refl _
    | intro _
    | lift_lets
    | apply keeps_ite
    | apply hact
    | apply State.aerLog_keeps
    | apply State.denied_keeps
    | apply State.emit_keeps
    | apply State.rled_keeps
    | apply State.setFlag_keeps
    | split

/-! ### Machine/Trace.lean -/

theorem State.traceStore_keeps {s0 : State} {s : State} {i : Nat} {r : TraceRec} (hs : s0.Keeps s) :
    s0.Keeps (State.traceStore s i r) := by
  unfold State.traceStore
  repeat' with_reducible first
    | assumption
    | exact State.Keeps.refl _
    | intro _
    | lift_lets
    | apply keeps_ite
    | apply State.memWrite_keeps

theorem State.traceLost_keeps {s0 : State} {s : State} (hs : s0.Keeps s) :
    s0.Keeps (State.traceLost s) := by
  unfold State.traceLost
  repeat' with_reducible first
    | assumption
    | exact State.Keeps.refl _
    | intro _
    | lift_lets
    | apply keeps_ite
    | apply State.count_keeps

theorem State.traceRing_keeps {s0 : State} {s : State} {r : TraceRec} (hs : s0.Keeps s) :
    s0.Keeps (State.traceRing s r) := by
  unfold State.traceRing
  repeat' with_reducible first
    | assumption
    | exact State.Keeps.refl _
    | intro _
    | lift_lets
    | apply keeps_ite
    | apply State.setFlag_keeps
    | apply State.traceStore_keeps
    | apply State.wr_keeps
    | split
    | fail_if_no_progress refine keeps_mk rfl rfl rfl rfl rfl rfl rfl rfl rfl rfl rfl rfl rfl rfl ?_

theorem State.traceWrite_keeps {s0 : State} {s : State} {r : TraceRec} (hs : s0.Keeps s) :
    s0.Keeps (State.traceWrite s r) := by
  unfold State.traceWrite
  repeat' with_reducible first
    | assumption
    | exact State.Keeps.refl _
    | intro _
    | lift_lets
    | apply keeps_ite
    | apply State.setFlag_keeps
    | apply State.traceLost_keeps
    | apply State.traceRing_keeps
    | apply State.traceStore_keeps
    | apply State.wr_keeps
    | split
    | fail_if_no_progress refine keeps_mk rfl rfl rfl rfl rfl rfl rfl rfl rfl rfl rfl rfl rfl rfl ?_

theorem State.trace_keeps {s0 : State} {s : State} {r : TraceRec} (hs : s0.Keeps s) :
    s0.Keeps (State.trace s r) := by
  unfold State.trace
  repeat' with_reducible first
    | assumption
    | exact State.Keeps.refl _
    | intro _
    | lift_lets
    | apply keeps_ite
    | apply State.traceWrite_keeps

theorem State.traceTrigger_keeps {s0 : State} {s : State} {b : Nat} (hs : s0.Keeps s) :
    s0.Keeps (State.traceTrigger s b) := by
  unfold State.traceTrigger
  repeat' with_reducible first
    | assumption
    | exact State.Keeps.refl _
    | intro _
    | lift_lets
    | apply keeps_ite
    | apply State.setFlag_keeps
    | apply State.traceWrite_keeps
    | apply State.wr_keeps
    | split
    | fail_if_no_progress refine keeps_mk rfl rfl rfl rfl rfl rfl rfl rfl rfl rfl rfl rfl rfl rfl ?_

theorem State.traceEvent_keeps {s0 : State} {s : State} {r : TraceRec} {b : Nat} (hs : s0.Keeps s) :
    s0.Keeps (State.traceEvent s r b) := by
  unfold State.traceEvent
  repeat' with_reducible first
    | assumption
    | exact State.Keeps.refl _
    | intro _
    | lift_lets
    | apply keeps_ite
    | apply State.trace_keeps
    | apply State.traceTrigger_keeps

theorem State.surveyStart_keeps {s0 : State} {s : State} {code who : Nat} (hs : s0.Keeps s) :
    s0.Keeps (State.surveyStart s code who) := by
  unfold State.surveyStart
  repeat' with_reducible first
    | assumption
    | exact State.Keeps.refl _
    | intro _
    | lift_lets
    | apply keeps_ite
    | apply State.count_keeps
    | apply State.setFlag_keeps
    | split
    | fail_if_no_progress refine keeps_mk rfl rfl rfl rfl rfl rfl rfl rfl rfl rfl rfl rfl rfl rfl ?_

theorem State.surveyTrigger_keeps {s0 : State} {s : State} {code who : Nat} (hs : s0.Keeps s) :
    s0.Keeps (State.surveyTrigger s code who) := by
  unfold State.surveyTrigger
  repeat' with_reducible first
    | assumption
    | exact State.Keeps.refl _
    | intro _
    | lift_lets
    | apply keeps_ite
    | apply State.surveyStart_keeps

/-! ### Machine/EndCmd.lean -/

theorem State.setQueue_keeps {s0 : State} {s : State} {q : Nat} {x : QueueSt} (hs : s0.Keeps s) :
    s0.Keeps (State.setQueue s q x) := by
  unfold State.setQueue
  repeat' with_reducible first
    | assumption
    | exact State.Keeps.refl _
    | intro _
    | lift_lets
    | apply keeps_ite
    | split
    | fail_if_no_progress refine keeps_mk rfl rfl rfl rfl rfl rfl rfl rfl rfl rfl rfl rfl rfl rfl ?_

theorem State.setPslot_keeps {s0 : State} {s : State} {n : Nat} {x : Option PSlot} (hs : s0.Keeps s) :
    s0.Keeps (State.setPslot s n x) := by
  unfold State.setPslot
  repeat' with_reducible first
    | assumption
    | exact State.Keeps.refl _
    | intro _
    | lift_lets
    | apply keeps_ite
    | split
    | fail_if_no_progress refine keeps_mk rfl rfl rfl rfl rfl rfl rfl rfl rfl rfl rfl rfl rfl rfl ?_

theorem State.poolCount_keeps {s0 : State} {s : State} (hs : s0.Keeps s) :
    s0.Keeps (State.poolCount s) := by
  unfold State.poolCount
  repeat' with_reducible first
    | assumption
    | exact State.Keeps.refl _
    | intro _
    | lift_lets
    | apply keeps_ite
    | apply State.wr_keeps

theorem State.reapSlot_keeps {s0 : State} {s : State} {n : Nat} (hs : s0.Keeps s) :
    s0.Keeps (State.reapSlot s n) := by
  unfold State.reapSlot
  repeat' with_reducible first
    | assumption
    | exact State.Keeps.refl _
    | intro _
    | lift_lets
    | apply keeps_ite
    | apply State.poolCount_keeps
    | apply State.setPslot_keeps
    | split

theorem State.pinBy_keeps {s0 : State} {s : State} {n v : Nat} {f : Nat → Nat} (hs : s0.Keeps s) :
    s0.Keeps (State.pinBy s n v f) := by
  unfold State.pinBy
  repeat' with_reducible first
    | assumption
    | exact State.Keeps.refl _
    | intro _
    | lift_lets
    | apply keeps_ite
    | apply State.setPslot_keeps
    | split

theorem State.unpin_keeps {s0 : State} {s : State} {c : Cmd} (hs : s0.Keeps s) :
    s0.Keeps (State.unpin s c) := by
  unfold State.unpin
  repeat' with_reducible first
    | assumption
    | exact State.Keeps.refl _
    | intro _
    | lift_lets
    | apply keeps_ite
    | apply State.pinBy_keeps
    | apply State.reapSlot_keeps
    | split

theorem State.epochEnd_keeps {s0 : State} {s : State} {ctx number : Nat} (hs : s0.Keeps s) :
    s0.Keeps (State.epochEnd s ctx number) := by
  unfold State.epochEnd
  repeat' with_reducible first
    | assumption
    | exact State.Keeps.refl _
    | intro _
    | lift_lets
    | apply keeps_ite
    | apply State.wr_keeps
    | split
    | fail_if_no_progress refine keeps_mk rfl rfl rfl rfl rfl rfl rfl rfl rfl rfl rfl rfl rfl rfl ?_

theorem State.laneSettle_keeps {s0 : State} {s : State} {l : Nat} (hs : s0.Keeps s) :
    s0.Keeps (State.laneSettle s l) := by
  unfold State.laneSettle
  repeat' with_reducible first
    | assumption
    | exact State.Keeps.refl _
    | intro _
    | lift_lets
    | apply keeps_ite
    | apply State.wr_keeps

theorem State.endCmd_keeps {s0 : State} {s : State} {id status detail : Nat} (hs : s0.Keeps s) :
    s0.Keeps (State.endCmd s id status detail) := by
  unfold State.endCmd
  repeat' with_reducible first
    | assumption
    | exact State.Keeps.refl _
    | intro _
    | lift_lets
    | apply keeps_ite
    | apply State.count_keeps
    | apply State.epochEnd_keeps
    | apply State.laneSettle_keeps
    | apply State.rled_keeps
    | apply State.setCmd_keeps
    | apply State.setQueue_keeps
    | split

/-! ### Machine/Sem.lean -/

theorem State.setWaiters_keeps {s0 : State} {s : State} {n : Nat} {l : List Waiter} (hs : s0.Keeps s) :
    s0.Keeps (State.setWaiters s n l) := by
  unfold State.setWaiters
  repeat' with_reducible first
    | assumption
    | exact State.Keeps.refl _
    | intro _
    | lift_lets
    | apply keeps_ite
    | apply State.setFld_keeps
    | split
    | fail_if_no_progress refine keeps_mk rfl rfl rfl rfl rfl rfl rfl rfl rfl rfl rfl rfl rfl rfl ?_

theorem State.wake_keeps {s0 : State} {s : State} {w : Waiter} {status : Nat} (hs : s0.Keeps s) :
    s0.Keeps (State.wake s w status) := by
  unfold State.wake
  repeat' with_reducible first
    | assumption
    | exact State.Keeps.refl _
    | intro _
    | lift_lets
    | apply keeps_ite
    | apply State.endCmd_keeps
    | apply State.setCore_keeps
    | apply State.setThread_keeps
    | split

theorem State.semServe_keeps {s0 : State} {s : State} {n : Nat} (hs : s0.Keeps s) :
    s0.Keeps (State.semServe s n) := by
  unfold State.semServe
  repeat' with_reducible first
    | assumption
    | exact State.Keeps.refl _
    | intro _
    | lift_lets
    | apply keeps_ite
    | apply State.setFld_keeps
    | apply State.setWaiters_keeps
    | apply State.wake_keeps
    | apply keeps_foldl

theorem State.semStamp_keeps {s0 : State} {s : State} {n kind ctx queue node cookie : Nat} (hs : s0.Keeps s) :
    s0.Keeps (State.semStamp s n kind ctx queue node cookie) := by
  unfold State.semStamp
  repeat' with_reducible first
    | assumption
    | exact State.Keeps.refl _
    | intro _
    | lift_lets
    | apply keeps_ite
    | apply State.wr_keeps
    | split
    | fail_if_no_progress refine keeps_mk rfl rfl rfl rfl rfl rfl rfl rfl rfl rfl rfl rfl rfl rfl ?_

theorem State.semRefuse_keeps {s0 : State} {s : State} {status : Nat} (hs : s0.Keeps s) :
    s0.Keeps (State.semRefuse s status) := by
  unfold State.semRefuse
  repeat' with_reducible first
    | assumption
    | exact State.Keeps.refl _
    | intro _
    | lift_lets
    | apply keeps_ite
    | apply State.count_keeps

theorem State.semSignal_keeps {s0 : State} {s : State} {n c : Nat} {q : Signaller} (hs : s0.Keeps s) :
    s0.Keeps (State.semSignal s n c q).2 := by
  unfold State.semSignal
  repeat' with_reducible first
    | assumption
    | exact State.Keeps.refl _
    | intro _
    | lift_lets
    | apply keeps_ite
    | apply State.count_keeps
    | apply State.semRefuse_keeps
    | apply State.semServe_keeps
    | apply State.semStamp_keeps
    | apply State.setFlag_keeps
    | apply State.setFld_keeps
    | split

theorem State.semWait_keeps {s0 : State} {s : State} {n tenant : Nat} {w : Waiter} (hs : s0.Keeps s) :
    s0.Keeps (State.semWait s n tenant w).2 := by
  unfold State.semWait
  repeat' with_reducible first
    | assumption
    | exact State.Keeps.refl _
    | intro _
    | lift_lets
    | apply keeps_ite
    | apply State.count_keeps
    | apply State.semRefuse_keeps
    | apply State.setFld_keeps
    | apply State.setWaiters_keeps
    | split

theorem State.semDec_keeps {s0 : State} {s : State} {n c tenant : Nat} (hs : s0.Keeps s) :
    s0.Keeps (State.semDec s n c tenant).2 := by
  unfold State.semDec
  repeat' with_reducible first
    | assumption
    | exact State.Keeps.refl _
    | intro _
    | lift_lets
    | apply keeps_ite
    | apply State.count_keeps
    | apply State.semRefuse_keeps
    | apply State.setFld_keeps
    | split

theorem State.semRead_keeps {s0 : State} {s : State} {n tenant : Nat} (hs : s0.Keeps s) :
    s0.Keeps (State.semRead s n tenant).2.2 := by
  unfold State.semRead
  repeat' with_reducible first
    | assumption
    | exact State.Keeps.refl _
    | intro _
    | lift_lets
    | apply keeps_ite
    | apply State.semRefuse_keeps
    | split

theorem State.semLeave_keeps {s0 : State} {s : State} {p : Waiter → Bool} (hs : s0.Keeps s) :
    s0.Keeps (State.semLeave s p) := by
  unfold State.semLeave
  repeat' with_reducible first
    | assumption
    | exact State.Keeps.refl _
    | intro _
    | lift_lets
    | apply keeps_ite
    | apply State.semServe_keeps
    | apply State.setWaiters_keeps
    | apply keeps_foldl

theorem State.semBreak_keeps {s0 : State} {s : State} {n : Nat} {ctx : Option Nat} (hs : s0.Keeps s) :
    s0.Keeps (State.semBreak s n ctx) := by
  unfold State.semBreak
  repeat' with_reducible first
    | assumption
    | exact State.Keeps.refl _
    | intro _
    | lift_lets
    | apply keeps_ite
    | apply State.setFld_keeps
    | apply State.setWaiters_keeps
    | apply State.wake_keeps
    | apply keeps_foldl

/-! ### Machine/Stop.lean -/

theorem State.stopGroup_keeps {s0 : State} {s : State} {c slot : Nat} (hs : s0.Keeps s) :
    s0.Keeps (State.stopGroup s c slot) := by
  unfold State.stopGroup
  repeat' with_reducible first
    | assumption
    | exact State.Keeps.refl _
    | intro _
    | lift_lets
    | apply keeps_ite
    | apply State.semLeave_keeps
    | apply State.setCore_keeps
    | split

theorem State.stepsTaken_keeps {s0 : State} {s : State} {c : Nat} {t : Tile} {n steps : Nat} (hs : s0.Keeps s) :
    s0.Keeps (State.stepsTaken s c t n steps) := by
  unfold State.stepsTaken
  repeat' with_reducible first
    | assumption
    | exact State.Keeps.refl _
    | intro _
    | lift_lets
    | apply keeps_ite
    | apply State.count_keeps
    | apply State.countSat_keeps
    | apply State.hit_keeps

theorem State.tileStops_keeps {s0 : State} {s : State} {c : Nat} {t : Tile} {n r : Nat} (hs : s0.Keeps s) :
    s0.Keeps (State.tileStops s c t n r) := by
  unfold State.tileStops
  repeat' with_reducible first
    | assumption
    | exact State.Keeps.refl _
    | intro _
    | lift_lets
    | apply keeps_ite
    | apply State.stepsTaken_keeps
    | apply State.updCore_keeps

theorem State.pathStops_keeps {s0 : State} {s : State} {c : Nat} {o : MvOp} (hs : s0.Keeps s) :
    s0.Keeps (State.pathStops s c o) := by
  unfold State.pathStops
  repeat' with_reducible first
    | assumption
    | exact State.Keeps.refl _
    | intro _
    | lift_lets
    | apply keeps_ite
    | apply State.count_keeps
    | apply State.updCore_keeps
    | apply State.withFree_keeps

theorem State.dropMatrix_keeps {s0 : State} {s : State} {c set : Nat} (hs : s0.Keeps s) :
    s0.Keeps (State.dropMatrix s c set) := by
  unfold State.dropMatrix
  repeat' with_reducible first
    | assumption
    | exact State.Keeps.refl _
    | intro _
    | lift_lets
    | apply keeps_ite
    | apply State.pathStops_keeps
    | apply State.setCore_keeps
    | apply State.tileStops_keeps
    | apply State.updCore_keeps
    | apply State.withFree_keeps
    | apply keeps_foldl
    | apply keeps_foldl2
    | apply keeps_foldl3
    | apply keeps_foldl4
    | split

theorem State.stopBlock_keeps {s0 : State} {s : State} {c set : Nat} (hs : s0.Keeps s) :
    s0.Keeps (State.stopBlock s c set) := by
  unfold State.stopBlock
  repeat' with_reducible first
    | assumption
    | exact State.Keeps.refl _
    | intro _
    | lift_lets
    | apply keeps_ite
    | apply State.dropMatrix_keeps
    | apply State.setCore_keeps
    | apply State.stopGroup_keeps
    | apply keeps_foldl
    | apply keeps_foldl2
    | apply keeps_foldl3
    | apply keeps_foldl4
    | split

theorem State.stopBlocks_keeps {s0 : State} {s : State} {l : Nat} (hs : s0.Keeps s) :
    s0.Keeps (State.stopBlocks s l) := by
  unfold State.stopBlocks
  repeat' with_reducible first
    | assumption
    | exact State.Keeps.refl _
    | intro _
    | lift_lets
    | apply keeps_ite
    | apply State.stopBlock_keeps
    | apply keeps_foldl

theorem State.stopLaunch_keeps {s0 : State} {s : State} {l status code : Nat} (hs : s0.Keeps s) :
    s0.Keeps (State.stopLaunch s l status code) := by
  unfold State.stopLaunch
  repeat' with_reducible first
    | assumption
    | exact State.Keeps.refl _
    | intro _
    | lift_lets
    | apply keeps_ite
    | apply State.setLaunch_keeps
    | apply State.stopBlocks_keeps
    | split

theorem State.launchFault_keeps {s0 : State} {s : State} {l code pc : Nat} (hs : s0.Keeps s) :
    s0.Keeps (State.launchFault s l code pc) := by
  unfold State.launchFault
  repeat' with_reducible first
    | assumption
    | exact State.Keeps.refl _
    | intro _
    | lift_lets
    | apply keeps_ite
    | apply State.setLaunch_keeps
    | apply State.stopLaunch_keeps
    | apply State.traceEvent_keeps
    | apply keeps_getD
    | split

theorem State.recordFault_keeps {s0 : State} {s : State} {c : Nat} {e : LateFault} (hs : s0.Keeps s) :
    s0.Keeps (State.recordFault s c e) := by
  unfold State.recordFault
  repeat' with_reducible first
    | assumption
    | exact State.Keeps.refl _
    | intro _
    | lift_lets
    | apply keeps_ite
    | apply State.launchFault_keeps
    | apply State.setCore_keeps
    | split
    | fail_if_no_progress refine keeps_mk rfl rfl rfl rfl rfl rfl rfl rfl rfl rfl rfl rfl rfl rfl ?_
    | refine keeps_eq2 ?_ (by assumption)
    | refine keeps_eq3 ?_ (by assumption)
    | refine keeps_eq4 ?_ (by assumption)
    | refine keeps_eqs ?_ (by assumption)
    | refine keeps_eqo ?_ (by assumption)
    | refine keeps_eqo2 ?_ (by assumption)
    | refine keeps_eqo3 ?_ (by assumption)
    | dsimp only [id]
    | dsimp +zetaDelta only

theorem State.settleFaults_keeps {s0 : State} {s : State} {c : Nat} (hs : s0.Keeps s) :
    s0.Keeps (State.settleFaults s c) := by
  unfold State.settleFaults
  repeat' with_reducible first
    | assumption
    | exact State.Keeps.refl _
    | intro _
    | lift_lets
    | apply keeps_ite
    | apply State.recordFault_keeps
    | apply State.setCore_keeps
    | apply keeps_foldl

theorem State.faultAt_keeps {s0 : State} {s : State} {c slot code pc : Nat} {lanes : Half} {addr : Nat} (hs : s0.Keeps s) :
    s0.Keeps (State.faultAt s c slot code pc lanes addr) := by
  unfold State.faultAt
  repeat' with_reducible first
    | assumption
    | exact State.Keeps.refl _
    | intro _
    | lift_lets
    | apply keeps_ite
    | apply State.poisonIf_keeps
    | apply State.semLeave_keeps
    | apply State.setCore_keeps
    | apply State.settleFaults_keeps
    | apply State.stopBlock_keeps
    | apply State.updCore_keeps
    | split

theorem State.faultGroup_keeps {s0 : State} {s : State} {c slot code : Nat} {lanes : Half} {addr : Nat} (hs : s0.Keeps s) :
    s0.Keeps (State.faultGroup s c slot code lanes addr) := by
  unfold State.faultGroup
  repeat' with_reducible first
    | assumption
    | exact State.Keeps.refl _
    | intro _
    | lift_lets
    | apply keeps_ite
    | apply State.faultAt_keeps
    | split

theorem State.guardFault_keeps {s0 : State} {s : State} {c cause slot barrier : Nat} (hs : s0.Keeps s) :
    s0.Keeps (State.guardFault s c cause slot barrier) := by
  unfold State.guardFault
  repeat' with_reducible first
    | assumption
    | exact State.Keeps.refl _
    | intro _
    | lift_lets
    | apply keeps_ite
    | apply State.count_keeps
    | apply State.fillLog_keeps
    | apply State.trace_keeps

/-! ### Machine/Cmds.lean -/

theorem State.voidCmds_keeps {s0 s : State} {p : Nat → Cmd → Bool} (hs : s0.Keeps s) : s0.Keeps (s.voidCmds p) :=
  hs.table rfl (fun k => { k with cmds := SMap.mapv_canon k.cmds (fun n (x : Option Cmd) =>
    x.map (fun (c : Cmd) => if s.serving c && p n c then { c with void := true } else c)) }) rfl rfl rfl rfl

theorem State.signalRefused_keeps {s0 : State} {s : State} {cmd st : Nat} (hs : s0.Keeps s) :
    s0.Keeps (State.signalRefused s cmd st) := by
  unfold State.signalRefused
  repeat' with_reducible first
    | assumption
    | exact State.Keeps.refl _
    | intro _
    | lift_lets
    | apply keeps_ite
    | apply State.setCmd_keeps
    | split

/-! ### Machine/Host.lean -/

theorem State.busWrite_keeps {s0 : State} {s : State} {fn a : Nat} {b : List Byte} (hs : s0.Keeps s) :
    s0.Keeps (State.busWrite s fn a b) := by
  unfold State.busWrite
  repeat' with_reducible first
    | assumption
    | exact State.Keeps.refl _
    | intro _
    | lift_lets
    | apply keeps_ite
    | apply State.emit_keeps

/-! ### Machine/Xlate.lean -/

theorem State.takeView_keeps {s0 : State} {s : State} {ctx : Nat} (hs : s0.Keeps s) :
    s0.Keeps (State.takeView s ctx).2 := by
  unfold State.takeView
  repeat' with_reducible first
    | assumption
    | exact State.Keeps.refl _
    | intro _
    | lift_lets
    | apply keeps_ite
    | apply keeps_foldl
    | apply keeps_foldl2
    | apply keeps_foldl3
    | apply keeps_foldl4
    | split
    | fail_if_no_progress refine keeps_mk rfl rfl rfl rfl rfl rfl rfl rfl rfl rfl rfl rfl rfl rfl ?_

theorem State.pteRead_keeps {s0 : State} {s : State} {a : Nat} (hs : s0.Keeps s) :
    s0.Keeps (State.pteRead s a).2.2 := by
  unfold State.pteRead
  repeat' with_reducible first
    | assumption
    | exact State.Keeps.refl _
    | intro _
    | lift_lets
    | apply keeps_ite
    | apply State.busRead_keeps
    | apply State.memRead_keeps
    | apply State.poisonIf_keeps
    | split

theorem State.walkFrom_keeps {s0 s : State} {walker tag va fuel level table : Nat} (hs : s0.Keeps s) :
    s0.Keeps (State.walkFrom s walker tag va fuel level table).2.2 := by
  induction fuel generalizing s level table with
  | zero =>
    unfold State.walkFrom
    exact hs
  | succ n ih =>
    unfold State.walkFrom
    repeat' with_reducible first
      | assumption
      | exact State.Keeps.refl _
      | intro _
      | lift_lets
      | apply keeps_ite
      | apply ih
      | apply State.free_keeps
      | apply State.pteRead_keeps
      | split
      | refine keeps_mkf rfl rfl rfl rfl rfl rfl rfl rfl rfl rfl rfl rfl rfl rfl ?_
      | fail_if_no_progress refine keeps_mk rfl rfl rfl rfl rfl rfl rfl rfl rfl rfl rfl rfl rfl rfl ?_
      | refine keeps_eq2 ?_ (by assumption)
      | refine keeps_eq3 ?_ (by assumption)
      | refine keeps_eq4 ?_ (by assumption)
      | refine keeps_eqs ?_ (by assumption)
      | refine keeps_eqo ?_ (by assumption)
      | refine keeps_eqo2 ?_ (by assumption)
      | refine keeps_eqo3 ?_ (by assumption)
      | dsimp only [id]

theorem State.walk_keeps {s0 : State} {s : State} {walker ctx va : Nat} {model : Bool} (hs : s0.Keeps s) :
    s0.Keeps (State.walk s walker ctx va model).2.2 := by
  unfold State.walk
  repeat' with_reducible first
    | assumption
    | exact State.Keeps.refl _
    | intro _
    | lift_lets
    | apply keeps_ite
    | apply State.count_keeps
    | apply State.walkFrom_keeps
    | split
    | fail_if_no_progress refine keeps_mk rfl rfl rfl rfl rfl rfl rfl rfl rfl rfl rfl rfl rfl rfl ?_
    | refine keeps_eq2 ?_ (by assumption)
    | refine keeps_eq3 ?_ (by assumption)

theorem State.tlbFill_keeps {s0 : State} {s : State} {q : Req} {e : TlbEntry} (hs : s0.Keeps s) :
    s0.Keeps (State.tlbFill s q e) := by
  unfold State.tlbFill
  repeat' with_reducible first
    | assumption
    | exact State.Keeps.refl _
    | intro _
    | lift_lets
    | apply keeps_ite
    | apply State.setCore_keeps
    | apply State.withFree_keeps
    | split
    | fail_if_no_progress refine keeps_mk rfl rfl rfl rfl rfl rfl rfl rfl rfl rfl rfl rfl rfl rfl ?_

theorem State.tlbMisses_keeps {s0 : State} {s : State} {q : Req} {tag va : Nat} (hs : s0.Keeps s) :
    s0.Keeps (State.tlbMisses s q tag va) := by
  unfold State.tlbMisses
  repeat' with_reducible first
    | assumption
    | exact State.Keeps.refl _
    | intro _
    | lift_lets
    | apply keeps_ite
    | apply State.hit_keeps
    | split

theorem State.xlateQuiet_keeps {s0 : State} {s : State} {q : Req} {ctx va : Nat} {n : Need} (hs : s0.Keeps s) :
    s0.Keeps (State.xlateQuiet s q ctx va n).2 := by
  unfold State.xlateQuiet
  repeat' with_reducible first
    | assumption
    | exact State.Keeps.refl _
    | intro _
    | lift_lets
    | apply keeps_ite
    | apply State.tlbFill_keeps
    | apply State.tlbMisses_keeps
    | apply State.walk_keeps
    | split
    | fail_if_no_progress refine keeps_mk rfl rfl rfl rfl rfl rfl rfl rfl rfl rfl rfl rfl rfl rfl ?_
    | refine keeps_eq2 ?_ (by assumption)
    | refine keeps_eq3 ?_ (by assumption)
    | refine keeps_eq4 ?_ (by assumption)
    | refine keeps_eqs ?_ (by assumption)
    | refine keeps_eqo ?_ (by assumption)
    | refine keeps_eqo2 ?_ (by assumption)
    | refine keeps_eqo3 ?_ (by assumption)
    | dsimp only [id]
    | dsimp +zetaDelta only

theorem State.logXlat_keeps {s0 : State} {s : State} {walker cause level cls ctx va : Nat} (hs : s0.Keeps s) :
    s0.Keeps (State.logXlat s walker cause level cls ctx va) := by
  unfold State.logXlat
  repeat' with_reducible first
    | assumption
    | exact State.Keeps.refl _
    | intro _
    | lift_lets
    | apply keeps_ite
    | apply State.wr_keeps

theorem State.xlate_keeps {s0 : State} {s : State} {q : Req} {cls ctx va : Nat} {n : Need} (hs : s0.Keeps s) :
    s0.Keeps (State.xlate s q cls ctx va n).2 := by
  unfold State.xlate
  repeat' with_reducible first
    | assumption
    | exact State.Keeps.refl _
    | intro _
    | lift_lets
    | apply keeps_ite
    | apply State.logXlat_keeps
    | apply State.xlateQuiet_keeps
    | split
    | fail_if_no_progress refine keeps_mk rfl rfl rfl rfl rfl rfl rfl rfl rfl rfl rfl rfl rfl rfl ?_
    | refine keeps_eq2 ?_ (by assumption)

/-! ### Machine/Issue.lean -/

theorem State.setGroup_keeps {s0 : State} {s : State} {c slot : Nat} {g : Group} (hs : s0.Keeps s) :
    s0.Keeps (State.setGroup s c slot g) := by
  unfold State.setGroup
  repeat' with_reducible first
    | assumption
    | exact State.Keeps.refl _
    | intro _
    | lift_lets
    | apply keeps_ite
    | apply State.setCore_keeps

theorem State.holdAt_keeps {s0 : State} {s : State} {c slot : Nat} {g : Group} {why : Nat} (hs : s0.Keeps s) :
    s0.Keeps (State.holdAt s c slot g why) := by
  unfold State.holdAt
  repeat' with_reducible first
    | assumption
    | exact State.Keeps.refl _
    | intro _
    | lift_lets
    | apply keeps_ite
    | apply State.setGroup_keeps

theorem State.countIssue_keeps {s0 : State} {s : State} {c slot lanes : Nat} (hs : s0.Keeps s) :
    s0.Keeps (State.countIssue s c slot lanes) := by
  unfold State.countIssue
  repeat' with_reducible first
    | assumption
    | exact State.Keeps.refl _
    | intro _
    | lift_lets
    | apply keeps_ite
    | apply State.countSat_keeps
    | apply State.hit_keeps

theorem State.markIssue_keeps {s0 : State} {s : State} {c slot : Nat} (hs : s0.Keeps s) :
    s0.Keeps (State.markIssue s c slot) := by
  unfold State.markIssue
  repeat' with_reducible first
    | assumption
    | exact State.Keeps.refl _
    | intro _
    | lift_lets
    | apply keeps_ite
    | apply State.setGroup_keeps
    | apply State.updCore_keeps

theorem State.afterIssue_keeps {s0 : State} {s : State} {c slot lanes : Nat} (hs : s0.Keeps s) :
    s0.Keeps (State.afterIssue s c slot lanes) := by
  unfold State.afterIssue
  repeat' with_reducible first
    | assumption
    | exact State.Keeps.refl _
    | intro _
    | lift_lets
    | apply keeps_ite
    | apply State.countIssue_keeps
    | apply State.markIssue_keeps
    | split

theorem State.issue_keeps {s0 : State} {s : State} {c slot : Nat} {row : Word → Bool} {act : Group → Word → State} (hs : s0.Keeps s) (hact : ∀ (x : Group) (y : Word),  s0.Keeps (act x y)) :
    s0.Keeps (State.issue s c slot row act) := by
  unfold State.issue
  repeat' with_reducible first
    | assumption
    | exact State.Keeps.refl _
    | intro _
    | lift_lets
    | apply keeps_ite
    | apply hact
    | apply State.afterIssue_keeps
    | apply State.holdAt_keeps
    | apply State.setGroup_keeps
    | split

theorem State.illegal_keeps {s0 : State} {s : State} {c slot : Nat} {g : Group} {w : Word} (hs : s0.Keeps s) :
    s0.Keeps (State.illegal s c slot g w) := by
  unfold State.illegal
  repeat' with_reducible first
    | assumption
    | exact State.Keeps.refl _
    | intro _
    | lift_lets
    | apply keeps_ite
    | apply State.faultGroup_keeps

theorem State.regRow_keeps {s0 : State} {s : State} {c slot : Nat} {upset : Upset} {row : Word → Bool} {dec : Group → Word → Option RegEffect} (hs : s0.Keeps s) :
    s0.Keeps (State.regRow s c slot upset row dec) := by
  unfold State.regRow
  repeat' with_reducible first
    | assumption
    | exact State.Keeps.refl _
    | intro _
    | lift_lets
    | apply keeps_ite
    | apply State.detect_keeps
    | apply State.faultGroup_keeps
    | apply State.holdAt_keeps
    | apply State.illegal_keeps
    | apply State.issue_keeps
    | apply State.partEvent_keeps
    | apply State.setGroup_keeps
    | apply State.withFree_keeps
    | split

/-! ### Machine/Access.lean -/

theorem State.xlateLanes_keeps {s0 : State} {s : State} {c ctx : Nat} {lanes : List Nat} {addr : Nat → Nat} {need : Need} (hs : s0.Keeps s) :
    s0.Keeps (State.xlateLanes s c ctx lanes addr need).2.2 := by
  unfold State.xlateLanes
  repeat' with_reducible first
    | assumption
    | exact State.Keeps.refl _
    | intro _
    | lift_lets
    | apply keeps_ite
    | apply State.xlate_keeps
    | apply keeps_foldl
    | apply keeps_foldl2
    | apply keeps_foldl3
    | apply keeps_foldl4
    | split
    | fail_if_no_progress refine keeps_mk rfl rfl rfl rfl rfl rfl rfl rfl rfl rfl rfl rfl rfl rfl ?_
    | refine keeps_eq2 ?_ (by assumption)

theorem State.loadLocal_keeps {s0 : State} {s : State} {c pa size region hint slot : Nat} {wide : Bool} (hs : s0.Keeps s) :
    s0.Keeps (State.loadLocal s c pa size region hint slot wide).2.2.2 := by
  unfold State.loadLocal
  repeat' with_reducible first
    | assumption
    | exact State.Keeps.refl _
    | intro _
    | lift_lets
    | apply keeps_ite
    | apply State.hit_keeps
    | apply State.lineRead_keeps
    | split
    | fail_if_no_progress refine keeps_mk rfl rfl rfl rfl rfl rfl rfl rfl rfl rfl rfl rfl rfl rfl ?_
    | refine keeps_eq2 ?_ (by assumption)
    | refine keeps_eq3 ?_ (by assumption)
    | refine keeps_eq4 ?_ (by assumption)
    | refine keeps_eqs ?_ (by assumption)
    | refine keeps_eqo ?_ (by assumption)
    | refine keeps_eqo2 ?_ (by assumption)
    | refine keeps_eqo3 ?_ (by assumption)
    | dsimp only [id]
    | dsimp +zetaDelta only

theorem State.l1Fill_keeps {s0 : State} {s : State} {c line slot : Nat} {first : Bool} (hs : s0.Keeps s) :
    s0.Keeps (State.l1Fill s c line slot first) := by
  unfold State.l1Fill
  repeat' with_reducible first
    | assumption
    | exact State.Keeps.refl _
    | intro _
    | lift_lets
    | apply keeps_ite
    | apply State.lineNow_keeps
    | apply State.setCore_keeps
    | apply State.withFree_keeps

theorem State.performLocal_keeps {s0 : State} {s : State} {c : Nat} {e : StoreEntry} (hs : s0.Keeps s) :
    s0.Keeps (State.performLocal s c e) := by
  unfold State.performLocal
  repeat' with_reducible first
    | assumption
    | exact State.Keeps.refl _
    | intro _
    | lift_lets
    | apply keeps_ite
    | apply State.lineWrite_keeps
    | apply State.rled_keeps
    | apply State.stopLaunch_keeps
    | apply keeps_foldl

theorem State.drainLine_keeps {s0 : State} {s : State} {c line : Nat} (hs : s0.Keeps s) :
    s0.Keeps (State.drainLine s c line) := by
  unfold State.drainLine
  repeat' with_reducible first
    | assumption
    | exact State.Keeps.refl _
    | intro _
    | lift_lets
    | apply keeps_ite
    | apply State.performLocal_keeps
    | apply State.rled_keeps
    | apply State.setCore_keeps
    | apply State.settleFaults_keeps
    | apply keeps_foldl

theorem State.dropYounger_keeps {s0 : State} {s : State} {c slot turn : Nat} (hs : s0.Keeps s) :
    s0.Keeps (State.dropYounger s c slot turn) := by
  unfold State.dropYounger
  repeat' with_reducible first
    | assumption
    | exact State.Keeps.refl _
    | intro _
    | lift_lets
    | apply keeps_ite
    | apply State.rled_keeps
    | apply State.setCore_keeps
    | apply State.settleFaults_keeps

/-! ### Machine/Mainline.lean -/

theorem State.led_keeps {s0 : State} {s : State} {k i n : Nat} (hs : s0.Keeps s) :
    s0.Keeps (State.led s k i n) := by
  unfold State.led
  repeat' with_reducible first
    | assumption
    | exact State.Keeps.refl _
    | intro _
    | lift_lets
    | apply keeps_ite
    | apply State.count_keeps

theorem State.unhold_keeps {s0 : State} {s : State} {k n : Nat} (hs : s0.Keeps s) :
    s0.Keeps (State.unhold s k n) := by
  unfold State.unhold
  repeat' with_reducible first
    | assumption
    | exact State.Keeps.refl _
    | intro _
    | lift_lets
    | apply keeps_ite
    | apply State.wr_keeps

theorem State.setMln_keeps {s0 : State} {s : State} {m : MlnState} (hs : s0.Keeps s) :
    s0.Keeps (State.setMln s m) := by
  unfold State.setMln
  repeat' with_reducible first
    | assumption
    | exact State.Keeps.refl _
    | intro _
    | lift_lets
    | apply keeps_ite
    | split
    | fail_if_no_progress refine keeps_mk rfl rfl rfl rfl rfl rfl rfl rfl rfl rfl rfl rfl rfl rfl ?_

theorem State.owe_keeps {s0 : State} {s : State} {p lane n : Nat} (hs : s0.Keeps s) :
    s0.Keeps (State.owe s p lane n) := by
  unfold State.owe
  repeat' with_reducible first
    | assumption
    | exact State.Keeps.refl _
    | intro _
    | lift_lets
    | apply keeps_ite
    | apply State.setMln_keeps

theorem State.freed_keeps {s0 : State} {s : State} {m : Msg} (hs : s0.Keeps s) :
    s0.Keeps (State.freed s m) := by
  unfold State.freed
  repeat' with_reducible first
    | assumption
    | exact State.Keeps.refl _
    | intro _
    | lift_lets
    | apply keeps_ite
    | apply State.owe_keeps

theorem State.passed_keeps {s0 : State} {s : State} {m : Msg} (hs : s0.Keeps s) :
    s0.Keeps (State.passed s m) := by
  unfold State.passed
  repeat' with_reducible first
    | assumption
    | exact State.Keeps.refl _
    | intro _
    | lift_lets
    | apply keeps_ite
    | apply State.freed_keeps
    | apply State.led_keeps

theorem State.discard_keeps {s0 : State} {s : State} {l : Leaving} (hs : s0.Keeps s) :
    s0.Keeps (State.discard s l) := by
  unfold State.discard
  repeat' with_reducible first
    | assumption
    | exact State.Keeps.refl _
    | intro _
    | lift_lets
    | apply keeps_ite
    | apply State.led_keeps
    | apply State.owe_keeps
    | apply State.unhold_keeps

theorem State.queueOut_keeps {s0 : State} {s : State} {m : Msg} {credit transit : Bool} {from_ lane : Nat} (hs : s0.Keeps s) :
    s0.Keeps (State.queueOut s m credit transit from_ lane) := by
  unfold State.queueOut
  repeat' with_reducible first
    | assumption
    | exact State.Keeps.refl _
    | intro _
    | lift_lets
    | apply keeps_ite
    | apply State.discard_keeps
    | apply State.setMln_keeps
    | split

theorem State.leave_keeps {s0 : State} {s : State} {m : Msg} {credit : Bool} (hs : s0.Keeps s) :
    s0.Keeps (State.leave s m credit) := by
  unfold State.leave
  repeat' with_reducible first
    | assumption
    | exact State.Keeps.refl _
    | intro _
    | lift_lets
    | apply keeps_ite
    | apply State.queueOut_keeps

theorem State.passOn_keeps {s0 : State} {s : State} {m out : Msg} (hs : s0.Keeps s) :
    s0.Keeps (State.passOn s m out) := by
  unfold State.passOn
  repeat' with_reducible first
    | assumption
    | exact State.Keeps.refl _
    | intro _
    | lift_lets
    | apply keeps_ite
    | apply State.led_keeps
    | apply State.queueOut_keeps

theorem State.notice_keeps {s0 : State} {s : State} {kind dst node port flow epoch : Nat} (hs : s0.Keeps s) :
    s0.Keeps (State.notice s kind dst node port flow epoch) := by
  unfold State.notice
  repeat' with_reducible first
    | assumption
    | exact State.Keeps.refl _
    | intro _
    | lift_lets
    | apply keeps_ite
    | apply State.leave_keeps

theorem State.noticeAll_keeps {s0 : State} {s : State} {kind node port epoch : Nat} (hs : s0.Keeps s) :
    s0.Keeps (State.noticeAll s kind node port epoch) := by
  unfold State.noticeAll
  repeat' with_reducible first
    | assumption
    | exact State.Keeps.refl _
    | intro _
    | lift_lets
    | apply keeps_ite
    | apply State.notice_keeps
    | apply keeps_foldl

theorem State.tellLost_keeps {s0 : State} {s : State} {core : Nat} (hs : s0.Keeps s) :
    s0.Keeps (State.tellLost s core) := by
  unfold State.tellLost
  repeat' with_reducible first
    | assumption
    | exact State.Keeps.refl _
    | intro _
    | lift_lets
    | apply keeps_ite
    | apply State.updCore_keeps

theorem State.mlnAccept_keeps {s0 : State} {s : State} {m : Msg} {core : Nat} {flows : List Nat} (hs : s0.Keeps s) :
    OptK (s0.Keeps ·) (State.mlnAccept s m core flows) := by
  unfold State.mlnAccept
  repeat' with_reducible first
    | assumption
    | exact State.Keeps.refl _
    | intro _
    | lift_lets
    | apply keeps_ite
    | apply State.hit_keeps
    | apply State.leave_keeps
    | apply State.led_keeps
    | apply State.setMln_keeps
    | apply State.tellLost_keeps
    | exact OptK.none
    | apply OptK.some
    | apply keeps_map
    | apply keeps_map3
    | apply keeps_getD
    | split

theorem State.setFlow_keeps {s0 : State} {s : State} {f : Flow} (hs : s0.Keeps s) :
    s0.Keeps (State.setFlow s f) := by
  unfold State.setFlow
  repeat' with_reducible first
    | assumption
    | exact State.Keeps.refl _
    | intro _
    | lift_lets
    | apply keeps_ite
    | apply State.setMln_keeps

theorem State.declareFlow_keeps {s0 : State} {s : State} {num state reason : Nat} {origin : Bool} (hs : s0.Keeps s) :
    s0.Keeps (State.declareFlow s num state reason origin) := by
  unfold State.declareFlow
  repeat' with_reducible first
    | assumption
    | exact State.Keeps.refl _
    | intro _
    | lift_lets
    | apply keeps_ite
    | apply State.count_keeps
    | apply State.notice_keeps
    | apply State.setFlag_keeps
    | apply State.setFlow_keeps
    | apply State.voidCmds_keeps
    | apply keeps_foldl
    | apply keeps_foldl2
    | apply keeps_foldl3
    | apply keeps_foldl4
    | split

theorem State.declareFlows_keeps {s0 : State} {s : State} {origin : Bool} (hs : s0.Keeps s) :
    s0.Keeps (State.declareFlows s origin) := by
  unfold State.declareFlows
  repeat' with_reducible first
    | assumption
    | exact State.Keeps.refl _
    | intro _
    | lift_lets
    | apply keeps_ite
    | apply State.declareFlow_keeps
    | apply State.setMln_keeps
    | apply keeps_foldl

theorem State.matchEpochs_keeps {s0 : State} {s : State} (hs : s0.Keeps s) :
    s0.Keeps (State.matchEpochs s) := by
  unfold State.matchEpochs
  repeat' with_reducible first
    | assumption
    | exact State.Keeps.refl _
    | intro _
    | lift_lets
    | apply keeps_ite
    | apply State.putFlag_keeps
    | apply keeps_foldl

theorem State.reviveFlows_keeps {s0 : State} {s : State} (hs : s0.Keeps s) :
    s0.Keeps (State.reviveFlows s) := by
  unfold State.reviveFlows
  repeat' with_reducible first
    | assumption
    | exact State.Keeps.refl _
    | intro _
    | lift_lets
    | apply keeps_ite
    | apply State.setFlow_keeps
    | apply keeps_foldl

theorem State.dropReads_keeps {s0 : State} {s : State} {who : MlnReader} (hs : s0.Keeps s) :
    s0.Keeps (State.dropReads s who) := by
  unfold State.dropReads
  repeat' with_reducible first
    | assumption
    | exact State.Keeps.refl _
    | intro _
    | lift_lets
    | apply keeps_ite
    | apply State.freed_keeps
    | apply State.led_keeps
    | apply State.setMln_keeps
    | apply State.unhold_keeps
    | apply keeps_foldl

theorem State.slotFault_keeps {s0 : State} {s : State} {c n code : Nat} (hs : s0.Keeps s) :
    s0.Keeps (State.slotFault s c n code) := by
  unfold State.slotFault
  repeat' with_reducible first
    | assumption
    | exact State.Keeps.refl _
    | intro _
    | lift_lets
    | apply keeps_ite
    | apply State.dropReads_keeps
    | apply State.launchFault_keeps
    | apply State.updCore_keeps
    | split

theorem State.readFails_keeps {s0 : State} {s : State} {w : MlnReader} {code : Nat} (hs : s0.Keeps s) :
    s0.Keeps (State.readFails s w code) := by
  unfold State.readFails
  repeat' with_reducible first
    | assumption
    | exact State.Keeps.refl _
    | intro _
    | lift_lets
    | apply keeps_ite
    | apply State.dropReads_keeps
    | apply State.slotFault_keeps
    | split
    | fail_if_no_progress refine keeps_mk rfl rfl rfl rfl rfl rfl rfl rfl rfl rfl rfl rfl rfl rfl ?_

theorem State.loseNode_keeps {s0 : State} {s : State} {d cause : Nat} (hs : s0.Keeps s) :
    s0.Keeps (State.loseNode s d cause) := by
  unfold State.loseNode
  repeat' with_reducible first
    | assumption
    | exact State.Keeps.refl _
    | intro _
    | lift_lets
    | apply keeps_ite
    | apply State.declareFlows_keeps
    | apply State.discard_keeps
    | apply State.fillLog_keeps
    | apply State.freed_keeps
    | apply State.led_keeps
    | apply State.raiseCause_keeps
    | apply State.readFails_keeps
    | apply State.setFlag_keeps
    | apply State.setMln_keeps
    | apply State.tellLost_keeps
    | apply State.traceEvent_keeps
    | apply State.unhold_keeps
    | apply keeps_foldl

theorem State.markLost_keeps {s0 : State} {s : State} {cause : Nat} (hs : s0.Keeps s) :
    s0.Keeps (State.markLost s cause) := by
  unfold State.markLost
  repeat' with_reducible first
    | assumption
    | exact State.Keeps.refl _
    | intro _
    | lift_lets
    | apply keeps_ite
    | apply State.loseNode_keeps
    | apply keeps_foldl

theorem State.markFound_keeps {s0 : State} {s : State} (hs : s0.Keeps s) :
    s0.Keeps (State.markFound s) := by
  unfold State.markFound
  repeat' with_reducible first
    | assumption
    | exact State.Keeps.refl _
    | intro _
    | lift_lets
    | apply keeps_ite
    | apply State.clrFlag_keeps
    | apply State.notice_keeps
    | apply State.setMln_keeps
    | apply keeps_foldl

theorem State.ackTo_keeps {s0 : State} {s : State} {src : Nat} (hs : s0.Keeps s) :
    s0.Keeps (State.ackTo s src) := by
  unfold State.ackTo
  repeat' with_reducible first
    | assumption
    | exact State.Keeps.refl _
    | intro _
    | lift_lets
    | apply keeps_ite
    | apply State.leave_keeps
    | apply State.setMln_keeps

theorem State.refuseFrom_keeps {s0 : State} {s : State} {src : Nat} (hs : s0.Keeps s) :
    s0.Keeps (State.refuseFrom s src) := by
  unfold State.refuseFrom
  repeat' with_reducible first
    | assumption
    | exact State.Keeps.refl _
    | intro _
    | lift_lets
    | apply keeps_ite
    | apply State.setMln_keeps

theorem State.performWrite_keeps {s0 : State} {s : State} {m : Msg} (hs : s0.Keeps s) :
    s0.Keeps (State.performWrite s m) := by
  unfold State.performWrite
  repeat' with_reducible first
    | assumption
    | exact State.Keeps.refl _
    | intro _
    | lift_lets
    | apply keeps_ite
    | apply State.count_keeps
    | apply State.memWrite_keeps
    | apply State.refuseFrom_keeps
    | apply State.rled_keeps
    | split

theorem State.performRead_keeps {s0 : State} {s : State} {m : Msg} (hs : s0.Keeps s) :
    s0.Keeps (State.performRead s m) := by
  unfold State.performRead
  repeat' with_reducible first
    | assumption
    | exact State.Keeps.refl _
    | intro _
    | lift_lets
    | apply keeps_ite
    | apply State.count_keeps
    | apply State.leave_keeps
    | apply State.memRead_keeps
    | apply State.refuseFrom_keeps
    | split

theorem State.performSignal_keeps {s0 : State} {s : State} {m : Msg} (hs : s0.Keeps s) :
    s0.Keeps (State.performSignal s m) := by
  unfold State.performSignal
  repeat' with_reducible first
    | assumption
    | exact State.Keeps.refl _
    | intro _
    | lift_lets
    | apply keeps_ite
    | apply State.count_keeps
    | apply State.semRefuse_keeps
    | apply State.semSignal_keeps

theorem State.performMsg_keeps {s0 : State} {s : State} {m : Msg} (hs : s0.Keeps s) :
    s0.Keeps (State.performMsg s m) := by
  unfold State.performMsg
  repeat' with_reducible first
    | assumption
    | exact State.Keeps.refl _
    | intro _
    | lift_lets
    | apply keeps_ite
    | apply State.ackTo_keeps
    | apply State.freed_keeps
    | apply State.led_keeps
    | apply State.performRead_keeps
    | apply State.performSignal_keeps
    | apply State.performWrite_keeps
    | apply State.setMln_keeps
    | split
    | fail_if_no_progress refine keeps_mk rfl rfl rfl rfl rfl rfl rfl rfl rfl rfl rfl rfl rfl rfl ?_
    | refine keeps_eq2 ?_ (by assumption)
    | refine keeps_eq3 ?_ (by assumption)
    | refine keeps_eq4 ?_ (by assumption)
    | refine keeps_eqs ?_ (by assumption)
    | refine keeps_eqo ?_ (by assumption)
    | refine keeps_eqo2 ?_ (by assumption)
    | refine keeps_eqo3 ?_ (by assumption)
    | dsimp only [id]
    | dsimp +zetaDelta only

theorem State.performHeld_keeps {s0 s : State} {src fuel : Nat} (hs : s0.Keeps s) :
    s0.Keeps (State.performHeld s src fuel) := by
  induction fuel generalizing s with
  | zero =>
    unfold State.performHeld
    exact hs
  | succ n ih =>
    unfold State.performHeld
    repeat' with_reducible first
      | assumption
      | exact State.Keeps.refl _
      | intro _
      | lift_lets
      | apply keeps_ite
      | apply ih
      | apply State.performMsg_keeps
      | apply State.setMln_keeps
      | apply State.unhold_keeps
      | split

theorem State.receive_keeps {s0 : State} {s : State} {typ : Nat} {m : Msg} (hs : s0.Keeps s) :
    s0.Keeps (State.receive s typ m) := by
  unfold State.receive
  repeat' with_reducible first
    | assumption
    | exact State.Keeps.refl _
    | intro _
    | lift_lets
    | apply keeps_ite
    | apply State.count_keeps
    | apply State.freed_keeps
    | apply State.led_keeps
    | apply State.performHeld_keeps
    | apply State.performMsg_keeps
    | apply State.setMln_keeps

/-! ### Machine/Vm.lean -/

theorem State.hostWrite_keeps {s0 : State} {s : State} {ctx a : Nat} {b : List Byte} (hs : s0.Keeps s) :
    s0.Keeps (State.hostWrite s ctx a b) := by
  unfold State.hostWrite
  repeat' with_reducible first
    | assumption
    | exact State.Keeps.refl _
    | intro _
    | lift_lets
    | apply keeps_ite
    | apply State.emit_keeps

theorem State.pageRead_keeps {s0 : State} {s : State} {u : VmUser} {va len : Nat} (hs : s0.Keeps s) :
    s0.Keeps (State.pageRead s u va len).2 := by
  unfold State.pageRead
  repeat' with_reducible first
    | assumption
    | exact State.Keeps.refl _
    | intro _
    | lift_lets
    | apply keeps_ite
    | apply State.busRead_keeps
    | apply State.consumedPoison_keeps
    | apply State.memRead_keeps
    | apply State.xlate_keeps
    | split
    | fail_if_no_progress refine keeps_mk rfl rfl rfl rfl rfl rfl rfl rfl rfl rfl rfl rfl rfl rfl ?_
    | refine keeps_eq2 ?_ (by assumption)
    | refine keeps_eq3 ?_ (by assumption)

theorem State.pageWrite_keeps {s0 : State} {s : State} {u : VmUser} {va : Nat} {b : List Byte} (hs : s0.Keeps s) :
    s0.Keeps (State.pageWrite s u va b).2 := by
  unfold State.pageWrite
  repeat' with_reducible first
    | assumption
    | exact State.Keeps.refl _
    | intro _
    | lift_lets
    | apply keeps_ite
    | apply State.hostWrite_keeps
    | apply State.memWrite_keeps
    | apply State.rled_keeps
    | apply State.xlate_keeps
    | split
    | fail_if_no_progress refine keeps_mk rfl rfl rfl rfl rfl rfl rfl rfl rfl rfl rfl rfl rfl rfl ?_
    | refine keeps_eq2 ?_ (by assumption)

theorem State.vaRead_keeps {s0 : State} {s : State} {u : VmUser} {va len : Nat} (hs : s0.Keeps s) :
    s0.Keeps (State.vaRead s u va len).2 := by
  unfold State.vaRead
  repeat' with_reducible first
    | assumption
    | exact State.Keeps.refl _
    | intro _
    | lift_lets
    | apply keeps_ite
    | apply State.pageRead_keeps
    | apply keeps_foldl
    | apply keeps_foldl2
    | apply keeps_foldl3
    | apply keeps_foldl4
    | split
    | fail_if_no_progress refine keeps_mk rfl rfl rfl rfl rfl rfl rfl rfl rfl rfl rfl rfl rfl rfl ?_
    | refine keeps_eq2 ?_ (by assumption)

theorem State.vaWrite_keeps {s0 : State} {s : State} {u : VmUser} {va : Nat} {b : List Byte} (hs : s0.Keeps s) :
    s0.Keeps (State.vaWrite s u va b).2 := by
  unfold State.vaWrite
  repeat' with_reducible first
    | assumption
    | exact State.Keeps.refl _
    | intro _
    | lift_lets
    | apply keeps_ite
    | apply State.pageWrite_keeps
    | apply keeps_foldl
    | apply keeps_foldl2
    | apply keeps_foldl3
    | apply keeps_foldl4
    | split

theorem State.xferPut_keeps {s0 : State} {s : State} {x : Xfer} {p : Nat} {b : List Byte} (hs : s0.Keeps s) :
    s0.Keeps (State.xferPut s x p b).2 := by
  unfold State.xferPut
  repeat' with_reducible first
    | assumption
    | exact State.Keeps.refl _
    | intro _
    | lift_lets
    | apply keeps_ite
    | apply State.pageWrite_keeps
    | apply State.updCore_keeps
    | apply State.xlate_keeps
    | apply keeps_foldl
    | apply keeps_foldl2
    | apply keeps_foldl3
    | apply keeps_foldl4
    | split
    | fail_if_no_progress refine keeps_mk rfl rfl rfl rfl rfl rfl rfl rfl rfl rfl rfl rfl rfl rfl ?_
    | refine keeps_eq2 ?_ (by assumption)
    | refine keeps_eq3 ?_ (by assumption)
    | refine keeps_eq4 ?_ (by assumption)
    | refine keeps_eqs ?_ (by assumption)
    | refine keeps_eqo ?_ (by assumption)
    | refine keeps_eqo2 ?_ (by assumption)
    | refine keeps_eqo3 ?_ (by assumption)
    | dsimp only [id]
    | dsimp +zetaDelta only

theorem State.settleStores_keeps {s0 : State} {s : State} {q : Req} {off len : Nat} (hs : s0.Keeps s) :
    s0.Keeps (State.settleStores s q off len) := by
  unfold State.settleStores
  repeat' with_reducible first
    | assumption
    | exact State.Keeps.refl _
    | intro _
    | lift_lets
    | apply keeps_ite
    | apply State.drainLine_keeps
    | apply keeps_foldl
    | apply keeps_foldl2
    | apply keeps_foldl3
    | apply keeps_foldl4
    | split

theorem State.xferStep_keeps {s0 : State} {s : State} {x : Xfer} {p room : Nat} (hs : s0.Keeps s) :
    s0.Keeps (State.xferStep s x p room).2 := by
  unfold State.xferStep
  repeat' with_reducible first
    | assumption
    | exact State.Keeps.refl _
    | intro _
    | lift_lets
    | apply keeps_ite
    | apply State.consumedPoison_keeps
    | apply State.pageRead_keeps
    | apply State.settleStores_keeps
    | apply State.xferPut_keeps
    | apply State.xlate_keeps
    | split
    | fail_if_no_progress refine keeps_mk rfl rfl rfl rfl rfl rfl rfl rfl rfl rfl rfl rfl rfl rfl ?_
    | refine keeps_eq2 ?_ (by assumption)

theorem State.xferRun_keeps {s0 s : State} {x : Xfer} {stop p fuel : Nat} (hs : s0.Keeps s) :
    s0.Keeps (State.xferRun s x stop p fuel).2.2 := by
  induction fuel generalizing s p with
  | zero =>
    unfold State.xferRun
    exact hs
  | succ n ih =>
    unfold State.xferRun
    repeat' with_reducible first
      | assumption
      | exact State.Keeps.refl _
      | intro _
      | lift_lets
      | apply keeps_ite
      | apply ih
      | apply State.xferStep_keeps
      | split
      | fail_if_no_progress refine keeps_mk rfl rfl rfl rfl rfl rfl rfl rfl rfl rfl rfl rfl rfl rfl ?_
      | refine keeps_eq2 ?_ (by assumption)

theorem State.xferAccept_keeps {s0 : State} {s : State} {x : Xfer} {p core : Nat} {who : MlnReader} {flows : List Nat} (hs : s0.Keeps s) :
    OptK (fun x => s0.Keeps x.2.2) (State.xferAccept s x p core who flows) := by
  unfold State.xferAccept
  repeat' with_reducible first
    | assumption
    | exact State.Keeps.refl _
    | intro _
    | lift_lets
    | apply keeps_ite
    | apply State.consumedPoison_keeps
    | apply State.mlnAccept_keeps
    | apply State.setMln_keeps
    | apply State.xferStep_keeps
    | exact OptK.none
    | apply OptK.some
    | apply keeps_map
    | apply keeps_map3
    | split
    | fail_if_no_progress refine keeps_mk rfl rfl rfl rfl rfl rfl rfl rfl rfl rfl rfl rfl rfl rfl ?_
    | refine keeps_eq2 ?_ (by assumption)

end Sys2Proof.Machine
end

