-- ==== Sys2Proof/Laws/KeepsQueues.lean ====
section
/-! SUPPORT. What queues, launches, thread groups, tensor copies, points and tickets keep. -/

namespace Sys2Proof.Machine

/-! ### Machine/Queue.lean -/

theorem State.qBusy_keeps {s0 : State} {s : State} {q : Nat} (hs : s0.Keeps s) :
    s0.Keeps (State.qBusy s q) := by
  unfold State.qBusy
  repeat' with_reducible first
    | assumption
    | exact State.Keeps.refl _
    | intro _
    | lift_lets
    | apply keeps_ite
    | apply State.setFlag_keeps

theorem State.dbError_keeps {s0 : State} {s : State} {q : Nat} (hs : s0.Keeps s) :
    s0.Keeps (State.dbError s q) := by
  unfold State.dbError
  repeat' with_reducible first
    | assumption
    | exact State.Keeps.refl _
    | intro _
    | lift_lets
    | apply keeps_ite
    | apply State.setFlag_keeps

theorem State.doorbell_keeps {s0 : State} {s : State} {fn q size : Nat} {act : State → State} (hs : s0.Keeps s) (hact : ∀ (x : State), s0.Keeps x → s0.Keeps (act x)) :
    s0.Keeps (State.doorbell s fn q size act) := by
  unfold State.doorbell
  repeat' with_reducible first
    | assumption
    | exact State.Keeps.refl _
    | intro _
    | lift_lets
    | apply keeps_ite
    | apply hact
    | apply State.aerLog_keeps
    | apply State.count_keeps

theorem execSqTail_keeps {s0 : State} {fn q size : Nat} {v : Word} {s : State} (hs : s0.Keeps s) :
    s0.AnsKeeps (execSqTail fn q size v s) := by
  unfold execSqTail
  repeat' with_reducible first
    | assumption
    | exact State.Keeps.refl _
    | intro _
    | lift_lets
    | apply keeps_ite
    | apply State.dbError_keeps
    | apply State.doorbell_keeps
    | apply State.wr_keeps
    | apply State.AnsKeeps.next

theorem State.cqHead_keeps {s0 : State} {s : State} {q : Nat} {v : Word} (hs : s0.Keeps s) :
    s0.Keeps (State.cqHead s q v) := by
  unfold State.cqHead
  repeat' with_reducible first
    | assumption
    | exact State.Keeps.refl _
    | intro _
    | lift_lets
    | apply keeps_ite
    | apply State.dbError_keeps
    | apply State.wr_keeps

theorem execCqHead_keeps {s0 : State} {fn q size : Nat} {reg : Bool} {v : Word} {s : State} (hs : s0.Keeps s) :
    s0.AnsKeeps (execCqHead fn q size reg v s) := by
  unfold execCqHead
  repeat' with_reducible first
    | assumption
    | exact State.Keeps.refl _
    | intro _
    | lift_lets
    | apply keeps_ite
    | apply State.cqHead_keeps
    | apply State.doorbell_keeps
    | apply State.mmio_keeps
    | apply State.AnsKeeps.next

theorem execQueueEnable_keeps {s0 : State} {fn q : Nat} {v : Word} {s : State} (hs : s0.Keeps s) :
    s0.AnsKeeps (execQueueEnable fn q v s) := by
  unfold execQueueEnable
  repeat' with_reducible first
    | assumption
    | exact State.Keeps.refl _
    | intro _
    | lift_lets
    | apply keeps_ite
    | apply State.mmio_keeps
    | apply State.qBusy_keeps
    | apply State.setQueue_keeps
    | apply State.wr_keeps
    | apply State.AnsKeeps.next

theorem State.dropCmd_keeps {s0 : State} {s : State} {q id : Nat} (hs : s0.Keeps s) :
    s0.Keeps (State.dropCmd s q id) := by
  unfold State.dropCmd
  repeat' with_reducible first
    | assumption
    | exact State.Keeps.refl _
    | intro _
    | lift_lets
    | apply keeps_ite
    | apply State.setCmd_keeps
    | apply State.setFld_keeps
    | apply State.unpin_keeps
    | split
    | fail_if_no_progress refine keeps_mk rfl rfl rfl rfl rfl rfl rfl rfl rfl rfl rfl rfl rfl rfl ?_
    | refine keeps_eq2 ?_ (by assumption)
    | refine keeps_eq3 ?_ (by assumption)
    | refine keeps_eq4 ?_ (by assumption)
    | refine keeps_eqs ?_ (by assumption)
    | refine keeps_eqo ?_ (by assumption)
    | refine keeps_eqo2 ?_ (by assumption)
    | refine keeps_eqo3 ?_ (by assumption)
    | dsimp only [id]
    | dsimp +zetaDelta only

theorem State.queueOff_keeps {s0 : State} {s : State} {q : Nat} (hs : s0.Keeps s) :
    s0.Keeps (State.queueOff s q) := by
  unfold State.queueOff
  repeat' with_reducible first
    | assumption
    | exact State.Keeps.refl _
    | intro _
    | lift_lets
    | apply keeps_ite
    | apply State.clrFlag_keeps
    | apply State.count_keeps
    | apply State.dropCmd_keeps
    | apply State.rled_keeps
    | apply State.setQueue_keeps
    | apply keeps_foldl

theorem execQueueDisable_keeps {s0 : State} {fn q : Nat} {s : State} (hs : s0.Keeps s) :
    s0.AnsKeeps (execQueueDisable fn q s) := by
  unfold execQueueDisable
  repeat' with_reducible first
    | assumption
    | exact State.Keeps.refl _
    | intro _
    | lift_lets
    | apply keeps_ite
    | apply State.mmio_keeps
    | apply State.queueOff_keeps
    | apply State.AnsKeeps.next

theorem State.raiseEvent_keeps {s0 : State} {s : State} {q addr cookie kind status : Nat} (hs : s0.Keeps s) :
    s0.Keeps (State.raiseEvent s q addr cookie kind status) := by
  unfold State.raiseEvent
  repeat' with_reducible first
    | assumption
    | exact State.Keeps.refl _
    | intro _
    | lift_lets
    | apply keeps_ite
    | apply State.busWrite_keeps
    | apply State.raiseCause_keeps
    | apply State.sendVector_keeps

theorem State.fetched_keeps {s0 : State} {s : State} {q : Nat} (hs : s0.Keeps s) :
    s0.Keeps (State.fetched s q) := by
  unfold State.fetched
  repeat' with_reducible first
    | assumption
    | exact State.Keeps.refl _
    | intro _
    | lift_lets
    | apply keeps_ite
    | apply State.adopt_keeps
    | apply State.hit_keeps
    | apply State.rled_keeps
    | apply State.setFld_keeps
    | apply State.setQueue_keeps
    | split
    | fail_if_no_progress refine keeps_mk rfl rfl rfl rfl rfl rfl rfl rfl rfl rfl rfl rfl rfl rfl ?_

theorem State.takeEntry_keeps {s0 : State} {s : State} {q : Nat} {words : List Nat} (hs : s0.Keeps s) :
    s0.Keeps (State.takeEntry s q words) := by
  unfold State.takeEntry
  repeat' with_reducible first
    | assumption
    | exact State.Keeps.refl _
    | intro _
    | lift_lets
    | apply keeps_ite
    | apply State.count_keeps
    | apply State.endCmd_keeps
    | apply State.fetched_keeps
    | apply State.setCmd_keeps
    | split

theorem State.sqFault_keeps {s0 : State} {s : State} {q : Nat} (hs : s0.Keeps s) :
    s0.Keeps (State.sqFault s q) := by
  unfold State.sqFault
  repeat' with_reducible first
    | assumption
    | exact State.Keeps.refl _
    | intro _
    | lift_lets
    | apply keeps_ite
    | apply State.raiseEvent_keeps
    | apply State.setFlag_keeps

theorem State.takeWords_keeps {s0 : State} {s : State} {q : Nat} {b : List Byte} (hs : s0.Keeps s) :
    s0.Keeps (State.takeWords s q b) := by
  unfold State.takeWords
  repeat' with_reducible first
    | assumption
    | exact State.Keeps.refl _
    | intro _
    | lift_lets
    | apply keeps_ite
    | apply State.takeEntry_keeps

theorem State.serve_keeps {s0 : State} {s : State} {q : Nat} (hs : s0.Keeps s) :
    s0.Keeps (State.serve s q) := by
  unfold State.serve
  repeat' with_reducible first
    | assumption
    | exact State.Keeps.refl _
    | intro _
    | lift_lets
    | apply keeps_ite
    | split
    | fail_if_no_progress refine keeps_mk rfl rfl rfl rfl rfl rfl rfl rfl rfl rfl rfl rfl rfl rfl ?_

theorem execEntryFetch_keeps {s0 : State} {q : Nat} {data : BitVec 512} {e : HostEnd} {s : State} (hs : s0.Keeps s) :
    s0.AnsKeeps (execEntryFetch q data e s) := by
  unfold execEntryFetch
  repeat' with_reducible first
    | assumption
    | exact State.Keeps.refl _
    | intro _
    | lift_lets
    | apply keeps_ite
    | apply State.consumedPoison_keeps
    | apply State.hostError_keeps
    | apply State.memRead_keeps
    | apply State.serve_keeps
    | apply State.sqFault_keeps
    | apply State.takeWords_keeps
    | apply State.AnsKeeps.next

theorem execSqFaultClear_keeps {s0 : State} {fn q : Nat} {s : State} (hs : s0.Keeps s) :
    s0.AnsKeeps (execSqFaultClear fn q s) := by
  unfold execSqFaultClear
  repeat' with_reducible first
    | assumption
    | exact State.Keeps.refl _
    | intro _
    | lift_lets
    | apply keeps_ite
    | apply State.clrFlag_keeps
    | apply State.mmio_keeps
    | apply State.AnsKeeps.next

theorem State.startCmd_keeps {s0 : State} {s : State} {id : Nat} {c : Cmd} (hs : s0.Keeps s) :
    s0.Keeps (State.startCmd s id c) := by
  unfold State.startCmd
  repeat' with_reducible first
    | assumption
    | exact State.Keeps.refl _
    | intro _
    | lift_lets
    | apply keeps_ite
    | apply State.setCmd_keeps
    | apply State.trace_keeps

theorem State.simpleEntry_keeps {s0 : State} {s : State} {id op : Nat} {act : Cmd → State → State} (hs : s0.Keeps s) (hact : ∀ (x : Cmd) (y : State), s0.Keeps y → s0.Keeps (act x y)) :
    s0.Keeps (State.simpleEntry s id op act) := by
  unfold State.simpleEntry
  repeat' with_reducible first
    | assumption
    | exact State.Keeps.refl _
    | intro _
    | lift_lets
    | apply keeps_ite
    | apply hact
    | apply State.startCmd_keeps
    | split

theorem execNopEntry_keeps {s0 : State} {id : Nat} {s : State} (hs : s0.Keeps s) :
    s0.AnsKeeps (execNopEntry id s) := by
  unfold execNopEntry
  repeat' with_reducible first
    | assumption
    | exact State.Keeps.refl _
    | intro _
    | lift_lets
    | apply keeps_ite
    | apply State.endCmd_keeps
    | apply State.simpleEntry_keeps
    | apply State.AnsKeeps.next

theorem execSignalEntry_keeps {s0 : State} {id : Nat} {s : State} (hs : s0.Keeps s) :
    s0.AnsKeeps (execSignalEntry id s) := by
  unfold execSignalEntry
  repeat' with_reducible first
    | assumption
    | exact State.Keeps.refl _
    | intro _
    | lift_lets
    | apply keeps_ite
    | apply State.endCmd_keeps
    | apply State.mlnAccept_keeps
    | apply State.semSignal_keeps
    | apply State.simpleEntry_keeps
    | apply State.AnsKeeps.next
    | split
    | fail_if_no_progress refine keeps_mk rfl rfl rfl rfl rfl rfl rfl rfl rfl rfl rfl rfl rfl rfl ?_
    | refine keeps_eq2 ?_ (by assumption)
    | refine keeps_eq3 ?_ (by assumption)
    | refine keeps_eq4 ?_ (by assumption)
    | refine keeps_eqs ?_ (by assumption)
    | refine keeps_eqo ?_ (by assumption)

theorem execWaitEntry_keeps {s0 : State} {id : Nat} {s : State} (hs : s0.Keeps s) :
    s0.AnsKeeps (execWaitEntry id s) := by
  unfold execWaitEntry
  repeat' with_reducible first
    | assumption
    | exact State.Keeps.refl _
    | intro _
    | lift_lets
    | apply keeps_ite
    | apply State.endCmd_keeps
    | apply State.semWait_keeps
    | apply State.setCmd_keeps
    | apply State.simpleEntry_keeps
    | apply State.AnsKeeps.next
    | split
    | fail_if_no_progress refine keeps_mk rfl rfl rfl rfl rfl rfl rfl rfl rfl rfl rfl rfl rfl rfl ?_
    | refine keeps_eq2 ?_ (by assumption)

theorem execFenceEntry_keeps {s0 : State} {id : Nat} {s : State} (hs : s0.Keeps s) :
    s0.AnsKeeps (execFenceEntry id s) := by
  unfold execFenceEntry
  repeat' with_reducible first
    | assumption
    | exact State.Keeps.refl _
    | intro _
    | lift_lets
    | apply keeps_ite
    | apply State.endCmd_keeps
    | apply State.simpleEntry_keeps
    | apply State.AnsKeeps.next
    | split

theorem State.cqWritten_keeps {s0 : State} {s : State} {q id : Nat} (hs : s0.Keeps s) :
    s0.Keeps (State.cqWritten s q id) := by
  unfold State.cqWritten
  repeat' with_reducible first
    | assumption
    | exact State.Keeps.refl _
    | intro _
    | lift_lets
    | apply keeps_ite
    | apply State.count_keeps
    | apply State.dropCmd_keeps
    | apply State.raiseEvent_keeps
    | apply State.rled_keeps
    | apply State.setQueue_keeps
    | apply State.trace_keeps
    | apply State.traceTrigger_keeps
    | apply State.wr_keeps
    | apply keeps_getD
    | split

theorem State.cqWrite_keeps {s0 : State} {s : State} {q id : Nat} (hs : s0.Keeps s) :
    s0.Keeps (State.cqWrite s q id) := by
  unfold State.cqWrite
  repeat' with_reducible first
    | assumption
    | exact State.Keeps.refl _
    | intro _
    | lift_lets
    | apply keeps_ite
    | apply State.busWrite_keeps
    | apply State.cqWritten_keeps
    | apply State.memWrite_keeps
    | apply State.setQueue_keeps
    | split

theorem execCompletionWrite_keeps {s0 : State} {q : Nat} {s : State} (hs : s0.Keeps s) :
    s0.AnsKeeps (execCompletionWrite q s) := by
  unfold execCompletionWrite
  repeat' with_reducible first
    | assumption
    | exact State.Keeps.refl _
    | intro _
    | lift_lets
    | apply keeps_ite
    | apply State.cqWrite_keeps
    | apply State.setQueue_keeps
    | apply State.AnsKeeps.next
    | split

theorem execCompletionReadback_keeps {s0 : State} {q : Nat} {e : HostEnd} {s : State} (hs : s0.Keeps s) :
    s0.AnsKeeps (execCompletionReadback q e s) := by
  unfold execCompletionReadback
  repeat' with_reducible first
    | assumption
    | exact State.Keeps.refl _
    | intro _
    | lift_lets
    | apply keeps_ite
    | apply State.cqWritten_keeps
    | apply State.hostError_keeps
    | apply State.raiseEvent_keeps
    | apply State.setFlag_keeps
    | apply State.setQueue_keeps
    | apply State.AnsKeeps.next
    | apply keeps_getD
    | split

theorem execCqRetry_keeps {s0 : State} {fn q : Nat} {s : State} (hs : s0.Keeps s) :
    s0.AnsKeeps (execCqRetry fn q s) := by
  unfold execCqRetry
  repeat' with_reducible first
    | assumption
    | exact State.Keeps.refl _
    | intro _
    | lift_lets
    | apply keeps_ite
    | apply State.clrFlag_keeps
    | apply State.cqWrite_keeps
    | apply State.mmio_keeps
    | apply State.setQueue_keeps
    | apply State.AnsKeeps.next
    | split

theorem execHold_keeps {s0 : State} {fn : Nat} {on : Bool} {s : State} (hs : s0.Keeps s) :
    s0.AnsKeeps (execHold fn on s) := by
  unfold execHold
  repeat' with_reducible first
    | assumption
    | exact State.Keeps.refl _
    | intro _
    | lift_lets
    | apply keeps_ite
    | apply State.mmio_keeps
    | apply State.wr_keeps
    | apply State.AnsKeeps.next

/-! ### Machine/ThreadCtl.lean -/

theorem State.branchRow_keeps {s0 : State} {s : State} {c slot form : Nat} (hs : s0.Keeps s) :
    s0.Keeps (State.branchRow s c slot form) := by
  unfold State.branchRow
  repeat' with_reducible first
    | assumption
    | exact State.Keeps.refl _
    | intro _
    | lift_lets
    | apply keeps_ite
    | apply State.hit_keeps
    | apply State.holdAt_keeps
    | apply State.illegal_keeps
    | apply State.issue_keeps
    | apply State.setGroup_keeps

theorem execBraAny_keeps {s0 : State} {c slot : Nat} {s : State} (hs : s0.Keeps s) :
    s0.AnsKeeps (execBraAny c slot s) := by
  unfold execBraAny
  repeat' with_reducible first
    | assumption
    | exact State.Keeps.refl _
    | intro _
    | lift_lets
    | apply keeps_ite
    | apply State.branchRow_keeps
    | apply State.AnsKeeps.next

theorem execBraAll_keeps {s0 : State} {c slot : Nat} {s : State} (hs : s0.Keeps s) :
    s0.AnsKeeps (execBraAll c slot s) := by
  unfold execBraAll
  repeat' with_reducible first
    | assumption
    | exact State.Keeps.refl _
    | intro _
    | lift_lets
    | apply keeps_ite
    | apply State.branchRow_keeps
    | apply State.AnsKeeps.next

theorem execBraU_keeps {s0 : State} {c slot : Nat} {s : State} (hs : s0.Keeps s) :
    s0.AnsKeeps (execBraU c slot s) := by
  unfold execBraU
  repeat' with_reducible first
    | assumption
    | exact State.Keeps.refl _
    | intro _
    | lift_lets
    | apply keeps_ite
    | apply State.branchRow_keeps
    | apply State.AnsKeeps.next

theorem execCall_keeps {s0 : State} {c slot : Nat} {s : State} (hs : s0.Keeps s) :
    s0.AnsKeeps (execCall c slot s) := by
  unfold execCall
  repeat' with_reducible first
    | assumption
    | exact State.Keeps.refl _
    | intro _
    | lift_lets
    | apply keeps_ite
    | apply State.holdAt_keeps
    | apply State.illegal_keeps
    | apply State.issue_keeps
    | apply State.setGroup_keeps
    | apply State.AnsKeeps.next

theorem execRet_keeps {s0 : State} {c slot : Nat} {s : State} (hs : s0.Keeps s) :
    s0.AnsKeeps (execRet c slot s) := by
  unfold execRet
  repeat' with_reducible first
    | assumption
    | exact State.Keeps.refl _
    | intro _
    | lift_lets
    | apply keeps_ite
    | apply State.faultGroup_keeps
    | apply State.holdAt_keeps
    | apply State.illegal_keeps
    | apply State.issue_keeps
    | apply State.setGroup_keeps
    | apply State.AnsKeeps.next

theorem State.barStep_keeps {s0 : State} {s : State} {c set n : Nat} {f : Barrier → Barrier} (hs : s0.Keeps s) :
    s0.Keeps (State.barStep s c set n f) := by
  unfold State.barStep
  repeat' with_reducible first
    | assumption
    | exact State.Keeps.refl _
    | intro _
    | lift_lets
    | apply keeps_ite
    | apply State.setCore_keeps
    | split

theorem State.barRow_keeps {s0 : State} {s : State} {c slot : Nat} {sync : Bool} (hs : s0.Keeps s) :
    s0.Keeps (State.barRow s c slot sync) := by
  unfold State.barRow
  repeat' with_reducible first
    | assumption
    | exact State.Keeps.refl _
    | intro _
    | lift_lets
    | apply keeps_ite
    | apply State.barStep_keeps
    | apply State.illegal_keeps
    | apply State.issue_keeps
    | apply State.setGroup_keeps
    | apply State.updCore_keeps
    | split

theorem execBarSync_keeps {s0 : State} {c slot : Nat} {s : State} (hs : s0.Keeps s) :
    s0.AnsKeeps (execBarSync c slot s) := by
  unfold execBarSync
  repeat' with_reducible first
    | assumption
    | exact State.Keeps.refl _
    | intro _
    | lift_lets
    | apply keeps_ite
    | apply State.barRow_keeps
    | apply State.AnsKeeps.next

theorem execBarArrive_keeps {s0 : State} {c slot : Nat} {s : State} (hs : s0.Keeps s) :
    s0.AnsKeeps (execBarArrive c slot s) := by
  unfold execBarArrive
  repeat' with_reducible first
    | assumption
    | exact State.Keeps.refl _
    | intro _
    | lift_lets
    | apply keeps_ite
    | apply State.barRow_keeps
    | apply State.AnsKeeps.next

theorem State.forgetSlot_keeps {s0 : State} {s : State} {c slot : Nat} (hs : s0.Keeps s) :
    s0.Keeps (State.forgetSlot s c slot) := by
  unfold State.forgetSlot
  repeat' with_reducible first
    | assumption
    | exact State.Keeps.refl _
    | intro _
    | lift_lets
    | apply keeps_ite
    | apply State.setUnit_keeps

theorem State.endGroup_keeps {s0 : State} {s : State} {c slot : Nat} (hs : s0.Keeps s) :
    s0.Keeps (State.endGroup s c slot) := by
  unfold State.endGroup
  repeat' with_reducible first
    | assumption
    | exact State.Keeps.refl _
    | intro _
    | lift_lets
    | apply keeps_ite
    | apply State.barStep_keeps
    | apply State.forgetSlot_keeps
    | apply State.leave_keeps
    | apply State.setCore_keeps
    | apply State.setGroup_keeps
    | apply keeps_foldl
    | apply keeps_foldl2
    | apply keeps_foldl3
    | apply keeps_foldl4
    | split

theorem execExit_keeps {s0 : State} {c slot : Nat} {s : State} (hs : s0.Keeps s) :
    s0.AnsKeeps (execExit c slot s) := by
  unfold execExit
  repeat' with_reducible first
    | assumption
    | exact State.Keeps.refl _
    | intro _
    | lift_lets
    | apply keeps_ite
    | apply State.endGroup_keeps
    | apply State.illegal_keeps
    | apply State.issue_keeps
    | apply State.setGroup_keeps
    | apply State.AnsKeeps.next

theorem execBarrierStall_keeps {s0 : State} {c set n : Nat} {s : State} (hs : s0.Keeps s) :
    s0.AnsKeeps (execBarrierStall c set n s) := by
  unfold execBarrierStall
  repeat' with_reducible first
    | assumption
    | exact State.Keeps.refl _
    | intro _
    | lift_lets
    | apply keeps_ite
    | apply State.faultGroup_keeps
    | apply State.guardFault_keeps
    | apply State.surveyTrigger_keeps
    | apply State.traceTrigger_keeps
    | apply State.AnsKeeps.next
    | apply keeps_foldl
    | apply keeps_foldl2
    | apply keeps_foldl3
    | apply keeps_foldl4
    | split

theorem State.icachePut_keeps {s0 : State} {s : State} {c line : Nat} {b : List Byte} (hs : s0.Keeps s) :
    s0.Keeps (State.icachePut s c line b) := by
  unfold State.icachePut
  repeat' with_reducible first
    | assumption
    | exact State.Keeps.refl _
    | intro _
    | lift_lets
    | apply keeps_ite
    | apply State.setCore_keeps
    | apply State.setGroup_keeps
    | apply State.withFree_keeps

theorem State.fetchFault_keeps {s0 : State} {s : State} {c slot code : Nat} (hs : s0.Keeps s) :
    s0.Keeps (State.fetchFault s c slot code) := by
  unfold State.fetchFault
  repeat' with_reducible first
    | assumption
    | exact State.Keeps.refl _
    | intro _
    | lift_lets
    | apply keeps_ite
    | apply State.faultAt_keeps
    | apply State.setGroup_keeps
    | apply State.updCore_keeps
    | apply keeps_getD
    | split

theorem execIcacheFill_keeps {s0 : State} {c slot : Nat} {s : State} (hs : s0.Keeps s) :
    s0.AnsKeeps (execIcacheFill c slot s) := by
  unfold execIcacheFill
  repeat' with_reducible first
    | assumption
    | exact State.Keeps.refl _
    | intro _
    | lift_lets
    | apply keeps_ite
    | apply State.emit_keeps
    | apply State.fetchFault_keeps
    | apply State.icachePut_keeps
    | apply State.lineRead_keeps
    | apply State.xlate_keeps
    | apply State.AnsKeeps.next
    | split
    | fail_if_no_progress refine keeps_mk rfl rfl rfl rfl rfl rfl rfl rfl rfl rfl rfl rfl rfl rfl ?_
    | refine keeps_eq2 ?_ (by assumption)
    | refine keeps_eq3 ?_ (by assumption)
    | refine keeps_eq4 ?_ (by assumption)
    | refine keeps_eqs ?_ (by assumption)
    | refine keeps_eqo ?_ (by assumption)
    | refine keeps_eqo2 ?_ (by assumption)
    | refine keeps_eqo3 ?_ (by assumption)
    | dsimp only [id]

theorem execTcopyGo_keeps {s0 : State} {c slot : Nat} {s : State} (hs : s0.Keeps s) :
    s0.AnsKeeps (execTcopyGo c slot s) := by
  unfold execTcopyGo
  repeat' with_reducible first
    | assumption
    | exact State.Keeps.refl _
    | intro _
    | lift_lets
    | apply keeps_ite
    | apply State.faultGroup_keeps
    | apply State.holdAt_keeps
    | apply State.illegal_keeps
    | apply State.issue_keeps
    | apply State.setCore_keeps
    | apply State.setGroup_keeps
    | apply State.AnsKeeps.next
    | split

theorem execTcopyWait_keeps {s0 : State} {c slot : Nat} {s : State} (hs : s0.Keeps s) :
    s0.AnsKeeps (execTcopyWait c slot s) := by
  unfold execTcopyWait
  repeat' with_reducible first
    | assumption
    | exact State.Keeps.refl _
    | intro _
    | lift_lets
    | apply keeps_ite
    | apply State.faultGroup_keeps
    | apply State.holdAt_keeps
    | apply State.illegal_keeps
    | apply State.issue_keeps
    | apply State.setCore_keeps
    | apply State.setGroup_keeps
    | apply State.AnsKeeps.next
    | apply keeps_foldl
    | apply keeps_foldl2
    | apply keeps_foldl3
    | apply keeps_foldl4
    | apply keeps_foldlo
    | exact OptK.none
    | apply OptK.some
    | split

theorem State.semRow_keeps {s0 : State} {s : State} {c slot minor : Nat} {act : Group → Half → IFields → Nat → Option Nat → Nat → State} (hs : s0.Keeps s) (hact : ∀ (x : Group) (y : Half) (z : IFields) (u : Nat) (v : Option Nat) (w : Nat),  s0.Keeps (act x y z u v w)) :
    s0.Keeps (State.semRow s c slot minor act) := by
  unfold State.semRow
  repeat' with_reducible first
    | assumption
    | exact State.Keeps.refl _
    | intro _
    | lift_lets
    | apply keeps_ite
    | apply hact
    | apply State.faultGroup_keeps
    | apply State.holdAt_keeps
    | apply State.illegal_keeps
    | apply State.issue_keeps
    | apply State.setGroup_keeps
    | split

theorem execSemWait_keeps {s0 : State} {c slot : Nat} {s : State} (hs : s0.Keeps s) :
    s0.AnsKeeps (execSemWait c slot s) := by
  unfold execSemWait
  repeat' with_reducible first
    | assumption
    | exact State.Keeps.refl _
    | intro _
    | lift_lets
    | apply keeps_ite
    | apply State.count_keeps
    | apply State.semRow_keeps
    | apply State.semWait_keeps
    | apply State.setCore_keeps
    | apply State.setGroup_keeps
    | apply State.AnsKeeps.next
    | split
    | fail_if_no_progress refine keeps_mk rfl rfl rfl rfl rfl rfl rfl rfl rfl rfl rfl rfl rfl rfl ?_
    | refine keeps_eq2 ?_ (by assumption)

theorem execSemDec_keeps {s0 : State} {c slot : Nat} {s : State} (hs : s0.Keeps s) :
    s0.AnsKeeps (execSemDec c slot s) := by
  unfold execSemDec
  repeat' with_reducible first
    | assumption
    | exact State.Keeps.refl _
    | intro _
    | lift_lets
    | apply keeps_ite
    | apply State.count_keeps
    | apply State.semDec_keeps
    | apply State.semRow_keeps
    | apply State.setCore_keeps
    | apply State.setGroup_keeps
    | apply State.AnsKeeps.next

theorem execSemRead_keeps {s0 : State} {c slot : Nat} {s : State} (hs : s0.Keeps s) :
    s0.AnsKeeps (execSemRead c slot s) := by
  unfold execSemRead
  repeat' with_reducible first
    | assumption
    | exact State.Keeps.refl _
    | intro _
    | lift_lets
    | apply keeps_ite
    | apply State.semRead_keeps
    | apply State.semRow_keeps
    | apply State.setGroup_keeps
    | apply State.AnsKeeps.next

theorem execPtsSub_keeps {s0 : State} {c slot : Nat} {s : State} (hs : s0.Keeps s) :
    s0.AnsKeeps (execPtsSub c slot s) := by
  unfold execPtsSub
  repeat' with_reducible first
    | assumption
    | exact State.Keeps.refl _
    | intro _
    | lift_lets
    | apply keeps_ite
    | apply State.count_keeps
    | apply State.faultGroup_keeps
    | apply State.holdAt_keeps
    | apply State.illegal_keeps
    | apply State.issue_keeps
    | apply State.setGroup_keeps
    | apply State.setUnit_keeps
    | apply State.AnsKeeps.next
    | split

theorem execTraceMark_keeps {s0 : State} {c slot : Nat} {s : State} (hs : s0.Keeps s) :
    s0.AnsKeeps (execTraceMark c slot s) := by
  unfold execTraceMark
  repeat' with_reducible first
    | assumption
    | exact State.Keeps.refl _
    | intro _
    | lift_lets
    | apply keeps_ite
    | apply State.holdAt_keeps
    | apply State.illegal_keeps
    | apply State.issue_keeps
    | apply State.setGroup_keeps
    | apply State.trace_keeps
    | apply State.traceTrigger_keeps
    | apply State.AnsKeeps.next

/-! ### Machine/Translate.lean -/

theorem execPageWalk_keeps {s0 : State} {q : WalkFor} {cls ctx va : Nat} {p : Perm} {host : HostData} {s : State} (hs : s0.Keeps s) :
    s0.AnsKeeps (execPageWalk q cls ctx va p host s) := by
  unfold execPageWalk
  repeat' with_reducible first
    | assumption
    | exact State.Keeps.refl _
    | intro _
    | lift_lets
    | apply keeps_ite
    | apply State.withHost_keeps
    | apply State.xlate_keeps
    | apply State.AnsKeeps.next

theorem State.invalidate_keeps {s0 : State} {s : State} {i : Inval} (hs : s0.Keeps s) :
    s0.Keeps (State.invalidate s i) := by
  unfold State.invalidate
  repeat' with_reducible first
    | assumption
    | exact State.Keeps.refl _
    | intro _
    | lift_lets
    | apply keeps_ite
    | apply State.mapCores_keeps
    | apply State.walk_keeps
    | split
    | fail_if_no_progress refine keeps_mk rfl rfl rfl rfl rfl rfl rfl rfl rfl rfl rfl rfl rfl rfl ?_

theorem State.flushTlbs_keeps {s0 : State} {s : State} (hs : s0.Keeps s) :
    s0.Keeps (State.flushTlbs s) := by
  unfold State.flushTlbs
  repeat' with_reducible first
    | assumption
    | exact State.Keeps.refl _
    | intro _
    | lift_lets
    | apply keeps_ite
    | apply State.mapCores_keeps
    | apply State.walk_keeps
    | split
    | fail_if_no_progress refine keeps_mk rfl rfl rfl rfl rfl rfl rfl rfl rfl rfl rfl rfl rfl rfl ?_

theorem execTlbInvalidate_keeps {s0 : State} {fn : Nat} {s : State} (hs : s0.Keeps s) :
    s0.AnsKeeps (execTlbInvalidate fn s) := by
  unfold execTlbInvalidate
  repeat' with_reducible first
    | assumption
    | exact State.Keeps.refl _
    | intro _
    | lift_lets
    | apply keeps_ite
    | apply State.invalidate_keeps
    | apply State.mmio_keeps
    | apply State.setFlag_keeps
    | apply State.AnsKeeps.next
    | split
    | fail_if_no_progress refine keeps_mk rfl rfl rfl rfl rfl rfl rfl rfl rfl rfl rfl rfl rfl rfl ?_

theorem execInvalidateDone_keeps {s0 : State} {s : State} (hs : s0.Keeps s) :
    s0.AnsKeeps (execInvalidateDone s) := by
  unfold execInvalidateDone
  repeat' with_reducible first
    | assumption
    | exact State.Keeps.refl _
    | intro _
    | lift_lets
    | apply keeps_ite
    | apply State.clrFlag_keeps
    | apply State.AnsKeeps.next
    | split
    | fail_if_no_progress refine keeps_mk rfl rfl rfl rfl rfl rfl rfl rfl rfl rfl rfl rfl rfl rfl ?_

theorem State.maintLine_keeps {s0 : State} {s : State} {o : MaintOp} {n : Nat} (hs : s0.Keeps s) :
    s0.Keeps (State.maintLine s o n) := by
  unfold State.maintLine
  repeat' with_reducible first
    | assumption
    | exact State.Keeps.refl _
    | intro _
    | lift_lets
    | apply keeps_ite
    | apply MemSys.cleanLine_keeps
    | apply State.count_keeps
    | apply MemSys.dropLine_keeps
    | apply State.mapCores_keeps
    | apply State.setMem_keeps
    | split
    | fail_if_no_progress refine keeps_mkm rfl rfl rfl rfl rfl rfl rfl rfl rfl rfl rfl rfl rfl ?_ ?_
    | exact MemSys.Keeps.refl _

theorem State.maintRange_keeps {s0 : State} {s : State} {o : MaintOp} {ctx va len : Nat} (hs : s0.Keeps s) :
    s0.Keeps (State.maintRange s o ctx va len).2 := by
  unfold State.maintRange
  repeat' with_reducible first
    | assumption
    | exact State.Keeps.refl _
    | intro _
    | lift_lets
    | apply keeps_ite
    | apply State.maintLine_keeps
    | apply State.xlateQuiet_keeps
    | apply keeps_foldl
    | apply keeps_foldl2
    | apply keeps_foldl3
    | apply keeps_foldl4
    | split
    | fail_if_no_progress refine keeps_mk rfl rfl rfl rfl rfl rfl rfl rfl rfl rfl rfl rfl rfl rfl ?_
    | refine keeps_eq2 ?_ (by assumption)

theorem State.maintGo_keeps {s0 : State} {s : State} {f : Nat} {o : MaintOp} (hs : s0.Keeps s) :
    s0.Keeps (State.maintGo s f o) := by
  unfold State.maintGo
  repeat' with_reducible first
    | assumption
    | exact State.Keeps.refl _
    | intro _
    | lift_lets
    | apply keeps_ite
    | apply State.maintRange_keeps
    | apply State.setFlag_keeps

theorem execMaintClean_keeps {s0 : State} {fn : Nat} {l1Only : Bool} {s : State} (hs : s0.Keeps s) :
    s0.AnsKeeps (execMaintClean fn l1Only s) := by
  unfold execMaintClean
  repeat' with_reducible first
    | assumption
    | exact State.Keeps.refl _
    | intro _
    | lift_lets
    | apply keeps_ite
    | apply State.maintGo_keeps
    | apply State.mmio_keeps
    | apply State.AnsKeeps.next

theorem execMaintInvalidate_keeps {s0 : State} {fn : Nat} {l1Only : Bool} {s : State} (hs : s0.Keeps s) :
    s0.AnsKeeps (execMaintInvalidate fn l1Only s) := by
  unfold execMaintInvalidate
  repeat' with_reducible first
    | assumption
    | exact State.Keeps.refl _
    | intro _
    | lift_lets
    | apply keeps_ite
    | apply State.maintGo_keeps
    | apply State.mmio_keeps
    | apply State.AnsKeeps.next

theorem execMaintCleanInvalidate_keeps {s0 : State} {fn : Nat} {l1Only : Bool} {s : State} (hs : s0.Keeps s) :
    s0.AnsKeeps (execMaintCleanInvalidate fn l1Only s) := by
  unfold execMaintCleanInvalidate
  repeat' with_reducible first
    | assumption
    | exact State.Keeps.refl _
    | intro _
    | lift_lets
    | apply keeps_ite
    | apply State.maintGo_keeps
    | apply State.mmio_keeps
    | apply State.AnsKeeps.next

theorem execMaintDone_keeps {s0 : State} {f : Nat} {s : State} (hs : s0.Keeps s) :
    s0.AnsKeeps (execMaintDone f s) := by
  unfold execMaintDone
  repeat' with_reducible first
    | assumption
    | exact State.Keeps.refl _
    | intro _
    | lift_lets
    | apply keeps_ite
    | apply State.clrFlag_keeps
    | apply State.AnsKeeps.next

theorem State.setwayWrite_keeps {s0 : State} {s : State} {fn : Nat} {act : State → State} (hs : s0.Keeps s) (hact : ∀ (x : State), s0.Keeps x → s0.Keeps (act x)) :
    s0.Keeps (State.setwayWrite s fn act) := by
  unfold State.setwayWrite
  repeat' with_reducible first
    | assumption
    | exact State.Keeps.refl _
    | intro _
    | lift_lets
    | apply keeps_ite
    | apply hact
    | apply State.mmio_keeps
    | apply State.setFlag_keeps

theorem State.setwayLine_keeps {s0 : State} {s : State} {o : MaintOp} {n : Nat} (hs : s0.Keeps s) :
    s0.Keeps (State.setwayLine s o n) := by
  unfold State.setwayLine
  repeat' with_reducible first
    | assumption
    | exact State.Keeps.refl _
    | intro _
    | lift_lets
    | apply keeps_ite
    | apply MemSys.cleanLine_keeps
    | apply State.count_keeps
    | apply MemSys.dropLine_keeps
    | apply State.setMem_keeps
    | split
    | fail_if_no_progress refine keeps_mkm rfl rfl rfl rfl rfl rfl rfl rfl rfl rfl rfl rfl rfl ?_ ?_
    | exact MemSys.Keeps.refl _

theorem State.setwayGo_keeps {s0 : State} {s : State} {o : MaintOp} {all : Bool} {die slice set way : Nat} (hs : s0.Keeps s) :
    s0.Keeps (State.setwayGo s o all die slice set way) := by
  unfold State.setwayGo
  repeat' with_reducible first
    | assumption
    | exact State.Keeps.refl _
    | intro _
    | lift_lets
    | apply keeps_ite
    | apply State.setFlag_keeps
    | apply State.setwayLine_keeps
    | apply keeps_foldl

theorem execSetwayClean_keeps {s0 : State} {fn : Nat} {all : Bool} {die slice set way : Nat} {s : State} (hs : s0.Keeps s) :
    s0.AnsKeeps (execSetwayClean fn all die slice set way s) := by
  unfold execSetwayClean
  repeat' with_reducible first
    | assumption
    | exact State.Keeps.refl _
    | intro _
    | lift_lets
    | apply keeps_ite
    | apply State.setwayGo_keeps
    | apply State.setwayWrite_keeps
    | apply State.AnsKeeps.next

theorem execSetwayInvalidate_keeps {s0 : State} {fn : Nat} {all : Bool} {die slice set way : Nat} {s : State} (hs : s0.Keeps s) :
    s0.AnsKeeps (execSetwayInvalidate fn all die slice set way s) := by
  unfold execSetwayInvalidate
  repeat' with_reducible first
    | assumption
    | exact State.Keeps.refl _
    | intro _
    | lift_lets
    | apply keeps_ite
    | apply State.setwayGo_keeps
    | apply State.setwayWrite_keeps
    | apply State.AnsKeeps.next

theorem execSetwayCleanInvalidate_keeps {s0 : State} {fn : Nat} {all : Bool} {die slice set way : Nat} {s : State} (hs : s0.Keeps s) :
    s0.AnsKeeps (execSetwayCleanInvalidate fn all die slice set way s) := by
  unfold execSetwayCleanInvalidate
  repeat' with_reducible first
    | assumption
    | exact State.Keeps.refl _
    | intro _
    | lift_lets
    | apply keeps_ite
    | apply State.setwayGo_keeps
    | apply State.setwayWrite_keeps
    | apply State.AnsKeeps.next

theorem execSetwayDone_keeps {s0 : State} {s : State} (hs : s0.Keeps s) :
    s0.AnsKeeps (execSetwayDone s) := by
  unfold execSetwayDone
  repeat' with_reducible first
    | assumption
    | exact State.Keeps.refl _
    | intro _
    | lift_lets
    | apply keeps_ite
    | apply State.clrFlag_keeps
    | apply State.AnsKeeps.next

/-! ### Machine/TcopyRows.lean -/

theorem State.setTslot_keeps {s0 : State} {s : State} {c n : Nat} {t : Option TSlot} (hs : s0.Keeps s) :
    s0.Keeps (State.setTslot s c n t) := by
  unfold State.setTslot
  repeat' with_reducible first
    | assumption
    | exact State.Keeps.refl _
    | intro _
    | lift_lets
    | apply keeps_ite
    | apply State.updCore_keeps

theorem State.tcopyFails_keeps {s0 : State} {s : State} {c n : Nat} {t : TSlot} {f : VmFault} (hs : s0.Keeps s) :
    s0.Keeps (State.tcopyFails s c n t f) := by
  unfold State.tcopyFails
  repeat' with_reducible first
    | assumption
    | exact State.Keeps.refl _
    | intro _
    | lift_lets
    | apply keeps_ite
    | apply State.dropReads_keeps
    | apply State.setTslot_keeps
    | apply State.slotFault_keeps
    | apply State.stopLaunch_keeps
    | split

theorem State.tcopyActions_keeps {s0 : State} {s : State} {c n : Nat} {t : TSlot} (hs : s0.Keeps s) :
    OptK (s0.Keeps ·) (State.tcopyActions s c n t) := by
  unfold State.tcopyActions
  repeat' with_reducible first
    | assumption
    | exact State.Keeps.refl _
    | intro _
    | lift_lets
    | apply keeps_ite
    | apply State.free_keeps
    | apply State.mlnAccept_keeps
    | apply State.semSignal_keeps
    | apply State.setTslot_keeps
    | apply State.signalRefused_keeps
    | apply State.tcopyFails_keeps
    | apply State.updCore_keeps
    | exact OptK.none
    | apply OptK.some
    | apply keeps_map
    | apply keeps_map3
    | apply keeps_getD
    | split

theorem State.tcopyTurn_keeps {s0 : State} {s : State} {c n : Nat} {t : TSlot} (hs : s0.Keeps s) :
    s0.Keeps (State.tcopyTurn s c n t).2.2 := by
  unfold State.tcopyTurn
  repeat' with_reducible first
    | assumption
    | exact State.Keeps.refl _
    | intro _
    | lift_lets
    | apply keeps_ite
    | apply State.hit_keeps
    | apply State.setTslot_keeps
    | apply State.xferRun_keeps
    | split

theorem State.tcopyOthers_keeps {s0 : State} {s : State} {c n : Nat} (hs : s0.Keeps s) :
    s0.Keeps (State.tcopyOthers s c n) := by
  unfold State.tcopyOthers
  repeat' with_reducible first
    | assumption
    | exact State.Keeps.refl _
    | intro _
    | lift_lets
    | apply keeps_ite
    | apply State.tcopyTurn_keeps
    | apply keeps_foldl
    | apply keeps_foldl2
    | apply keeps_foldl3
    | apply keeps_foldl4
    | split
    | fail_if_no_progress refine keeps_mk rfl rfl rfl rfl rfl rfl rfl rfl rfl rfl rfl rfl rfl rfl ?_
    | refine keeps_eq2 ?_ (by assumption)
    | refine keeps_eq3 ?_ (by assumption)

theorem State.tcopyRun_keeps {s0 s : State} {c n : Nat} {t : TSlot} {fuel : Nat} (hs : s0.Keeps s) :
    s0.Keeps (State.tcopyRun s c n t fuel).2.2 := by
  induction fuel generalizing s t with
  | zero =>
    unfold State.tcopyRun
    exact hs
  | succ n ih =>
    unfold State.tcopyRun
    repeat' with_reducible first
      | assumption
      | exact State.Keeps.refl _
      | intro _
      | lift_lets
      | apply keeps_ite
      | apply ih
      | apply State.tcopyOthers_keeps
      | apply State.tcopyTurn_keeps
      | split
      | fail_if_no_progress refine keeps_mk rfl rfl rfl rfl rfl rfl rfl rfl rfl rfl rfl rfl rfl rfl ?_
      | refine keeps_eq2 ?_ (by assumption)
      | refine keeps_eq3 ?_ (by assumption)

theorem execTcopySlotComplete_keeps {s0 : State} {c n : Nat} {host : HostData} {s : State} (hs : s0.Keeps s) :
    s0.AnsKeeps (execTcopySlotComplete c n host s) := by
  unfold execTcopySlotComplete
  repeat' with_reducible first
    | assumption
    | exact State.Keeps.refl _
    | intro _
    | lift_lets
    | apply keeps_ite
    | apply State.tcopyActions_keeps
    | apply State.tcopyRun_keeps
    | apply State.withHost_keeps
    | apply State.AnsKeeps.next
    | apply keeps_getD
    | split

theorem execTcopySlotFault_keeps {s0 : State} {c n : Nat} {host : HostData} {upset : Upset} {s : State} (hs : s0.Keeps s) :
    s0.AnsKeeps (execTcopySlotFault c n host upset s) := by
  unfold execTcopySlotFault
  repeat' with_reducible first
    | assumption
    | exact State.Keeps.refl _
    | intro _
    | lift_lets
    | apply keeps_ite
    | apply State.consumedPoison_keeps
    | apply State.detect_keeps
    | apply State.tcopyFails_keeps
    | apply State.tcopyRun_keeps
    | apply State.withHost_keeps
    | apply State.AnsKeeps.next
    | split
    | fail_if_no_progress refine keeps_mk rfl rfl rfl rfl rfl rfl rfl rfl rfl rfl rfl rfl rfl rfl ?_
    | refine keeps_eq2 ?_ (by assumption)
    | refine keeps_eq3 ?_ (by assumption)

theorem State.setCopy_keeps {s0 : State} {s : State} {n : Nat} {x : Option Copy} (hs : s0.Keeps s) :
    s0.Keeps (State.setCopy s n x) := by
  unfold State.setCopy
  repeat' with_reducible first
    | assumption
    | exact State.Keeps.refl _
    | intro _
    | lift_lets
    | apply keeps_ite
    | split
    | fail_if_no_progress refine keeps_mk rfl rfl rfl rfl rfl rfl rfl rfl rfl rfl rfl rfl rfl rfl ?_

theorem State.copyRun_keeps {s0 : State} {s : State} {n : Nat} {x : Copy} (hs : s0.Keeps s) :
    s0.Keeps (State.copyRun s n x).2.2 := by
  unfold State.copyRun
  repeat' with_reducible first
    | assumption
    | exact State.Keeps.refl _
    | intro _
    | lift_lets
    | apply keeps_ite
    | apply State.xferRun_keeps
    | split

theorem State.readerFails_keeps {s0 : State} {s : State} {w : MlnReader} {f : VmFault} (hs : s0.Keeps s) :
    s0.Keeps (State.readerFails s w f) := by
  unfold State.readerFails
  repeat' with_reducible first
    | assumption
    | exact State.Keeps.refl _
    | intro _
    | lift_lets
    | apply keeps_ite
    | apply State.readFails_keeps
    | apply State.tcopyFails_keeps
    | split

theorem State.rspRecord_keeps {s0 : State} {s : State} {x : Xfer} {pos : Nat} {f : VmFault} (hs : s0.Keeps s) :
    s0.Keeps (State.rspRecord s x pos f) := by
  unfold State.rspRecord
  repeat' with_reducible first
    | assumption
    | exact State.Keeps.refl _
    | intro _
    | lift_lets
    | apply keeps_ite
    | apply State.consumedPoison_keeps
    | apply State.logXlat_keeps
    | split

theorem State.rspPut_keeps {s0 : State} {s : State} {r : MlnRead} {m : Msg} (hs : s0.Keeps s) :
    OptK (s0.Keeps ·) (State.rspPut s r m) := by
  unfold State.rspPut
  repeat' with_reducible first
    | assumption
    | exact State.Keeps.refl _
    | intro _
    | lift_lets
    | apply keeps_ite
    | apply State.freed_keeps
    | apply State.led_keeps
    | apply State.mlnAccept_keeps
    | apply State.readerFails_keeps
    | apply State.rspRecord_keeps
    | apply State.setMln_keeps
    | apply State.unhold_keeps
    | apply State.xferPut_keeps
    | exact OptK.none
    | apply OptK.some
    | apply keeps_map
    | apply keeps_map3
    | apply keeps_foldlo
    | exact OptK.none
    | apply OptK.some
    | apply keeps_getD
    | split
    | fail_if_no_progress refine keeps_mk rfl rfl rfl rfl rfl rfl rfl rfl rfl rfl rfl rfl rfl rfl ?_
    | refine keeps_eq2 ?_ (by assumption)

theorem State.rspRun_keeps {s0 s : State} {who : MlnReader} {fuel : Nat} (hs : s0.Keeps s) :
    s0.Keeps (State.rspRun s who fuel) := by
  induction fuel generalizing s with
  | zero =>
    unfold State.rspRun
    exact hs
  | succ n ih =>
    unfold State.rspRun
    repeat' with_reducible first
      | assumption
      | exact State.Keeps.refl _
      | intro _
      | lift_lets
      | apply keeps_ite
      | apply ih
      | apply State.rspPut_keeps
      | split
      | fail_if_no_progress refine keeps_mk rfl rfl rfl rfl rfl rfl rfl rfl rfl rfl rfl rfl rfl rfl ?_
      | refine keeps_eq2 ?_ (by assumption)
      | refine keeps_eq3 ?_ (by assumption)
      | refine keeps_eq4 ?_ (by assumption)
      | refine keeps_eqs ?_ (by assumption)
      | refine keeps_eqo ?_ (by assumption)

theorem execReadRsp_keeps {s0 : State} {m : Msg} {s : State} (hs : s0.Keeps s) :
    s0.AnsKeeps (execReadRsp m s) := by
  unfold execReadRsp
  repeat' with_reducible first
    | assumption
    | exact State.Keeps.refl _
    | intro _
    | lift_lets
    | apply keeps_ite
    | apply State.count_keeps
    | apply State.freed_keeps
    | apply State.led_keeps
    | apply State.passed_keeps
    | apply State.rspRun_keeps
    | apply State.setMln_keeps
    | apply State.AnsKeeps.next
    | split

theorem execMessageAccept_keeps {s0 : State} {src : MlnSource} {s : State} (hs : s0.Keeps s) :
    s0.AnsKeeps (execMessageAccept src s) := by
  unfold execMessageAccept
  repeat' with_reducible first
    | assumption
    | exact State.Keeps.refl _
    | intro _
    | lift_lets
    | apply keeps_ite
    | apply State.copyRun_keeps
    | apply State.rspRun_keeps
    | apply State.setCopy_keeps
    | apply State.setTslot_keeps
    | apply State.tcopyFails_keeps
    | apply State.tcopyRun_keeps
    | apply State.xferAccept_keeps
    | apply State.AnsKeeps.next
    | apply keeps_getD
    | split
    | fail_if_no_progress refine keeps_mk rfl rfl rfl rfl rfl rfl rfl rfl rfl rfl rfl rfl rfl rfl ?_
    | refine keeps_eq2 ?_ (by assumption)
    | refine keeps_eq3 ?_ (by assumption)
    | refine keeps_eq4 ?_ (by assumption)
    | refine keeps_eqs ?_ (by assumption)
    | refine keeps_eqo ?_ (by assumption)
    | refine keeps_eqo2 ?_ (by assumption)
    | refine keeps_eqo3 ?_ (by assumption)

theorem State.semUpset_keeps {s0 : State} {s : State} {n : Nat} {u : Upset} (hs : s0.Keeps s) :
    s0.Keeps (State.semUpset s n u) := by
  unfold State.semUpset
  repeat' with_reducible first
    | assumption
    | exact State.Keeps.refl _
    | intro _
    | lift_lets
    | apply keeps_ite
    | apply State.detect_keeps
    | apply State.semBreak_keeps
    | apply State.setFld_keeps
    | apply State.wr_keeps
    | fail_if_no_progress refine keeps_mk rfl rfl rfl rfl rfl rfl rfl rfl rfl rfl rfl rfl rfl rfl ?_

theorem signalRow_keeps {s0 : State} {c slot : Nat} {u : Upset} {s : State} (hs : s0.Keeps s) :
    s0.AnsKeeps (signalRow c slot u s) := by
  unfold signalRow
  repeat' with_reducible first
    | assumption
    | exact State.Keeps.refl _
    | intro _
    | lift_lets
    | apply keeps_ite
    | apply State.count_keeps
    | apply State.holdAt_keeps
    | apply State.mlnAccept_keeps
    | apply State.semRow_keeps
    | apply State.semSignal_keeps
    | apply State.semUpset_keeps
    | apply State.setCore_keeps
    | apply State.setGroup_keeps
    | apply State.updCore_keeps
    | apply State.AnsKeeps.next
    | apply keeps_getD
    | split
    | fail_if_no_progress refine keeps_mk rfl rfl rfl rfl rfl rfl rfl rfl rfl rfl rfl rfl rfl rfl ?_
    | refine keeps_eq2 ?_ (by assumption)
    | refine keeps_eq3 ?_ (by assumption)
    | refine keeps_eq4 ?_ (by assumption)
    | refine keeps_eqs ?_ (by assumption)
    | refine keeps_eqo ?_ (by assumption)

theorem execSemSig_keeps {s0 : State} {c : Nat} {i : SigSlot} {s : State} (hs : s0.Keeps s) :
    s0.AnsKeeps (execSemSig c i s) := signalRow_keeps hs

theorem State.performStore_keeps {s0 : State} {s : State} {c n : Nat} (hs : s0.Keeps s) :
    OptK (s0.Keeps ·) (State.performStore s c n) := by
  unfold State.performStore
  repeat' with_reducible first
    | assumption
    | exact State.Keeps.refl _
    | intro _
    | lift_lets
    | apply keeps_ite
    | apply State.hostWrite_keeps
    | apply State.mlnAccept_keeps
    | apply State.performLocal_keeps
    | apply State.resetLog_keeps
    | apply State.rled_keeps
    | apply State.settleFaults_keeps
    | apply State.updCore_keeps
    | exact OptK.none
    | apply OptK.some
    | apply keeps_map
    | apply keeps_map3
    | apply keeps_foldl
    | apply keeps_foldl2
    | apply keeps_foldl3
    | apply keeps_foldl4
    | apply keeps_foldlo
    | exact OptK.none
    | apply OptK.some
    | apply keeps_getD
    | split
    | fail_if_no_progress refine keeps_mk rfl rfl rfl rfl rfl rfl rfl rfl rfl rfl rfl rfl rfl rfl ?_
    | refine keeps_eq2 ?_ (by assumption)
    | refine keeps_eq3 ?_ (by assumption)
    | refine keeps_eq4 ?_ (by assumption)
    | refine keeps_eqs ?_ (by assumption)
    | refine keeps_eqo ?_ (by assumption)
    | refine keeps_eqo2 ?_ (by assumption)
    | refine keeps_eqo3 ?_ (by assumption)
    | dsimp only [id]
    | dsimp +zetaDelta only

theorem execStorePerform_keeps {s0 : State} {c n : Nat} {s : State} (hs : s0.Keeps s) :
    s0.AnsKeeps (execStorePerform c n s) := by
  unfold execStorePerform
  repeat' with_reducible first
    | assumption
    | exact State.Keeps.refl _
    | intro _
    | lift_lets
    | apply keeps_ite
    | apply State.performStore_keeps
    | apply State.AnsKeeps.next
    | apply keeps_getD

/-! ### Machine/Settle.lean -/

theorem State.dropThread_keeps {s0 : State} {s : State} {id : Nat} (hs : s0.Keeps s) :
    s0.Keeps (State.dropThread s id) := by
  unfold State.dropThread
  repeat' with_reducible first
    | assumption
    | exact State.Keeps.refl _
    | intro _
    | lift_lets
    | apply keeps_ite
    | apply State.semLeave_keeps
    | apply State.setThread_keeps
    | apply keeps_foldl

theorem State.settleCmd_keeps {s0 : State} {s : State} {id : Nat} (hs : s0.Keeps s) :
    s0.Keeps (State.settleCmd s id) := by
  unfold State.settleCmd
  repeat' with_reducible first
    | assumption
    | exact State.Keeps.refl _
    | intro _
    | lift_lets
    | apply keeps_ite
    | apply State.endCmd_keeps
    | split

theorem State.dropPatch_keeps {s0 : State} {s : State} {id : Nat} (hs : s0.Keeps s) :
    s0.Keeps (State.dropPatch s id) := by
  unfold State.dropPatch
  repeat' with_reducible first
    | assumption
    | exact State.Keeps.refl _
    | intro _
    | lift_lets
    | apply keeps_ite
    | apply State.poolCount_keeps
    | split
    | fail_if_no_progress refine keeps_mk rfl rfl rfl rfl rfl rfl rfl rfl rfl rfl rfl rfl rfl rfl ?_

theorem State.stopCmd_keeps {s0 : State} {s : State} {id status source code : Nat} (hs : s0.Keeps s) :
    s0.Keeps (State.stopCmd s id status source code) := by
  unfold State.stopCmd
  repeat' with_reducible first
    | assumption
    | exact State.Keeps.refl _
    | intro _
    | lift_lets
    | apply keeps_ite
    | apply State.dropPatch_keeps
    | apply State.dropThread_keeps
    | apply State.semLeave_keeps
    | apply State.setCmd_keeps
    | apply State.setCopy_keeps
    | apply State.settleCmd_keeps
    | apply State.stopLaunch_keeps
    | apply keeps_foldl
    | apply keeps_foldl2
    | apply keeps_foldl3
    | apply keeps_foldl4
    | split

theorem State.endProgram_keeps {s0 : State} {s : State} {t status code : Nat} (hs : s0.Keeps s) :
    s0.Keeps (State.endProgram s t status code) := by
  unfold State.endProgram
  repeat' with_reducible first
    | assumption
    | exact State.Keeps.refl _
    | intro _
    | lift_lets
    | apply keeps_ite
    | apply State.stopCmd_keeps
    | split

theorem State.programFault_keeps {s0 : State} {s : State} {t : Nat} {f : VmFault} (hs : s0.Keeps s) :
    s0.Keeps (State.programFault s t f) := by
  unfold State.programFault
  repeat' with_reducible first
    | assumption
    | exact State.Keeps.refl _
    | intro _
    | lift_lets
    | apply keeps_ite
    | apply State.endProgram_keeps

theorem State.setVtime_keeps {s0 : State} {s : State} {n v : Nat} (hs : s0.Keeps s) :
    s0.Keeps (State.setVtime s n v) := by
  unfold State.setVtime
  repeat' with_reducible first
    | assumption
    | exact State.Keeps.refl _
    | intro _
    | lift_lets
    | apply keeps_ite
    | apply State.wr_keeps
    | split
    | fail_if_no_progress refine keeps_mk rfl rfl rfl rfl rfl rfl rfl rfl rfl rfl rfl rfl rfl rfl ?_

theorem State.sharePick_keeps {s0 : State} {s : State} {old eligible : List Nat} (hs : s0.Keeps s) :
    s0.Keeps (State.sharePick s old eligible).2 := by
  unfold State.sharePick
  repeat' with_reducible first
    | assumption
    | exact State.Keeps.refl _
    | intro _
    | lift_lets
    | apply keeps_ite
    | apply State.setVtime_keeps
    | apply keeps_foldl
    | apply keeps_foldl2
    | apply keeps_foldl3
    | apply keeps_foldl4
    | split

/-! ### Machine/Tickets.lean -/

theorem State.setTkt_keeps {s0 : State} {s : State} {t : Nat} {x : Option TktLine} (hs : s0.Keeps s) :
    s0.Keeps (State.setTkt s t x) := by
  unfold State.setTkt
  repeat' with_reducible first
    | assumption
    | exact State.Keeps.refl _
    | intro _
    | lift_lets
    | apply keeps_ite
    | split
    | fail_if_no_progress refine keeps_mk rfl rfl rfl rfl rfl rfl rfl rfl rfl rfl rfl rfl rfl rfl ?_

theorem State.tktBack_keeps {s0 : State} {s : State} {t : Nat} (hs : s0.Keeps s) :
    s0.Keeps (State.tktBack s t) := by
  unfold State.tktBack
  repeat' with_reducible first
    | assumption
    | exact State.Keeps.refl _
    | intro _
    | lift_lets
    | apply keeps_ite
    | apply State.memWrite_keeps
    | apply MemSys.poisonRange_keeps
    | apply State.setTkt_keeps
    | split
    | fail_if_no_progress refine keeps_mkm rfl rfl rfl rfl rfl rfl rfl rfl rfl rfl rfl rfl rfl ?_ ?_
    | exact MemSys.Keeps.refl _

theorem State.tktPut_keeps {s0 : State} {s : State} {t : Nat} {x : TktLine} (hs : s0.Keeps s) :
    s0.Keeps (State.tktPut s t x) := by
  unfold State.tktPut
  repeat' with_reducible first
    | assumption
    | exact State.Keeps.refl _
    | intro _
    | lift_lets
    | apply keeps_ite
    | apply State.setTkt_keeps
    | apply State.tktBack_keeps
    | apply keeps_foldl
    | apply keeps_foldl2
    | apply keeps_foldl3
    | apply keeps_foldl4
    | split
    | fail_if_no_progress refine keeps_mk rfl rfl rfl rfl rfl rfl rfl rfl rfl rfl rfl rfl rfl rfl ?_

theorem State.tktRead_keeps {s0 : State} {s : State} {t : Nat} (hs : s0.Keeps s) :
    s0.Keeps (State.tktRead s t).2.2 := by
  unfold State.tktRead
  repeat' with_reducible first
    | assumption
    | exact State.Keeps.refl _
    | intro _
    | lift_lets
    | apply keeps_ite
    | apply State.count_keeps
    | apply State.memRead_keeps
    | apply State.tktPut_keeps
    | split

theorem State.tktWrite_keeps {s0 : State} {s : State} {t : Nat} {b : List Byte} {whole : Bool} (hs : s0.Keeps s) :
    s0.Keeps (State.tktWrite s t b whole) := by
  unfold State.tktWrite
  repeat' with_reducible first
    | assumption
    | exact State.Keeps.refl _
    | intro _
    | lift_lets
    | apply keeps_ite
    | apply State.tktPut_keeps

theorem State.sideWrite_keeps {s0 : State} {s : State} {t : Nat} {b : List Byte} (hs : s0.Keeps s) :
    s0.Keeps (State.sideWrite s t b) := by
  unfold State.sideWrite
  repeat' with_reducible first
    | assumption
    | exact State.Keeps.refl _
    | intro _
    | lift_lets
    | apply keeps_ite
    | apply State.memWrite_keeps

theorem State.tktRelease_keeps {s0 : State} {s : State} {t : Nat} (hs : s0.Keeps s) :
    s0.Keeps (State.tktRelease s t) := by
  unfold State.tktRelease
  repeat' with_reducible first
    | assumption
    | exact State.Keeps.refl _
    | intro _
    | lift_lets
    | apply keeps_ite
    | apply State.count_keeps
    | apply State.sideWrite_keeps
    | apply State.tktWrite_keeps
    | apply State.wr_keeps

theorem State.tktFlushAll_keeps {s0 : State} {s : State} (hs : s0.Keeps s) :
    s0.Keeps (State.tktFlushAll s) := by
  unfold State.tktFlushAll
  repeat' with_reducible first
    | assumption
    | exact State.Keeps.refl _
    | intro _
    | lift_lets
    | apply keeps_ite
    | apply State.tktBack_keeps
    | apply keeps_foldl

theorem execTktFlush_keeps {s0 : State} {fn : Nat} {s : State} (hs : s0.Keeps s) :
    s0.AnsKeeps (execTktFlush fn s) := by
  unfold execTktFlush
  repeat' with_reducible first
    | assumption
    | exact State.Keeps.refl _
    | intro _
    | lift_lets
    | apply keeps_ite
    | apply State.mmio_keeps
    | apply State.tktFlushAll_keeps
    | apply State.AnsKeeps.next

/-! ### Machine/Points.lean -/

theorem State.setStep_keeps {s0 : State} {s : State} {p : RouteStep} (hs : s0.Keeps s) :
    s0.Keeps (State.setStep s p) := by
  unfold State.setStep
  repeat' with_reducible first
    | assumption
    | exact State.Keeps.refl _
    | intro _
    | lift_lets
    | apply keeps_ite
    | split
    | fail_if_no_progress refine keeps_mk rfl rfl rfl rfl rfl rfl rfl rfl rfl rfl rfl rfl rfl rfl ?_

theorem State.tableLine_keeps {s0 : State} {s : State} {n : Nat} (hs : s0.Keeps s) :
    s0.Keeps (State.tableLine s n) := by
  unfold State.tableLine
  repeat' with_reducible first
    | assumption
    | exact State.Keeps.refl _
    | intro _
    | lift_lets
    | apply keeps_ite
    | apply State.memWrite_keeps
    | apply State.withFree_keeps

theorem State.adoptPts_keeps {s0 : State} {s : State} (hs : s0.Keeps s) :
    s0.Keeps (State.adoptPts s) := by
  unfold State.adoptPts
  repeat' with_reducible first
    | assumption
    | exact State.Keeps.refl _
    | intro _
    | lift_lets
    | apply keeps_ite
    | split
    | fail_if_no_progress refine keeps_mk rfl rfl rfl rfl rfl rfl rfl rfl rfl rfl rfl rfl rfl rfl ?_

theorem State.tally_keeps {s0 : State} {s : State} {off n : Nat} (hs : s0.Keeps s) :
    s0.Keeps (State.tally s off n) := by
  unfold State.tally
  repeat' with_reducible first
    | assumption
    | exact State.Keeps.refl _
    | intro _
    | lift_lets
    | apply keeps_ite
    | apply State.count_keeps

theorem State.less_keeps {s0 : State} {s : State} {off n : Nat} (hs : s0.Keeps s) :
    s0.Keeps (State.less s off n) := by
  unfold State.less
  repeat' with_reducible first
    | assumption
    | exact State.Keeps.refl _
    | intro _
    | lift_lets
    | apply keeps_ite
    | apply State.wr_keeps

theorem State.reoffer_keeps {s0 : State} {s : State} {p : RouteStep} {n : Nat} (hs : s0.Keeps s) :
    s0.Keeps (State.reoffer s p n).2 := by
  unfold State.reoffer
  repeat' with_reducible first
    | assumption
    | exact State.Keeps.refl _
    | intro _
    | lift_lets
    | apply keeps_ite
    | apply State.less_keeps
    | apply State.placed_keeps
    | apply State.setFlag_keeps
    | apply State.setFld_keeps
    | apply State.tableLine_keeps
    | apply State.tally_keeps
    | apply State.vaRead_keeps
    | apply State.vaWrite_keeps
    | apply keeps_foldl
    | apply keeps_foldl2
    | apply keeps_foldl3
    | apply keeps_foldl4
    | split
    | fail_if_no_progress refine keeps_mk rfl rfl rfl rfl rfl rfl rfl rfl rfl rfl rfl rfl rfl rfl ?_
    | refine keeps_eq2 ?_ (by assumption)
    | refine keeps_eq3 ?_ (by assumption)
    | refine keeps_eq4 ?_ (by assumption)
    | refine keeps_eqs ?_ (by assumption)
    | refine keeps_eqo ?_ (by assumption)
    | refine keeps_eqo2 ?_ (by assumption)
    | refine keeps_eqo3 ?_ (by assumption)
    | dsimp only [id]

theorem State.openStep_keeps {s0 : State} {s : State} {l ctx va : Nat} (hs : s0.Keeps s) :
    s0.Keeps (State.openStep s l ctx va).2 := by
  unfold State.openStep
  repeat' with_reducible first
    | assumption
    | exact State.Keeps.refl _
    | intro _
    | lift_lets
    | apply keeps_ite
    | apply State.adoptPts_keeps
    | apply State.placed_keeps
    | apply State.reoffer_keeps
    | apply State.vaRead_keeps
    | apply State.xlate_keeps
    | apply keeps_foldl
    | apply keeps_foldl2
    | apply keeps_foldl3
    | apply keeps_foldl4
    | split
    | fail_if_no_progress refine keeps_mk rfl rfl rfl rfl rfl rfl rfl rfl rfl rfl rfl rfl rfl rfl ?_
    | refine keeps_eq2 ?_ (by assumption)
    | refine keeps_eq3 ?_ (by assumption)
    | refine keeps_eq4 ?_ (by assumption)
    | refine keeps_eqs ?_ (by assumption)
    | refine keeps_eqo ?_ (by assumption)
    | refine keeps_eqo2 ?_ (by assumption)
    | refine keeps_eqo3 ?_ (by assumption)
    | dsimp only [id]

theorem State.endSubmission_keeps {s0 : State} {s : State} {b : Submission} (hs : s0.Keeps s) :
    s0.Keeps (State.endSubmission s b) := by
  unfold State.endSubmission
  repeat' with_reducible first
    | assumption
    | exact State.Keeps.refl _
    | intro _
    | lift_lets
    | apply keeps_ite
    | apply State.setGroup_keeps
    | split

theorem State.acceptRecord_keeps {s0 : State} {s : State} {u : Nat} {p : RouteStep} {b : Submission} {k : Core} (hs : s0.Keeps s) :
    s0.Keeps (State.acceptRecord s u p b k) := by
  unfold State.acceptRecord
  repeat' with_reducible first
    | assumption
    | exact State.Keeps.refl _
    | intro _
    | lift_lets
    | apply keeps_ite
    | apply State.hit_keeps
    | apply State.setStep_keeps
    | apply State.setUnit_keeps
    | apply State.tally_keeps

theorem execPointsRecordRead_keeps {s0 : State} {u : Nat} {upset : Upset} {s : State} (hs : s0.Keeps s) :
    s0.AnsKeeps (execPointsRecordRead u upset s) := by
  unfold execPointsRecordRead
  repeat' with_reducible first
    | assumption
    | exact State.Keeps.refl _
    | intro _
    | lift_lets
    | apply keeps_ite
    | apply State.acceptRecord_keeps
    | apply State.count_keeps
    | apply State.detect_keeps
    | apply State.endSubmission_keeps
    | apply State.memRead_keeps
    | apply State.poisonIf_keeps
    | apply State.setStep_keeps
    | apply State.setUnit_keeps
    | apply State.AnsKeeps.next
    | split
    | fail_if_no_progress refine keeps_mk rfl rfl rfl rfl rfl rfl rfl rfl rfl rfl rfl rfl rfl rfl ?_
    | refine keeps_eq2 ?_ (by assumption)
    | refine keeps_eq3 ?_ (by assumption)
    | refine keeps_eq4 ?_ (by assumption)
    | refine keeps_eqs ?_ (by assumption)
    | refine keeps_eqo ?_ (by assumption)
    | refine keeps_eqo2 ?_ (by assumption)
    | refine keeps_eqo3 ?_ (by assumption)
    | dsimp only [id]

theorem State.dropChoice_keeps {s0 : State} {s : State} {u : Nat} {r : RankedRec} {plat : Nat} {c : DropCause} (hs : s0.Keeps s) :
    s0.Keeps (State.dropChoice s u r plat c) := by
  unfold State.dropChoice
  repeat' with_reducible first
    | assumption
    | exact State.Keeps.refl _
    | intro _
    | lift_lets
    | apply keeps_ite
    | apply State.hit_keeps
    | apply State.setFlag_keeps
    | apply State.setStep_keeps
    | apply State.tally_keeps
    | split
    | fail_if_no_progress refine keeps_mk rfl rfl rfl rfl rfl rfl rfl rfl rfl rfl rfl rfl rfl rfl ?_

/-- What a placing keeps. -/
def Placing.KeepsFrom (s : State) : Placing → Prop
  | .placed t => s.Keeps t
  | .fault t => s.Keeps t
  | .full => True
  | .wait => True

theorem keeps_placed {s t : State} {p : Placing} (h : p.KeepsFrom s) (e : p = .placed t) : s.Keeps t := by
  subst e; exact h

theorem keeps_fault {s t : State} {p : Placing} (h : p.KeepsFrom s) (e : p = .fault t) : s.Keeps t := by
  subst e; exact h

theorem placing_placed {s t : State} (h : s.Keeps t) : (Placing.placed t).KeepsFrom s := h
theorem placing_fault {s t : State} (h : s.Keeps t) : (Placing.fault t).KeepsFrom s := h
theorem placing_full {s : State} : Placing.full.KeepsFrom s := trivial
theorem placing_wait {s : State} : Placing.wait.KeepsFrom s := trivial

theorem State.tryPlace_keeps {s0 s : State} {u : Nat} {p : RouteStep} {r : RankedRec} {c : Choice} {alt : Bool} (hs : s0.Keeps s) :
    (s.tryPlace u p r c alt).KeepsFrom s0 := by
  unfold State.tryPlace
  repeat' with_reducible first
    | assumption
    | exact State.Keeps.refl _
    | intro _
    | lift_lets
    | apply keeps_ite
    | apply placing_placed
    | apply placing_fault
    | apply placing_full
    | apply placing_wait
    | apply State.hit_keeps
    | apply State.mlnAccept_keeps
    | apply State.pageWrite_keeps
    | apply State.placed_keeps
    | apply State.setFld_keeps
    | apply State.setStep_keeps
    | apply State.tableLine_keeps
    | apply State.tally_keeps
    | apply State.updCore_keeps
    | apply State.xlate_keeps
    | apply keeps_getD
    | split
    | fail_if_no_progress refine keeps_mk rfl rfl rfl rfl rfl rfl rfl rfl rfl rfl rfl rfl rfl rfl ?_
    | refine keeps_eq2 ?_ (by assumption)
    | refine keeps_eq3 ?_ (by assumption)
    | refine keeps_eq4 ?_ (by assumption)
    | refine keeps_eqs ?_ (by assumption)
    | refine keeps_eqo ?_ (by assumption)
    | refine keeps_eqo2 ?_ (by assumption)
    | refine keeps_eqo3 ?_ (by assumption)
    | dsimp only [id]
    | dsimp +zetaDelta only

theorem State.tryAlts_keeps {s0 s : State} {u : Nat} {p : RouteStep} {r : RankedRec} {plat : Nat} {before alts : List Choice}
    (hs : s0.Keeps s) : OptK (fun x => s0.Keeps x.2) (s.tryAlts u p r plat before alts) := by
  induction alts generalizing before with
  | nil =>
    unfold State.tryAlts
    exact OptK.some (State.dropChoice_keeps hs)
  | cons a t ih =>
    unfold State.tryAlts
    have h := State.tryPlace_keeps (u := u) (p := p) (r := r) (c := a) (alt := true) hs
    split
    · exact OptK.some (keeps_placed h (by assumption))
    · exact ih
    · exact OptK.some (State.dropChoice_keeps (keeps_fault h (by assumption)))
    · exact OptK.none

theorem State.deferChoice_keeps {s0 : State} {s : State} {u : Nat} {p : RouteStep} {r : RankedRec} {c : Choice} (hs : s0.Keeps s) :
    s0.Keeps (State.deferChoice s u p r c) := by
  unfold State.deferChoice
  repeat' with_reducible first
    | assumption
    | exact State.Keeps.refl _
    | intro _
    | lift_lets
    | apply keeps_ite
    | apply State.dropChoice_keeps
    | apply State.setFld_keeps
    | apply State.setStep_keeps
    | apply State.tableLine_keeps
    | apply State.tally_keeps
    | apply State.vaWrite_keeps
    | split
    | fail_if_no_progress refine keeps_mk rfl rfl rfl rfl rfl rfl rfl rfl rfl rfl rfl rfl rfl rfl ?_
    | refine keeps_eq2 ?_ (by assumption)

theorem State.afterChoice_keeps {s0 : State} {s : State} {u : Nat} {r : RankedRec} {cs : List Choice} {rest : List RankedRec} {alts : List Choice} (hs : s0.Keeps s) :
    s0.Keeps (State.afterChoice s u r cs rest alts) := by
  unfold State.afterChoice
  repeat' with_reducible first
    | assumption
    | exact State.Keeps.refl _
    | intro _
    | lift_lets
    | apply keeps_ite
    | apply State.setUnit_keeps

theorem execChoicePlace_keeps {s0 : State} {u : Nat} {s : State} (hs : s0.Keeps s) :
    s0.AnsKeeps (execChoicePlace u s) := by
  unfold execChoicePlace
  repeat' with_reducible first
    | assumption
    | exact State.Keeps.refl _
    | intro _
    | lift_lets
    | apply keeps_ite
    | refine keeps_placed (State.tryPlace_keeps ?_) (by assumption)
    | refine keeps_fault (State.tryPlace_keeps ?_) (by assumption)
    | apply State.afterChoice_keeps
    | apply State.deferChoice_keeps
    | apply State.dropChoice_keeps
    | apply State.placed_keeps
    | apply State.setUnit_keeps
    | apply State.tryAlts_keeps
    | apply State.AnsKeeps.next
    | split
    | fail_if_no_progress refine keeps_mk rfl rfl rfl rfl rfl rfl rfl rfl rfl rfl rfl rfl rfl rfl ?_
    | refine keeps_eq2 ?_ (by assumption)
    | refine keeps_eq3 ?_ (by assumption)
    | refine keeps_eq4 ?_ (by assumption)
    | refine keeps_eqs ?_ (by assumption)
    | refine keeps_eqo ?_ (by assumption)
    | refine keeps_eqo2 ?_ (by assumption)

theorem State.dropWhere_keeps {s0 : State} {s : State} {rec_ : RankedRec → Bool} {sub : Submission → Bool} (hs : s0.Keeps s) :
    s0.Keeps (State.dropWhere s rec_ sub) := by
  unfold State.dropWhere
  repeat' with_reducible first
    | assumption
    | exact State.Keeps.refl _
    | intro _
    | lift_lets
    | apply keeps_ite
    | apply State.dropChoice_keeps
    | apply State.setUnit_keeps
    | apply keeps_foldl

theorem State.dropRest_keeps {s0 : State} {s : State} {l : Nat} (hs : s0.Keeps s) :
    s0.Keeps (State.dropRest s l) := by
  unfold State.dropRest
  repeat' with_reducible first
    | assumption
    | exact State.Keeps.refl _
    | intro _
    | lift_lets
    | apply keeps_ite
    | apply State.dropWhere_keeps

theorem State.endCopies_keeps {s0 : State} {s : State} {c set : Nat} {b : Block} (hs : s0.Keeps s) :
    s0.Keeps (State.endCopies s c set b) := by
  unfold State.endCopies
  repeat' with_reducible first
    | assumption
    | exact State.Keeps.refl _
    | intro _
    | lift_lets
    | apply keeps_ite
    | apply State.setStep_keeps
    | split
    | fail_if_no_progress refine keeps_mk rfl rfl rfl rfl rfl rfl rfl rfl rfl rfl rfl rfl rfl rfl ?_

theorem State.copyHeader_keeps {s0 : State} {s : State} {p : RouteStep} {y : PlatCopy} (hs : s0.Keeps s) :
    s0.Keeps (State.copyHeader s p y) := by
  unfold State.copyHeader
  repeat' with_reducible first
    | assumption
    | exact State.Keeps.refl _
    | intro _
    | lift_lets
    | apply keeps_ite
    | apply State.count_keeps
    | apply State.updCore_keeps

theorem State.writeHeader_keeps {s0 : State} {s : State} {p : RouteStep} {n : Nat} (hs : s0.Keeps s) :
    OptK (s0.Keeps ·) (State.writeHeader s p n) := by
  unfold State.writeHeader
  repeat' with_reducible first
    | assumption
    | exact State.Keeps.refl _
    | intro _
    | lift_lets
    | apply keeps_ite
    | apply State.copyHeader_keeps
    | apply State.mlnAccept_keeps
    | apply State.vaWrite_keeps
    | apply State.xlateQuiet_keeps
    | exact OptK.none
    | apply OptK.some
    | apply keeps_map
    | apply keeps_map3
    | apply keeps_foldl
    | apply keeps_foldl2
    | apply keeps_foldl3
    | apply keeps_foldl4
    | apply keeps_getD
    | split
    | fail_if_no_progress refine keeps_mk rfl rfl rfl rfl rfl rfl rfl rfl rfl rfl rfl rfl rfl rfl ?_
    | refine keeps_eq2 ?_ (by assumption)

theorem State.platSignal_keeps {s0 : State} {s : State} {p : RouteStep} {n : Nat} (hs : s0.Keeps s) :
    OptK (s0.Keeps ·) (State.platSignal s p n) := by
  unfold State.platSignal
  repeat' with_reducible first
    | assumption
    | exact State.Keeps.refl _
    | intro _
    | lift_lets
    | apply keeps_ite
    | apply State.mlnAccept_keeps
    | apply State.semSignal_keeps
    | apply State.signalRefused_keeps
    | exact OptK.none
    | apply OptK.some
    | apply keeps_map
    | apply keeps_map3
    | apply keeps_getD
    | split

theorem State.closeStep_keeps {s0 : State} {s : State} {l : Nat} (hs : s0.Keeps s) :
    s0.Keeps (State.closeStep s l) := by
  unfold State.closeStep
  repeat' with_reducible first
    | assumption
    | exact State.Keeps.refl _
    | intro _
    | lift_lets
    | apply keeps_ite
    | apply State.dropRest_keeps
    | apply State.placed_keeps
    | apply State.platSignal_keeps
    | apply State.setCmd_keeps
    | apply State.trace_keeps
    | apply State.vaWrite_keeps
    | apply State.writeHeader_keeps
    | apply keeps_foldl
    | apply keeps_foldl2
    | apply keeps_foldl3
    | apply keeps_foldl4
    | apply keeps_foldlo
    | exact OptK.none
    | apply OptK.some
    | apply keeps_getD
    | split
    | fail_if_no_progress refine keeps_mk rfl rfl rfl rfl rfl rfl rfl rfl rfl rfl rfl rfl rfl rfl ?_
    | refine keeps_eq2 ?_ (by assumption)
    | refine keeps_eq3 ?_ (by assumption)
    | refine keeps_eq4 ?_ (by assumption)
    | refine keeps_eqs ?_ (by assumption)
    | refine keeps_eqo ?_ (by assumption)
    | refine keeps_eqo2 ?_ (by assumption)
    | refine keeps_eqo3 ?_ (by assumption)
    | dsimp only [id]
    | dsimp +zetaDelta only

theorem execStepClose_keeps {s0 : State} {l : Nat} {s : State} (hs : s0.Keeps s) :
    s0.AnsKeeps (execStepClose l s) := by
  unfold execStepClose
  repeat' with_reducible first
    | assumption
    | exact State.Keeps.refl _
    | intro _
    | lift_lets
    | apply keeps_ite
    | apply State.closeStep_keeps
    | apply State.AnsKeeps.next
    | split

/-! ### Machine/ThreadInt.lean -/

theorem execNop_keeps {s0 : State} {c slot : Nat} {s : State} (hs : s0.Keeps s) :
    s0.AnsKeeps (execNop c slot s) := by
  unfold execNop
  repeat' with_reducible first
    | assumption
    | exact State.Keeps.refl _
    | intro _
    | lift_lets
    | apply keeps_ite
    | apply State.illegal_keeps
    | apply State.issue_keeps
    | apply State.setGroup_keeps
    | apply State.AnsKeeps.next

theorem execIalu_keeps {s0 : State} {c slot : Nat} {upset : Upset} {s : State} (hs : s0.Keeps s) :
    s0.AnsKeeps (execIalu c slot upset s) := by
  unfold execIalu
  repeat' with_reducible first
    | assumption
    | exact State.Keeps.refl _
    | intro _
    | lift_lets
    | apply keeps_ite
    | apply State.regRow_keeps
    | apply State.AnsKeeps.next

theorem execIaluI_keeps {s0 : State} {c slot : Nat} {s : State} (hs : s0.Keeps s) :
    s0.AnsKeeps (execIaluI c slot s) := by
  unfold execIaluI
  repeat' with_reducible first
    | assumption
    | exact State.Keeps.refl _
    | intro _
    | lift_lets
    | apply keeps_ite
    | apply State.regRow_keeps
    | apply State.AnsKeeps.next

theorem execImul_keeps {s0 : State} {c slot : Nat} {s : State} (hs : s0.Keeps s) :
    s0.AnsKeeps (execImul c slot s) := by
  unfold execImul
  repeat' with_reducible first
    | assumption
    | exact State.Keeps.refl _
    | intro _
    | lift_lets
    | apply keeps_ite
    | apply State.regRow_keeps
    | apply State.AnsKeeps.next

theorem execImulI_keeps {s0 : State} {c slot : Nat} {s : State} (hs : s0.Keeps s) :
    s0.AnsKeeps (execImulI c slot s) := by
  unfold execImulI
  repeat' with_reducible first
    | assumption
    | exact State.Keeps.refl _
    | intro _
    | lift_lets
    | apply keeps_ite
    | apply State.regRow_keeps
    | apply State.AnsKeeps.next

theorem execIcmp_keeps {s0 : State} {c slot : Nat} {s : State} (hs : s0.Keeps s) :
    s0.AnsKeeps (execIcmp c slot s) := by
  unfold execIcmp
  repeat' with_reducible first
    | assumption
    | exact State.Keeps.refl _
    | intro _
    | lift_lets
    | apply keeps_ite
    | apply State.regRow_keeps
    | apply State.AnsKeeps.next

theorem execIcmpI_keeps {s0 : State} {c slot : Nat} {s : State} (hs : s0.Keeps s) :
    s0.AnsKeeps (execIcmpI c slot s) := by
  unfold execIcmpI
  repeat' with_reducible first
    | assumption
    | exact State.Keeps.refl _
    | intro _
    | lift_lets
    | apply keeps_ite
    | apply State.regRow_keeps
    | apply State.AnsKeeps.next

theorem execPlop_keeps {s0 : State} {c slot : Nat} {s : State} (hs : s0.Keeps s) :
    s0.AnsKeeps (execPlop c slot s) := by
  unfold execPlop
  repeat' with_reducible first
    | assumption
    | exact State.Keeps.refl _
    | intro _
    | lift_lets
    | apply keeps_ite
    | apply State.regRow_keeps
    | apply State.AnsKeeps.next

theorem execFalu_keeps {s0 : State} {c slot : Nat} {upset : Upset} {s : State} (hs : s0.Keeps s) :
    s0.AnsKeeps (execFalu c slot upset s) := by
  unfold execFalu
  repeat' with_reducible first
    | assumption
    | exact State.Keeps.refl _
    | intro _
    | lift_lets
    | apply keeps_ite
    | apply State.regRow_keeps
    | apply State.AnsKeeps.next

theorem execFaluI_keeps {s0 : State} {c slot : Nat} {s : State} (hs : s0.Keeps s) :
    s0.AnsKeeps (execFaluI c slot s) := by
  unfold execFaluI
  repeat' with_reducible first
    | assumption
    | exact State.Keeps.refl _
    | intro _
    | lift_lets
    | apply keeps_ite
    | apply State.regRow_keeps
    | apply State.AnsKeeps.next

theorem execHalu_keeps {s0 : State} {c slot : Nat} {s : State} (hs : s0.Keeps s) :
    s0.AnsKeeps (execHalu c slot s) := by
  unfold execHalu
  repeat' with_reducible first
    | assumption
    | exact State.Keeps.refl _
    | intro _
    | lift_lets
    | apply keeps_ite
    | apply State.regRow_keeps
    | apply State.AnsKeeps.next

theorem execFcmp_keeps {s0 : State} {c slot : Nat} {s : State} (hs : s0.Keeps s) :
    s0.AnsKeeps (execFcmp c slot s) := by
  unfold execFcmp
  repeat' with_reducible first
    | assumption
    | exact State.Keeps.refl _
    | intro _
    | lift_lets
    | apply keeps_ite
    | apply State.regRow_keeps
    | apply State.AnsKeeps.next

theorem execSfu_keeps {s0 : State} {c slot : Nat} {s : State} (hs : s0.Keeps s) :
    s0.AnsKeeps (execSfu c slot s) := by
  unfold execSfu
  repeat' with_reducible first
    | assumption
    | exact State.Keeps.refl _
    | intro _
    | lift_lets
    | apply keeps_ite
    | apply State.regRow_keeps
    | apply State.AnsKeeps.next

theorem execCvt_keeps {s0 : State} {c slot : Nat} {s : State} (hs : s0.Keeps s) :
    s0.AnsKeeps (execCvt c slot s) := by
  unfold execCvt
  repeat' with_reducible first
    | assumption
    | exact State.Keeps.refl _
    | intro _
    | lift_lets
    | apply keeps_ite
    | apply State.hit_keeps
    | apply State.holdAt_keeps
    | apply State.illegal_keeps
    | apply State.issue_keeps
    | apply State.setCore_keeps
    | apply State.setGroup_keeps
    | apply State.AnsKeeps.next

theorem execXlane_keeps {s0 : State} {c slot : Nat} {s : State} (hs : s0.Keeps s) :
    s0.AnsKeeps (execXlane c slot s) := by
  unfold execXlane
  repeat' with_reducible first
    | assumption
    | exact State.Keeps.refl _
    | intro _
    | lift_lets
    | apply keeps_ite
    | apply State.regRow_keeps
    | apply State.AnsKeeps.next

theorem execSreg_keeps {s0 : State} {c slot : Nat} {s : State} (hs : s0.Keeps s) :
    s0.AnsKeeps (execSreg c slot s) := by
  unfold execSreg
  repeat' with_reducible first
    | assumption
    | exact State.Keeps.refl _
    | intro _
    | lift_lets
    | apply keeps_ite
    | apply State.holdAt_keeps
    | apply State.illegal_keeps
    | apply State.issue_keeps
    | apply State.setGroup_keeps
    | apply State.AnsKeeps.next

/-! ### Machine/Launches.lean -/

theorem State.platCount_keeps {s0 : State} {s : State} {u : VmUser} {p : Nat} (hs : s0.Keeps s) :
    s0.Keeps (State.platCount s u p).2 := by
  unfold State.platCount
  repeat' with_reducible first
    | assumption
    | exact State.Keeps.refl _
    | intro _
    | lift_lets
    | apply keeps_ite
    | apply State.vaRead_keeps
    | split
    | fail_if_no_progress refine keeps_mk rfl rfl rfl rfl rfl rfl rfl rfl rfl rfl rfl rfl rfl rfl ?_
    | refine keeps_eq2 ?_ (by assumption)

theorem State.nextPlat_keeps {s0 s : State} {u : VmUser} {r : PlatRange} {fuel : Nat} (hs : s0.Keeps s) :
    s0.Keeps (State.nextPlat s u r fuel).2 := by
  induction fuel generalizing s r with
  | zero =>
    unfold State.nextPlat
    exact hs
  | succ n ih =>
    unfold State.nextPlat
    repeat' with_reducible first
      | assumption
      | exact State.Keeps.refl _
      | intro _
      | lift_lets
      | apply keeps_ite
      | apply ih
      | apply State.count_keeps
      | apply State.platCount_keeps
      | split
      | fail_if_no_progress refine keeps_mk rfl rfl rfl rfl rfl rfl rfl rfl rfl rfl rfl rfl rfl rfl ?_
      | refine keeps_eq2 ?_ (by assumption)

theorem State.headLaunch_keeps {s0 : State} {s : State} {view : Nat} {x : Launch} (hs : s0.Keeps s) :
    s0.Keeps (State.headLaunch s view x).2 := by
  unfold State.headLaunch
  repeat' with_reducible first
    | assumption
    | exact State.Keeps.refl _
    | intro _
    | lift_lets
    | apply keeps_ite
    | apply State.count_keeps
    | apply State.nextPlat_keeps
    | split
    | fail_if_no_progress refine keeps_mk rfl rfl rfl rfl rfl rfl rfl rfl rfl rfl rfl rfl rfl rfl ?_
    | refine keeps_eq2 ?_ (by assumption)
    | refine keeps_eq3 ?_ (by assumption)
    | refine keeps_eq4 ?_ (by assumption)
    | refine keeps_eqs ?_ (by assumption)
    | refine keeps_eqo ?_ (by assumption)
    | refine keeps_eqo2 ?_ (by assumption)
    | refine keeps_eqo3 ?_ (by assumption)
    | dsimp only [id]

theorem State.adoptSeed_keeps {s0 : State} {s : State} {ctx : Nat} (hs : s0.Keeps s) :
    s0.Keeps (State.adoptSeed s ctx) := by
  unfold State.adoptSeed
  repeat' with_reducible first
    | assumption
    | exact State.Keeps.refl _
    | intro _
    | lift_lets
    | apply keeps_ite
    | apply State.adopt_keeps
    | apply State.clrFlag_keeps
    | apply State.mapCores_keeps

theorem State.beginLaunch_keeps {s0 : State} {s : State} {x : Launch} (hs : s0.Keeps s) :
    s0.Keeps (State.beginLaunch s x) := by
  unfold State.beginLaunch
  repeat' with_reducible first
    | assumption
    | exact State.Keeps.refl _
    | intro _
    | lift_lets
    | apply keeps_ite
    | apply State.adoptSeed_keeps
    | apply State.count_keeps
    | apply State.openStep_keeps
    | apply State.setLaunch_keeps
    | apply State.stopLaunch_keeps
    | apply State.takeView_keeps
    | apply State.trace_keeps
    | split
    | fail_if_no_progress refine keeps_mk rfl rfl rfl rfl rfl rfl rfl rfl rfl rfl rfl rfl rfl rfl ?_
    | refine keeps_eq2 ?_ (by assumption)

theorem State.launchOver_keeps {s0 : State} {s : State} {l : Nat} {x : Launch} (hs : s0.Keeps s) :
    s0.Keeps (State.launchOver s l x) := by
  unfold State.launchOver
  repeat' with_reducible first
    | assumption
    | exact State.Keeps.refl _
    | intro _
    | lift_lets
    | apply keeps_ite
    | apply State.mapCores_keeps
    | apply State.setLaunch_keeps
    | apply State.settleCmd_keeps
    | apply State.stopCmd_keeps

theorem execLaunchStart_keeps {s0 : State} {t : Nat} {host : HostData} {s : State} (hs : s0.Keeps s) :
    s0.AnsKeeps (execLaunchStart t host s) := by
  unfold execLaunchStart
  repeat' with_reducible first
    | assumption
    | exact State.Keeps.refl _
    | intro _
    | lift_lets
    | apply keeps_ite
    | apply State.beginLaunch_keeps
    | apply State.headLaunch_keeps
    | apply State.launchOver_keeps
    | apply State.programFault_keeps
    | apply State.setThread_keeps
    | apply State.setVtime_keeps
    | apply State.sharePick_keeps
    | apply State.withHost_keeps
    | apply State.AnsKeeps.next
    | apply keeps_foldl
    | apply keeps_foldl2
    | apply keeps_foldl3
    | apply keeps_foldl4
    | split
    | fail_if_no_progress refine keeps_mk rfl rfl rfl rfl rfl rfl rfl rfl rfl rfl rfl rfl rfl rfl ?_
    | refine keeps_eq2 ?_ (by assumption)

theorem State.seedCore_keeps {s0 : State} {s : State} {c ctx : Nat} (hs : s0.Keeps s) :
    s0.Keeps (State.seedCore s c ctx) := by
  unfold State.seedCore
  repeat' with_reducible first
    | assumption
    | exact State.Keeps.refl _
    | intro _
    | lift_lets
    | apply keeps_ite
    | apply State.updCore_keeps

theorem State.switchCore_keeps {s0 : State} {s : State} {c ctx : Nat} (hs : s0.Keeps s) :
    s0.Keeps (State.switchCore s c ctx) := by
  unfold State.switchCore
  repeat' with_reducible first
    | assumption
    | exact State.Keeps.refl _
    | intro _
    | lift_lets
    | apply keeps_ite
    | apply State.count_keeps
    | apply State.seedCore_keeps
    | apply State.updCore_keeps

theorem State.guardsFor_keeps {s0 : State} {s : State} {l : Nat} {x : Launch} {n : Nat} (hs : s0.Keeps s) :
    s0.Keeps (State.guardsFor s l x n).2 := by
  unfold State.guardsFor
  repeat' with_reducible first
    | assumption
    | exact State.Keeps.refl _
    | intro _
    | lift_lets
    | apply keeps_ite
    | apply State.adopt_keeps
    | apply State.setLaunch_keeps
    | split

theorem State.restartSet_keeps {s0 : State} {s : State} {set : Nat} (hs : s0.Keeps s) :
    s0.Keeps (State.restartSet s set) := by
  unfold State.restartSet
  repeat' with_reducible first
    | assumption
    | exact State.Keeps.refl _
    | intro _
    | lift_lets
    | apply keeps_ite
    | apply State.wr_keeps
    | apply keeps_foldl
    | apply keeps_foldl2
    | apply keeps_foldl3
    | apply keeps_foldl4
    | split
    | fail_if_no_progress refine keeps_mk rfl rfl rfl rfl rfl rfl rfl rfl rfl rfl rfl rfl rfl rfl ?_

theorem State.ownCore_keeps {s0 : State} {s : State} {c : Nat} (hs : s0.Keeps s) :
    s0.Keeps (State.ownCore s c) := by
  unfold State.ownCore
  repeat' with_reducible first
    | assumption
    | exact State.Keeps.refl _
    | intro _
    | lift_lets
    | apply keeps_ite
    | apply State.restartSet_keeps
    | apply keeps_getD
    | split
    | fail_if_no_progress refine keeps_mk rfl rfl rfl rfl rfl rfl rfl rfl rfl rfl rfl rfl rfl rfl ?_

theorem State.markShared_keeps {s0 : State} {s : State} {c cmd : Nat} (hs : s0.Keeps s) :
    s0.Keeps (State.markShared s c cmd) := by
  unfold State.markShared
  repeat' with_reducible first
    | assumption
    | exact State.Keeps.refl _
    | intro _
    | lift_lets
    | apply keeps_ite
    | split
    | fail_if_no_progress refine keeps_mk rfl rfl rfl rfl rfl rfl rfl rfl rfl rfl rfl rfl rfl rfl ?_

theorem State.placeBlock_keeps {s0 : State} {s : State} {l : Nat} {x : Launch} {n c : Nat} {r : Room} (hs : s0.Keeps s) :
    s0.Keeps (State.placeBlock s l x n c r) := by
  unfold State.placeBlock
  repeat' with_reducible first
    | assumption
    | exact State.Keeps.refl _
    | intro _
    | lift_lets
    | apply keeps_ite
    | apply State.guardsFor_keeps
    | apply State.hit_keeps
    | apply State.markShared_keeps
    | apply State.ownCore_keeps
    | apply State.seedCore_keeps
    | apply State.setCore_keeps
    | apply State.setGroup_keeps
    | apply State.setLaunch_keeps
    | apply State.switchCore_keeps
    | apply State.updCore_keeps
    | apply State.voidCmds_keeps
    | apply keeps_foldl
    | apply keeps_foldl2
    | apply keeps_foldl3
    | apply keeps_foldl4
    | apply keeps_getD
    | split
    | fail_if_no_progress refine keeps_mk rfl rfl rfl rfl rfl rfl rfl rfl rfl rfl rfl rfl rfl rfl ?_

theorem execBlockPlace_keeps {s0 : State} {l : Nat} {s : State} (hs : s0.Keeps s) :
    s0.AnsKeeps (execBlockPlace l s) := by
  unfold execBlockPlace
  repeat' with_reducible first
    | assumption
    | exact State.Keeps.refl _
    | intro _
    | lift_lets
    | apply keeps_ite
    | apply State.placeBlock_keeps
    | apply State.AnsKeeps.next
    | split

theorem execCoreSwitchEnd_keeps {s0 : State} {c : Nat} {s : State} (hs : s0.Keeps s) :
    s0.AnsKeeps (execCoreSwitchEnd c s) := by
  unfold execCoreSwitchEnd
  repeat' with_reducible first
    | assumption
    | exact State.Keeps.refl _
    | intro _
    | lift_lets
    | apply keeps_ite
    | apply State.updCore_keeps
    | apply State.AnsKeeps.next

theorem State.blockGone_keeps {s0 : State} {s : State} {c set : Nat} {b : Block} (hs : s0.Keeps s) :
    s0.Keeps (State.blockGone s c set b) := by
  unfold State.blockGone
  repeat' with_reducible first
    | assumption
    | exact State.Keeps.refl _
    | intro _
    | lift_lets
    | apply keeps_ite
    | apply State.forgetSlot_keeps
    | apply State.ownCore_keeps
    | apply State.setCore_keeps
    | apply State.setGroup_keeps
    | apply State.setLaunch_keeps
    | apply keeps_foldl
    | apply keeps_foldl2
    | apply keeps_foldl3
    | apply keeps_foldl4
    | split
    | fail_if_no_progress refine keeps_mk rfl rfl rfl rfl rfl rfl rfl rfl rfl rfl rfl rfl rfl rfl ?_
    | refine keeps_eq2 ?_ (by assumption)
    | refine keeps_eq3 ?_ (by assumption)
    | refine keeps_eq4 ?_ (by assumption)
    | refine keeps_eqs ?_ (by assumption)
    | refine keeps_eqo ?_ (by assumption)
    | refine keeps_eqo2 ?_ (by assumption)
    | refine keeps_eqo3 ?_ (by assumption)
    | dsimp only [id]
    | dsimp +zetaDelta only

theorem execBlockEnd_keeps {s0 : State} {c set : Nat} {s : State} (hs : s0.Keeps s) :
    s0.AnsKeeps (execBlockEnd c set s) := by
  unfold execBlockEnd
  repeat' with_reducible first
    | assumption
    | exact State.Keeps.refl _
    | intro _
    | lift_lets
    | apply keeps_ite
    | apply State.blockGone_keeps
    | apply State.dropWhere_keeps
    | apply State.endCopies_keeps
    | apply State.launchFault_keeps
    | apply State.AnsKeeps.next
    | split
    | fail_if_no_progress refine keeps_mk rfl rfl rfl rfl rfl rfl rfl rfl rfl rfl rfl rfl rfl rfl ?_
    | refine keeps_eq2 ?_ (by assumption)
    | refine keeps_eq3 ?_ (by assumption)
    | refine keeps_eq4 ?_ (by assumption)
    | refine keeps_eqs ?_ (by assumption)
    | refine keeps_eqo ?_ (by assumption)
    | refine keeps_eqo2 ?_ (by assumption)
    | refine keeps_eqo3 ?_ (by assumption)
    | dsimp only [id]
    | dsimp +zetaDelta only

theorem execLaunchComplete_keeps {s0 : State} {l : Nat} {s : State} (hs : s0.Keeps s) :
    s0.AnsKeeps (execLaunchComplete l s) := by
  unfold execLaunchComplete
  repeat' with_reducible first
    | assumption
    | exact State.Keeps.refl _
    | intro _
    | lift_lets
    | apply keeps_ite
    | apply State.launchOver_keeps
    | apply State.AnsKeeps.next
    | split

theorem execBorrowOverrun_keeps {s0 : State} {l : Nat} {s : State} (hs : s0.Keeps s) :
    s0.AnsKeeps (execBorrowOverrun l s) := by
  unfold execBorrowOverrun
  repeat' with_reducible first
    | assumption
    | exact State.Keeps.refl _
    | intro _
    | lift_lets
    | apply keeps_ite
    | apply State.stopLaunch_keeps
    | apply State.AnsKeeps.next

/-! ### Machine/Admit.lean -/

theorem State.claimLane_keeps {s0 : State} {s : State} {l : Nat} (hs : s0.Keeps s) :
    s0.Keeps (State.claimLane s l) := by
  unfold State.claimLane
  repeat' with_reducible first
    | assumption
    | exact State.Keeps.refl _
    | intro _
    | lift_lets
    | apply keeps_ite
    | apply State.mapCores_keeps

theorem State.pinCmd_keeps {s0 : State} {s : State} {id : Nat} {c : Cmd} (hs : s0.Keeps s) :
    s0.Keeps (State.pinCmd s id c) := by
  unfold State.pinCmd
  repeat' with_reducible first
    | assumption
    | exact State.Keeps.refl _
    | intro _
    | lift_lets
    | apply keeps_ite
    | apply State.pinBy_keeps
    | apply State.setCmd_keeps
    | split

theorem State.admitTo_keeps {s0 : State} {s : State} {id : Nat} {c : Cmd} {l st fin : Nat} (hs : s0.Keeps s) :
    s0.Keeps (State.admitTo s id c l st fin) := by
  unfold State.admitTo
  repeat' with_reducible first
    | assumption
    | exact State.Keeps.refl _
    | intro _
    | lift_lets
    | apply keeps_ite
    | apply State.claimLane_keeps
    | apply State.count_keeps
    | apply State.hit_keeps
    | apply State.pinCmd_keeps
    | apply State.rled_keeps
    | apply State.setCmd_keeps
    | apply State.wr_keeps
    | split
    | fail_if_no_progress refine keeps_mk rfl rfl rfl rfl rfl rfl rfl rfl rfl rfl rfl rfl rfl rfl ?_

theorem execAdmission_keeps {s0 : State} {id : Nat} {s : State} (hs : s0.Keeps s) :
    s0.AnsKeeps (execAdmission id s) := by
  unfold execAdmission
  repeat' with_reducible first
    | assumption
    | exact State.Keeps.refl _
    | intro _
    | lift_lets
    | apply keeps_ite
    | apply State.admitTo_keeps
    | apply State.adopt_keeps
    | apply State.endCmd_keeps
    | apply State.hit_keeps
    | apply State.AnsKeeps.next
    | split

theorem execEntryStart_keeps {s0 : State} {id : Nat} {s : State} (hs : s0.Keeps s) :
    s0.AnsKeeps (execEntryStart id s) := by
  unfold execEntryStart
  repeat' with_reducible first
    | assumption
    | exact State.Keeps.refl _
    | intro _
    | lift_lets
    | apply keeps_ite
    | apply State.setCmd_keeps
    | apply State.AnsKeeps.next
    | split

theorem execBeGrant_keeps {s0 : State} {id : Nat} {s : State} (hs : s0.Keeps s) :
    s0.AnsKeeps (execBeGrant id s) := by
  unfold execBeGrant
  repeat' with_reducible first
    | assumption
    | exact State.Keeps.refl _
    | intro _
    | lift_lets
    | apply keeps_ite
    | apply State.rled_keeps
    | apply State.setCmd_keeps
    | apply State.sharePick_keeps
    | apply State.AnsKeeps.next
    | split
    | fail_if_no_progress refine keeps_mk rfl rfl rfl rfl rfl rfl rfl rfl rfl rfl rfl rfl rfl rfl ?_
    | refine keeps_eq2 ?_ (by assumption)

theorem State.cleared_keeps {s0 : State} {s : State} {id op : Nat} {act : Cmd → State} (hs : s0.Keeps s) (hact : ∀ (x : Cmd),  s0.Keeps (act x)) :
    s0.Keeps (State.cleared s id op act) := by
  unfold State.cleared
  repeat' with_reducible first
    | assumption
    | exact State.Keeps.refl _
    | intro _
    | lift_lets
    | apply keeps_ite
    | apply hact
    | split

theorem State.startProgram_keeps {s0 : State} {s : State} {id : Nat} {c : Cmd} {slot ver t : Nat} (hs : s0.Keeps s) :
    s0.Keeps (State.startProgram s id c slot ver t) := by
  unfold State.startProgram
  repeat' with_reducible first
    | assumption
    | exact State.Keeps.refl _
    | intro _
    | lift_lets
    | apply keeps_ite
    | apply State.setThread_keeps
    | apply State.startCmd_keeps
    | apply State.takeView_keeps

theorem execRunProgram_keeps {s0 : State} {id : Nat} {s : State} (hs : s0.Keeps s) :
    s0.AnsKeeps (execRunProgram id s) := by
  unfold execRunProgram
  repeat' with_reducible first
    | assumption
    | exact State.Keeps.refl _
    | intro _
    | lift_lets
    | apply keeps_ite
    | apply State.cleared_keeps
    | apply State.endCmd_keeps
    | apply State.pinCmd_keeps
    | apply State.startProgram_keeps
    | apply State.AnsKeeps.next
    | split
    | fail_if_no_progress refine keeps_mk rfl rfl rfl rfl rfl rfl rfl rfl rfl rfl rfl rfl rfl rfl ?_
    | refine keeps_eq2 ?_ (by assumption)
    | refine keeps_eq3 ?_ (by assumption)
    | refine keeps_eq4 ?_ (by assumption)
    | refine keeps_eqs ?_ (by assumption)
    | refine keeps_eqo ?_ (by assumption)
    | refine keeps_eqo2 ?_ (by assumption)
    | refine keeps_eqo3 ?_ (by assumption)
    | dsimp only [id]
    | dsimp +zetaDelta only

theorem State.beginCopy_keeps {s0 : State} {s : State} {id : Nat} {thread : Option Nat} {ctx view word va : Nat} (hs : s0.Keeps s) :
    OptK (fun x => s0.Keeps x.2) (State.beginCopy s id thread ctx view word va) := by
  unfold State.beginCopy
  repeat' with_reducible first
    | assumption
    | exact State.Keeps.refl _
    | intro _
    | lift_lets
    | apply keeps_ite
    | apply State.setCopy_keeps
    | apply State.vaRead_keeps
    | exact OptK.none
    | apply OptK.some
    | apply keeps_map
    | apply keeps_map3
    | split
    | fail_if_no_progress refine keeps_mk rfl rfl rfl rfl rfl rfl rfl rfl rfl rfl rfl rfl rfl rfl ?_
    | refine keeps_eq2 ?_ (by assumption)

theorem execCopyEntry_keeps {s0 : State} {id : Nat} {host : HostData} {s : State} (hs : s0.Keeps s) :
    s0.AnsKeeps (execCopyEntry id host s) := by
  unfold execCopyEntry
  repeat' with_reducible first
    | assumption
    | exact State.Keeps.refl _
    | intro _
    | lift_lets
    | apply keeps_ite
    | apply State.beginCopy_keeps
    | apply State.cleared_keeps
    | apply State.endCmd_keeps
    | apply State.startCmd_keeps
    | apply State.takeView_keeps
    | apply State.withHost_keeps
    | apply State.AnsKeeps.next
    | split
    | fail_if_no_progress refine keeps_mk rfl rfl rfl rfl rfl rfl rfl rfl rfl rfl rfl rfl rfl rfl ?_
    | refine keeps_eq2 ?_ (by assumption)
    | refine keeps_eq3 ?_ (by assumption)
    | refine keeps_eq4 ?_ (by assumption)
    | refine keeps_eqs ?_ (by assumption)
    | refine keeps_eqo ?_ (by assumption)
    | refine keeps_eqo2 ?_ (by assumption)

theorem State.copyOver_keeps {s0 : State} {s : State} {n : Nat} {x : Copy} {f : Option VmFault} (hs : s0.Keeps s) :
    s0.Keeps (State.copyOver s n x f) := by
  unfold State.copyOver
  repeat' with_reducible first
    | assumption
    | exact State.Keeps.refl _
    | intro _
    | lift_lets
    | apply keeps_ite
    | apply State.endCmd_keeps
    | apply State.setCopy_keeps
    | apply State.setThread_keeps
    | apply State.settleCmd_keeps
    | apply State.stopCmd_keeps
    | split
    | fail_if_no_progress refine keeps_mk rfl rfl rfl rfl rfl rfl rfl rfl rfl rfl rfl rfl rfl rfl ?_
    | refine keeps_eq2 ?_ (by assumption)
    | refine keeps_eq3 ?_ (by assumption)
    | refine keeps_eq4 ?_ (by assumption)
    | refine keeps_eqs ?_ (by assumption)
    | refine keeps_eqo ?_ (by assumption)
    | refine keeps_eqo2 ?_ (by assumption)
    | refine keeps_eqo3 ?_ (by assumption)
    | dsimp only [id]
    | dsimp +zetaDelta only

theorem execCopyDone_keeps {s0 : State} {n : Nat} {host : HostData} {s : State} (hs : s0.Keeps s) :
    s0.AnsKeeps (execCopyDone n host s) := by
  unfold execCopyDone
  repeat' with_reducible first
    | assumption
    | exact State.Keeps.refl _
    | intro _
    | lift_lets
    | apply keeps_ite
    | apply State.copyOver_keeps
    | apply State.copyRun_keeps
    | apply State.hit_keeps
    | apply State.setCopy_keeps
    | apply State.withHost_keeps
    | apply State.AnsKeeps.next
    | split
    | fail_if_no_progress refine keeps_mk rfl rfl rfl rfl rfl rfl rfl rfl rfl rfl rfl rfl rfl rfl ?_
    | refine keeps_eq2 ?_ (by assumption)
    | refine keeps_eq3 ?_ (by assumption)

theorem State.patchSource_keeps {s0 : State} {s : State} {c : Cmd} (hs : s0.Keeps s) :
    s0.Keeps (State.patchSource s c).2 := by
  unfold State.patchSource
  repeat' with_reducible first
    | assumption
    | exact State.Keeps.refl _
    | intro _
    | lift_lets
    | apply keeps_ite
    | apply State.busRead_keeps
    | apply State.takeView_keeps
    | apply State.vaRead_keeps
    | split
    | refine keeps_eq2 ?_ (by assumption)
    | refine keeps_eq3 ?_ (by assumption)

theorem State.writePage_keeps {s0 : State} {s : State} {old : Version} {need fresh : List Nat} {off : Nat} {code : List Byte} {i : Nat} (hs : s0.Keeps s) :
    s0.Keeps (State.writePage s old need fresh off code i) := by
  unfold State.writePage
  repeat' with_reducible first
    | assumption
    | exact State.Keeps.refl _
    | intro _
    | lift_lets
    | apply keeps_ite
    | apply State.memPut_keeps
    | apply State.memRead_keeps
    | apply keeps_getD
    | split

theorem State.writeVersion_keeps {s0 : State} {s : State} {id mode : Nat} {c : Cmd} {src : List Byte} (hs : s0.Keeps s) :
    s0.Keeps (State.writeVersion s id mode c src) := by
  unfold State.writeVersion
  repeat' with_reducible first
    | assumption
    | exact State.Keeps.refl _
    | intro _
    | lift_lets
    | apply keeps_ite
    | apply State.poolCount_keeps
    | apply State.writePage_keeps
    | apply keeps_foldl
    | apply keeps_foldl2
    | apply keeps_foldl3
    | apply keeps_foldl4
    | apply keeps_foldlo
    | exact OptK.none
    | apply OptK.some
    | apply keeps_getD
    | split
    | fail_if_no_progress refine keeps_mk rfl rfl rfl rfl rfl rfl rfl rfl rfl rfl rfl rfl rfl rfl ?_

theorem State.patchRow_keeps {s0 : State} {s : State} {id mode : Nat} {host : HostData} (hs : s0.Keeps s) :
    s0.Keeps (State.patchRow s id mode host) := by
  unfold State.patchRow
  repeat' with_reducible first
    | assumption
    | exact State.Keeps.refl _
    | intro _
    | lift_lets
    | apply keeps_ite
    | apply State.cleared_keeps
    | apply State.endCmd_keeps
    | apply State.patchSource_keeps
    | apply State.startCmd_keeps
    | apply State.withHost_keeps
    | apply State.writeVersion_keeps
    | split
    | fail_if_no_progress refine keeps_mk rfl rfl rfl rfl rfl rfl rfl rfl rfl rfl rfl rfl rfl rfl ?_
    | refine keeps_eq2 ?_ (by assumption)

theorem execPatch_keeps {s0 : State} {id : Nat} {host : HostData} {s : State} (hs : s0.Keeps s) :
    s0.AnsKeeps (execPatch id host s) := by
  unfold execPatch
  repeat' with_reducible first
    | assumption
    | exact State.Keeps.refl _
    | intro _
    | lift_lets
    | apply keeps_ite
    | apply State.patchRow_keeps
    | apply State.AnsKeeps.next

theorem execCreate_keeps {s0 : State} {id : Nat} {host : HostData} {s : State} (hs : s0.Keeps s) :
    s0.AnsKeeps (execCreate id host s) := by
  unfold execCreate
  repeat' with_reducible first
    | assumption
    | exact State.Keeps.refl _
    | intro _
    | lift_lets
    | apply keeps_ite
    | apply State.patchRow_keeps
    | apply State.AnsKeeps.next

theorem State.commitVersion_keeps {s0 : State} {s : State} {slot fn : Nat} {x : Patching} (hs : s0.Keeps s) :
    s0.Keeps (State.commitVersion s slot fn x) := by
  unfold State.commitVersion
  repeat' with_reducible first
    | assumption
    | exact State.Keeps.refl _
    | intro _
    | lift_lets
    | apply keeps_ite
    | apply State.setPslot_keeps
    | apply keeps_getD
    | split

theorem execPatchCommit_keeps {s0 : State} {slot : Nat} {s : State} (hs : s0.Keeps s) :
    s0.AnsKeeps (execPatchCommit slot s) := by
  unfold execPatchCommit
  repeat' with_reducible first
    | assumption
    | exact State.Keeps.refl _
    | intro _
    | lift_lets
    | apply keeps_ite
    | apply State.commitVersion_keeps
    | apply State.endCmd_keeps
    | apply State.reapSlot_keeps
    | apply State.AnsKeeps.next
    | split
    | fail_if_no_progress refine keeps_mk rfl rfl rfl rfl rfl rfl rfl rfl rfl rfl rfl rfl rfl rfl ?_

theorem execDelete_keeps {s0 : State} {id : Nat} {s : State} (hs : s0.Keeps s) :
    s0.AnsKeeps (execDelete id s) := by
  unfold execDelete
  repeat' with_reducible first
    | assumption
    | exact State.Keeps.refl _
    | intro _
    | lift_lets
    | apply keeps_ite
    | apply State.cleared_keeps
    | apply State.endCmd_keeps
    | apply State.reapSlot_keeps
    | apply State.setPslot_keeps
    | apply State.startCmd_keeps
    | apply State.AnsKeeps.next
    | apply keeps_getD
    | split
    | fail_if_no_progress refine keeps_mk rfl rfl rfl rfl rfl rfl rfl rfl rfl rfl rfl rfl rfl rfl ?_
    | refine keeps_eq2 ?_ (by assumption)
    | refine keeps_eq3 ?_ (by assumption)
    | refine keeps_eq4 ?_ (by assumption)
    | refine keeps_eqs ?_ (by assumption)
    | refine keeps_eqo ?_ (by assumption)
    | refine keeps_eqo2 ?_ (by assumption)
    | refine keeps_eqo3 ?_ (by assumption)
    | dsimp only [id]
    | dsimp +zetaDelta only

theorem execClassOverrun_keeps {s0 : State} {id : Nat} {s : State} (hs : s0.Keeps s) :
    s0.AnsKeeps (execClassOverrun id s) := by
  unfold execClassOverrun
  repeat' with_reducible first
    | assumption
    | exact State.Keeps.refl _
    | intro _
    | lift_lets
    | apply keeps_ite
    | apply State.stopCmd_keeps
    | apply State.surveyTrigger_keeps
    | apply State.AnsKeeps.next
    | split

theorem execQueueTimeout_keeps {s0 : State} {id : Nat} {s : State} (hs : s0.Keeps s) :
    s0.AnsKeeps (execQueueTimeout id s) := by
  unfold execQueueTimeout
  repeat' with_reducible first
    | assumption
    | exact State.Keeps.refl _
    | intro _
    | lift_lets
    | apply keeps_ite
    | apply State.fetched_keeps
    | apply State.stopCmd_keeps
    | apply State.surveyTrigger_keeps
    | apply State.AnsKeeps.next
    | split

end Sys2Proof.Machine
end

