-- ==== Sys2Proof/Laws/KeepsUnits.lean ====
section
/-! SUPPORT. What Mainline, Ethernet, memory instructions, the matrix array, RAS, contexts, consist, clocks, semaphores and debug keep. -/

namespace Sys2Proof.Machine

/-! ### Machine/MgtOps.lean -/

theorem State.alert_keeps {s0 : State} {s : State} {cause : Nat} (hs : s0.Keeps s) :
    s0.Keeps (State.alert s cause) := by
  unfold State.alert
  repeat' with_reducible first
    | assumption
    | exact State.Keeps.refl _
    | intro _
    | lift_lets
    | apply keeps_ite
    | apply State.emit_keeps
    | apply State.setFlag_keeps
    | apply keeps_foldl

theorem State.logEvent_keeps {s0 : State} {s : State} {code unit data : Nat} (hs : s0.Keeps s) :
    s0.Keeps (State.logEvent s code unit data) := by
  unfold State.logEvent
  repeat' with_reducible first
    | assumption
    | exact State.Keeps.refl _
    | intro _
    | lift_lets
    | apply keeps_ite
    | apply State.count_keeps
    | split
    | fail_if_no_progress refine keeps_mk rfl rfl rfl rfl rfl rfl rfl rfl rfl rfl rfl rfl rfl rfl ?_

theorem State.logFlush_keeps {s0 : State} {s : State} (hs : s0.Keeps s) :
    s0.Keeps (State.logFlush s) := by
  unfold State.logFlush
  repeat' with_reducible first
    | assumption
    | exact State.Keeps.refl _
    | intro _
    | lift_lets
    | apply keeps_ite
    | apply keeps_foldl
    | apply keeps_foldl2
    | apply keeps_foldl3
    | apply keeps_foldl4
    | split
    | fail_if_no_progress refine keeps_mk rfl rfl rfl rfl rfl rfl rfl rfl rfl rfl rfl rfl rfl rfl ?_

/-! ### Machine/MainlineRows.lean -/

theorem State.setPort_keeps {s0 : State} {s : State} {p state lanes : Nat} (hs : s0.Keeps s) :
    s0.Keeps (State.setPort s p state lanes) := by
  unfold State.setPort
  repeat' with_reducible first
    | assumption
    | exact State.Keeps.refl _
    | intro _
    | lift_lets
    | apply keeps_ite
    | apply State.setFld_keeps

theorem execPortRoleWrite_keeps {s0 : State} {fn p role : Nat} {s : State} (hs : s0.Keeps s) :
    s0.AnsKeeps (execPortRoleWrite fn p role s) := by
  unfold execPortRoleWrite
  repeat' with_reducible first
    | assumption
    | exact State.Keeps.refl _
    | intro _
    | lift_lets
    | apply keeps_ite
    | apply State.mmio_keeps
    | apply State.setFlag_keeps
    | apply State.setPort_keeps
    | apply State.wr_keeps
    | apply State.AnsKeeps.next

theorem State.cameUp_keeps {s0 : State} {s : State} {p : Nat} {q : Peer} (hs : s0.Keeps s) :
    s0.Keeps (State.cameUp s p q) := by
  unfold State.cameUp
  repeat' with_reducible first
    | assumption
    | exact State.Keeps.refl _
    | intro _
    | lift_lets
    | apply keeps_ite
    | apply State.clrFlag_keeps
    | apply State.markFound_keeps
    | apply State.noticeAll_keeps
    | apply State.putFlag_keeps
    | apply State.reviveFlows_keeps
    | apply State.setMln_keeps
    | apply State.setPort_keeps

theorem State.trained_keeps {s0 : State} {s : State} {p : Nat} {peer : Option Peer} (hs : s0.Keeps s) :
    s0.Keeps (State.trained s p peer) := by
  unfold State.trained
  repeat' with_reducible first
    | assumption
    | exact State.Keeps.refl _
    | intro _
    | lift_lets
    | apply keeps_ite
    | apply State.cameUp_keeps
    | apply State.clrFlag_keeps
    | apply State.setFlag_keeps
    | apply State.setFld_keeps
    | apply State.setPort_keeps
    | split

theorem State.reroute_keeps {s0 : State} {s : State} {p : Nat} (hs : s0.Keeps s) :
    s0.Keeps (State.reroute s p) := by
  unfold State.reroute
  repeat' with_reducible first
    | assumption
    | exact State.Keeps.refl _
    | intro _
    | lift_lets
    | apply keeps_ite
    | apply State.discard_keeps
    | apply State.setMln_keeps
    | apply keeps_foldl
    | apply keeps_foldl2
    | apply keeps_foldl3
    | apply keeps_foldl4
    | split

theorem State.writeOff_keeps {s0 : State} {s : State} {p : Nat} (hs : s0.Keeps s) :
    s0.Keeps (State.writeOff s p) := by
  unfold State.writeOff
  repeat' with_reducible first
    | assumption
    | exact State.Keeps.refl _
    | intro _
    | lift_lets
    | apply keeps_ite
    | apply State.led_keeps
    | apply State.setMln_keeps
    | apply State.unhold_keeps

theorem State.portDown_keeps {s0 : State} {s : State} {p : Nat} (hs : s0.Keeps s) :
    s0.Keeps (State.portDown s p) := by
  unfold State.portDown
  repeat' with_reducible first
    | assumption
    | exact State.Keeps.refl _
    | intro _
    | lift_lets
    | apply keeps_ite
    | apply State.count_keeps
    | apply State.declareFlows_keeps
    | apply State.markLost_keeps
    | apply State.noticeAll_keeps
    | apply State.reroute_keeps
    | apply State.setMln_keeps
    | apply State.setPort_keeps
    | apply State.writeOff_keeps

theorem execPortDown_keeps {s0 : State} {p : Nat} {s : State} (hs : s0.Keeps s) :
    s0.AnsKeeps (execPortDown p s) := by
  unfold execPortDown
  repeat' with_reducible first
    | assumption
    | exact State.Keeps.refl _
    | intro _
    | lift_lets
    | apply keeps_ite
    | apply State.portDown_keeps
    | apply State.AnsKeeps.next

theorem State.retrain_keeps {s0 : State} {s : State} {p : Nat} (hs : s0.Keeps s) :
    s0.Keeps (State.retrain s p) := by
  unfold State.retrain
  repeat' with_reducible first
    | assumption
    | exact State.Keeps.refl _
    | intro _
    | lift_lets
    | apply keeps_ite
    | apply State.setMln_keeps
    | apply State.setPort_keeps

theorem execPortTrainingDone_keeps {s0 : State} {p : Nat} {peer : Option Peer} {s : State} (hs : s0.Keeps s) :
    s0.AnsKeeps (execPortTrainingDone p peer s) := by
  unfold execPortTrainingDone
  repeat' with_reducible first
    | assumption
    | exact State.Keeps.refl _
    | intro _
    | lift_lets
    | apply keeps_ite
    | apply State.portDown_keeps
    | apply State.trained_keeps
    | apply State.AnsKeeps.next

theorem execPortRetrainAttempt_keeps {s0 : State} {p : Nat} {peer : Option Peer} {s : State} (hs : s0.Keeps s) :
    s0.AnsKeeps (execPortRetrainAttempt p peer s) := by
  unfold execPortRetrainAttempt
  repeat' with_reducible first
    | assumption
    | exact State.Keeps.refl _
    | intro _
    | lift_lets
    | apply keeps_ite
    | apply State.trained_keeps
    | apply State.AnsKeeps.next

theorem State.adoptWindows_keeps {s0 : State} {s : State} (hs : s0.Keeps s) :
    s0.Keeps (State.adoptWindows s) := by
  unfold State.adoptWindows
  repeat' with_reducible first
    | assumption
    | exact State.Keeps.refl _
    | intro _
    | lift_lets
    | apply keeps_ite
    | apply State.adopt_keeps
    | apply keeps_foldl

theorem State.settleSlots_keeps {s0 : State} {s : State} (hs : s0.Keeps s) :
    s0.Keeps (State.settleSlots s) := by
  unfold State.settleSlots
  repeat' with_reducible first
    | assumption
    | exact State.Keeps.refl _
    | intro _
    | lift_lets
    | apply keeps_ite
    | apply State.led_keeps

theorem execFrameBoundary_keeps {s0 : State} {s : State} (hs : s0.Keeps s) :
    s0.AnsKeeps (execFrameBoundary s) := by
  unfold execFrameBoundary
  repeat' with_reducible first
    | assumption
    | exact State.Keeps.refl _
    | intro _
    | lift_lets
    | apply keeps_ite
    | apply State.adoptWindows_keeps
    | apply State.count_keeps
    | apply State.reviveFlows_keeps
    | apply State.setFlag_keeps
    | apply State.setMln_keeps
    | apply State.settleSlots_keeps
    | apply State.AnsKeeps.next

theorem State.sendMsg_keeps {s0 : State} {s : State} {p : Nat} {m : Msg} (hs : s0.Keeps s) :
    s0.Keeps (State.sendMsg s p m) := by
  unfold State.sendMsg
  repeat' with_reducible first
    | assumption
    | exact State.Keeps.refl _
    | intro _
    | lift_lets
    | apply keeps_ite
    | apply State.emit_keeps
    | apply State.withFree_keeps

theorem State.sendSlot_keeps {s0 : State} {s : State} {p : Nat} (hs : s0.Keeps s) :
    s0.Keeps (State.sendSlot s p) := by
  unfold State.sendSlot
  repeat' with_reducible first
    | assumption
    | exact State.Keeps.refl _
    | intro _
    | lift_lets
    | apply keeps_ite
    | apply State.count_keeps
    | apply State.hit_keeps
    | apply State.led_keeps
    | apply State.owe_keeps
    | apply State.sendMsg_keeps
    | apply State.setMln_keeps
    | apply State.unhold_keeps
    | apply keeps_foldl

theorem State.payCredits_keeps {s0 : State} {s : State} {p : Nat} (hs : s0.Keeps s) :
    s0.Keeps (State.payCredits s p) := by
  unfold State.payCredits
  repeat' with_reducible first
    | assumption
    | exact State.Keeps.refl _
    | intro _
    | lift_lets
    | apply keeps_ite
    | apply State.emit_keeps
    | apply State.setMln_keeps
    | apply keeps_foldl

theorem State.creditBack_keeps {s0 : State} {s : State} {p : Nat} {e : Nat × Nat} (hs : s0.Keeps s) :
    s0.Keeps (State.creditBack s p e) := by
  unfold State.creditBack
  repeat' with_reducible first
    | assumption
    | exact State.Keeps.refl _
    | intro _
    | lift_lets
    | apply keeps_ite
    | apply State.led_keeps
    | apply State.setMln_keeps
    | apply State.unhold_keeps

theorem execControlWindow_keeps {s0 : State} {heard : List Heard} {s : State} (hs : s0.Keeps s) :
    s0.AnsKeeps (execControlWindow heard s) := by
  unfold execControlWindow
  repeat' with_reducible first
    | assumption
    | exact State.Keeps.refl _
    | intro _
    | lift_lets
    | apply keeps_ite
    | apply State.clrFlag_keeps
    | apply State.creditBack_keeps
    | apply State.declareFlows_keeps
    | apply State.payCredits_keeps
    | apply State.reviveFlows_keeps
    | apply State.sendSlot_keeps
    | apply State.setFlag_keeps
    | apply State.setMln_keeps
    | apply State.wr_keeps
    | apply State.AnsKeeps.next
    | apply keeps_foldl
    | apply keeps_foldl2
    | apply keeps_foldl3
    | apply keeps_foldl4
    | split

theorem execMessageForward_keeps {s0 : State} {m : Msg} {s : State} (hs : s0.Keeps s) :
    s0.AnsKeeps (execMessageForward m s) := by
  unfold execMessageForward
  repeat' with_reducible first
    | assumption
    | exact State.Keeps.refl _
    | intro _
    | lift_lets
    | apply keeps_ite
    | apply State.count_keeps
    | apply State.freed_keeps
    | apply State.passOn_keeps
    | apply State.AnsKeeps.next

theorem execWriteReceive_keeps {s0 : State} {m : Msg} {s : State} (hs : s0.Keeps s) :
    s0.AnsKeeps (execWriteReceive m s) := by
  unfold execWriteReceive
  repeat' with_reducible first
    | assumption
    | exact State.Keeps.refl _
    | intro _
    | lift_lets
    | apply keeps_ite
    | apply State.receive_keeps
    | apply State.AnsKeeps.next

theorem execReadReceive_keeps {s0 : State} {m : Msg} {s : State} (hs : s0.Keeps s) :
    s0.AnsKeeps (execReadReceive m s) := by
  unfold execReadReceive
  repeat' with_reducible first
    | assumption
    | exact State.Keeps.refl _
    | intro _
    | lift_lets
    | apply keeps_ite
    | apply State.receive_keeps
    | apply State.AnsKeeps.next

theorem execRemoteSignalReceive_keeps {s0 : State} {m : Msg} {s : State} (hs : s0.Keeps s) :
    s0.AnsKeeps (execRemoteSignalReceive m s) := by
  unfold execRemoteSignalReceive
  repeat' with_reducible first
    | assumption
    | exact State.Keeps.refl _
    | intro _
    | lift_lets
    | apply keeps_ite
    | apply State.receive_keeps
    | apply State.AnsKeeps.next

theorem execMlnAck_keeps {s0 : State} {m : Msg} {s : State} (hs : s0.Keeps s) :
    s0.AnsKeeps (execMlnAck m s) := by
  unfold execMlnAck
  repeat' with_reducible first
    | assumption
    | exact State.Keeps.refl _
    | intro _
    | lift_lets
    | apply keeps_ite
    | apply State.count_keeps
    | apply State.freed_keeps
    | apply State.led_keeps
    | apply State.passed_keeps
    | apply State.setMln_keeps
    | apply State.unhold_keeps
    | apply State.AnsKeeps.next

theorem execAckSend_keeps {s0 : State} {src : Nat} {s : State} (hs : s0.Keeps s) :
    s0.AnsKeeps (execAckSend src s) := by
  unfold execAckSend
  repeat' with_reducible first
    | assumption
    | exact State.Keeps.refl _
    | intro _
    | lift_lets
    | apply keeps_ite
    | apply State.ackTo_keeps
    | apply State.AnsKeeps.next

theorem State.onNotice_keeps {s0 : State} {s : State} {k : Nat} {m : Msg} {act : State → State} (hs : s0.Keeps s) (hact : ∀ (x : State), s0.Keeps x → s0.Keeps (act x)) :
    s0.Keeps (State.onNotice s k m act) := by
  unfold State.onNotice
  repeat' with_reducible first
    | assumption
    | exact State.Keeps.refl _
    | intro _
    | lift_lets
    | apply keeps_ite
    | apply hact
    | apply State.count_keeps
    | apply State.freed_keeps
    | apply State.passOn_keeps
    | apply State.passed_keeps

theorem State.hearLinkDown_keeps {s0 : State} {m : Msg} {s : State} (hs : s0.Keeps s) :
    s0.Keeps (State.hearLinkDown m s) := by
  unfold State.hearLinkDown
  repeat' with_reducible first
    | assumption
    | exact State.Keeps.refl _
    | intro _
    | lift_lets
    | apply keeps_ite
    | apply State.declareFlows_keeps
    | apply State.markLost_keeps
    | apply State.setMln_keeps

theorem State.hearLinkUp_keeps {s0 : State} {m : Msg} {s : State} (hs : s0.Keeps s) :
    s0.Keeps (State.hearLinkUp m s) := by
  unfold State.hearLinkUp
  repeat' with_reducible first
    | assumption
    | exact State.Keeps.refl _
    | intro _
    | lift_lets
    | apply keeps_ite
    | apply State.markFound_keeps
    | apply State.setMln_keeps

theorem State.hearPeerDown_keeps {s0 : State} {m : Msg} {s : State} (hs : s0.Keeps s) :
    s0.Keeps (State.hearPeerDown m s) := by
  unfold State.hearPeerDown
  repeat' with_reducible first
    | assumption
    | exact State.Keeps.refl _
    | intro _
    | lift_lets
    | apply keeps_ite
    | apply State.declareFlows_keeps
    | apply State.markLost_keeps
    | apply State.setMln_keeps

theorem State.hearFlowDown_keeps {s0 : State} {m : Msg} {s : State} (hs : s0.Keeps s) :
    s0.Keeps (State.hearFlowDown m s) := by
  unfold State.hearFlowDown
  repeat' with_reducible first
    | assumption
    | exact State.Keeps.refl _
    | intro _
    | lift_lets
    | apply keeps_ite
    | apply State.declareFlow_keeps
    | split

theorem State.hearEpoch_keeps {s0 : State} {m : Msg} {s : State} (hs : s0.Keeps s) :
    s0.Keeps (State.hearEpoch m s) := by
  unfold State.hearEpoch
  repeat' with_reducible first
    | assumption
    | exact State.Keeps.refl _
    | intro _
    | lift_lets
    | apply keeps_ite
    | apply State.declareFlows_keeps
    | apply State.matchEpochs_keeps
    | apply State.reviveFlows_keeps
    | apply State.setMln_keeps

theorem State.hearPairReset_keeps {s0 : State} {m : Msg} {s : State} (hs : s0.Keeps s) :
    s0.Keeps (State.hearPairReset m s) := by
  unfold State.hearPairReset
  repeat' with_reducible first
    | assumption
    | exact State.Keeps.refl _
    | intro _
    | lift_lets
    | apply keeps_ite
    | apply State.notice_keeps
    | apply State.setMln_keeps

theorem execLinkDown_keeps {s0 : State} {m : Msg} {s : State} (hs : s0.Keeps s) :
    s0.AnsKeeps (execLinkDown m s) := by
  unfold execLinkDown
  repeat' with_reducible first
    | assumption
    | exact State.Keeps.refl _
    | intro _
    | lift_lets
    | apply keeps_ite
    | apply State.hearLinkDown_keeps
    | apply State.onNotice_keeps
    | apply State.AnsKeeps.next

theorem execLinkUp_keeps {s0 : State} {m : Msg} {s : State} (hs : s0.Keeps s) :
    s0.AnsKeeps (execLinkUp m s) := by
  unfold execLinkUp
  repeat' with_reducible first
    | assumption
    | exact State.Keeps.refl _
    | intro _
    | lift_lets
    | apply keeps_ite
    | apply State.hearLinkUp_keeps
    | apply State.onNotice_keeps
    | apply State.AnsKeeps.next

theorem execPeerDown_keeps {s0 : State} {m : Msg} {s : State} (hs : s0.Keeps s) :
    s0.AnsKeeps (execPeerDown m s) := by
  unfold execPeerDown
  repeat' with_reducible first
    | assumption
    | exact State.Keeps.refl _
    | intro _
    | lift_lets
    | apply keeps_ite
    | apply State.hearPeerDown_keeps
    | apply State.onNotice_keeps
    | apply State.AnsKeeps.next

theorem execFlowLate_keeps {s0 : State} {m : Msg} {s : State} (hs : s0.Keeps s) :
    s0.AnsKeeps (execFlowLate m s) := by
  unfold execFlowLate
  repeat' with_reducible first
    | assumption
    | exact State.Keeps.refl _
    | intro _
    | lift_lets
    | apply keeps_ite
    | apply State.declareFlow_keeps
    | apply State.onNotice_keeps
    | apply State.AnsKeeps.next

theorem execFlowDown_keeps {s0 : State} {m : Msg} {s : State} (hs : s0.Keeps s) :
    s0.AnsKeeps (execFlowDown m s) := by
  unfold execFlowDown
  repeat' with_reducible first
    | assumption
    | exact State.Keeps.refl _
    | intro _
    | lift_lets
    | apply keeps_ite
    | apply State.hearFlowDown_keeps
    | apply State.onNotice_keeps
    | apply State.AnsKeeps.next

theorem execMlnEpoch_keeps {s0 : State} {m : Msg} {s : State} (hs : s0.Keeps s) :
    s0.AnsKeeps (execMlnEpoch m s) := by
  unfold execMlnEpoch
  repeat' with_reducible first
    | assumption
    | exact State.Keeps.refl _
    | intro _
    | lift_lets
    | apply keeps_ite
    | apply State.hearEpoch_keeps
    | apply State.onNotice_keeps
    | apply State.AnsKeeps.next

theorem execPairReset_keeps {s0 : State} {m : Msg} {s : State} (hs : s0.Keeps s) :
    s0.AnsKeeps (execPairReset m s) := by
  unfold execPairReset
  repeat' with_reducible first
    | assumption
    | exact State.Keeps.refl _
    | intro _
    | lift_lets
    | apply keeps_ite
    | apply State.hearPairReset_keeps
    | apply State.onNotice_keeps
    | apply State.AnsKeeps.next

theorem execBlockCrcError_keeps {s0 : State} {p lane : Nat} {s : State} (hs : s0.Keeps s) :
    s0.AnsKeeps (execBlockCrcError p lane s) := by
  unfold execBlockCrcError
  repeat' with_reducible first
    | assumption
    | exact State.Keeps.refl _
    | intro _
    | lift_lets
    | apply keeps_ite
    | apply State.count_keeps
    | apply State.detect_keeps
    | apply State.emit_keeps
    | apply State.partEvent_keeps
    | apply State.AnsKeeps.next

theorem execReplayRequest_keeps {s0 : State} {p : Nat} {again : Bool} {delayed : List Nat} {s : State} (hs : s0.Keeps s) :
    s0.AnsKeeps (execReplayRequest p again delayed s) := by
  unfold execReplayRequest
  repeat' with_reducible first
    | assumption
    | exact State.Keeps.refl _
    | intro _
    | lift_lets
    | apply keeps_ite
    | apply State.count_keeps
    | apply State.declareFlow_keeps
    | apply State.hit_keeps
    | apply State.retrain_keeps
    | apply State.setMln_keeps
    | apply State.AnsKeeps.next
    | apply keeps_foldl

theorem execLinkMaintOverrun_keeps {s0 : State} {p slot : Nat} {s : State} (hs : s0.Keeps s) :
    s0.AnsKeeps (execLinkMaintOverrun p slot s) := by
  unfold execLinkMaintOverrun
  repeat' with_reducible first
    | assumption
    | exact State.Keeps.refl _
    | intro _
    | lift_lets
    | apply keeps_ite
    | apply State.declareFlow_keeps
    | apply State.setFlag_keeps
    | apply State.trace_keeps
    | apply State.AnsKeeps.next

theorem State.installTimetable_keeps {s0 : State} {s : State} {t : Timetable} (hs : s0.Keeps s) :
    s0.Keeps (State.installTimetable s t) := by
  unfold State.installTimetable
  repeat' with_reducible first
    | assumption
    | exact State.Keeps.refl _
    | intro _
    | lift_lets
    | apply keeps_ite
    | apply State.clrFlag_keeps
    | apply State.matchEpochs_keeps
    | apply State.noticeAll_keeps
    | apply State.setMln_keeps
    | apply State.wr_keeps

theorem execTimetableInstall_keeps {s0 : State} {s : State} (hs : s0.Keeps s) :
    s0.AnsKeeps (execTimetableInstall s) := by
  unfold execTimetableInstall
  repeat' with_reducible first
    | assumption
    | exact State.Keeps.refl _
    | intro _
    | lift_lets
    | apply keeps_ite
    | apply State.installTimetable_keeps
    | apply State.AnsKeeps.next
    | split

/-! ### Machine/Rdma.lean -/

theorem State.setQp_keeps {s0 s : State} {q : Nat} {x : Option Qp} (hs : s0.Keeps s) : s0.Keeps (s.setQp q x) :=
  State.putFlag_keeps (hs.table rfl (fun k => { k with qps := SMap.put_canon k.qps q x }) rfl rfl rfl rfl)

theorem State.send1_keeps {s0 : State} {s : State} {o : Out} (hs : s0.Keeps s) :
    s0.Keeps (State.send1 s o) := by
  unfold State.send1
  repeat' with_reducible first
    | assumption
    | exact State.Keeps.refl _
    | intro _
    | lift_lets
    | apply keeps_ite
    | apply State.emit_keeps
    | apply State.hit_keeps

theorem State.ack_keeps {s0 : State} {s : State} {x : Qp} {psn nak : Nat} (hs : s0.Keeps s) :
    s0.Keeps (State.ack s x psn nak) := by
  unfold State.ack
  repeat' with_reducible first
    | assumption
    | exact State.Keeps.refl _
    | intro _
    | lift_lets
    | apply keeps_ite
    | apply State.send1_keeps

theorem State.qpRead_keeps {s0 : State} {s : State} {q : Nat} {x : Qp} {a len : Nat} (hs : s0.Keeps s) :
    s0.Keeps (State.qpRead s q x a len).2 := by
  unfold State.qpRead
  repeat' with_reducible first
    | assumption
    | exact State.Keeps.refl _
    | intro _
    | lift_lets
    | apply keeps_ite
    | apply State.busRead_keeps
    | apply State.vaRead_keeps
    | split
    | fail_if_no_progress refine keeps_mk rfl rfl rfl rfl rfl rfl rfl rfl rfl rfl rfl rfl rfl rfl ?_
    | refine keeps_eq2 ?_ (by assumption)

theorem State.qpWrite_keeps {s0 : State} {s : State} {q : Nat} {x : Qp} {a : Nat} {b : List Byte} (hs : s0.Keeps s) :
    s0.Keeps (State.qpWrite s q x a b).2 := by
  unfold State.qpWrite
  repeat' with_reducible first
    | assumption
    | exact State.Keeps.refl _
    | intro _
    | lift_lets
    | apply keeps_ite
    | apply State.busWrite_keeps
    | apply State.vaWrite_keeps
    | split
    | fail_if_no_progress refine keeps_mk rfl rfl rfl rfl rfl rfl rfl rfl rfl rfl rfl rfl rfl rfl ?_
    | refine keeps_eq2 ?_ (by assumption)

theorem State.sendDone_keeps {s0 : State} {s : State} {q : Nat} {x : Qp} {i status : Nat} {event : Bool} (hs : s0.Keeps s) :
    s0.Keeps (State.sendDone s q x i status event) := by
  unfold State.sendDone
  repeat' with_reducible first
    | assumption
    | exact State.Keeps.refl _
    | intro _
    | lift_lets
    | apply keeps_ite
    | apply State.qpWrite_keeps
    | apply State.sendVector_keeps
    | apply State.setFld_keeps

theorem State.recvDone_keeps {s0 : State} {s : State} {q : Nat} {x : Qp} {i status : Nat} (hs : s0.Keeps s) :
    s0.Keeps (State.recvDone s q x i status) := by
  unfold State.recvDone
  repeat' with_reducible first
    | assumption
    | exact State.Keeps.refl _
    | intro _
    | lift_lets
    | apply keeps_ite
    | apply State.qpWrite_keeps
    | apply State.setFld_keeps

theorem State.wantsEvent_keeps {s0 : State} {s : State} {q : Nat} {x : Qp} {i : Nat} (hs : s0.Keeps s) :
    s0.Keeps (State.wantsEvent s q x i).2 := by
  unfold State.wantsEvent
  repeat' with_reducible first
    | assumption
    | exact State.Keeps.refl _
    | intro _
    | lift_lets
    | apply keeps_ite
    | apply State.qpRead_keeps
    | split
    | fail_if_no_progress refine keeps_mk rfl rfl rfl rfl rfl rfl rfl rfl rfl rfl rfl rfl rfl rfl ?_
    | refine keeps_eq2 ?_ (by assumption)

theorem State.qpFlush_keeps {s0 : State} {s : State} {q : Nat} {x : Qp} {code : Nat} {fail : Failing} (hs : s0.Keeps s) :
    s0.Keeps (State.qpFlush s q x code fail) := by
  unfold State.qpFlush
  repeat' with_reducible first
    | assumption
    | exact State.Keeps.refl _
    | intro _
    | lift_lets
    | apply keeps_ite
    | apply State.receive_keeps
    | apply State.recvDone_keeps
    | apply State.sendDone_keeps
    | apply State.wantsEvent_keeps
    | apply keeps_foldl

theorem State.qpError_keeps {s0 : State} {s : State} {q code : Nat} {fail : Failing} (hs : s0.Keeps s) :
    s0.Keeps (State.qpError s q code fail) := by
  unfold State.qpError
  repeat' with_reducible first
    | assumption
    | exact State.Keeps.refl _
    | intro _
    | lift_lets
    | apply keeps_ite
    | apply State.qpFlush_keeps
    | apply State.raiseCause_keeps
    | apply State.setFld_keeps
    | apply State.setQp_keeps
    | apply keeps_getD
    | split

theorem State.qpRetire_keeps {s0 s : State} {q fuel : Nat} (hs : s0.Keeps s) :
    s0.Keeps (State.qpRetire s q fuel) := by
  induction fuel generalizing s with
  | zero =>
    unfold State.qpRetire
    exact hs
  | succ n ih =>
    unfold State.qpRetire
    repeat' with_reducible first
      | assumption
      | exact State.Keeps.refl _
      | intro _
      | lift_lets
      | apply keeps_ite
      | apply ih
      | apply State.sendDone_keeps
      | apply State.setQp_keeps
      | split
      | fail_if_no_progress refine keeps_mk rfl rfl rfl rfl rfl rfl rfl rfl rfl rfl rfl rfl rfl rfl ?_
      | refine keeps_eq2 ?_ (by assumption)
      | refine keeps_eq3 ?_ (by assumption)
      | refine keeps_eq4 ?_ (by assumption)
      | refine keeps_eqs ?_ (by assumption)
      | refine keeps_eqo ?_ (by assumption)
      | refine keeps_eqo2 ?_ (by assumption)
      | refine keeps_eqo3 ?_ (by assumption)
      | dsimp only [id]

theorem execQpReady_keeps {s0 : State} {fn qp : Nat} {s : State} (hs : s0.Keeps s) :
    s0.AnsKeeps (execQpReady fn qp s) := by
  unfold execQpReady
  repeat' with_reducible first
    | assumption
    | exact State.Keeps.refl _
    | intro _
    | lift_lets
    | apply keeps_ite
    | apply State.memRead_keeps
    | apply State.mmio_keeps
    | apply State.setFlag_keeps
    | apply State.setQp_keeps
    | apply State.wr_keeps
    | apply State.AnsKeeps.next

theorem execQpReset_keeps {s0 : State} {fn qp : Nat} {s : State} (hs : s0.Keeps s) :
    s0.AnsKeeps (execQpReset fn qp s) := by
  unfold execQpReset
  repeat' with_reducible first
    | assumption
    | exact State.Keeps.refl _
    | intro _
    | lift_lets
    | apply keeps_ite
    | apply State.mmio_keeps
    | apply State.qpFlush_keeps
    | apply State.setQp_keeps
    | apply State.wr_keeps
    | apply State.AnsKeeps.next
    | split

theorem State.post_keeps {s0 : State} {s : State} {q sq rq : Nat} (hs : s0.Keeps s) :
    s0.Keeps (State.post s q sq rq) := by
  unfold State.post
  repeat' with_reducible first
    | assumption
    | exact State.Keeps.refl _
    | intro _
    | lift_lets
    | apply keeps_ite
    | apply State.count_keeps
    | apply State.qpFlush_keeps
    | apply State.setQp_keeps
    | split

theorem execQpDoorbell_keeps {s0 : State} {fn qp : Nat} {db : BitVec 32} {s : State} (hs : s0.Keeps s) :
    s0.AnsKeeps (execQpDoorbell fn qp db s) := by
  unfold execQpDoorbell
  repeat' with_reducible first
    | assumption
    | exact State.Keeps.refl _
    | intro _
    | lift_lets
    | apply keeps_ite
    | apply State.mmio_keeps
    | apply State.post_keeps
    | apply State.AnsKeeps.next

theorem execProducerPoll_keeps {s0 : State} {qp : Nat} {host : HostData} {s : State} (hs : s0.Keeps s) :
    s0.AnsKeeps (execProducerPoll qp host s) := by
  unfold execProducerPoll
  repeat' with_reducible first
    | assumption
    | exact State.Keeps.refl _
    | intro _
    | lift_lets
    | apply keeps_ite
    | apply State.post_keeps
    | apply State.qpError_keeps
    | apply State.qpRead_keeps
    | apply State.withHost_keeps
    | apply State.AnsKeeps.next
    | split
    | fail_if_no_progress refine keeps_mk rfl rfl rfl rfl rfl rfl rfl rfl rfl rfl rfl rfl rfl rfl ?_
    | refine keeps_eq2 ?_ (by assumption)

theorem State.sendWqe_keeps {s0 : State} {s : State} {x : Qp} {w : Wqe} {data : List Byte} (hs : s0.Keeps s) :
    s0.Keeps (State.sendWqe s x w data) := by
  unfold State.sendWqe
  repeat' with_reducible first
    | assumption
    | exact State.Keeps.refl _
    | intro _
    | lift_lets
    | apply keeps_ite
    | apply State.emit_keeps
    | apply State.hit_keeps

theorem State.sendRow_keeps {s0 : State} {s : State} {q op : Nat} {host : HostData} (hs : s0.Keeps s) :
    s0.Keeps (State.sendRow s q op host) := by
  unfold State.sendRow
  repeat' with_reducible first
    | assumption
    | exact State.Keeps.refl _
    | intro _
    | lift_lets
    | apply keeps_ite
    | apply State.emit_keeps
    | apply State.qpError_keeps
    | apply State.qpRead_keeps
    | apply State.sendDone_keeps
    | apply State.sendWqe_keeps
    | apply State.setQp_keeps
    | apply State.withHost_keeps
    | split
    | fail_if_no_progress refine keeps_mk rfl rfl rfl rfl rfl rfl rfl rfl rfl rfl rfl rfl rfl rfl ?_
    | refine keeps_eq2 ?_ (by assumption)

theorem execSend_keeps {s0 : State} {qp : Nat} {host : HostData} {s : State} (hs : s0.Keeps s) :
    s0.AnsKeeps (execSend qp host s) := by
  unfold execSend
  repeat' with_reducible first
    | assumption
    | exact State.Keeps.refl _
    | intro _
    | lift_lets
    | apply keeps_ite
    | apply State.sendRow_keeps
    | apply State.AnsKeeps.next

theorem execSendImm_keeps {s0 : State} {qp : Nat} {host : HostData} {s : State} (hs : s0.Keeps s) :
    s0.AnsKeeps (execSendImm qp host s) := by
  unfold execSendImm
  repeat' with_reducible first
    | assumption
    | exact State.Keeps.refl _
    | intro _
    | lift_lets
    | apply keeps_ite
    | apply State.sendRow_keeps
    | apply State.AnsKeeps.next

theorem execRdmaWrite_keeps {s0 : State} {qp : Nat} {host : HostData} {s : State} (hs : s0.Keeps s) :
    s0.AnsKeeps (execRdmaWrite qp host s) := by
  unfold execRdmaWrite
  repeat' with_reducible first
    | assumption
    | exact State.Keeps.refl _
    | intro _
    | lift_lets
    | apply keeps_ite
    | apply State.sendRow_keeps
    | apply State.AnsKeeps.next

theorem execWriteImm_keeps {s0 : State} {qp : Nat} {host : HostData} {s : State} (hs : s0.Keeps s) :
    s0.AnsKeeps (execWriteImm qp host s) := by
  unfold execWriteImm
  repeat' with_reducible first
    | assumption
    | exact State.Keeps.refl _
    | intro _
    | lift_lets
    | apply keeps_ite
    | apply State.sendRow_keeps
    | apply State.AnsKeeps.next

theorem execRdmaRead_keeps {s0 : State} {qp : Nat} {host : HostData} {s : State} (hs : s0.Keeps s) :
    s0.AnsKeeps (execRdmaRead qp host s) := by
  unfold execRdmaRead
  repeat' with_reducible first
    | assumption
    | exact State.Keeps.refl _
    | intro _
    | lift_lets
    | apply keeps_ite
    | apply State.sendRow_keeps
    | apply State.AnsKeeps.next

theorem execRdmaAck_keeps {s0 : State} {qp psn : Nat} {s : State} (hs : s0.Keeps s) :
    s0.AnsKeeps (execRdmaAck qp psn s) := by
  unfold execRdmaAck
  repeat' with_reducible first
    | assumption
    | exact State.Keeps.refl _
    | intro _
    | lift_lets
    | apply keeps_ite
    | apply State.hit_keeps
    | apply State.qpRetire_keeps
    | apply State.setQp_keeps
    | apply State.AnsKeeps.next
    | split

theorem execRdmaReadResponse_keeps {s0 : State} {qp : Nat} {data : List Byte} {s : State} (hs : s0.Keeps s) :
    s0.AnsKeeps (execRdmaReadResponse qp data s) := by
  unfold execRdmaReadResponse
  repeat' with_reducible first
    | assumption
    | exact State.Keeps.refl _
    | intro _
    | lift_lets
    | apply keeps_ite
    | apply State.hit_keeps
    | apply State.qpError_keeps
    | apply State.qpRetire_keeps
    | apply State.qpWrite_keeps
    | apply State.setQp_keeps
    | apply State.AnsKeeps.next
    | split
    | fail_if_no_progress refine keeps_mk rfl rfl rfl rfl rfl rfl rfl rfl rfl rfl rfl rfl rfl rfl ?_
    | refine keeps_eq2 ?_ (by assumption)

theorem State.resend_keeps {s0 : State} {s : State} {q : Nat} {x : Qp} (hs : s0.Keeps s) :
    s0.Keeps (State.resend s q x) := by
  unfold State.resend
  repeat' with_reducible first
    | assumption
    | exact State.Keeps.refl _
    | intro _
    | lift_lets
    | apply keeps_ite
    | apply State.qpError_keeps
    | apply State.qpRead_keeps
    | apply State.sendWqe_keeps
    | apply State.setQp_keeps
    | apply keeps_foldl
    | apply keeps_foldl2
    | apply keeps_foldl3
    | apply keeps_foldl4
    | split
    | fail_if_no_progress refine keeps_mk rfl rfl rfl rfl rfl rfl rfl rfl rfl rfl rfl rfl rfl rfl ?_
    | refine keeps_eq2 ?_ (by assumption)

theorem execAckTimeout_keeps {s0 : State} {qp : Nat} {host : HostData} {s : State} (hs : s0.Keeps s) :
    s0.AnsKeeps (execAckTimeout qp host s) := by
  unfold execAckTimeout
  repeat' with_reducible first
    | assumption
    | exact State.Keeps.refl _
    | intro _
    | lift_lets
    | apply keeps_ite
    | apply State.qpError_keeps
    | apply State.resend_keeps
    | apply State.setQp_keeps
    | apply State.withHost_keeps
    | apply State.AnsKeeps.next
    | split

theorem execRnrNakReceive_keeps {s0 : State} {qp : Nat} {host : HostData} {s : State} (hs : s0.Keeps s) :
    s0.AnsKeeps (execRnrNakReceive qp host s) := by
  unfold execRnrNakReceive
  repeat' with_reducible first
    | assumption
    | exact State.Keeps.refl _
    | intro _
    | lift_lets
    | apply keeps_ite
    | apply State.hit_keeps
    | apply State.qpError_keeps
    | apply State.resend_keeps
    | apply State.setQp_keeps
    | apply State.withHost_keeps
    | apply State.AnsKeeps.next
    | split

theorem execRemoteAccessNak_keeps {s0 : State} {qp : Nat} {invalid : Bool} {s : State} (hs : s0.Keeps s) :
    s0.AnsKeeps (execRemoteAccessNak qp invalid s) := by
  unfold execRemoteAccessNak
  repeat' with_reducible first
    | assumption
    | exact State.Keeps.refl _
    | intro _
    | lift_lets
    | apply keeps_ite
    | apply State.hit_keeps
    | apply State.qpError_keeps
    | apply State.AnsKeeps.next
    | split

theorem State.notify_keeps {s0 : State} {s : State} {m : Inbound} {x : Qp} (hs : s0.Keeps s) :
    s0.Keeps (State.notify s m x) := by
  unfold State.notify
  repeat' with_reducible first
    | assumption
    | exact State.Keeps.refl _
    | intro _
    | lift_lets
    | apply keeps_ite
    | apply State.count_keeps
    | apply State.send1_keeps
    | split
    | fail_if_no_progress refine keeps_mk rfl rfl rfl rfl rfl rfl rfl rfl rfl rfl rfl rfl rfl rfl ?_

theorem State.gate_keeps {s0 : State} {s : State} {m : Inbound} (hs : s0.Keeps s) :
    s0.Keeps (State.gate s m).2 := by
  unfold State.gate
  repeat' with_reducible first
    | assumption
    | exact State.Keeps.refl _
    | intro _
    | lift_lets
    | apply keeps_ite
    | apply State.ack_keeps
    | apply State.count_keeps
    | apply State.hit_keeps
    | apply State.notify_keeps
    | apply State.send1_keeps
    | split

theorem State.arrive_keeps {s0 : State} {s : State} {m : Inbound} {act : Qp → State → State} (hs : s0.Keeps s) (hact : ∀ (x : Qp) (y : State), s0.Keeps y → s0.Keeps (act x y)) :
    s0.Keeps (State.arrive s m act) := by
  unfold State.arrive
  repeat' with_reducible first
    | assumption
    | exact State.Keeps.refl _
    | intro _
    | lift_lets
    | apply keeps_ite
    | apply hact
    | apply State.gate_keeps
    | split
    | fail_if_no_progress refine keeps_mk rfl rfl rfl rfl rfl rfl rfl rfl rfl rfl rfl rfl rfl rfl ?_
    | refine keeps_eq2 ?_ (by assumption)

theorem State.refuseIn_keeps {s0 : State} {s : State} {q : Nat} {x : Qp} {psn nak code : Nat} {fail : Failing} (hs : s0.Keeps s) :
    s0.Keeps (State.refuseIn s q x psn nak code fail) := by
  unfold State.refuseIn
  repeat' with_reducible first
    | assumption
    | exact State.Keeps.refl _
    | intro _
    | lift_lets
    | apply keeps_ite
    | apply State.ack_keeps
    | apply State.count_keeps
    | apply State.qpError_keeps

theorem State.region_keeps {s0 : State} {s : State} {i : Nat} (hs : s0.Keeps s) :
    s0.Keeps (State.region s i).2.2 := by
  unfold State.region
  repeat' with_reducible first
    | assumption
    | exact State.Keeps.refl _
    | intro _
    | lift_lets
    | apply keeps_ite
    | apply State.memRead_keeps
    | split
    | fail_if_no_progress refine keeps_mk rfl rfl rfl rfl rfl rfl rfl rfl rfl rfl rfl rfl rfl rfl ?_
    | refine keeps_eq2 ?_ (by assumption)
    | refine keeps_eq3 ?_ (by assumption)

theorem State.regionFor_keeps {s0 : State} {s : State} {x : Qp} {rkey va len : Nat} {write : Bool} (hs : s0.Keeps s) :
    s0.Keeps (State.regionFor s x rkey va len write).2 := by
  unfold State.regionFor
  repeat' with_reducible first
    | assumption
    | exact State.Keeps.refl _
    | intro _
    | lift_lets
    | apply keeps_ite
    | apply State.region_keeps
    | apply State.xlate_keeps
    | apply keeps_foldl
    | apply keeps_foldl2
    | apply keeps_foldl3
    | apply keeps_foldl4
    | split
    | fail_if_no_progress refine keeps_mk rfl rfl rfl rfl rfl rfl rfl rfl rfl rfl rfl rfl rfl rfl ?_
    | refine keeps_eq2 ?_ (by assumption)
    | refine keeps_eq3 ?_ (by assumption)
    | refine keeps_eq4 ?_ (by assumption)
    | refine keeps_eqs ?_ (by assumption)
    | refine keeps_eqo ?_ (by assumption)
    | refine keeps_eqo2 ?_ (by assumption)
    | refine keeps_eqo3 ?_ (by assumption)
    | dsimp only [id]

theorem State.consume_keeps {s0 : State} {s : State} {q : Nat} {x : Qp} {psn : Nat} {data : List Byte} {imm : Option (BitVec 32)} {raw : Bool} (hs : s0.Keeps s) :
    s0.Keeps (State.consume s q x psn data imm raw) := by
  unfold State.consume
  repeat' with_reducible first
    | assumption
    | exact State.Keeps.refl _
    | intro _
    | lift_lets
    | apply keeps_ite
    | apply State.ack_keeps
    | apply State.qpError_keeps
    | apply State.qpRead_keeps
    | apply State.qpWrite_keeps
    | apply State.receive_keeps
    | apply State.recvDone_keeps
    | apply State.refuseIn_keeps
    | apply State.setQp_keeps
    | apply keeps_getD
    | split
    | fail_if_no_progress refine keeps_mk rfl rfl rfl rfl rfl rfl rfl rfl rfl rfl rfl rfl rfl rfl ?_
    | refine keeps_eq2 ?_ (by assumption)
    | refine keeps_eq3 ?_ (by assumption)
    | refine keeps_eq4 ?_ (by assumption)
    | refine keeps_eqs ?_ (by assumption)
    | refine keeps_eqo ?_ (by assumption)
    | refine keeps_eqo2 ?_ (by assumption)
    | refine keeps_eqo3 ?_ (by assumption)
    | dsimp only [id]

theorem State.writeIn_keeps {s0 : State} {s : State} {m : Inbound} (hs : s0.Keeps s) :
    s0.Keeps (State.writeIn s m) := by
  unfold State.writeIn
  repeat' with_reducible first
    | assumption
    | exact State.Keeps.refl _
    | intro _
    | lift_lets
    | apply keeps_ite
    | apply State.ack_keeps
    | apply State.arrive_keeps
    | apply State.consume_keeps
    | apply State.refuseIn_keeps
    | apply State.regionFor_keeps
    | apply State.setQp_keeps
    | apply State.vaWrite_keeps
    | split
    | fail_if_no_progress refine keeps_mk rfl rfl rfl rfl rfl rfl rfl rfl rfl rfl rfl rfl rfl rfl ?_
    | refine keeps_eq2 ?_ (by assumption)

theorem execInboundWrite_keeps {s0 : State} {m : Inbound} {s : State} (hs : s0.Keeps s) :
    s0.AnsKeeps (execInboundWrite m s) := by
  unfold execInboundWrite
  repeat' with_reducible first
    | assumption
    | exact State.Keeps.refl _
    | intro _
    | lift_lets
    | apply keeps_ite
    | apply State.writeIn_keeps
    | apply State.AnsKeeps.next

theorem execInboundWriteImm_keeps {s0 : State} {m : Inbound} {s : State} (hs : s0.Keeps s) :
    s0.AnsKeeps (execInboundWriteImm m s) := by
  unfold execInboundWriteImm
  repeat' with_reducible first
    | assumption
    | exact State.Keeps.refl _
    | intro _
    | lift_lets
    | apply keeps_ite
    | apply State.writeIn_keeps
    | apply State.AnsKeeps.next

theorem execInboundRead_keeps {s0 : State} {m : Inbound} {s : State} (hs : s0.Keeps s) :
    s0.AnsKeeps (execInboundRead m s) := by
  unfold execInboundRead
  repeat' with_reducible first
    | assumption
    | exact State.Keeps.refl _
    | intro _
    | lift_lets
    | apply keeps_ite
    | apply State.arrive_keeps
    | apply State.emit_keeps
    | apply State.hit_keeps
    | apply State.qpError_keeps
    | apply State.refuseIn_keeps
    | apply State.regionFor_keeps
    | apply State.setQp_keeps
    | apply State.vaRead_keeps
    | apply State.AnsKeeps.next
    | split
    | fail_if_no_progress refine keeps_mk rfl rfl rfl rfl rfl rfl rfl rfl rfl rfl rfl rfl rfl rfl ?_
    | refine keeps_eq2 ?_ (by assumption)

theorem execInboundSend_keeps {s0 : State} {m : Inbound} {s : State} (hs : s0.Keeps s) :
    s0.AnsKeeps (execInboundSend m s) := by
  unfold execInboundSend
  repeat' with_reducible first
    | assumption
    | exact State.Keeps.refl _
    | intro _
    | lift_lets
    | apply keeps_ite
    | apply State.arrive_keeps
    | apply State.consume_keeps
    | apply State.AnsKeeps.next

theorem execRawFrameReceive_keeps {s0 : State} {port : Nat} {data : List Byte} {host : HostData} {s : State} (hs : s0.Keeps s) :
    s0.AnsKeeps (execRawFrameReceive port data host s) := by
  unfold execRawFrameReceive
  repeat' with_reducible first
    | assumption
    | exact State.Keeps.refl _
    | intro _
    | lift_lets
    | apply keeps_ite
    | apply State.consume_keeps
    | apply State.withHost_keeps
    | apply State.AnsKeeps.next
    | split

theorem execPfcPauseReceive_keeps {s0 : State} {port prio : Nat} {on : Bool} {s : State} (hs : s0.Keeps s) :
    s0.AnsKeeps (execPfcPauseReceive port prio on s) := by
  unfold execPfcPauseReceive
  repeat' with_reducible first
    | assumption
    | exact State.Keeps.refl _
    | intro _
    | lift_lets
    | apply keeps_ite
    | apply State.AnsKeeps.next
    | split
    | fail_if_no_progress refine keeps_mk rfl rfl rfl rfl rfl rfl rfl rfl rfl rfl rfl rfl rfl rfl ?_

theorem execPfcStorm_keeps {s0 : State} {port prio : Nat} {s : State} (hs : s0.Keeps s) :
    s0.AnsKeeps (execPfcStorm port prio s) := by
  unfold execPfcStorm
  repeat' with_reducible first
    | assumption
    | exact State.Keeps.refl _
    | intro _
    | lift_lets
    | apply keeps_ite
    | apply State.count_keeps
    | apply State.raiseCause_keeps
    | apply State.AnsKeeps.next
    | split
    | fail_if_no_progress refine keeps_mk rfl rfl rfl rfl rfl rfl rfl rfl rfl rfl rfl rfl rfl rfl ?_

theorem execCnpReceive_keeps {s0 : State} {qp : Nat} {s : State} (hs : s0.Keeps s) :
    s0.AnsKeeps (execCnpReceive qp s) := by
  unfold execCnpReceive
  repeat' with_reducible first
    | assumption
    | exact State.Keeps.refl _
    | intro _
    | lift_lets
    | apply keeps_ite
    | apply State.hit_keeps
    | apply State.setQp_keeps
    | apply State.AnsKeeps.next
    | split

theorem execCnpRateIncrease_keeps {s0 : State} {qp : Nat} {s : State} (hs : s0.Keeps s) :
    s0.AnsKeeps (execCnpRateIncrease qp s) := by
  unfold execCnpRateIncrease
  repeat' with_reducible first
    | assumption
    | exact State.Keeps.refl _
    | intro _
    | lift_lets
    | apply keeps_ite
    | apply State.setQp_keeps
    | apply State.AnsKeeps.next
    | split

theorem execEthLinkChange_keeps {s0 : State} {port : Nat} {up : Bool} {s : State} (hs : s0.Keeps s) :
    s0.AnsKeeps (execEthLinkChange port up s) := by
  unfold execEthLinkChange
  repeat' with_reducible first
    | assumption
    | exact State.Keeps.refl _
    | intro _
    | lift_lets
    | apply keeps_ite
    | apply State.putFlag_keeps
    | apply State.raiseCause_keeps
    | apply State.AnsKeeps.next

theorem execRegionInvalidate_keeps {s0 : State} {fn : Nat} {index : BitVec 16} {s : State} (hs : s0.Keeps s) :
    s0.AnsKeeps (execRegionInvalidate fn index s) := by
  unfold execRegionInvalidate
  repeat' with_reducible first
    | assumption
    | exact State.Keeps.refl _
    | intro _
    | lift_lets
    | apply keeps_ite
    | apply State.mmio_keeps
    | apply State.setFlag_keeps
    | apply State.AnsKeeps.next
    | split
    | fail_if_no_progress refine keeps_mk rfl rfl rfl rfl rfl rfl rfl rfl rfl rfl rfl rfl rfl rfl ?_

theorem execRegionInvDone_keeps {s0 : State} {s : State} (hs : s0.Keeps s) :
    s0.AnsKeeps (execRegionInvDone s) := by
  unfold execRegionInvDone
  repeat' with_reducible first
    | assumption
    | exact State.Keeps.refl _
    | intro _
    | lift_lets
    | apply keeps_ite
    | apply State.clrFlag_keeps
    | apply State.AnsKeeps.next
    | split
    | fail_if_no_progress refine keeps_mk rfl rfl rfl rfl rfl rfl rfl rfl rfl rfl rfl rfl rfl rfl ?_

theorem execRdmaHold_keeps {s0 : State} {fn : Nat} {on : Bool} {s : State} (hs : s0.Keeps s) :
    s0.AnsKeeps (execRdmaHold fn on s) := by
  unfold execRdmaHold
  repeat' with_reducible first
    | assumption
    | exact State.Keeps.refl _
    | intro _
    | lift_lets
    | apply keeps_ite
    | apply State.emit_keeps
    | apply State.mmio_keeps
    | apply State.putFlag_keeps
    | apply State.wr_keeps
    | apply State.AnsKeeps.next
    | apply keeps_foldl

/-! ### Machine/ThreadMem.lean -/

theorem State.replayed_keeps {s0 : State} {s : State} {c : Nat} {lanes : List Nat} {addr : Nat → Nat} {size : Nat} {atomic : Bool} (hs : s0.Keeps s) :
    s0.Keeps (State.replayed s c lanes addr size atomic) := by
  unfold State.replayed
  repeat' with_reducible first
    | assumption
    | exact State.Keeps.refl _
    | intro _
    | lift_lets
    | apply keeps_ite
    | apply State.hit_keeps

theorem execLds_keeps {s0 : State} {c slot : Nat} {upset : Upset} {s : State} (hs : s0.Keeps s) :
    s0.AnsKeeps (execLds c slot upset s) := by
  unfold execLds
  repeat' with_reducible first
    | assumption
    | exact State.Keeps.refl _
    | intro _
    | lift_lets
    | apply keeps_ite
    | apply State.detect_keeps
    | apply State.faultGroup_keeps
    | apply State.hit_keeps
    | apply State.holdAt_keeps
    | apply State.illegal_keeps
    | apply State.issue_keeps
    | apply State.partEvent_keeps
    | apply State.replayed_keeps
    | apply State.setCore_keeps
    | apply State.setGroup_keeps
    | apply State.AnsKeeps.next
    | split

theorem execSts_keeps {s0 : State} {c slot : Nat} {s : State} (hs : s0.Keeps s) :
    s0.AnsKeeps (execSts c slot s) := by
  unfold execSts
  repeat' with_reducible first
    | assumption
    | exact State.Keeps.refl _
    | intro _
    | lift_lets
    | apply keeps_ite
    | apply State.faultGroup_keeps
    | apply State.holdAt_keeps
    | apply State.illegal_keeps
    | apply State.issue_keeps
    | apply State.replayed_keeps
    | apply State.setCore_keeps
    | apply State.setGroup_keeps
    | apply State.AnsKeeps.next
    | apply keeps_foldl
    | apply keeps_foldl2
    | apply keeps_foldl3
    | apply keeps_foldl4
    | split

theorem State.loadLanes_keeps {s0 : State} {s : State} {c : Nat} {g : Group} {ctx size : Nat} {m : FmtM} {wide : Bool} {pas : List LanePa} (hs : s0.Keeps s) :
    s0.Keeps (State.loadLanes s c g ctx size m wide pas).2 := by
  unfold State.loadLanes
  repeat' with_reducible first
    | assumption
    | exact State.Keeps.refl _
    | intro _
    | lift_lets
    | apply keeps_ite
    | apply State.loadLocal_keeps
    | apply State.region_keeps
    | apply keeps_foldl
    | apply keeps_foldl2
    | apply keeps_foldl3
    | apply keeps_foldl4
    | split

theorem State.hostLanes_keeps {s0 : State} {s : State} {c slot : Nat} {g : Group} {ctx size : Nat} {m : FmtM} {pas : List LanePa} (hs : s0.Keeps s) :
    s0.Keeps (State.hostLanes s c slot g ctx size m pas).2 := by
  unfold State.hostLanes
  repeat' with_reducible first
    | assumption
    | exact State.Keeps.refl _
    | intro _
    | lift_lets
    | apply keeps_ite
    | apply State.emit_keeps
    | apply keeps_foldl
    | apply keeps_foldl2
    | apply keeps_foldl3
    | apply keeps_foldl4
    | split
    | fail_if_no_progress refine keeps_mk rfl rfl rfl rfl rfl rfl rfl rfl rfl rfl rfl rfl rfl rfl ?_

theorem execLdg_keeps {s0 : State} {c slot : Nat} {s : State} (hs : s0.Keeps s) :
    s0.AnsKeeps (execLdg c slot s) := by
  unfold execLdg
  repeat' with_reducible first
    | assumption
    | exact State.Keeps.refl _
    | intro _
    | lift_lets
    | apply keeps_ite
    | apply State.faultGroup_keeps
    | apply State.holdAt_keeps
    | apply State.hostLanes_keeps
    | apply State.illegal_keeps
    | apply State.issue_keeps
    | apply State.loadLanes_keeps
    | apply State.region_keeps
    | apply State.setCore_keeps
    | apply State.setGroup_keeps
    | apply State.updCore_keeps
    | apply State.xlateLanes_keeps
    | apply State.AnsKeeps.next
    | split
    | fail_if_no_progress refine keeps_mk rfl rfl rfl rfl rfl rfl rfl rfl rfl rfl rfl rfl rfl rfl ?_
    | refine keeps_eq2 ?_ (by assumption)
    | refine keeps_eq3 ?_ (by assumption)

theorem execStg_keeps {s0 : State} {c slot : Nat} {s : State} (hs : s0.Keeps s) :
    s0.AnsKeeps (execStg c slot s) := by
  unfold execStg
  repeat' with_reducible first
    | assumption
    | exact State.Keeps.refl _
    | intro _
    | lift_lets
    | apply keeps_ite
    | apply State.faultGroup_keeps
    | apply State.holdAt_keeps
    | apply State.illegal_keeps
    | apply State.issue_keeps
    | apply State.setCore_keeps
    | apply State.setGroup_keeps
    | apply State.updCore_keeps
    | apply State.xlateLanes_keeps
    | apply State.AnsKeeps.next
    | apply keeps_foldl
    | apply keeps_foldl2
    | apply keeps_foldl3
    | apply keeps_foldl4
    | split
    | fail_if_no_progress refine keeps_mk rfl rfl rfl rfl rfl rfl rfl rfl rfl rfl rfl rfl rfl rfl ?_
    | refine keeps_eq2 ?_ (by assumption)
    | refine keeps_eq3 ?_ (by assumption)

theorem execAtoms_keeps {s0 : State} {c slot : Nat} {upset : Upset} {s : State} (hs : s0.Keeps s) :
    s0.AnsKeeps (execAtoms c slot upset s) := by
  unfold execAtoms
  repeat' with_reducible first
    | assumption
    | exact State.Keeps.refl _
    | intro _
    | lift_lets
    | apply keeps_ite
    | apply State.detect_keeps
    | apply State.faultGroup_keeps
    | apply State.hit_keeps
    | apply State.holdAt_keeps
    | apply State.illegal_keeps
    | apply State.issue_keeps
    | apply State.partEvent_keeps
    | apply State.replayed_keeps
    | apply State.setCore_keeps
    | apply State.setGroup_keeps
    | apply State.withFree_keeps
    | apply State.AnsKeeps.next
    | apply keeps_getD
    | split

theorem State.atomicAt_keeps {s0 : State} {s : State} {c : Nat} {p : LanePa} {size keySlot hint : Nat} {f : Nat → Nat} (hs : s0.Keeps s) :
    s0.Keeps (State.atomicAt s c p size keySlot hint f).2.2 := by
  unfold State.atomicAt
  repeat' with_reducible first
    | assumption
    | exact State.Keeps.refl _
    | intro _
    | lift_lets
    | apply keeps_ite
    | apply State.drainLine_keeps
    | apply State.lineFor_keeps
    | apply State.lineUpdate_keeps
    | apply State.region_keeps
    | apply State.updCore_keeps
    | split
    | fail_if_no_progress refine keeps_mk rfl rfl rfl rfl rfl rfl rfl rfl rfl rfl rfl rfl rfl rfl ?_
    | refine keeps_eq2 ?_ (by assumption)
    | refine keeps_eq3 ?_ (by assumption)
    | refine keeps_eq4 ?_ (by assumption)
    | refine keeps_eqs ?_ (by assumption)
    | refine keeps_eqo ?_ (by assumption)
    | refine keeps_eqo2 ?_ (by assumption)
    | refine keeps_eqo3 ?_ (by assumption)
    | dsimp only [id]

theorem State.atomPoison_keeps {s0 : State} {s : State} {c view ctx size hint : Nat} {pas : List LanePa} (hs : s0.Keeps s) :
    s0.Keeps (State.atomPoison s c view ctx size hint pas).2 := by
  unfold State.atomPoison
  repeat' with_reducible first
    | assumption
    | exact State.Keeps.refl _
    | intro _
    | lift_lets
    | apply keeps_ite
    | apply State.drainLine_keeps
    | apply State.lineFor_keeps
    | apply State.lineNow_keeps
    | apply State.region_keeps
    | apply keeps_foldl
    | apply keeps_foldl2
    | apply keeps_foldl3
    | apply keeps_foldl4
    | split
    | refine keeps_eq2 ?_ (by assumption)

theorem State.atomLanes_keeps {s0 : State} {s : State} {c view ctx size hint : Nat} {op : Nat → Nat → Nat × Nat} {pas : List LanePa} (hs : s0.Keeps s) :
    s0.Keeps (State.atomLanes s c view ctx size hint op pas).2 := by
  unfold State.atomLanes
  repeat' with_reducible first
    | assumption
    | exact State.Keeps.refl _
    | intro _
    | lift_lets
    | apply keeps_ite
    | apply State.atomicAt_keeps
    | apply keeps_foldl
    | apply keeps_foldl2

theorem execAtomg_keeps {s0 : State} {c slot : Nat} {s : State} (hs : s0.Keeps s) :
    s0.AnsKeeps (execAtomg c slot s) := by
  unfold execAtomg
  repeat' with_reducible first
    | assumption
    | exact State.Keeps.refl _
    | intro _
    | lift_lets
    | apply keeps_ite
    | apply State.atomLanes_keeps
    | apply State.atomPoison_keeps
    | apply State.faultGroup_keeps
    | apply State.holdAt_keeps
    | apply State.illegal_keeps
    | apply State.issue_keeps
    | apply State.setCore_keeps
    | apply State.setGroup_keeps
    | apply State.stopLaunch_keeps
    | apply State.updCore_keeps
    | apply State.withFree_keeps
    | apply State.xlateLanes_keeps
    | apply State.AnsKeeps.next
    | split
    | fail_if_no_progress refine keeps_mk rfl rfl rfl rfl rfl rfl rfl rfl rfl rfl rfl rfl rfl rfl ?_
    | refine keeps_eq2 ?_ (by assumption)
    | refine keeps_eq3 ?_ (by assumption)

theorem State.lockRow_keeps {s0 : State} {s : State} {c slot : Nat} {acq : Bool} (hs : s0.Keeps s) :
    s0.Keeps (State.lockRow s c slot acq) := by
  unfold State.lockRow
  repeat' with_reducible first
    | assumption
    | exact State.Keeps.refl _
    | intro _
    | lift_lets
    | apply keeps_ite
    | apply State.atomLanes_keeps
    | apply State.atomPoison_keeps
    | apply State.faultGroup_keeps
    | apply State.holdAt_keeps
    | apply State.illegal_keeps
    | apply State.issue_keeps
    | apply State.replayed_keeps
    | apply State.setCore_keeps
    | apply State.setGroup_keeps
    | apply State.stopLaunch_keeps
    | apply State.updCore_keeps
    | apply State.xlateLanes_keeps
    | apply keeps_getD
    | split
    | fail_if_no_progress refine keeps_mk rfl rfl rfl rfl rfl rfl rfl rfl rfl rfl rfl rfl rfl rfl ?_
    | refine keeps_eq2 ?_ (by assumption)
    | refine keeps_eq3 ?_ (by assumption)

theorem execAtomAcq_keeps {s0 : State} {c slot : Nat} {s : State} (hs : s0.Keeps s) :
    s0.AnsKeeps (execAtomAcq c slot s) := by
  unfold execAtomAcq
  repeat' with_reducible first
    | assumption
    | exact State.Keeps.refl _
    | intro _
    | lift_lets
    | apply keeps_ite
    | apply State.lockRow_keeps
    | apply State.AnsKeeps.next

theorem execAtomRel_keeps {s0 : State} {c slot : Nat} {s : State} (hs : s0.Keeps s) :
    s0.AnsKeeps (execAtomRel c slot s) := by
  unfold execAtomRel
  repeat' with_reducible first
    | assumption
    | exact State.Keeps.refl _
    | intro _
    | lift_lets
    | apply keeps_ite
    | apply State.lockRow_keeps
    | apply State.AnsKeeps.next

theorem execSelfLock_keeps {s0 : State} {c slot : Nat} {s : State} (hs : s0.Keeps s) :
    s0.AnsKeeps (execSelfLock c slot s) := by
  unfold execSelfLock
  repeat' with_reducible first
    | assumption
    | exact State.Keeps.refl _
    | intro _
    | lift_lets
    | apply keeps_ite
    | apply State.faultGroup_keeps
    | apply State.guardFault_keeps
    | apply State.surveyTrigger_keeps
    | apply State.traceTrigger_keeps
    | apply State.AnsKeeps.next
    | split

theorem State.fenceRow_keeps {s0 : State} {s : State} {c slot kind : Nat} (hs : s0.Keeps s) :
    s0.Keeps (State.fenceRow s c slot kind) := by
  unfold State.fenceRow
  repeat' with_reducible first
    | assumption
    | exact State.Keeps.refl _
    | intro _
    | lift_lets
    | apply keeps_ite
    | apply State.faultGroup_keeps
    | apply State.holdAt_keeps
    | apply State.illegal_keeps
    | apply State.issue_keeps
    | apply State.setCore_keeps
    | apply State.setGroup_keeps

theorem execFenceFull_keeps {s0 : State} {c slot : Nat} {s : State} (hs : s0.Keeps s) :
    s0.AnsKeeps (execFenceFull c slot s) := by
  unfold execFenceFull
  repeat' with_reducible first
    | assumption
    | exact State.Keeps.refl _
    | intro _
    | lift_lets
    | apply keeps_ite
    | apply State.fenceRow_keeps
    | apply State.AnsKeeps.next

theorem execFenceAcq_keeps {s0 : State} {c slot : Nat} {s : State} (hs : s0.Keeps s) :
    s0.AnsKeeps (execFenceAcq c slot s) := by
  unfold execFenceAcq
  repeat' with_reducible first
    | assumption
    | exact State.Keeps.refl _
    | intro _
    | lift_lets
    | apply keeps_ite
    | apply State.fenceRow_keeps
    | apply State.AnsKeeps.next

theorem execFenceRel_keeps {s0 : State} {c slot : Nat} {s : State} (hs : s0.Keeps s) :
    s0.AnsKeeps (execFenceRel c slot s) := by
  unfold execFenceRel
  repeat' with_reducible first
    | assumption
    | exact State.Keeps.refl _
    | intro _
    | lift_lets
    | apply keeps_ite
    | apply State.fenceRow_keeps
    | apply State.AnsKeeps.next

theorem State.settleStop_keeps {s0 : State} {s : State} {c slot : Nat} (hs : s0.Keeps s) :
    s0.Keeps (State.settleStop s c slot) := by
  unfold State.settleStop
  repeat' with_reducible first
    | assumption
    | exact State.Keeps.refl _
    | intro _
    | lift_lets
    | apply keeps_ite
    | apply State.updCore_keeps

theorem State.readAgain_keeps {s0 : State} {s : State} {c : Nat} {ld : Load} (hs : s0.Keeps s) :
    s0.Keeps (State.readAgain s c ld).2 := by
  unfold State.readAgain
  repeat' with_reducible first
    | assumption
    | exact State.Keeps.refl _
    | intro _
    | lift_lets
    | apply keeps_ite
    | apply State.lineRead_keeps
    | apply State.updCore_keeps
    | apply keeps_foldl
    | apply keeps_foldl2
    | apply keeps_foldl3
    | apply keeps_foldl4
    | split

theorem State.spoil_keeps {s0 s : State} {sector : Nat} {dram : Bool} (hs : s0.Keeps s) :
    s0.Keeps (State.spoil s sector dram) := by
  unfold State.spoil
  lift_lets
  intro u
  have hu : s0.Keeps u := by
    change s0.Keeps (match s.mem.line (sector / 4) with | some _ => _ | none => s)
    split
    · exact hs.mem fun c => c
    · exact hs
  clear_value u
  split
  · exact hu.mem fun c => c
  · exact hu

theorem State.loadUpset_keeps {s0 : State} {s : State} {c struct : Nat} {upset : Upset} {ld : Load} (hs : s0.Keeps s) :
    s0.Keeps (State.loadUpset s c struct upset ld).2 := by
  unfold State.loadUpset
  repeat' with_reducible first
    | assumption
    | exact State.Keeps.refl _
    | intro _
    | lift_lets
    | apply keeps_ite
    | apply State.readAgain_keeps
    | apply State.spoil_keeps
    | apply keeps_getD
    | split

theorem State.loadFaults_keeps {s0 : State} {s : State} {c : Nat} {ld : Load} (hs : s0.Keeps s) :
    s0.Keeps (State.loadFaults s c ld) := by
  unfold State.loadFaults
  repeat' with_reducible first
    | assumption
    | exact State.Keeps.refl _
    | intro _
    | lift_lets
    | apply keeps_ite
    | apply State.dropYounger_keeps
    | apply State.faultAt_keeps

theorem execLoadReturn_keeps {s0 : State} {c n struct : Nat} {upset : Upset} {s : State} (hs : s0.Keeps s) :
    s0.AnsKeeps (execLoadReturn c n struct upset s) := by
  unfold execLoadReturn
  repeat' with_reducible first
    | assumption
    | exact State.Keeps.refl _
    | intro _
    | lift_lets
    | apply keeps_ite
    | apply State.detect_keeps
    | apply State.l1Fill_keeps
    | apply State.loadFaults_keeps
    | apply State.loadUpset_keeps
    | apply State.partEvent_keeps
    | apply State.rowEvent_keeps
    | apply State.setCore_keeps
    | apply State.setGroup_keeps
    | apply State.settleStop_keeps
    | apply State.AnsKeeps.next
    | apply keeps_foldl
    | apply keeps_foldl2
    | apply keeps_foldl3
    | apply keeps_foldl4
    | apply keeps_foldlo
    | exact OptK.none
    | apply OptK.some
    | apply keeps_getD
    | split
    | fail_if_no_progress refine keeps_mk rfl rfl rfl rfl rfl rfl rfl rfl rfl rfl rfl rfl rfl rfl ?_
    | refine keeps_eq2 ?_ (by assumption)
    | refine keeps_eq3 ?_ (by assumption)
    | refine keeps_eq4 ?_ (by assumption)
    | refine keeps_eqs ?_ (by assumption)
    | refine keeps_eqo ?_ (by assumption)
    | refine keeps_eqo2 ?_ (by assumption)
    | refine keeps_eqo3 ?_ (by assumption)
    | dsimp only [id]
    | dsimp +zetaDelta only

theorem execL1LineExpire_keeps {s0 : State} {c line : Nat} {s : State} (hs : s0.Keeps s) :
    s0.AnsKeeps (execL1LineExpire c line s) := by
  unfold execL1LineExpire
  repeat' with_reducible first
    | assumption
    | exact State.Keeps.refl _
    | intro _
    | lift_lets
    | apply keeps_ite
    | apply State.updCore_keeps
    | apply State.AnsKeeps.next

/-! ### Machine/Matrix.lean -/

theorem State.issueX_keeps {s0 : State} {s : State} {c slot major : Nat} {act : Group → Word → Word → State} (hs : s0.Keeps s) (hact : ∀ (x : Group) (y : Word) (z : Word),  s0.Keeps (act x y z)) :
    s0.Keeps (State.issueX s c slot major act) := by
  unfold State.issueX
  repeat' with_reducible first
    | assumption
    | exact State.Keeps.refl _
    | intro _
    | lift_lets
    | apply keeps_ite
    | apply hact
    | apply State.illegal_keeps
    | apply State.issue_keeps
    | apply State.setGroup_keeps
    | split

theorem State.reportMx_keeps {s0 : State} {s : State} {c slot : Nat} {m : Half} {named : Nat → Bool} (hs : s0.Keeps s) :
    OptK (s0.Keeps ·) (State.reportMx s c slot m named) := by
  unfold State.reportMx
  repeat' with_reducible first
    | assumption
    | exact State.Keeps.refl _
    | intro _
    | lift_lets
    | apply keeps_ite
    | apply State.faultGroup_keeps
    | apply State.setCore_keeps
    | exact OptK.none
    | apply OptK.some
    | apply keeps_map
    | apply keeps_map3
    | split

theorem State.readOperand_keeps {s0 : State} {s : State} {c ctx limit : Nat} {o : Operand} {l : List (Nat × Nat)} (hs : s0.Keeps s) :
    s0.Keeps (State.readOperand s c ctx limit o l).2 := by
  unfold State.readOperand
  repeat' with_reducible first
    | assumption
    | exact State.Keeps.refl _
    | intro _
    | lift_lets
    | apply keeps_ite
    | apply State.lineRead_keeps
    | apply State.region_keeps
    | apply State.xlate_keeps
    | apply keeps_foldl
    | apply keeps_foldl2
    | apply keeps_foldl3
    | apply keeps_foldl4
    | split
    | fail_if_no_progress refine keeps_mk rfl rfl rfl rfl rfl rfl rfl rfl rfl rfl rfl rfl rfl rfl ?_
    | refine keeps_eq2 ?_ (by assumption)
    | refine keeps_eq3 ?_ (by assumption)

theorem State.readProduct_keeps {s0 : State} {s : State} {c ctx limit : Nat} {p : Product} (hs : s0.Keeps s) :
    s0.Keeps (State.readProduct s c ctx limit p).2 := by
  unfold State.readProduct
  repeat' with_reducible first
    | assumption
    | exact State.Keeps.refl _
    | intro _
    | lift_lets
    | apply keeps_ite
    | apply State.readOperand_keeps

theorem execMxIssue_keeps {s0 : State} {c slot : Nat} {s : State} (hs : s0.Keeps s) :
    s0.AnsKeeps (execMxIssue c slot s) := by
  unfold execMxIssue
  repeat' with_reducible first
    | assumption
    | exact State.Keeps.refl _
    | intro _
    | lift_lets
    | apply keeps_ite
    | apply State.faultGroup_keeps
    | apply State.holdAt_keeps
    | apply State.illegal_keeps
    | apply State.issueX_keeps
    | apply State.readProduct_keeps
    | apply State.reportMx_keeps
    | apply State.setCore_keeps
    | apply State.setGroup_keeps
    | apply State.AnsKeeps.next
    | split
    | fail_if_no_progress refine keeps_mk rfl rfl rfl rfl rfl rfl rfl rfl rfl rfl rfl rfl rfl rfl ?_
    | refine keeps_eq2 ?_ (by assumption)
    | refine keeps_eq3 ?_ (by assumption)
    | refine keeps_eq4 ?_ (by assumption)
    | refine keeps_eqs ?_ (by assumption)
    | refine keeps_eqo ?_ (by assumption)

theorem execMxDrain_keeps {s0 : State} {c slot : Nat} {s : State} (hs : s0.Keeps s) :
    s0.AnsKeeps (execMxDrain c slot s) := by
  unfold execMxDrain
  repeat' with_reducible first
    | assumption
    | exact State.Keeps.refl _
    | intro _
    | lift_lets
    | apply keeps_ite
    | apply State.faultGroup_keeps
    | apply State.holdAt_keeps
    | apply State.illegal_keeps
    | apply State.issueX_keeps
    | apply State.reportMx_keeps
    | apply State.setCore_keeps
    | apply State.setGroup_keeps
    | apply State.AnsKeeps.next
    | split
    | fail_if_no_progress refine keeps_mk rfl rfl rfl rfl rfl rfl rfl rfl rfl rfl rfl rfl rfl rfl ?_
    | refine keeps_eq2 ?_ (by assumption)
    | refine keeps_eq3 ?_ (by assumption)
    | refine keeps_eq4 ?_ (by assumption)
    | refine keeps_eqs ?_ (by assumption)
    | refine keeps_eqo ?_ (by assumption)

theorem State.readProducts_keeps {s0 : State} {s : State} {c view limit : Nat} {o : MvOp} (hs : s0.Keeps s) :
    s0.Keeps (State.readProducts s c view limit o).2 := by
  unfold State.readProducts
  repeat' with_reducible first
    | assumption
    | exact State.Keeps.refl _
    | intro _
    | lift_lets
    | apply keeps_ite
    | apply State.readProduct_keeps
    | apply keeps_foldl
    | apply keeps_foldl2
    | apply keeps_foldl3
    | apply keeps_foldl4
    | split

theorem execMvIssue_keeps {s0 : State} {c slot : Nat} {s : State} (hs : s0.Keeps s) :
    s0.AnsKeeps (execMvIssue c slot s) := by
  unfold execMvIssue
  repeat' with_reducible first
    | assumption
    | exact State.Keeps.refl _
    | intro _
    | lift_lets
    | apply keeps_ite
    | apply State.faultGroup_keeps
    | apply State.holdAt_keeps
    | apply State.illegal_keeps
    | apply State.issueX_keeps
    | apply State.readProducts_keeps
    | apply State.reportMx_keeps
    | apply State.setCore_keeps
    | apply State.setGroup_keeps
    | apply State.AnsKeeps.next
    | split
    | fail_if_no_progress refine keeps_mk rfl rfl rfl rfl rfl rfl rfl rfl rfl rfl rfl rfl rfl rfl ?_
    | refine keeps_eq2 ?_ (by assumption)
    | refine keeps_eq3 ?_ (by assumption)
    | refine keeps_eq4 ?_ (by assumption)
    | refine keeps_eqs ?_ (by assumption)
    | refine keeps_eqo ?_ (by assumption)

theorem execMxWait_keeps {s0 : State} {c slot : Nat} {s : State} (hs : s0.Keeps s) :
    s0.AnsKeeps (execMxWait c slot s) := by
  unfold execMxWait
  repeat' with_reducible first
    | assumption
    | exact State.Keeps.refl _
    | intro _
    | lift_lets
    | apply keeps_ite
    | apply State.holdAt_keeps
    | apply State.illegal_keeps
    | apply State.issue_keeps
    | apply State.reportMx_keeps
    | apply State.setGroup_keeps
    | apply State.AnsKeeps.next
    | split
    | fail_if_no_progress refine keeps_mk rfl rfl rfl rfl rfl rfl rfl rfl rfl rfl rfl rfl rfl rfl ?_
    | refine keeps_eq2 ?_ (by assumption)
    | refine keeps_eq3 ?_ (by assumption)
    | refine keeps_eq4 ?_ (by assumption)
    | refine keeps_eqs ?_ (by assumption)
    | refine keeps_eqo ?_ (by assumption)

theorem execTileStart_keeps {s0 : State} {c : Nat} {s : State} (hs : s0.Keeps s) :
    s0.AnsKeeps (execTileStart c s) := by
  unfold execTileStart
  repeat' with_reducible first
    | assumption
    | exact State.Keeps.refl _
    | intro _
    | lift_lets
    | apply keeps_ite
    | apply State.setCore_keeps
    | apply State.AnsKeeps.next
    | split

theorem execTileComplete_keeps {s0 : State} {c : Nat} {s : State} (hs : s0.Keeps s) :
    s0.AnsKeeps (execTileComplete c s) := by
  unfold execTileComplete
  repeat' with_reducible first
    | assumption
    | exact State.Keeps.refl _
    | intro _
    | lift_lets
    | apply keeps_ite
    | apply State.count_keeps
    | apply State.setCore_keeps
    | apply State.stepsTaken_keeps
    | apply State.withFree_keeps
    | apply State.AnsKeeps.next
    | split
    | fail_if_no_progress refine keeps_mk rfl rfl rfl rfl rfl rfl rfl rfl rfl rfl rfl rfl rfl rfl ?_
    | refine keeps_eq2 ?_ (by assumption)
    | refine keeps_eq3 ?_ (by assumption)
    | refine keeps_eq4 ?_ (by assumption)
    | refine keeps_eqs ?_ (by assumption)
    | refine keeps_eqo ?_ (by assumption)
    | refine keeps_eqo2 ?_ (by assumption)
    | refine keeps_eqo3 ?_ (by assumption)
    | dsimp only [id]

theorem execDrainStart_keeps {s0 : State} {c : Nat} {upset : Upset} {s : State} (hs : s0.Keeps s) :
    s0.AnsKeeps (execDrainStart c upset s) := by
  unfold execDrainStart
  repeat' with_reducible first
    | assumption
    | exact State.Keeps.refl _
    | intro _
    | lift_lets
    | apply keeps_ite
    | apply State.detect_keeps
    | apply State.hit_keeps
    | apply State.partEvent_keeps
    | apply State.setCore_keeps
    | apply State.withFree_keeps
    | apply State.AnsKeeps.next
    | apply keeps_foldl
    | apply keeps_foldl2
    | apply keeps_foldl3
    | apply keeps_foldl4
    | apply keeps_getD
    | split

theorem execDrainComplete_keeps {s0 : State} {c : Nat} {s : State} (hs : s0.Keeps s) :
    s0.AnsKeeps (execDrainComplete c s) := by
  unfold execDrainComplete
  repeat' with_reducible first
    | assumption
    | exact State.Keeps.refl _
    | intro _
    | lift_lets
    | apply keeps_ite
    | apply State.hit_keeps
    | apply State.setCore_keeps
    | apply State.setGroup_keeps
    | apply State.AnsKeeps.next
    | split

theorem execMvStart_keeps {s0 : State} {c : Nat} {s : State} (hs : s0.Keeps s) :
    s0.AnsKeeps (execMvStart c s) := by
  unfold execMvStart
  repeat' with_reducible first
    | assumption
    | exact State.Keeps.refl _
    | intro _
    | lift_lets
    | apply keeps_ite
    | apply State.setCore_keeps
    | apply State.AnsKeeps.next
    | split

theorem execMvComplete_keeps {s0 : State} {c : Nat} {s : State} (hs : s0.Keeps s) :
    s0.AnsKeeps (execMvComplete c s) := by
  unfold execMvComplete
  repeat' with_reducible first
    | assumption
    | exact State.Keeps.refl _
    | intro _
    | lift_lets
    | apply keeps_ite
    | apply State.count_keeps
    | apply State.hit_keeps
    | apply State.setCore_keeps
    | apply State.withFree_keeps
    | apply State.AnsKeeps.next
    | split

theorem execMatrixFault_keeps {s0 : State} {c : Nat} {what : MxUnit} {s : State} (hs : s0.Keeps s) :
    s0.AnsKeeps (execMatrixFault c what s) := by
  unfold execMatrixFault
  repeat' with_reducible first
    | assumption
    | exact State.Keeps.refl _
    | intro _
    | lift_lets
    | apply keeps_ite
    | apply State.pathStops_keeps
    | apply State.setCore_keeps
    | apply State.tileStops_keeps
    | apply State.withFree_keeps
    | apply State.AnsKeeps.next
    | apply keeps_getD
    | split

/-! ### Machine/View.lean -/

theorem State.markQuiet_keeps {s0 : State} {s : State} (hs : s0.Keeps s) :
    s0.Keeps (State.markQuiet s) := by
  unfold State.markQuiet
  repeat' with_reducible first
    | assumption
    | exact State.Keeps.refl _
    | intro _
    | lift_lets
    | apply keeps_ite
    | split
    | fail_if_no_progress refine keeps_mk rfl rfl rfl rfl rfl rfl rfl rfl rfl rfl rfl rfl rfl rfl ?_

/-! ### Machine/RasRows.lean -/

theorem State.retireLog_keeps {s0 : State} {s : State} {p : Part} {done limit : Bool} (hs : s0.Keeps s) :
    s0.Keeps (State.retireLog s p done limit) := by
  unfold State.retireLog
  repeat' with_reducible first
    | assumption
    | exact State.Keeps.refl _
    | intro _
    | lift_lets
    | apply keeps_ite
    | apply State.alert_keeps
    | apply State.logEvent_keeps
    | apply State.wr_keeps
    | split
    | fail_if_no_progress refine keeps_mk rfl rfl rfl rfl rfl rfl rfl rfl rfl rfl rfl rfl rfl rfl ?_

theorem State.keepPart_keeps {s0 : State} {s : State} {p : Part} {limit : Bool} (hs : s0.Keeps s) :
    s0.Keeps (State.keepPart s p limit) := by
  unfold State.keepPart
  repeat' with_reducible first
    | assumption
    | exact State.Keeps.refl _
    | intro _
    | lift_lets
    | apply keeps_ite
    | apply State.raiseCause_keeps
    | apply State.retireLog_keeps
    | apply State.setFlag_keeps

theorem State.retireLane_keeps {s0 : State} {s : State} {p l : Nat} (hs : s0.Keeps s) :
    s0.Keeps (State.retireLane s p l) := by
  unfold State.retireLane
  repeat' with_reducible first
    | assumption
    | exact State.Keeps.refl _
    | intro _
    | lift_lets
    | apply keeps_ite
    | apply State.declareFlow_keeps
    | apply State.hit_keeps
    | apply State.portDown_keeps
    | apply State.raiseCause_keeps
    | apply State.retrain_keeps
    | apply State.setFlag_keeps
    | apply State.setMln_keeps
    | apply keeps_foldl
    | apply keeps_foldl2
    | apply keeps_foldl3
    | apply keeps_foldl4
    | split
    | fail_if_no_progress refine keeps_mk rfl rfl rfl rfl rfl rfl rfl rfl rfl rfl rfl rfl rfl rfl ?_

theorem State.retireWay_keeps {s0 : State} {s : State} {d sl w : Nat} (hs : s0.Keeps s) :
    s0.Keeps (State.retireWay s d sl w) := by
  unfold State.retireWay
  repeat' with_reducible first
    | assumption
    | exact State.Keeps.refl _
    | intro _
    | lift_lets
    | apply keeps_ite
    | apply MemSys.flushLine_keeps
    | apply State.raiseCause_keeps
    | apply State.setFlag_keeps
    | apply State.setMem_keeps
    | apply keeps_foldl
    | apply keeps_foldl2
    | apply keeps_foldl3
    | apply keeps_foldl4
    | split
    | fail_if_no_progress refine keeps_mk rfl rfl rfl rfl rfl rfl rfl rfl rfl rfl rfl rfl rfl rfl ?_
    | fail_if_no_progress refine keeps_mkm rfl rfl rfl rfl rfl rfl rfl rfl rfl rfl rfl rfl rfl ?_ ?_
    | exact MemSys.Keeps.refl _
    | fail_if_no_progress apply memKeeps_mk rfl
    | apply memKeeps_ite
    | apply memKeeps_foldl

theorem execLastingFault_keeps {s0 : State} {part : Part} {s : State} (hs : s0.Keeps s) :
    s0.AnsKeeps (execLastingFault part s) := by
  unfold execLastingFault
  repeat' with_reducible first
    | assumption
    | exact State.Keeps.refl _
    | intro _
    | lift_lets
    | apply keeps_ite
    | apply State.keepPart_keeps
    | apply State.raiseCause_keeps
    | apply State.retireLane_keeps
    | apply State.retireLog_keeps
    | apply State.retireWay_keeps
    | apply State.setFlag_keeps
    | apply State.AnsKeeps.next
    | split
    | fail_if_no_progress refine keeps_mk rfl rfl rfl rfl rfl rfl rfl rfl rfl rfl rfl rfl rfl rfl ?_

theorem State.sparesOut_keeps {s0 : State} {s : State} {st : Nat} (hs : s0.Keeps s) : s0.Keeps (State.sparesOut s st) := by
  unfold State.sparesOut
  repeat' with_reducible first
    | assumption
    | intro _
    | lift_lets
    | apply keeps_foldl
    | apply State.keepPart_keeps
    | apply State.setFlag_keeps
    | fail_if_no_progress refine keeps_mk rfl rfl rfl rfl rfl rfl rfl rfl rfl rfl rfl rfl rfl rfl ?_

theorem execRowSpareDone_keeps {s0 : State} {channel : Byte} {s : State} (hs : s0.Keeps s) :
    s0.AnsKeeps (execRowSpareDone channel s) := by
  unfold execRowSpareDone
  repeat' with_reducible first
    | assumption
    | exact State.Keeps.refl _
    | intro _
    | lift_lets
    | apply keeps_ite
    | apply State.sparesOut_keeps
    | apply State.raiseCause_keeps
    | apply State.setFlag_keeps
    | apply State.wr_keeps
    | apply State.AnsKeeps.next
    | split
    | fail_if_no_progress refine keeps_mk rfl rfl rfl rfl rfl rfl rfl rfl rfl rfl rfl rfl rfl rfl ?_

theorem execDieLinkReplay_keeps {s0 : State} {again : Bool} {s : State} (hs : s0.Keeps s) :
    s0.AnsKeeps (execDieLinkReplay again s) := by
  unfold execDieLinkReplay
  repeat' with_reducible first
    | assumption
    | exact State.Keeps.refl _
    | intro _
    | lift_lets
    | apply keeps_ite
    | apply State.detect_keeps
    | apply State.withFree_keeps
    | apply State.AnsKeeps.next
    | split
    | fail_if_no_progress refine keeps_mkm rfl rfl rfl rfl rfl rfl rfl rfl rfl rfl rfl rfl rfl ?_ ?_
    | exact MemSys.Keeps.refl _
    | fail_if_no_progress apply memKeeps_mk rfl

theorem State.snapshot_keeps {s0 : State} {s : State} (hs : s0.Keeps s) :
    s0.Keeps (State.snapshot s) := by
  unfold State.snapshot
  repeat' with_reducible first
    | assumption
    | exact State.Keeps.refl _
    | intro _
    | lift_lets
    | apply keeps_ite
    | apply State.setFlag_keeps
    | apply State.withFree_keeps
    | split
    | fail_if_no_progress refine keeps_mk rfl rfl rfl rfl rfl rfl rfl rfl rfl rfl rfl rfl rfl rfl ?_

theorem execLedgerSnapshot_keeps {s0 : State} {fn : Nat} {v : Word} {s : State} (hs : s0.Keeps s) :
    s0.AnsKeeps (execLedgerSnapshot fn v s) := by
  unfold execLedgerSnapshot
  repeat' with_reducible first
    | assumption
    | exact State.Keeps.refl _
    | intro _
    | lift_lets
    | apply keeps_ite
    | apply State.mmio_keeps
    | apply State.snapshot_keeps
    | apply State.AnsKeeps.next

theorem execLedgerSnapshotDone_keeps {s0 : State} {s : State} (hs : s0.Keeps s) :
    s0.AnsKeeps (execLedgerSnapshotDone s) := by
  unfold execLedgerSnapshotDone
  repeat' with_reducible first
    | assumption
    | exact State.Keeps.refl _
    | intro _
    | lift_lets
    | apply keeps_ite
    | apply State.alert_keeps
    | apply State.clrFlag_keeps
    | apply State.logEvent_keeps
    | apply State.raiseCause_keeps
    | apply State.setFlag_keeps
    | apply State.wr_keeps
    | apply State.AnsKeeps.next
    | apply keeps_foldl
    | apply keeps_foldl2
    | apply keeps_foldl3
    | apply keeps_foldl4
    | apply keeps_getD
    | split
    | fail_if_no_progress refine keeps_mk rfl rfl rfl rfl rfl rfl rfl rfl rfl rfl rfl rfl rfl rfl ?_
    | refine keeps_eq2 ?_ (by assumption)
    | refine keeps_eq3 ?_ (by assumption)
    | refine keeps_eq4 ?_ (by assumption)
    | refine keeps_eqs ?_ (by assumption)
    | refine keeps_eqo ?_ (by assumption)
    | refine keeps_eqo2 ?_ (by assumption)
    | refine keeps_eqo3 ?_ (by assumption)
    | dsimp only [id]

/-! ### Machine/Contexts.lean -/

theorem State.ctxBusy_keeps {s0 : State} {s : State} {n : Nat} (hs : s0.Keeps s) :
    s0.Keeps (State.ctxBusy s n) := by
  unfold State.ctxBusy
  repeat' with_reducible first
    | assumption
    | exact State.Keeps.refl _
    | intro _
    | lift_lets
    | apply keeps_ite
    | apply State.setFlag_keeps

theorem State.adjust_keeps {s0 : State} {s : State} {off up down : Nat} (hs : s0.Keeps s) :
    s0.Keeps (State.adjust s off up down) := by
  unfold State.adjust
  repeat' with_reducible first
    | assumption
    | exact State.Keeps.refl _
    | intro _
    | lift_lets
    | apply keeps_ite
    | apply State.wr_keeps

theorem State.zeroCounters_keeps {s0 : State} {s : State} {n : Nat} (hs : s0.Keeps s) :
    s0.Keeps (State.zeroCounters s n) := by
  unfold State.zeroCounters
  repeat' with_reducible first
    | assumption
    | exact State.Keeps.refl _
    | intro _
    | lift_lets
    | apply keeps_ite
    | apply State.wr_keeps
    | apply keeps_foldl
    | apply keeps_foldl2
    | apply keeps_foldl3
    | apply keeps_foldl4
    | split
    | fail_if_no_progress refine keeps_mk rfl rfl rfl rfl rfl rfl rfl rfl rfl rfl rfl rfl rfl rfl ?_

theorem State.ctxCfgWrite_keeps {s0 : State} {s : State} {n : Nat} {v : Word} (hs : s0.Keeps s) :
    s0.Keeps (State.ctxCfgWrite s n v) := by
  unfold State.ctxCfgWrite
  repeat' with_reducible first
    | assumption
    | exact State.Keeps.refl _
    | intro _
    | lift_lets
    | apply keeps_ite
    | apply State.adjust_keeps
    | apply State.adopt_keeps
    | apply State.clrFlag_keeps
    | apply State.ctxBusy_keeps
    | apply State.setFld_keeps
    | apply State.wr_keeps
    | apply State.zeroCounters_keeps
    | apply keeps_foldl

theorem execContextActivate_keeps {s0 : State} {fn ctx tenant weight : Nat} {s : State} (hs : s0.Keeps s) :
    s0.AnsKeeps (execContextActivate fn ctx tenant weight s) := by
  unfold execContextActivate
  repeat' with_reducible first
    | assumption
    | exact State.Keeps.refl _
    | intro _
    | lift_lets
    | apply keeps_ite
    | apply State.ctxCfgWrite_keeps
    | apply State.mmio_keeps
    | apply State.AnsKeeps.next

theorem execContextWeightChange_keeps {s0 : State} {fn ctx weight : Nat} {s : State} (hs : s0.Keeps s) :
    s0.AnsKeeps (execContextWeightChange fn ctx weight s) := by
  unfold execContextWeightChange
  repeat' with_reducible first
    | assumption
    | exact State.Keeps.refl _
    | intro _
    | lift_lets
    | apply keeps_ite
    | apply State.ctxCfgWrite_keeps
    | apply State.mmio_keeps
    | apply State.AnsKeeps.next

theorem execContextFree_keeps {s0 : State} {fn ctx : Nat} {s : State} (hs : s0.Keeps s) :
    s0.AnsKeeps (execContextFree fn ctx s) := by
  unfold execContextFree
  repeat' with_reducible first
    | assumption
    | exact State.Keeps.refl _
    | intro _
    | lift_lets
    | apply keeps_ite
    | apply State.ctxCfgWrite_keeps
    | apply State.mmio_keeps
    | apply State.AnsKeeps.next

theorem execSeedWrite_keeps {s0 : State} {fn ctx : Nat} {v : Word} {s : State} (hs : s0.Keeps s) :
    s0.AnsKeeps (execSeedWrite fn ctx v s) := by
  unfold execSeedWrite
  repeat' with_reducible first
    | assumption
    | exact State.Keeps.refl _
    | intro _
    | lift_lets
    | apply keeps_ite
    | apply State.ctxBusy_keeps
    | apply State.mmio_keeps
    | apply State.setFlag_keeps
    | apply State.wr_keeps
    | apply State.wrLate_keeps
    | apply State.AnsKeeps.next
    | split

theorem execCensus_keeps {s0 : State} {fn ctx : Nat} {s : State} (hs : s0.Keeps s) :
    s0.AnsKeeps (execCensus fn ctx s) := by
  unfold execCensus
  repeat' with_reducible first
    | assumption
    | exact State.Keeps.refl _
    | intro _
    | lift_lets
    | apply keeps_ite
    | apply State.ctxBusy_keeps
    | apply State.mmio_keeps
    | apply State.setFlag_keeps
    | apply State.AnsKeeps.next

theorem State.countLeaves_keeps {s0 s : State} {a : Leaves} {level table fuel : Nat} (hs : s0.Keeps s) :
    s0.Keeps (State.countLeaves s a level table fuel).2 := by
  induction fuel generalizing s a level table with
  | zero =>
    unfold State.countLeaves
    exact hs
  | succ n ih =>
    unfold State.countLeaves
    repeat' with_reducible first
      | assumption
      | exact State.Keeps.refl _
      | intro _
      | lift_lets
      | apply keeps_ite
      | apply ih
      | apply State.pteRead_keeps
      | apply keeps_foldl
      | apply keeps_foldl2
      | apply keeps_foldl3
      | apply keeps_foldl4
      | split
      | fail_if_no_progress refine keeps_mk rfl rfl rfl rfl rfl rfl rfl rfl rfl rfl rfl rfl rfl rfl ?_
      | refine keeps_eq2 ?_ (by assumption)
      | refine keeps_eq3 ?_ (by assumption)

theorem State.censusCounted_keeps {s0 : State} {s : State} {ctx : Nat} {a : Leaves} (hs : s0.Keeps s) :
    s0.Keeps (State.censusCounted s ctx a) := by
  unfold State.censusCounted
  repeat' with_reducible first
    | assumption
    | exact State.Keeps.refl _
    | intro _
    | lift_lets
    | apply keeps_ite
    | apply State.clrFlag_keeps
    | apply State.putFlag_keeps
    | apply State.wr_keeps

theorem execCensusDone_keeps {s0 s : State} {ctx : Nat} {host : HostData} (hs : s0.Keeps s) :
    s0.AnsKeeps (execCensusDone ctx host s) := by
  unfold execCensusDone
  refine State.AnsKeeps.next (keeps_ite hs (State.withHost_keeps hs fun t ht => ?_))
  have h1 := State.countLeaves_keeps (a := ⟨0, 0, 0, false⟩) (level := 3) (table := t.rootOf ctx false) (fuel := 4) ht
  generalize t.countLeaves ⟨0, 0, 0, false⟩ 3 (t.rootOf ctx false) 4 = p at h1 ⊢
  obtain ⟨a, u⟩ := p
  have ht := h1
  dsimp only at ht ⊢
  exact State.putFlag_keeps (State.clrFlag_keeps (State.wr_keeps (State.wr_keeps (State.wr_keeps ht))))

theorem MemSys.purge_keeps {m0 : MemSys} {m : MemSys} {slot : Nat} (hm : m0.Keeps m) :
    m0.Keeps (MemSys.purge m slot) := by
  unfold MemSys.purge
  repeat' with_reducible first
    | assumption
    | exact MemSys.Keeps.refl _
    | intro _
    | lift_lets
    | apply MemSys.flushLine_keeps
    | apply memKeeps_foldl

theorem State.rekey_keeps {s0 : State} {s : State} {slot : Nat} (hs : s0.Keeps s) :
    s0.Keeps (State.rekey s slot) := by
  unfold State.rekey
  repeat' with_reducible first
    | assumption
    | exact State.Keeps.refl _
    | intro _
    | lift_lets
    | apply keeps_ite
    | apply MemSys.purge_keeps
    | apply State.setMem_keeps
    | split
    | fail_if_no_progress refine keeps_mk rfl rfl rfl rfl rfl rfl rfl rfl rfl rfl rfl rfl rfl rfl ?_
    | fail_if_no_progress refine keeps_mkm rfl rfl rfl rfl rfl rfl rfl rfl rfl rfl rfl rfl rfl ?_ ?_
    | exact MemSys.Keeps.refl _
    | fail_if_no_progress apply memKeeps_mk rfl

theorem State.abortCmd_keeps {s0 : State} {s : State} {id : Nat} (hs : s0.Keeps s) :
    s0.Keeps (State.abortCmd s id).2 := by
  unfold State.abortCmd
  repeat' with_reducible first
    | assumption
    | exact State.Keeps.refl _
    | intro _
    | lift_lets
    | apply keeps_ite
    | apply State.stopCmd_keeps
    | split

theorem State.abortCtx_keeps {s0 : State} {s : State} {n : Nat} (hs : s0.Keeps s) :
    s0.Keeps (State.abortCtx s n) := by
  unfold State.abortCtx
  repeat' with_reducible first
    | assumption
    | exact State.Keeps.refl _
    | intro _
    | lift_lets
    | apply keeps_ite
    | apply State.abortCmd_keeps
    | apply State.count_keeps
    | apply State.hit_keeps
    | apply keeps_foldl

theorem State.drainCore_keeps {s0 s : State} {c : Nat} {p : StoreEntry → Bool} {i fuel : Nat} (hs : s0.Keeps s) :
    s0.Keeps (State.drainCore s c p i fuel) := by
  induction fuel generalizing s i with
  | zero =>
    unfold State.drainCore
    exact hs
  | succ n ih =>
    unfold State.drainCore
    repeat' with_reducible first
      | assumption
      | exact State.Keeps.refl _
      | intro _
      | lift_lets
      | apply keeps_ite
      | apply ih
      | apply State.performStore_keeps
      | split
      | fail_if_no_progress refine keeps_mk rfl rfl rfl rfl rfl rfl rfl rfl rfl rfl rfl rfl rfl rfl ?_
      | refine keeps_eq2 ?_ (by assumption)
      | refine keeps_eq3 ?_ (by assumption)
      | refine keeps_eq4 ?_ (by assumption)
      | refine keeps_eqs ?_ (by assumption)
      | refine keeps_eqo ?_ (by assumption)

theorem State.drainCtx_keeps {s0 : State} {s : State} {n : Nat} (hs : s0.Keeps s) :
    s0.Keeps (State.drainCtx s n) := by
  unfold State.drainCtx
  repeat' with_reducible first
    | assumption
    | exact State.Keeps.refl _
    | intro _
    | lift_lets
    | apply keeps_ite
    | apply State.count_keeps
    | apply State.drainCore_keeps
    | apply keeps_foldl

theorem State.breakCtx_keeps {s0 : State} {s : State} {n : Nat} (hs : s0.Keeps s) :
    s0.Keeps (State.breakCtx s n) := by
  unfold State.breakCtx
  repeat' with_reducible first
    | assumption
    | exact State.Keeps.refl _
    | intro _
    | lift_lets
    | apply keeps_ite
    | apply State.count_keeps
    | apply State.semBreak_keeps
    | apply keeps_foldl

theorem State.closePlat_keeps {s0 : State} {s : State} {n p : Nat} (hs : s0.Keeps s) :
    s0.Keeps (State.closePlat s n p) := by
  unfold State.closePlat
  repeat' with_reducible first
    | assumption
    | exact State.Keeps.refl _
    | intro _
    | lift_lets
    | apply keeps_ite
    | apply State.adopt_keeps
    | apply State.clrFlag_keeps
    | apply State.count_keeps
    | apply State.less_keeps
    | apply State.setFld_keeps
    | apply State.tally_keeps

theorem State.releaseCtx_keeps {s0 : State} {s : State} {n : Nat} (hs : s0.Keeps s) :
    s0.Keeps (State.releaseCtx s n) := by
  unfold State.releaseCtx
  repeat' with_reducible first
    | assumption
    | exact State.Keeps.refl _
    | intro _
    | lift_lets
    | apply keeps_ite
    | apply State.closePlat_keeps
    | apply State.count_keeps
    | apply State.invalidate_keeps
    | apply State.qpError_keeps
    | apply State.tktRelease_keeps
    | apply keeps_foldl

theorem State.setRetire_keeps {s0 : State} {s : State} {n : Nat} {x : Option Retire} (hs : s0.Keeps s) :
    s0.Keeps (State.setRetire s n x) := by
  unfold State.setRetire
  repeat' with_reducible first
    | assumption
    | exact State.Keeps.refl _
    | intro _
    | lift_lets
    | apply keeps_ite
    | split
    | fail_if_no_progress refine keeps_mk rfl rfl rfl rfl rfl rfl rfl rfl rfl rfl rfl rfl rfl rfl ?_

theorem State.retireRun_keeps {s0 : State} {s : State} {n : Nat} (hs : s0.Keeps s) :
    s0.Keeps (State.retireRun s n) := by
  unfold State.retireRun
  repeat' with_reducible first
    | assumption
    | exact State.Keeps.refl _
    | intro _
    | lift_lets
    | apply keeps_ite
    | apply State.breakCtx_keeps
    | apply State.drainCtx_keeps
    | apply State.mapCores_keeps
    | apply State.releaseCtx_keeps
    | apply State.setRetire_keeps
    | split

theorem State.beginRetire_keeps {s0 : State} {s : State} {n : Nat} {cmds : List Nat} (hs : s0.Keeps s) :
    s0.Keeps (State.beginRetire s n cmds) := by
  unfold State.beginRetire
  repeat' with_reducible first
    | assumption
    | exact State.Keeps.refl _
    | intro _
    | lift_lets
    | apply keeps_ite
    | apply State.abortCtx_keeps
    | apply State.adjust_keeps
    | apply State.retireRun_keeps
    | apply State.setFld_keeps
    | apply State.setRetire_keeps

theorem execContextRetire_keeps {s0 : State} {id : Nat} {s : State} (hs : s0.Keeps s) :
    s0.AnsKeeps (execContextRetire id s) := by
  unfold execContextRetire
  repeat' with_reducible first
    | assumption
    | exact State.Keeps.refl _
    | intro _
    | lift_lets
    | apply keeps_ite
    | apply State.beginRetire_keeps
    | apply State.endCmd_keeps
    | apply State.setRetire_keeps
    | apply State.simpleEntry_keeps
    | apply State.AnsKeeps.next
    | split

theorem State.retired_keeps {s0 : State} {s : State} {n : Nat} {r : Retire} (hs : s0.Keeps s) :
    s0.Keeps (State.retired s n r) := by
  unfold State.retired
  repeat' with_reducible first
    | assumption
    | exact State.Keeps.refl _
    | intro _
    | lift_lets
    | apply keeps_ite
    | apply State.count_keeps
    | apply State.endCmd_keeps
    | apply State.setFld_keeps
    | apply State.setRetire_keeps
    | apply State.wr_keeps
    | apply keeps_foldl

theorem State.retireTenant_keeps {s0 : State} {s : State} {f : Nat} (hs : s0.Keeps s) :
    s0.Keeps (State.retireTenant s f) := by
  unfold State.retireTenant
  repeat' with_reducible first
    | assumption
    | exact State.Keeps.refl _
    | intro _
    | lift_lets
    | apply keeps_ite
    | apply State.beginRetire_keeps
    | apply keeps_foldl

/-! ### Machine/Boot.lean -/

theorem State.loadShares_keeps {s0 : State} {s : State} {sec : Nat → List Byte} (hs : s0.Keeps s) :
    s0.Keeps (State.loadShares s sec) := by
  unfold State.loadShares
  repeat' with_reducible first
    | assumption
    | exact State.Keeps.refl _
    | intro _
    | lift_lets
    | apply keeps_ite
    | apply State.wr_keeps
    | apply keeps_foldl
    | apply keeps_foldl2
    | apply keeps_foldl3
    | apply keeps_foldl4
    | split
    | fail_if_no_progress refine keeps_mk rfl rfl rfl rfl rfl rfl rfl rfl rfl rfl rfl rfl rfl rfl ?_

theorem State.loadMesh_keeps {s0 : State} {s : State} {b : List Byte} {boot : Bool} (hs : s0.Keeps s) :
    s0.Keeps (State.loadMesh s b boot) := by
  unfold State.loadMesh
  repeat' with_reducible first
    | assumption
    | exact State.Keeps.refl _
    | intro _
    | lift_lets
    | apply keeps_ite
    | apply State.markLost_keeps
    | apply State.putFlag_keeps
    | apply State.setPort_keeps
    | apply State.wr_keeps
    | apply keeps_foldl
    | apply keeps_foldl2
    | apply keeps_foldl3
    | apply keeps_foldl4
    | split
    | fail_if_no_progress refine keeps_mk rfl rfl rfl rfl rfl rfl rfl rfl rfl rfl rfl rfl rfl rfl ?_

theorem State.loadEthernet_keeps {s0 : State} {s : State} {b : List Byte} (hs : s0.Keeps s) :
    s0.Keeps (State.loadEthernet s b) := by
  unfold State.loadEthernet
  repeat' with_reducible first
    | assumption
    | exact State.Keeps.refl _
    | intro _
    | lift_lets
    | apply keeps_ite
    | apply State.wr_keeps
    | apply keeps_foldl

theorem State.loadPcie_keeps {s0 : State} {s : State} {b : List Byte} (hs : s0.Keeps s) :
    s0.Keeps (State.loadPcie s b) := by
  unfold State.loadPcie
  repeat' with_reducible first
    | assumption
    | exact State.Keeps.refl _
    | intro _
    | lift_lets
    | apply keeps_ite
    | split
    | fail_if_no_progress refine keeps_mk rfl rfl rfl rfl rfl rfl rfl rfl rfl rfl rfl rfl rfl rfl ?_

theorem State.loadTimetable_keeps {s0 : State} {s : State} {b : List Byte} {boot replaced : Bool} (hs : s0.Keeps s) :
    s0.Keeps (State.loadTimetable s b boot replaced) := by
  unfold State.loadTimetable
  repeat' with_reducible first
    | assumption
    | exact State.Keeps.refl _
    | intro _
    | lift_lets
    | apply keeps_ite
    | apply State.clrFlag_keeps
    | apply State.installTimetable_keeps
    | apply State.setFlag_keeps
    | apply State.setFld_keeps
    | apply State.setMln_keeps
    | apply State.wr_keeps

theorem State.loadPower_keeps {s0 : State} {s : State} {b : List Byte} (hs : s0.Keeps s) :
    s0.Keeps (State.loadPower s b) := by
  unfold State.loadPower
  repeat' with_reducible first
    | assumption
    | exact State.Keeps.refl _
    | intro _
    | lift_lets
    | apply keeps_ite
    | apply State.wr_keeps
    | apply keeps_foldl
    | apply keeps_foldl2
    | apply keeps_foldl3
    | apply keeps_foldl4
    | split
    | fail_if_no_progress refine keeps_mk rfl rfl rfl rfl rfl rfl rfl rfl rfl rfl rfl rfl rfl rfl ?_

theorem State.loadRas_keeps {s0 : State} {s : State} {b : List Byte} (hs : s0.Keeps s) :
    s0.Keeps (State.loadRas s b) := by
  unfold State.loadRas
  repeat' with_reducible first
    | assumption
    | exact State.Keeps.refl _
    | intro _
    | lift_lets
    | apply keeps_ite
    | apply State.wr_keeps
    | apply keeps_foldl
    | apply keeps_foldl2
    | apply keeps_foldl3
    | apply keeps_foldl4
    | split
    | fail_if_no_progress refine keeps_mk rfl rfl rfl rfl rfl rfl rfl rfl rfl rfl rfl rfl rfl rfl ?_

theorem State.loadDefaults_keeps {s0 : State} {s : State} {b : List Byte} (hs : s0.Keeps s) :
    s0.Keeps (State.loadDefaults s b) := by
  unfold State.loadDefaults
  repeat' with_reducible first
    | assumption
    | exact State.Keeps.refl _
    | intro _
    | lift_lets
    | apply keeps_ite
    | apply State.adopt_keeps
    | apply State.wr_keeps
    | apply keeps_foldl
    | apply keeps_foldl2
    | apply keeps_foldl3
    | apply keeps_foldl4
    | split
    | fail_if_no_progress refine keeps_mk rfl rfl rfl rfl rfl rfl rfl rfl rfl rfl rfl rfl rfl rfl ?_

theorem State.loadSecurity_keeps {s0 : State} {s : State} {b : List Byte} (hs : s0.Keeps s) :
    s0.Keeps (State.loadSecurity s b) := by
  unfold State.loadSecurity
  repeat' with_reducible first
    | assumption
    | exact State.Keeps.refl _
    | intro _
    | lift_lets
    | apply keeps_ite
    | apply keeps_foldl
    | apply keeps_foldl2
    | apply keeps_foldl3
    | apply keeps_foldl4
    | split
    | fail_if_no_progress refine keeps_mk rfl rfl rfl rfl rfl rfl rfl rfl rfl rfl rfl rfl rfl rfl ?_

theorem State.loadFields_keeps {s0 : State} {s : State} {base : List Byte} {ovl : Option (List Byte)} {boot : Bool} (hs : s0.Keeps s) :
    s0.Keeps (State.loadFields s base ovl boot) := by
  unfold State.loadFields
  repeat' with_reducible first
    | assumption
    | exact State.Keeps.refl _
    | intro _
    | lift_lets
    | apply keeps_ite
    | apply State.loadDefaults_keeps
    | apply State.loadEthernet_keeps
    | apply State.loadMesh_keeps
    | apply State.loadPcie_keeps
    | apply State.loadPower_keeps
    | apply State.loadRas_keeps
    | apply State.loadSecurity_keeps
    | apply State.loadShares_keeps
    | apply State.loadTimetable_keeps

theorem State.putChain_keeps {s0 : State} {s : State} {l : List (Nat × Nat)} (hs : s0.Keeps s) :
    s0.Keeps (State.putChain s l) := by
  unfold State.putChain
  repeat' with_reducible first
    | assumption
    | exact State.Keeps.refl _
    | intro _
    | lift_lets
    | apply keeps_ite
    | apply State.wr_keeps
    | apply keeps_foldl

theorem State.chain_keeps {s0 : State} {s : State} (hs : s0.Keeps s) :
    s0.Keeps (State.chain s) := by
  unfold State.chain
  repeat' with_reducible first
    | assumption
    | exact State.Keeps.refl _
    | intro _
    | lift_lets
    | apply keeps_ite
    | apply State.putChain_keeps

theorem State.showOverlay_keeps {s0 : State} {s : State} {slot : Nat} {ovl : Option (List Byte)} (hs : s0.Keeps s) :
    s0.Keeps (State.showOverlay s slot ovl) := by
  unfold State.showOverlay
  repeat' with_reducible first
    | assumption
    | exact State.Keeps.refl _
    | intro _
    | lift_lets
    | apply keeps_ite
    | apply State.chain_keeps
    | apply State.setFld_keeps
    | split
    | fail_if_no_progress refine keeps_mk rfl rfl rfl rfl rfl rfl rfl rfl rfl rfl rfl rfl rfl rfl ?_

theorem State.conFail_keeps {s0 : State} {s : State} {e : Nat × Nat} (hs : s0.Keeps s) :
    s0.Keeps (State.conFail s e) := by
  unfold State.conFail
  repeat' with_reducible first
    | assumption
    | exact State.Keeps.refl _
    | intro _
    | lift_lets
    | apply keeps_ite
    | apply State.wr_keeps

theorem State.noConsist_keeps {s0 : State} {s : State} (hs : s0.Keeps s) :
    s0.Keeps (State.noConsist s) := by
  unfold State.noConsist
  repeat' with_reducible first
    | assumption
    | exact State.Keeps.refl _
    | intro _
    | lift_lets
    | apply keeps_ite
    | apply State.putChain_keeps
    | apply State.setFld_keeps
    | split
    | fail_if_no_progress refine keeps_mk rfl rfl rfl rfl rfl rfl rfl rfl rfl rfl rfl rfl rfl rfl ?_

theorem State.loadBase_keeps {s0 : State} {s : State} {slot : Nat} {b : List Byte} (hs : s0.Keeps s) :
    s0.Keeps (State.loadBase s slot b) := by
  unfold State.loadBase
  repeat' with_reducible first
    | assumption
    | exact State.Keeps.refl _
    | intro _
    | lift_lets
    | apply keeps_ite
    | apply State.loadFields_keeps
    | apply State.setFld_keeps
    | apply State.wr_keeps
    | apply keeps_foldl
    | apply keeps_foldl2
    | apply keeps_foldl3
    | apply keeps_foldl4
    | split
    | fail_if_no_progress refine keeps_mk rfl rfl rfl rfl rfl rfl rfl rfl rfl rfl rfl rfl rfl rfl ?_

theorem State.baseRefused_keeps {s0 : State} {s : State} {i : Nat} {e : Nat × Nat} (hs : s0.Keeps s) :
    s0.Keeps (State.baseRefused s i e) := by
  unfold State.baseRefused
  repeat' with_reducible first
    | assumption
    | exact State.Keeps.refl _
    | intro _
    | lift_lets
    | apply keeps_ite
    | apply State.conFail_keeps
    | apply State.setFlag_keeps

theorem State.baseTaken_keeps {s0 : State} {s : State} {i : Nat} (hs : s0.Keeps s) :
    s0.Keeps (State.baseTaken s i) := by
  unfold State.baseTaken
  repeat' with_reducible first
    | assumption
    | exact State.Keeps.refl _
    | intro _
    | lift_lets
    | apply keeps_ite
    | apply State.loadBase_keeps
    | apply State.setFld_keeps

theorem execConsistLoad_keeps {s0 : State} {badA badB : Bool} {s : State} (hs : s0.Keeps s) :
    s0.AnsKeeps (execConsistLoad badA badB s) := by
  unfold execConsistLoad
  repeat' with_reducible first
    | assumption
    | exact State.Keeps.refl _
    | intro _
    | lift_lets
    | apply keeps_ite
    | apply State.baseRefused_keeps
    | apply State.baseTaken_keeps
    | apply State.logEvent_keeps
    | apply State.noConsist_keeps
    | apply State.raiseCause_keeps
    | apply State.AnsKeeps.next
    | split

theorem State.startRun_keeps {s0 : State} {s : State} (hs : s0.Keeps s) :
    s0.Keeps (State.startRun s) := by
  unfold State.startRun
  repeat' with_reducible first
    | assumption
    | exact State.Keeps.refl _
    | intro _
    | lift_lets
    | apply keeps_ite
    | apply State.setFld_keeps
    | split
    | fail_if_no_progress refine keeps_mk rfl rfl rfl rfl rfl rfl rfl rfl rfl rfl rfl rfl rfl rfl ?_

theorem execStartOverlay_keeps {s0 : State} {bad : Bool} {s : State} (hs : s0.Keeps s) :
    s0.AnsKeeps (execStartOverlay bad s) := by
  unfold execStartOverlay
  repeat' with_reducible first
    | assumption
    | exact State.Keeps.refl _
    | intro _
    | lift_lets
    | apply keeps_ite
    | apply State.conFail_keeps
    | apply State.loadFields_keeps
    | apply State.showOverlay_keeps
    | apply State.startRun_keeps
    | apply State.AnsKeeps.next
    | split

theorem State.abandon_keeps {s0 : State} {s : State} {e : Nat × Nat} (hs : s0.Keeps s) :
    s0.Keeps (State.abandon s e) := by
  unfold State.abandon
  repeat' with_reducible first
    | assumption
    | exact State.Keeps.refl _
    | intro _
    | lift_lets
    | apply keeps_ite
    | apply State.conFail_keeps
    | apply State.raiseCause_keeps
    | apply State.setFlag_keeps
    | apply State.setFld_keeps
    | split
    | fail_if_no_progress refine keeps_mk rfl rfl rfl rfl rfl rfl rfl rfl rfl rfl rfl rfl rfl rfl ?_

theorem execSwitchRequest_keeps {s0 : State} {fn : Nat} {v : Word} {s : State} (hs : s0.Keeps s) :
    s0.AnsKeeps (execSwitchRequest fn v s) := by
  unfold execSwitchRequest
  repeat' with_reducible first
    | assumption
    | exact State.Keeps.refl _
    | intro _
    | lift_lets
    | apply keeps_ite
    | apply State.abandon_keeps
    | apply State.markQuiet_keeps
    | apply State.mmio_keeps
    | apply State.setFlag_keeps
    | apply State.setFld_keeps
    | apply State.wr_keeps
    | apply State.AnsKeeps.next
    | split
    | fail_if_no_progress refine keeps_mk rfl rfl rfl rfl rfl rfl rfl rfl rfl rfl rfl rfl rfl rfl ?_

theorem execOverlayVerifyDone_keeps {s0 : State} {bad : Bool} {s : State} (hs : s0.Keeps s) :
    s0.AnsKeeps (execOverlayVerifyDone bad s) := by
  unfold execOverlayVerifyDone
  repeat' with_reducible first
    | assumption
    | exact State.Keeps.refl _
    | intro _
    | lift_lets
    | apply keeps_ite
    | apply State.abandon_keeps
    | apply State.markQuiet_keeps
    | apply State.memRead_keeps
    | apply State.poisonIf_keeps
    | apply State.AnsKeeps.next
    | split
    | fail_if_no_progress refine keeps_mk rfl rfl rfl rfl rfl rfl rfl rfl rfl rfl rfl rfl rfl rfl ?_
    | refine keeps_eq2 ?_ (by assumption)
    | refine keeps_eq3 ?_ (by assumption)
    | refine keeps_eq4 ?_ (by assumption)
    | refine keeps_eqs ?_ (by assumption)
    | refine keeps_eqo ?_ (by assumption)
    | refine keeps_eqo2 ?_ (by assumption)
    | refine keeps_eqo3 ?_ (by assumption)
    | dsimp only [id]
    | dsimp +zetaDelta only

theorem execQuiesceTimeout_keeps {s0 : State} {s : State} (hs : s0.Keeps s) :
    s0.AnsKeeps (execQuiesceTimeout s) := by
  unfold execQuiesceTimeout
  repeat' with_reducible first
    | assumption
    | exact State.Keeps.refl _
    | intro _
    | lift_lets
    | apply keeps_ite
    | apply State.abandon_keeps
    | apply State.AnsKeeps.next

theorem State.reseed_keeps {s0 : State} {s : State} (hs : s0.Keeps s) :
    s0.Keeps (State.reseed s) := by
  unfold State.reseed
  repeat' with_reducible first
    | assumption
    | exact State.Keeps.refl _
    | intro _
    | lift_lets
    | apply keeps_ite
    | apply State.setFlag_keeps
    | apply State.wrLate_keeps
    | apply keeps_foldl

theorem State.switchTo_keeps {s0 : State} {s : State} {slot : Nat} {ovl : Option (List Byte)} (hs : s0.Keeps s) :
    s0.Keeps (State.switchTo s slot ovl) := by
  unfold State.switchTo
  repeat' with_reducible first
    | assumption
    | exact State.Keeps.refl _
    | intro _
    | lift_lets
    | apply keeps_ite
    | apply State.count_keeps
    | apply State.loadFields_keeps
    | apply State.mapCores_keeps
    | apply State.raiseCause_keeps
    | apply State.reseed_keeps
    | apply State.setFlag_keeps
    | apply State.setFld_keeps
    | apply State.showOverlay_keeps
    | split
    | fail_if_no_progress refine keeps_mk rfl rfl rfl rfl rfl rfl rfl rfl rfl rfl rfl rfl rfl rfl ?_

theorem execSwitchApply_keeps {s0 : State} {s : State} (hs : s0.Keeps s) :
    s0.AnsKeeps (execSwitchApply s) := by
  unfold execSwitchApply
  repeat' with_reducible first
    | assumption
    | exact State.Keeps.refl _
    | intro _
    | lift_lets
    | apply keeps_ite
    | apply State.switchTo_keeps
    | apply State.AnsKeeps.next
    | split

theorem execModeSwitch_keeps {s0 : State} {fn : Nat} {mirror : Bool} {s : State} (hs : s0.Keeps s) :
    s0.AnsKeeps (execModeSwitch fn mirror s) := by
  unfold execModeSwitch
  repeat' with_reducible first
    | assumption
    | exact State.Keeps.refl _
    | intro _
    | lift_lets
    | apply keeps_ite
    | apply State.denied_keeps
    | apply State.flushTlbs_keeps
    | apply State.mmio_keeps
    | apply State.putFlag_keeps
    | apply State.setFlag_keeps
    | apply State.AnsKeeps.next

/-! ### Machine/Clocks.lean -/

theorem execRefDeviation_keeps {s0 : State} {ppm : BitVec 16} {s : State} (hs : s0.Keeps s) :
    s0.AnsKeeps (execRefDeviation ppm s) := by
  unfold execRefDeviation
  repeat' with_reducible first
    | assumption
    | exact State.Keeps.refl _
    | intro _
    | lift_lets
    | apply keeps_ite
    | apply State.alert_keeps
    | apply State.logEvent_keeps
    | apply State.putFlag_keeps
    | apply State.withFree_keeps
    | apply State.wr_keeps
    | apply State.AnsKeeps.next

theorem State.eventWindow_keeps {s0 : State} {s : State} {g n : Nat} (hs : s0.Keeps s) :
    s0.Keeps (State.eventWindow s g n) := by
  unfold State.eventWindow
  repeat' with_reducible first
    | assumption
    | exact State.Keeps.refl _
    | intro _
    | lift_lets
    | apply keeps_ite
    | apply State.count_keeps
    | apply State.setFlag_keeps
    | split
    | fail_if_no_progress refine keeps_mkm rfl rfl rfl rfl rfl rfl rfl rfl rfl rfl rfl rfl rfl ?_ ?_
    | exact MemSys.Keeps.refl _
    | fail_if_no_progress apply memKeeps_mk rfl

theorem execCdcOverrun_keeps {s0 : State} {group : Fin 9} {s : State} (hs : s0.Keeps s) :
    s0.AnsKeeps (execCdcOverrun group s) := by
  unfold execCdcOverrun
  repeat' with_reducible first
    | assumption
    | exact State.Keeps.refl _
    | intro _
    | lift_lets
    | apply keeps_ite
    | apply State.eventWindow_keeps
    | apply State.AnsKeeps.next

theorem State.fenceCore_keeps {s0 : State} {s : State} {c : Nat} {stopped : Nat} (hs : s0.Keeps s) :
    s0.Keeps (State.fenceCore s c stopped) := by
  unfold State.fenceCore
  repeat' with_reducible first
    | assumption
    | exact State.Keeps.refl _
    | intro _
    | lift_lets
    | apply keeps_ite
    | apply State.rled_keeps
    | apply State.settleFaults_keeps
    | apply State.updCore_keeps
    | split
    | fail_if_no_progress refine keeps_mk rfl rfl rfl rfl rfl rfl rfl rfl rfl rfl rfl rfl rfl rfl ?_

theorem State.fenceMainline_keeps {s0 : State} {s : State} (hs : s0.Keeps s) :
    s0.Keeps (State.fenceMainline s) := by
  unfold State.fenceMainline
  repeat' with_reducible first
    | assumption
    | exact State.Keeps.refl _
    | intro _
    | lift_lets
    | apply keeps_ite
    | apply State.led_keeps
    | apply State.readFails_keeps
    | apply State.rled_keeps
    | apply State.setMln_keeps
    | apply State.tellLost_keeps
    | apply State.unhold_keeps
    | apply keeps_foldl

theorem execCdcStall_keeps {s0 : State} {group : Fin 9} {inst : Byte} {detect stopped : Fin 8} {s : State} (hs : s0.Keeps s) :
    s0.AnsKeeps (execCdcStall group inst detect stopped s) := by
  unfold execCdcStall
  repeat' with_reducible first
    | assumption
    | exact State.Keeps.refl _
    | intro _
    | lift_lets
    | apply keeps_ite
    | apply State.alert_keeps
    | apply State.count_keeps
    | apply State.detect_keeps
    | apply State.fenceCore_keeps
    | apply State.fenceMainline_keeps
    | apply State.fillLog_keeps
    | apply State.logEvent_keeps
    | apply State.raiseCause_keeps
    | apply State.setFlag_keeps
    | apply State.withFree_keeps
    | apply State.AnsKeeps.next
    | split
    | fail_if_no_progress refine keeps_mkm rfl rfl rfl rfl rfl rfl rfl rfl rfl rfl rfl rfl rfl ?_ ?_
    | exact MemSys.Keeps.refl _
    | fail_if_no_progress apply memKeeps_mk rfl

/-! ### Machine/Sema.lean -/

theorem State.semBusy_keeps {s0 : State} {s : State} (hs : s0.Keeps s) :
    s0.Keeps (State.semBusy s) := by
  unfold State.semBusy
  repeat' with_reducible first
    | assumption
    | exact State.Keeps.refl _
    | intro _
    | lift_lets
    | apply keeps_ite
    | apply State.setFlag_keeps

theorem State.semClear_keeps {s0 : State} {s : State} {n : Nat} (hs : s0.Keeps s) :
    s0.Keeps (State.semClear s n) := by
  unfold State.semClear
  repeat' with_reducible first
    | assumption
    | exact State.Keeps.refl _
    | intro _
    | lift_lets
    | apply keeps_ite
    | apply State.wr_keeps
    | split
    | fail_if_no_progress refine keeps_mk rfl rfl rfl rfl rfl rfl rfl rfl rfl rfl rfl rfl rfl rfl ?_

theorem State.semFree_keeps {s0 : State} {s : State} {n : Nat} (hs : s0.Keeps s) :
    s0.Keeps (State.semFree s n) := by
  unfold State.semFree
  repeat' with_reducible first
    | assumption
    | exact State.Keeps.refl _
    | intro _
    | lift_lets
    | apply keeps_ite
    | apply State.semClear_keeps
    | apply State.setWaiters_keeps
    | apply State.wake_keeps
    | apply State.wr_keeps
    | apply keeps_foldl

theorem State.semCfgWrite_keeps {s0 : State} {s : State} {n : Nat} {v : Word} (hs : s0.Keeps s) :
    s0.Keeps (State.semCfgWrite s n v) := by
  unfold State.semCfgWrite
  repeat' with_reducible first
    | assumption
    | exact State.Keeps.refl _
    | intro _
    | lift_lets
    | apply keeps_ite
    | apply State.clrFlag_keeps
    | apply State.putFlag_keeps
    | apply State.semBreak_keeps
    | apply State.semBusy_keeps
    | apply State.semClear_keeps
    | apply State.semFree_keeps
    | apply State.wr_keeps

theorem execSemActivate_keeps {s0 : State} {fn n ctx : Nat} {remote : Bool} {s : State} (hs : s0.Keeps s) :
    s0.AnsKeeps (execSemActivate fn n ctx remote s) := by
  unfold execSemActivate
  repeat' with_reducible first
    | assumption
    | exact State.Keeps.refl _
    | intro _
    | lift_lets
    | apply keeps_ite
    | apply State.mmio_keeps
    | apply State.semCfgWrite_keeps
    | apply State.AnsKeeps.next

theorem execSemRemoteChange_keeps {s0 : State} {fn n : Nat} {remote : Bool} {s : State} (hs : s0.Keeps s) :
    s0.AnsKeeps (execSemRemoteChange fn n remote s) := by
  unfold execSemRemoteChange
  repeat' with_reducible first
    | assumption
    | exact State.Keeps.refl _
    | intro _
    | lift_lets
    | apply keeps_ite
    | apply State.mmio_keeps
    | apply State.semCfgWrite_keeps
    | apply State.AnsKeeps.next

theorem execSemBreak_keeps {s0 : State} {fn n : Nat} {s : State} (hs : s0.Keeps s) :
    s0.AnsKeeps (execSemBreak fn n s) := by
  unfold execSemBreak
  repeat' with_reducible first
    | assumption
    | exact State.Keeps.refl _
    | intro _
    | lift_lets
    | apply keeps_ite
    | apply State.mmio_keeps
    | apply State.semCfgWrite_keeps
    | apply State.AnsKeeps.next

theorem execSemFree_keeps {s0 : State} {fn n : Nat} {s : State} (hs : s0.Keeps s) :
    s0.AnsKeeps (execSemFree fn n s) := by
  unfold execSemFree
  repeat' with_reducible first
    | assumption
    | exact State.Keeps.refl _
    | intro _
    | lift_lets
    | apply keeps_ite
    | apply State.mmio_keeps
    | apply State.semCfgWrite_keeps
    | apply State.AnsKeeps.next

theorem State.semForce_keeps {s0 : State} {s : State} {fn n : Nat} {v : Word} (hs : s0.Keeps s) :
    s0.Keeps (State.semForce s fn n v) := by
  unfold State.semForce
  repeat' with_reducible first
    | assumption
    | exact State.Keeps.refl _
    | intro _
    | lift_lets
    | apply keeps_ite
    | apply State.count_keeps
    | apply State.fillLog_keeps
    | apply State.semBusy_keeps
    | apply State.semServe_keeps
    | apply State.semStamp_keeps
    | apply State.trace_keeps
    | apply State.wr_keeps

theorem execSemForce_keeps {s0 : State} {fn n : Nat} {v : Word} {s : State} (hs : s0.Keeps s) :
    s0.AnsKeeps (execSemForce fn n v s) := by
  unfold execSemForce
  repeat' with_reducible first
    | assumption
    | exact State.Keeps.refl _
    | intro _
    | lift_lets
    | apply keeps_ite
    | apply State.mmio_keeps
    | apply State.semForce_keeps
    | apply State.AnsKeeps.next

theorem execSemSnapshot_keeps {s0 : State} {fn n : Nat} {s : State} (hs : s0.Keeps s) :
    s0.AnsKeeps (execSemSnapshot fn n s) := by
  unfold execSemSnapshot
  repeat' with_reducible first
    | assumption
    | exact State.Keeps.refl _
    | intro _
    | lift_lets
    | apply keeps_ite
    | apply State.clrFlag_keeps
    | apply State.mmio_keeps
    | apply State.wr_keeps
    | apply State.AnsKeeps.next
    | split
    | fail_if_no_progress refine keeps_mk rfl rfl rfl rfl rfl rfl rfl rfl rfl rfl rfl rfl rfl rfl ?_

theorem State.semShow_keeps {s0 : State} {s : State} {x : SemSnap} (hs : s0.Keeps s) :
    s0.Keeps (State.semShow s x) := by
  unfold State.semShow
  repeat' with_reducible first
    | assumption
    | exact State.Keeps.refl _
    | intro _
    | lift_lets
    | apply keeps_ite
    | apply State.wr_keeps
    | apply keeps_foldl

theorem execSemSnapshotReady_keeps {s0 : State} {s : State} (hs : s0.Keeps s) :
    s0.AnsKeeps (execSemSnapshotReady s) := by
  unfold execSemSnapshotReady
  repeat' with_reducible first
    | assumption
    | exact State.Keeps.refl _
    | intro _
    | lift_lets
    | apply keeps_ite
    | apply State.semShow_keeps
    | apply State.AnsKeeps.next
    | split
    | fail_if_no_progress refine keeps_mk rfl rfl rfl rfl rfl rfl rfl rfl rfl rfl rfl rfl rfl rfl ?_

/-! ### Machine/Debug.lean -/

theorem State.markBoundary_keeps {s0 : State} {s : State} {sets : List Nat} (hs : s0.Keeps s) :
    s0.Keeps (State.markBoundary s sets) := by
  unfold State.markBoundary
  repeat' with_reducible first
    | assumption
    | exact State.Keeps.refl _
    | intro _
    | lift_lets
    | apply keeps_ite
    | apply State.setCmd_keeps
    | apply keeps_foldl
    | apply keeps_foldl2
    | apply keeps_foldl3
    | apply keeps_foldl4
    | split

theorem State.samplePut_keeps {s0 : State} {s : State} {sets : List Nat} {i n seq : Nat} (hs : s0.Keeps s) :
    s0.Keeps (State.samplePut s sets i n seq) := by
  unfold State.samplePut
  repeat' with_reducible first
    | assumption
    | exact State.Keeps.refl _
    | intro _
    | lift_lets
    | apply keeps_ite
    | apply State.memWrite_keeps
    | apply keeps_foldl

theorem execCounterSample_keeps {s0 : State} {s : State} (hs : s0.Keeps s) :
    s0.AnsKeeps (execCounterSample s) := by
  unfold execCounterSample
  repeat' with_reducible first
    | assumption
    | exact State.Keeps.refl _
    | intro _
    | lift_lets
    | apply keeps_ite
    | apply State.count_keeps
    | apply State.markBoundary_keeps
    | apply State.samplePut_keeps
    | apply State.wr_keeps
    | apply State.AnsKeeps.next
    | split
    | fail_if_no_progress refine keeps_mk rfl rfl rfl rfl rfl rfl rfl rfl rfl rfl rfl rfl rfl rfl ?_

theorem execCounterClear_keeps {s0 : State} {fn set : Nat} {v : Word} {s : State} (hs : s0.Keeps s) :
    s0.AnsKeeps (execCounterClear fn set v s) := by
  unfold execCounterClear
  repeat' with_reducible first
    | assumption
    | exact State.Keeps.refl _
    | intro _
    | lift_lets
    | apply keeps_ite
    | apply State.mmio_keeps
    | apply State.restartSet_keeps
    | apply State.setFld_keeps
    | apply State.AnsKeeps.next
    | split
    | fail_if_no_progress refine keeps_mk rfl rfl rfl rfl rfl rfl rfl rfl rfl rfl rfl rfl rfl rfl ?_

theorem execTraceTrigger_keeps {s0 : State} {fn : Nat} {s : State} (hs : s0.Keeps s) :
    s0.AnsKeeps (execTraceTrigger fn s) := by
  unfold execTraceTrigger
  repeat' with_reducible first
    | assumption
    | exact State.Keeps.refl _
    | intro _
    | lift_lets
    | apply keeps_ite
    | apply State.mmio_keeps
    | apply State.traceTrigger_keeps
    | apply State.AnsKeeps.next

theorem execTraceRestart_keeps {s0 : State} {fn : Nat} {s : State} (hs : s0.Keeps s) :
    s0.AnsKeeps (execTraceRestart fn s) := by
  unfold execTraceRestart
  repeat' with_reducible first
    | assumption
    | exact State.Keeps.refl _
    | intro _
    | lift_lets
    | apply keeps_ite
    | apply State.mmio_keeps
    | apply State.setFld_keeps
    | apply State.wr_keeps
    | apply State.AnsKeeps.next
    | split
    | fail_if_no_progress refine keeps_mk rfl rfl rfl rfl rfl rfl rfl rfl rfl rfl rfl rfl rfl rfl ?_

theorem execTraceFreeze_keeps {s0 : State} {s : State} (hs : s0.Keeps s) :
    s0.AnsKeeps (execTraceFreeze s) := by
  unfold execTraceFreeze
  repeat' with_reducible first
    | assumption
    | exact State.Keeps.refl _
    | intro _
    | lift_lets
    | apply keeps_ite
    | apply State.setFlag_keeps
    | apply State.AnsKeeps.next

theorem execSurveyStart_keeps {s0 : State} {fn : Nat} {v : Word} {s : State} (hs : s0.Keeps s) :
    s0.AnsKeeps (execSurveyStart fn v s) := by
  unfold execSurveyStart
  repeat' with_reducible first
    | assumption
    | exact State.Keeps.refl _
    | intro _
    | lift_lets
    | apply keeps_ite
    | apply State.mmio_keeps
    | apply State.surveyStart_keeps
    | apply State.wr_keeps
    | apply State.AnsKeeps.next

theorem State.surveyPut_keeps {s0 : State} {s : State} {off : Nat} {b : List Byte} (hs : s0.Keeps s) :
    s0.Keeps (State.surveyPut s off b) := by
  unfold State.surveyPut
  repeat' with_reducible first
    | assumption
    | exact State.Keeps.refl _
    | intro _
    | lift_lets
    | apply keeps_ite
    | apply State.memWrite_keeps

theorem State.surveyWrite_keeps {s0 : State} {s : State} {parts : List (Nat × List Byte)} (hs : s0.Keeps s) :
    s0.Keeps (State.surveyWrite s parts) := by
  unfold State.surveyWrite
  repeat' with_reducible first
    | assumption
    | exact State.Keeps.refl _
    | intro _
    | lift_lets
    | apply keeps_ite
    | apply State.surveyPut_keeps
    | apply keeps_foldl

theorem execSurveyLatch_keeps {s0 : State} {s : State} (hs : s0.Keeps s) :
    s0.AnsKeeps (execSurveyLatch s) := by
  unfold execSurveyLatch
  repeat' with_reducible first
    | assumption
    | exact State.Keeps.refl _
    | intro _
    | lift_lets
    | apply keeps_ite
    | apply State.surveyWrite_keeps
    | apply State.traceTrigger_keeps
    | apply State.withFree_keeps
    | apply State.AnsKeeps.next
    | split
    | fail_if_no_progress refine keeps_mk rfl rfl rfl rfl rfl rfl rfl rfl rfl rfl rfl rfl rfl rfl ?_

theorem execSurveyDone_keeps {s0 : State} {s : State} (hs : s0.Keeps s) :
    s0.AnsKeeps (execSurveyDone s) := by
  unfold execSurveyDone
  repeat' with_reducible first
    | assumption
    | exact State.Keeps.refl _
    | intro _
    | lift_lets
    | apply keeps_ite
    | apply State.clrFlag_keeps
    | apply State.setFlag_keeps
    | apply State.surveyPut_keeps
    | apply State.surveyWrite_keeps
    | apply State.trace_keeps
    | apply State.withFree_keeps
    | apply State.AnsKeeps.next
    | split
    | fail_if_no_progress refine keeps_mk rfl rfl rfl rfl rfl rfl rfl rfl rfl rfl rfl rfl rfl rfl ?_

end Sys2Proof.Machine
end

