-- ==== Sys2Proof/Laws/KeepsBlocks.lean ====
section
/-! SUPPORT. What dispatch code, host link, power, resets, JTAG, security, management, registers and time keep. -/

namespace Sys2Proof.Machine

/-! ### Machine/DispatchCode.lean -/

theorem State.firstIssue_keeps {s0 : State} {s : State} {t : Nat} {th : Thread} (hs : s0.Keeps s) :
    s0.Keeps (State.firstIssue s t th) := by
  unfold State.firstIssue
  repeat' with_reducible first
    | assumption
    | exact State.Keeps.refl _
    | intro _
    | lift_lets
    | apply keeps_ite
    | apply State.setCmd_keeps
    | apply State.setThread_keeps
    | split

theorem State.dcount_keeps {s0 : State} {s : State} {t op : Nat} (hs : s0.Keeps s) :
    s0.Keeps (State.dcount s t op) := by
  unfold State.dcount
  repeat' with_reducible first
    | assumption
    | exact State.Keeps.refl _
    | intro _
    | lift_lets
    | apply keeps_ite
    | apply State.hit_keeps
    | apply State.setThread_keeps
    | split
    | fail_if_no_progress refine keeps_mk rfl rfl rfl rfl rfl rfl rfl rfl rfl rfl rfl rfl rfl rfl ?_

theorem State.dissue_keeps {s0 : State} {s : State} {t op : Nat} {act : Thread → DWord → State → State} (hs : s0.Keeps s) (hact : ∀ (x : Thread) (y : DWord) (z : State), s0.Keeps z → s0.Keeps (act x y z)) :
    s0.Keeps (State.dissue s t op act) := by
  unfold State.dissue
  repeat' with_reducible first
    | assumption
    | exact State.Keeps.refl _
    | intro _
    | lift_lets
    | apply keeps_ite
    | apply hact
    | apply State.consumedPoison_keeps
    | apply State.dcount_keeps
    | apply State.endProgram_keeps
    | apply State.firstIssue_keeps
    | apply State.memRead_keeps
    | split

theorem State.dhold_keeps {s0 : State} {s : State} {t : Nat} {th : Thread} (hs : s0.Keeps s) :
    s0.Keeps (State.dhold s t th) := by
  unfold State.dhold
  repeat' with_reducible first
    | assumption
    | exact State.Keeps.refl _
    | intro _
    | lift_lets
    | apply keeps_ite
    | apply State.setThread_keeps

theorem State.alu_keeps {s0 : State} {s : State} {t op : Nat} {f : Thread → DWord → Nat} (hs : s0.Keeps s) :
    s0.Keeps (State.alu s t op f) := by
  unfold State.alu
  repeat' with_reducible first
    | assumption
    | exact State.Keeps.refl _
    | intro _
    | lift_lets
    | apply keeps_ite
    | apply State.dissue_keeps
    | apply State.setThread_keeps

theorem State.dbranch_keeps {s0 : State} {s : State} {t op : Nat} {cond : Nat → Nat → Bool} (hs : s0.Keeps s) :
    s0.Keeps (State.dbranch s t op cond) := by
  unfold State.dbranch
  repeat' with_reducible first
    | assumption
    | exact State.Keeps.refl _
    | intro _
    | lift_lets
    | apply keeps_ite
    | apply State.dissue_keeps
    | apply State.setThread_keeps

theorem execDispatchNop_keeps {s0 : State} {t : Nat} {s : State} (hs : s0.Keeps s) :
    s0.AnsKeeps (execDispatchNop t s) := by
  unfold execDispatchNop
  repeat' with_reducible first
    | assumption
    | exact State.Keeps.refl _
    | intro _
    | lift_lets
    | apply keeps_ite
    | apply State.dissue_keeps
    | apply State.setThread_keeps
    | apply State.AnsKeeps.next

theorem execEnd_keeps {s0 : State} {t : Nat} {s : State} (hs : s0.Keeps s) :
    s0.AnsKeeps (execEnd t s) := by
  unfold execEnd
  repeat' with_reducible first
    | assumption
    | exact State.Keeps.refl _
    | intro _
    | lift_lets
    | apply keeps_ite
    | apply State.dhold_keeps
    | apply State.dissue_keeps
    | apply State.endProgram_keeps
    | apply State.AnsKeeps.next

theorem execYield_keeps {s0 : State} {t : Nat} {s : State} (hs : s0.Keeps s) :
    s0.AnsKeeps (execYield t s) := by
  unfold execYield
  repeat' with_reducible first
    | assumption
    | exact State.Keeps.refl _
    | intro _
    | lift_lets
    | apply keeps_ite
    | apply State.dhold_keeps
    | apply State.dissue_keeps
    | apply State.setThread_keeps
    | apply State.AnsKeeps.next

theorem execAdd_keeps {s0 : State} {t : Nat} {s : State} (hs : s0.Keeps s) :
    s0.AnsKeeps (execAdd t s) := by
  unfold execAdd
  repeat' with_reducible first
    | assumption
    | exact State.Keeps.refl _
    | intro _
    | lift_lets
    | apply keeps_ite
    | apply State.alu_keeps
    | apply State.AnsKeeps.next

theorem execSub_keeps {s0 : State} {t : Nat} {s : State} (hs : s0.Keeps s) :
    s0.AnsKeeps (execSub t s) := by
  unfold execSub
  repeat' with_reducible first
    | assumption
    | exact State.Keeps.refl _
    | intro _
    | lift_lets
    | apply keeps_ite
    | apply State.alu_keeps
    | apply State.AnsKeeps.next

theorem execMul_keeps {s0 : State} {t : Nat} {s : State} (hs : s0.Keeps s) :
    s0.AnsKeeps (execMul t s) := by
  unfold execMul
  repeat' with_reducible first
    | assumption
    | exact State.Keeps.refl _
    | intro _
    | lift_lets
    | apply keeps_ite
    | apply State.alu_keeps
    | apply State.AnsKeeps.next

theorem execAnd_keeps {s0 : State} {t : Nat} {s : State} (hs : s0.Keeps s) :
    s0.AnsKeeps (execAnd t s) := by
  unfold execAnd
  repeat' with_reducible first
    | assumption
    | exact State.Keeps.refl _
    | intro _
    | lift_lets
    | apply keeps_ite
    | apply State.alu_keeps
    | apply State.AnsKeeps.next

theorem execOr_keeps {s0 : State} {t : Nat} {s : State} (hs : s0.Keeps s) :
    s0.AnsKeeps (execOr t s) := by
  unfold execOr
  repeat' with_reducible first
    | assumption
    | exact State.Keeps.refl _
    | intro _
    | lift_lets
    | apply keeps_ite
    | apply State.alu_keeps
    | apply State.AnsKeeps.next

theorem execXor_keeps {s0 : State} {t : Nat} {s : State} (hs : s0.Keeps s) :
    s0.AnsKeeps (execXor t s) := by
  unfold execXor
  repeat' with_reducible first
    | assumption
    | exact State.Keeps.refl _
    | intro _
    | lift_lets
    | apply keeps_ite
    | apply State.alu_keeps
    | apply State.AnsKeeps.next

theorem execShl_keeps {s0 : State} {t : Nat} {s : State} (hs : s0.Keeps s) :
    s0.AnsKeeps (execShl t s) := by
  unfold execShl
  repeat' with_reducible first
    | assumption
    | exact State.Keeps.refl _
    | intro _
    | lift_lets
    | apply keeps_ite
    | apply State.alu_keeps
    | apply State.AnsKeeps.next

theorem execShr_keeps {s0 : State} {t : Nat} {s : State} (hs : s0.Keeps s) :
    s0.AnsKeeps (execShr t s) := by
  unfold execShr
  repeat' with_reducible first
    | assumption
    | exact State.Keeps.refl _
    | intro _
    | lift_lets
    | apply keeps_ite
    | apply State.alu_keeps
    | apply State.AnsKeeps.next

theorem execAddi_keeps {s0 : State} {t : Nat} {s : State} (hs : s0.Keeps s) :
    s0.AnsKeeps (execAddi t s) := by
  unfold execAddi
  repeat' with_reducible first
    | assumption
    | exact State.Keeps.refl _
    | intro _
    | lift_lets
    | apply keeps_ite
    | apply State.alu_keeps
    | apply State.AnsKeeps.next

theorem execMovi_keeps {s0 : State} {t : Nat} {s : State} (hs : s0.Keeps s) :
    s0.AnsKeeps (execMovi t s) := by
  unfold execMovi
  repeat' with_reducible first
    | assumption
    | exact State.Keeps.refl _
    | intro _
    | lift_lets
    | apply keeps_ite
    | apply State.alu_keeps
    | apply State.AnsKeeps.next

theorem execMovhi_keeps {s0 : State} {t : Nat} {s : State} (hs : s0.Keeps s) :
    s0.AnsKeeps (execMovhi t s) := by
  unfold execMovhi
  repeat' with_reducible first
    | assumption
    | exact State.Keeps.refl _
    | intro _
    | lift_lets
    | apply keeps_ite
    | apply State.alu_keeps
    | apply State.AnsKeeps.next

theorem execBra_keeps {s0 : State} {t : Nat} {s : State} (hs : s0.Keeps s) :
    s0.AnsKeeps (execBra t s) := by
  unfold execBra
  repeat' with_reducible first
    | assumption
    | exact State.Keeps.refl _
    | intro _
    | lift_lets
    | apply keeps_ite
    | apply State.dbranch_keeps
    | apply State.AnsKeeps.next

theorem execBeq_keeps {s0 : State} {t : Nat} {s : State} (hs : s0.Keeps s) :
    s0.AnsKeeps (execBeq t s) := by
  unfold execBeq
  repeat' with_reducible first
    | assumption
    | exact State.Keeps.refl _
    | intro _
    | lift_lets
    | apply keeps_ite
    | apply State.dbranch_keeps
    | apply State.AnsKeeps.next

theorem execBne_keeps {s0 : State} {t : Nat} {s : State} (hs : s0.Keeps s) :
    s0.AnsKeeps (execBne t s) := by
  unfold execBne
  repeat' with_reducible first
    | assumption
    | exact State.Keeps.refl _
    | intro _
    | lift_lets
    | apply keeps_ite
    | apply State.dbranch_keeps
    | apply State.AnsKeeps.next

theorem execBlt_keeps {s0 : State} {t : Nat} {s : State} (hs : s0.Keeps s) :
    s0.AnsKeeps (execBlt t s) := by
  unfold execBlt
  repeat' with_reducible first
    | assumption
    | exact State.Keeps.refl _
    | intro _
    | lift_lets
    | apply keeps_ite
    | apply State.dbranch_keeps
    | apply State.AnsKeeps.next

theorem execBge_keeps {s0 : State} {t : Nat} {s : State} (hs : s0.Keeps s) :
    s0.AnsKeeps (execBge t s) := by
  unfold execBge
  repeat' with_reducible first
    | assumption
    | exact State.Keeps.refl _
    | intro _
    | lift_lets
    | apply keeps_ite
    | apply State.dbranch_keeps
    | apply State.AnsKeeps.next

theorem execBltu_keeps {s0 : State} {t : Nat} {s : State} (hs : s0.Keeps s) :
    s0.AnsKeeps (execBltu t s) := by
  unfold execBltu
  repeat' with_reducible first
    | assumption
    | exact State.Keeps.refl _
    | intro _
    | lift_lets
    | apply keeps_ite
    | apply State.dbranch_keeps
    | apply State.AnsKeeps.next

theorem execBgeu_keeps {s0 : State} {t : Nat} {s : State} (hs : s0.Keeps s) :
    s0.AnsKeeps (execBgeu t s) := by
  unfold execBgeu
  repeat' with_reducible first
    | assumption
    | exact State.Keeps.refl _
    | intro _
    | lift_lets
    | apply keeps_ite
    | apply State.dbranch_keeps
    | apply State.AnsKeeps.next

theorem execDispatchCall_keeps {s0 : State} {t : Nat} {s : State} (hs : s0.Keeps s) :
    s0.AnsKeeps (execDispatchCall t s) := by
  unfold execDispatchCall
  repeat' with_reducible first
    | assumption
    | exact State.Keeps.refl _
    | intro _
    | lift_lets
    | apply keeps_ite
    | apply State.dissue_keeps
    | apply State.endProgram_keeps
    | apply State.setThread_keeps
    | apply State.AnsKeeps.next

theorem execDispatchRet_keeps {s0 : State} {t : Nat} {s : State} (hs : s0.Keeps s) :
    s0.AnsKeeps (execDispatchRet t s) := by
  unfold execDispatchRet
  repeat' with_reducible first
    | assumption
    | exact State.Keeps.refl _
    | intro _
    | lift_lets
    | apply keeps_ite
    | apply State.dissue_keeps
    | apply State.endProgram_keeps
    | apply State.setThread_keeps
    | apply State.AnsKeeps.next
    | split

theorem execLoadt_keeps {s0 : State} {t : Nat} {host : HostData} {s : State} (hs : s0.Keeps s) :
    s0.AnsKeeps (execLoadt t host s) := by
  unfold execLoadt
  repeat' with_reducible first
    | assumption
    | exact State.Keeps.refl _
    | intro _
    | lift_lets
    | apply keeps_ite
    | apply State.dissue_keeps
    | apply State.endProgram_keeps
    | apply State.programFault_keeps
    | apply State.setThread_keeps
    | apply State.vaRead_keeps
    | apply State.withHost_keeps
    | apply State.AnsKeeps.next
    | split
    | fail_if_no_progress refine keeps_mk rfl rfl rfl rfl rfl rfl rfl rfl rfl rfl rfl rfl rfl rfl ?_
    | refine keeps_eq2 ?_ (by assumption)

theorem execStore_keeps {s0 : State} {t : Nat} {s : State} (hs : s0.Keeps s) :
    s0.AnsKeeps (execStore t s) := by
  unfold execStore
  repeat' with_reducible first
    | assumption
    | exact State.Keeps.refl _
    | intro _
    | lift_lets
    | apply keeps_ite
    | apply State.dhold_keeps
    | apply State.dissue_keeps
    | apply State.endProgram_keeps
    | apply State.mlnAccept_keeps
    | apply State.pageWrite_keeps
    | apply State.programFault_keeps
    | apply State.region_keeps
    | apply State.setThread_keeps
    | apply State.xlate_keeps
    | apply State.AnsKeeps.next
    | split
    | fail_if_no_progress refine keeps_mk rfl rfl rfl rfl rfl rfl rfl rfl rfl rfl rfl rfl rfl rfl ?_
    | refine keeps_eq2 ?_ (by assumption)
    | refine keeps_eq3 ?_ (by assumption)
    | refine keeps_eq4 ?_ (by assumption)
    | refine keeps_eqs ?_ (by assumption)
    | refine keeps_eqo ?_ (by assumption)

theorem execTime_keeps {s0 : State} {t : Nat} {s : State} (hs : s0.Keeps s) :
    s0.AnsKeeps (execTime t s) := by
  unfold execTime
  repeat' with_reducible first
    | assumption
    | exact State.Keeps.refl _
    | intro _
    | lift_lets
    | apply keeps_ite
    | apply State.dissue_keeps
    | apply State.setThread_keeps
    | apply State.AnsKeeps.next

theorem execCmo_keeps {s0 : State} {t : Nat} {s : State} (hs : s0.Keeps s) :
    s0.AnsKeeps (execCmo t s) := by
  unfold execCmo
  repeat' with_reducible first
    | assumption
    | exact State.Keeps.refl _
    | intro _
    | lift_lets
    | apply keeps_ite
    | apply State.dissue_keeps
    | apply State.maintRange_keeps
    | apply State.setThread_keeps
    | apply State.AnsKeeps.next

theorem State.queueLaunch_keeps {s0 : State} {s : State} {t : Nat} {th : Thread} {a : Nat} {plat : Option PlatRange} (hs : s0.Keeps s) :
    s0.Keeps (State.queueLaunch s t th a plat) := by
  unfold State.queueLaunch
  repeat' with_reducible first
    | assumption
    | exact State.Keeps.refl _
    | intro _
    | lift_lets
    | apply keeps_ite
    | apply State.dhold_keeps
    | apply State.endProgram_keeps
    | apply State.programFault_keeps
    | apply State.setThread_keeps
    | apply State.vaRead_keeps
    | split
    | fail_if_no_progress refine keeps_mk rfl rfl rfl rfl rfl rfl rfl rfl rfl rfl rfl rfl rfl rfl ?_
    | refine keeps_eq2 ?_ (by assumption)

theorem execLaunch_keeps {s0 : State} {t : Nat} {host : HostData} {s : State} (hs : s0.Keeps s) :
    s0.AnsKeeps (execLaunch t host s) := by
  unfold execLaunch
  repeat' with_reducible first
    | assumption
    | exact State.Keeps.refl _
    | intro _
    | lift_lets
    | apply keeps_ite
    | apply State.dissue_keeps
    | apply State.queueLaunch_keeps
    | apply State.withHost_keeps
    | apply State.AnsKeeps.next

theorem execLaunchPlat_keeps {s0 : State} {t : Nat} {host : HostData} {s : State} (hs : s0.Keeps s) :
    s0.AnsKeeps (execLaunchPlat t host s) := by
  unfold execLaunchPlat
  repeat' with_reducible first
    | assumption
    | exact State.Keeps.refl _
    | intro _
    | lift_lets
    | apply keeps_ite
    | apply State.count_keeps
    | apply State.dhold_keeps
    | apply State.dissue_keeps
    | apply State.endProgram_keeps
    | apply State.queueLaunch_keeps
    | apply State.withHost_keeps
    | apply State.AnsKeeps.next

theorem execJoin_keeps {s0 : State} {t : Nat} {s : State} (hs : s0.Keeps s) :
    s0.AnsKeeps (execJoin t s) := by
  unfold execJoin
  repeat' with_reducible first
    | assumption
    | exact State.Keeps.refl _
    | intro _
    | lift_lets
    | apply keeps_ite
    | apply State.dhold_keeps
    | apply State.dissue_keeps
    | apply State.setThread_keeps
    | apply State.AnsKeeps.next

theorem execDispatchCopy_keeps {s0 : State} {t : Nat} {host : HostData} {s : State} (hs : s0.Keeps s) :
    s0.AnsKeeps (execDispatchCopy t host s) := by
  unfold execDispatchCopy
  repeat' with_reducible first
    | assumption
    | exact State.Keeps.refl _
    | intro _
    | lift_lets
    | apply keeps_ite
    | apply State.beginCopy_keeps
    | apply State.dhold_keeps
    | apply State.dissue_keeps
    | apply State.setThread_keeps
    | apply State.stopCmd_keeps
    | apply State.takeView_keeps
    | apply State.withHost_keeps
    | apply State.AnsKeeps.next
    | split
    | fail_if_no_progress refine keeps_mk rfl rfl rfl rfl rfl rfl rfl rfl rfl rfl rfl rfl rfl rfl ?_
    | refine keeps_eq2 ?_ (by assumption)
    | refine keeps_eq3 ?_ (by assumption)
    | refine keeps_eq4 ?_ (by assumption)
    | refine keeps_eqs ?_ (by assumption)
    | refine keeps_eqo ?_ (by assumption)
    | refine keeps_eqo2 ?_ (by assumption)

theorem execDispatchSignal_keeps {s0 : State} {t : Nat} {s : State} (hs : s0.Keeps s) :
    s0.AnsKeeps (execDispatchSignal t s) := by
  unfold execDispatchSignal
  repeat' with_reducible first
    | assumption
    | exact State.Keeps.refl _
    | intro _
    | lift_lets
    | apply keeps_ite
    | apply State.dhold_keeps
    | apply State.dissue_keeps
    | apply State.endProgram_keeps
    | apply State.mlnAccept_keeps
    | apply State.semSignal_keeps
    | apply State.setThread_keeps
    | apply State.AnsKeeps.next
    | split
    | fail_if_no_progress refine keeps_mk rfl rfl rfl rfl rfl rfl rfl rfl rfl rfl rfl rfl rfl rfl ?_
    | refine keeps_eq2 ?_ (by assumption)
    | refine keeps_eq3 ?_ (by assumption)
    | refine keeps_eq4 ?_ (by assumption)
    | refine keeps_eqs ?_ (by assumption)
    | refine keeps_eqo ?_ (by assumption)

theorem execDispatchWait_keeps {s0 : State} {t : Nat} {s : State} (hs : s0.Keeps s) :
    s0.AnsKeeps (execDispatchWait t s) := by
  unfold execDispatchWait
  repeat' with_reducible first
    | assumption
    | exact State.Keeps.refl _
    | intro _
    | lift_lets
    | apply keeps_ite
    | apply State.dissue_keeps
    | apply State.endProgram_keeps
    | apply State.semWait_keeps
    | apply State.setThread_keeps
    | apply State.AnsKeeps.next
    | split
    | fail_if_no_progress refine keeps_mk rfl rfl rfl rfl rfl rfl rfl rfl rfl rfl rfl rfl rfl rfl ?_
    | refine keeps_eq2 ?_ (by assumption)

theorem execTalloc_keeps {s0 : State} {t : Nat} {s : State} (hs : s0.Keeps s) :
    s0.AnsKeeps (execTalloc t s) := by
  unfold execTalloc
  repeat' with_reducible first
    | assumption
    | exact State.Keeps.refl _
    | intro _
    | lift_lets
    | apply keeps_ite
    | apply State.count_keeps
    | apply State.dissue_keeps
    | apply State.setThread_keeps
    | apply State.sideWrite_keeps
    | apply State.tktWrite_keeps
    | apply State.wr_keeps
    | apply State.AnsKeeps.next
    | split

theorem execTfree_keeps {s0 : State} {t : Nat} {s : State} (hs : s0.Keeps s) :
    s0.AnsKeeps (execTfree t s) := by
  unfold execTfree
  repeat' with_reducible first
    | assumption
    | exact State.Keeps.refl _
    | intro _
    | lift_lets
    | apply keeps_ite
    | apply State.dissue_keeps
    | apply State.setThread_keeps
    | apply State.tktRead_keeps
    | apply State.tktRelease_keeps
    | apply State.AnsKeeps.next

theorem State.tktMine_keeps {s0 : State} {s : State} {ctx k : Nat} (hs : s0.Keeps s) :
    s0.Keeps (State.tktMine s ctx k).2 := by
  unfold State.tktMine
  repeat' with_reducible first
    | assumption
    | exact State.Keeps.refl _
    | intro _
    | lift_lets
    | apply keeps_ite
    | apply State.consumedPoison_keeps
    | apply State.tktRead_keeps
    | split
    | refine keeps_eq2 ?_ (by assumption)
    | refine keeps_eq3 ?_ (by assumption)

theorem execTset_keeps {s0 : State} {t : Nat} {s : State} (hs : s0.Keeps s) :
    s0.AnsKeeps (execTset t s) := by
  unfold execTset
  repeat' with_reducible first
    | assumption
    | exact State.Keeps.refl _
    | intro _
    | lift_lets
    | apply keeps_ite
    | apply State.dissue_keeps
    | apply State.endProgram_keeps
    | apply State.setThread_keeps
    | apply State.tktMine_keeps
    | apply State.tktWrite_keeps
    | apply State.AnsKeeps.next
    | split
    | fail_if_no_progress refine keeps_mk rfl rfl rfl rfl rfl rfl rfl rfl rfl rfl rfl rfl rfl rfl ?_
    | refine keeps_eq2 ?_ (by assumption)

theorem State.tktUpset_keeps {s0 : State} {s : State} {k : Nat} {u : Upset} (hs : s0.Keeps s) :
    s0.Keeps (State.tktUpset s k u) := by
  unfold State.tktUpset
  repeat' with_reducible first
    | assumption
    | exact State.Keeps.refl _
    | intro _
    | lift_lets
    | apply keeps_ite
    | apply State.detect_keeps
    | apply State.setTkt_keeps
    | split

theorem execTget_keeps {s0 : State} {t : Nat} {upset : Upset} {s : State} (hs : s0.Keeps s) :
    s0.AnsKeeps (execTget t upset s) := by
  unfold execTget
  repeat' with_reducible first
    | assumption
    | exact State.Keeps.refl _
    | intro _
    | lift_lets
    | apply keeps_ite
    | apply State.dissue_keeps
    | apply State.endProgram_keeps
    | apply State.setThread_keeps
    | apply State.tktMine_keeps
    | apply State.tktRead_keeps
    | apply State.tktUpset_keeps
    | apply State.AnsKeeps.next
    | split
    | fail_if_no_progress refine keeps_mk rfl rfl rfl rfl rfl rfl rfl rfl rfl rfl rfl rfl rfl rfl ?_
    | refine keeps_eq2 ?_ (by assumption)

theorem State.batchOf_keeps {s0 : State} {s : State} {ctx mask : Nat} {l : List Nat} (hs : s0.Keeps s) :
    s0.Keeps (State.batchOf s ctx mask l).2 := by
  unfold State.batchOf
  repeat' with_reducible first
    | assumption
    | exact State.Keeps.refl _
    | intro _
    | lift_lets
    | apply keeps_ite
    | apply State.tktMine_keeps
    | apply keeps_foldl
    | apply keeps_foldl2
    | apply keeps_foldl3
    | apply keeps_foldl4
    | split
    | fail_if_no_progress refine keeps_mk rfl rfl rfl rfl rfl rfl rfl rfl rfl rfl rfl rfl rfl rfl ?_
    | refine keeps_eq2 ?_ (by assumption)

theorem State.setSteps_keeps {s0 : State} {s : State} {step : Nat} {ks : List Nat} (hs : s0.Keeps s) :
    s0.Keeps (State.setSteps s step ks) := by
  unfold State.setSteps
  repeat' with_reducible first
    | assumption
    | exact State.Keeps.refl _
    | intro _
    | lift_lets
    | apply keeps_ite
    | apply State.tktRead_keeps
    | apply State.tktWrite_keeps
    | apply keeps_foldl

theorem execTbatch_keeps {s0 : State} {t : Nat} {host : HostData} {s : State} (hs : s0.Keeps s) :
    s0.AnsKeeps (execTbatch t host s) := by
  unfold execTbatch
  repeat' with_reducible first
    | assumption
    | exact State.Keeps.refl _
    | intro _
    | lift_lets
    | apply keeps_ite
    | apply State.batchOf_keeps
    | apply State.dissue_keeps
    | apply State.endProgram_keeps
    | apply State.programFault_keeps
    | apply State.setSteps_keeps
    | apply State.setThread_keeps
    | apply State.vaRead_keeps
    | apply State.vaWrite_keeps
    | apply State.withHost_keeps
    | apply State.AnsKeeps.next
    | split
    | fail_if_no_progress refine keeps_mk rfl rfl rfl rfl rfl rfl rfl rfl rfl rfl rfl rfl rfl rfl ?_
    | refine keeps_eq2 ?_ (by assumption)
    | refine keeps_eq3 ?_ (by assumption)
    | refine keeps_eq4 ?_ (by assumption)
    | refine keeps_eqs ?_ (by assumption)
    | refine keeps_eqo ?_ (by assumption)
    | refine keeps_eqo2 ?_ (by assumption)
    | refine keeps_eqo3 ?_ (by assumption)
    | dsimp only [id]

theorem State.listEntry_keeps {s0 : State} {f : List Byte → Nat → List Byte} {ctx : Nat} {a : Option Nat × State} {e : Nat} (ha : s0.Keeps a.2) :
    s0.Keeps (State.listEntry f ctx a e).2 := by
  unfold State.listEntry
  repeat' with_reducible first
    | assumption
    | exact State.Keeps.refl _
    | intro _
    | lift_lets
    | apply keeps_ite
    | apply State.sideWrite_keeps
    | apply State.tktMine_keeps
    | apply State.tktWrite_keeps
    | split
    | fail_if_no_progress refine keeps_mk rfl rfl rfl rfl rfl rfl rfl rfl rfl rfl rfl rfl rfl rfl ?_
    | refine keeps_eq2 ?_ (by assumption)
    | refine keeps_eq3 ?_ (by assumption)
    | refine keeps_eq4 ?_ (by assumption)
    | refine keeps_eqs ?_ (by assumption)
    | refine keeps_eqo ?_ (by assumption)
    | refine keeps_eqo2 ?_ (by assumption)
    | refine keeps_eqo3 ?_ (by assumption)
    | dsimp only [id]

theorem State.ticketList_keeps {s0 : State} {s : State} {t op : Nat} {f : List Byte → Nat → List Byte} (hs : s0.Keeps s) :
    s0.Keeps (State.ticketList s t op f) := by
  unfold State.ticketList
  repeat' with_reducible first
    | assumption
    | exact State.Keeps.refl _
    | intro _
    | lift_lets
    | apply keeps_ite
    | apply State.dissue_keeps
    | apply State.endProgram_keeps
    | apply State.listEntry_keeps
    | apply State.programFault_keeps
    | apply State.setThread_keeps
    | apply State.vaRead_keeps
    | apply keeps_foldl
    | apply keeps_foldl2
    | apply keeps_foldl3
    | apply keeps_foldl4
    | split
    | fail_if_no_progress refine keeps_mk rfl rfl rfl rfl rfl rfl rfl rfl rfl rfl rfl rfl rfl rfl ?_
    | refine keeps_eq2 ?_ (by assumption)
    | refine keeps_eq3 ?_ (by assumption)
    | refine keeps_eq4 ?_ (by assumption)
    | refine keeps_eqs ?_ (by assumption)
    | refine keeps_eqo ?_ (by assumption)
    | refine keeps_eqo2 ?_ (by assumption)
    | refine keeps_eqo3 ?_ (by assumption)
    | dsimp only [id]

theorem execTexit_keeps {s0 : State} {t : Nat} {host : HostData} {s : State} (hs : s0.Keeps s) :
    s0.AnsKeeps (execTexit t host s) := by
  unfold execTexit
  repeat' with_reducible first
    | assumption
    | exact State.Keeps.refl _
    | intro _
    | lift_lets
    | apply keeps_ite
    | apply State.ticketList_keeps
    | apply State.withHost_keeps
    | apply State.AnsKeeps.next

theorem execTadvance_keeps {s0 : State} {t : Nat} {host : HostData} {s : State} (hs : s0.Keeps s) :
    s0.AnsKeeps (execTadvance t host s) := by
  unfold execTadvance
  repeat' with_reducible first
    | assumption
    | exact State.Keeps.refl _
    | intro _
    | lift_lets
    | apply keeps_ite
    | apply State.ticketList_keeps
    | apply State.withHost_keeps
    | apply State.AnsKeeps.next

theorem execDump_keeps {s0 : State} {t : Nat} {s : State} (hs : s0.Keeps s) :
    s0.AnsKeeps (execDump t s) := by
  unfold execDump
  repeat' with_reducible first
    | assumption
    | exact State.Keeps.refl _
    | intro _
    | lift_lets
    | apply keeps_ite
    | apply State.clrFlag_keeps
    | apply State.dissue_keeps
    | apply State.setThread_keeps
    | apply State.AnsKeeps.next
    | split
    | fail_if_no_progress refine keeps_mk rfl rfl rfl rfl rfl rfl rfl rfl rfl rfl rfl rfl rfl rfl ?_

theorem State.dumpRead_keeps {s0 s : State} {u : VmUser} {va len fuel : Nat} (hs : s0.Keeps s) :
    s0.Keeps (State.dumpRead s u va len fuel).2.2 := by
  induction fuel generalizing s va len with
  | zero =>
    unfold State.dumpRead
    exact hs
  | succ n ih =>
    unfold State.dumpRead
    repeat' with_reducible first
      | assumption
      | exact State.Keeps.refl _
      | intro _
      | lift_lets
      | apply keeps_ite
      | apply ih
      | apply State.vaRead_keeps
      | split
      | fail_if_no_progress refine keeps_mk rfl rfl rfl rfl rfl rfl rfl rfl rfl rfl rfl rfl rfl rfl ?_
      | refine keeps_eq2 ?_ (by assumption)

theorem State.dumpWrite_keeps {s0 : State} {s : State} {t : Nat} {x : Dumping} {th : Thread} (hs : s0.Keeps s) :
    s0.Keeps (State.dumpWrite s t x th) := by
  unfold State.dumpWrite
  repeat' with_reducible first
    | assumption
    | exact State.Keeps.refl _
    | intro _
    | lift_lets
    | apply keeps_ite
    | apply State.dumpRead_keeps
    | apply State.memWrite_keeps
    | apply State.setFlag_keeps
    | apply State.setThread_keeps
    | apply State.trace_keeps

theorem execDumpDone_keeps {s0 : State} {t : Nat} {host : HostData} {s : State} (hs : s0.Keeps s) :
    s0.AnsKeeps (execDumpDone t host s) := by
  unfold execDumpDone
  repeat' with_reducible first
    | assumption
    | exact State.Keeps.refl _
    | intro _
    | lift_lets
    | apply keeps_ite
    | apply State.dumpWrite_keeps
    | apply State.withHost_keeps
    | apply State.AnsKeeps.next
    | split
    | fail_if_no_progress refine keeps_mk rfl rfl rfl rfl rfl rfl rfl rfl rfl rfl rfl rfl rfl rfl ?_

theorem execTmark_keeps {s0 : State} {t : Nat} {s : State} (hs : s0.Keeps s) :
    s0.AnsKeeps (execTmark t s) := by
  unfold execTmark
  repeat' with_reducible first
    | assumption
    | exact State.Keeps.refl _
    | intro _
    | lift_lets
    | apply keeps_ite
    | apply State.dissue_keeps
    | apply State.setThread_keeps
    | apply State.trace_keeps
    | apply State.AnsKeeps.next

/-! ### Machine/HostLink.lean -/

theorem State.sendPending_keeps {s0 : State} {s : State} {f : Nat} (hs : s0.Keeps s) :
    s0.Keeps (State.sendPending s f) := by
  unfold State.sendPending
  repeat' with_reducible first
    | assumption
    | exact State.Keeps.refl _
    | intro _
    | lift_lets
    | apply keeps_ite
    | apply State.sendVector_keeps
    | apply keeps_foldl
    | apply keeps_foldl2
    | apply keeps_foldl3
    | apply keeps_foldl4
    | split
    | fail_if_no_progress refine keeps_mk rfl rfl rfl rfl rfl rfl rfl rfl rfl rfl rfl rfl rfl rfl ?_

theorem State.loseAborted_keeps {s0 : State} {s : State} {q : Nat} (hs : s0.Keeps s) :
    s0.Keeps (State.loseAborted s q) := by
  unfold State.loseAborted
  repeat' with_reducible first
    | assumption
    | exact State.Keeps.refl _
    | intro _
    | lift_lets
    | apply keeps_ite
    | apply State.count_keeps
    | apply State.dropCmd_keeps
    | apply State.rled_keeps
    | apply State.setQueue_keeps
    | apply keeps_foldl

theorem State.flrRest_keeps {s0 : State} {s : State} {f : Nat} (hs : s0.Keeps s) :
    s0.Keeps (State.flrRest s f) := by
  unfold State.flrRest
  repeat' with_reducible first
    | assumption
    | exact State.Keeps.refl _
    | intro _
    | lift_lets
    | apply keeps_ite
    | apply State.loseAborted_keeps
    | apply State.queueOff_keeps
    | apply State.rekey_keeps
    | apply State.wr_keeps
    | apply keeps_foldl
    | apply keeps_foldl2
    | apply keeps_foldl3
    | apply keeps_foldl4
    | split
    | fail_if_no_progress refine keeps_mk rfl rfl rfl rfl rfl rfl rfl rfl rfl rfl rfl rfl rfl rfl ?_

theorem State.flrBegin_keeps {s0 : State} {s : State} {f : Nat} (hs : s0.Keeps s) :
    s0.Keeps (State.flrBegin s f) := by
  unfold State.flrBegin
  repeat' with_reducible first
    | assumption
    | exact State.Keeps.refl _
    | intro _
    | lift_lets
    | apply keeps_ite
    | apply State.retireTenant_keeps
    | split
    | fail_if_no_progress refine keeps_mk rfl rfl rfl rfl rfl rfl rfl rfl rfl rfl rfl rfl rfl rfl ?_

theorem State.vfOff_keeps {s0 : State} {s : State} (hs : s0.Keeps s) :
    s0.Keeps (State.vfOff s) := by
  unfold State.vfOff
  repeat' with_reducible first
    | assumption
    | exact State.Keeps.refl _
    | intro _
    | lift_lets
    | apply keeps_ite
    | apply State.flrBegin_keeps
    | apply keeps_foldl
    | apply keeps_foldl2
    | apply keeps_foldl3
    | apply keeps_foldl4
    | split
    | fail_if_no_progress refine keeps_mk rfl rfl rfl rfl rfl rfl rfl rfl rfl rfl rfl rfl rfl rfl ?_

theorem State.flrRun_keeps {s0 : State} {s : State} (hs : s0.Keeps s) :
    s0.Keeps (State.flrRun s) := by
  unfold State.flrRun
  repeat' with_reducible first
    | assumption
    | exact State.Keeps.refl _
    | intro _
    | lift_lets
    | apply keeps_ite
    | apply State.flrRest_keeps
    | apply State.vfOff_keeps
    | apply keeps_foldl

theorem execFunctionLevelReset_keeps {s0 : State} {fn : Nat} {s : State} (hs : s0.Keeps s) :
    s0.AnsKeeps (execFunctionLevelReset fn s) := by
  unfold execFunctionLevelReset
  repeat' with_reducible first
    | assumption
    | exact State.Keeps.refl _
    | intro _
    | lift_lets
    | apply keeps_ite
    | apply State.flrBegin_keeps
    | apply State.flrRun_keeps
    | apply State.AnsKeeps.next

theorem execPfFunctionLevelReset_keeps {s0 : State} {s : State} (hs : s0.Keeps s) :
    s0.AnsKeeps (execPfFunctionLevelReset s) := by
  unfold execPfFunctionLevelReset
  repeat' with_reducible first
    | assumption
    | exact State.Keeps.refl _
    | intro _
    | lift_lets
    | apply keeps_ite
    | apply State.flrBegin_keeps
    | apply State.flrRun_keeps
    | apply State.AnsKeeps.next

theorem execVfEnable_keeps {s0 : State} {s : State} (hs : s0.Keeps s) :
    s0.AnsKeeps (execVfEnable s) := by
  unfold execVfEnable
  repeat' with_reducible first
    | assumption
    | exact State.Keeps.refl _
    | intro _
    | lift_lets
    | apply keeps_ite
    | apply State.AnsKeeps.next
    | split
    | fail_if_no_progress refine keeps_mk rfl rfl rfl rfl rfl rfl rfl rfl rfl rfl rfl rfl rfl rfl ?_

theorem execVfDisable_keeps {s0 : State} {s : State} (hs : s0.Keeps s) :
    s0.AnsKeeps (execVfDisable s) := by
  unfold execVfDisable
  repeat' with_reducible first
    | assumption
    | exact State.Keeps.refl _
    | intro _
    | lift_lets
    | apply keeps_ite
    | apply State.flrRun_keeps
    | apply State.vfOff_keeps
    | apply State.AnsKeeps.next

theorem execNumvfsWrite_keeps {s0 : State} {num : Nat} {s : State} (hs : s0.Keeps s) :
    s0.AnsKeeps (execNumvfsWrite num s) := by
  unfold execNumvfsWrite
  repeat' with_reducible first
    | assumption
    | exact State.Keeps.refl _
    | intro _
    | lift_lets
    | apply keeps_ite
    | apply State.AnsKeeps.next
    | split
    | fail_if_no_progress refine keeps_mk rfl rfl rfl rfl rfl rfl rfl rfl rfl rfl rfl rfl rfl rfl ?_

theorem execRetireDone_keeps {s0 : State} {ctx : Nat} {s : State} (hs : s0.Keeps s) :
    s0.AnsKeeps (execRetireDone ctx s) := by
  unfold execRetireDone
  repeat' with_reducible first
    | assumption
    | exact State.Keeps.refl _
    | intro _
    | lift_lets
    | apply keeps_ite
    | apply State.flrRun_keeps
    | apply State.retireRun_keeps
    | apply State.retired_keeps
    | apply State.AnsKeeps.next
    | split

theorem execConfigRequest_keeps {s0 : State} {fn : Nat} {req : CfgReq} {s : State} (hs : s0.Keeps s) :
    s0.AnsKeeps (execConfigRequest fn req s) := by
  unfold execConfigRequest
  repeat' with_reducible first
    | assumption
    | exact State.Keeps.refl _
    | intro _
    | lift_lets
    | apply keeps_ite
    | apply State.aerLog_keeps
    | apply State.emit_keeps
    | apply State.sendPending_keeps
    | apply State.withFree_keeps
    | apply State.AnsKeeps.next
    | split
    | fail_if_no_progress refine keeps_mk rfl rfl rfl rfl rfl rfl rfl rfl rfl rfl rfl rfl rfl rfl ?_

theorem execPowerStateChange_keeps {s0 : State} {fn : Nat} {d3 : Bool} {s : State} (hs : s0.Keeps s) :
    s0.AnsKeeps (execPowerStateChange fn d3 s) := by
  unfold execPowerStateChange
  repeat' with_reducible first
    | assumption
    | exact State.Keeps.refl _
    | intro _
    | lift_lets
    | apply keeps_ite
    | apply State.sendPending_keeps
    | apply State.AnsKeeps.next
    | split
    | fail_if_no_progress refine keeps_mk rfl rfl rfl rfl rfl rfl rfl rfl rfl rfl rfl rfl rfl rfl ?_

theorem State.sealHit_keeps {s0 : State} {s : State} {a : Nat} (hs : s0.Keeps s) :
    s0.Keeps (State.sealHit s a) := by
  unfold State.sealHit
  repeat' with_reducible first
    | assumption
    | exact State.Keeps.refl _
    | intro _
    | lift_lets
    | apply keeps_ite
    | apply State.raiseCause_keeps
    | apply State.setFlag_keeps
    | apply State.wr_keeps

theorem State.windowRun_keeps {s0 : State} {s : State} {r : Nat × List Byte} (hs : s0.Keeps s) :
    s0.Keeps (State.windowRun s r) := by
  unfold State.windowRun
  repeat' with_reducible first
    | assumption
    | exact State.Keeps.refl _
    | intro _
    | lift_lets
    | apply keeps_ite
    | apply State.memWrite_keeps
    | apply State.sealHit_keeps

theorem execHostWindowWrite_keeps {s0 : State} {off : Nat} {data : MaskedBytes} {s : State} (hs : s0.Keeps s) :
    s0.AnsKeeps (execHostWindowWrite off data s) := by
  unfold execHostWindowWrite
  repeat' with_reducible first
    | assumption
    | exact State.Keeps.refl _
    | intro _
    | lift_lets
    | apply keeps_ite
    | apply State.count_keeps
    | apply State.windowRun_keeps
    | apply State.AnsKeeps.next
    | apply keeps_foldl

theorem execHostWindowRead_keeps {s0 : State} {off len : Nat} {s : State} (hs : s0.Keeps s) :
    s0.AnsKeeps (execHostWindowRead off len s) := by
  unfold execHostWindowRead
  repeat' with_reducible first
    | assumption
    | exact State.Keeps.refl _
    | intro _
    | lift_lets
    | apply keeps_ite
    | apply State.emit_keeps
    | apply State.memRead_keeps
    | apply State.poisonIf_keeps
    | apply State.AnsKeeps.next

theorem State.hostEnds_keeps {s0 : State} {s : State} {tag : Nat} {data : List Byte} {e : HostEnd} (hs : s0.Keeps s) :
    s0.Keeps (State.hostEnds s tag data e) := by
  unfold State.hostEnds
  repeat' with_reducible first
    | assumption
    | exact State.Keeps.refl _
    | intro _
    | lift_lets
    | apply keeps_ite
    | apply State.consumedPoison_keeps
    | apply State.fetchFault_keeps
    | apply State.hostError_keeps
    | apply State.icachePut_keeps
    | apply State.updCore_keeps
    | split
    | fail_if_no_progress refine keeps_mk rfl rfl rfl rfl rfl rfl rfl rfl rfl rfl rfl rfl rfl rfl ?_
    | refine keeps_eq2 ?_ (by assumption)
    | refine keeps_eq3 ?_ (by assumption)
    | refine keeps_eq4 ?_ (by assumption)
    | refine keeps_eqs ?_ (by assumption)
    | refine keeps_eqo ?_ (by assumption)
    | refine keeps_eqo2 ?_ (by assumption)
    | refine keeps_eqo3 ?_ (by assumption)
    | dsimp only [id]

theorem execHostReadCompletion_keeps {s0 : State} {tag : Nat} {data : List Byte} {e : HostEnd} {s : State} (hs : s0.Keeps s) :
    s0.AnsKeeps (execHostReadCompletion tag data e s) := by
  unfold execHostReadCompletion
  repeat' with_reducible first
    | assumption
    | exact State.Keeps.refl _
    | intro _
    | lift_lets
    | apply keeps_ite
    | apply State.hostEnds_keeps
    | apply State.AnsKeeps.next

theorem execHostReadTimeout_keeps {s0 : State} {tag : Nat} {s : State} (hs : s0.Keeps s) :
    s0.AnsKeeps (execHostReadTimeout tag s) := by
  unfold execHostReadTimeout
  repeat' with_reducible first
    | assumption
    | exact State.Keeps.refl _
    | intro _
    | lift_lets
    | apply keeps_ite
    | apply State.hostEnds_keeps
    | apply State.AnsKeeps.next
    | split

/-! ### Machine/Power.lean -/

theorem State.showSteps_keeps {s0 : State} {s : State} (hs : s0.Keeps s) :
    s0.Keeps (State.showSteps s) := by
  unfold State.showSteps
  repeat' with_reducible first
    | assumption
    | exact State.Keeps.refl _
    | intro _
    | lift_lets
    | apply keeps_ite
    | apply State.wr_keeps

theorem State.voidFor_keeps {s0 : State} {s : State} {u : Nat} (hs : s0.Keeps s) :
    s0.Keeps (State.voidFor s u) := by
  unfold State.voidFor
  repeat' with_reducible first
    | assumption
    | exact State.Keeps.refl _
    | intro _
    | lift_lets
    | apply keeps_ite
    | apply State.voidCmds_keeps

theorem State.declareStep_keeps {s0 : State} {s : State} {cause unit step sensor : Nat} (hs : s0.Keeps s) :
    s0.Keeps (State.declareStep s cause unit step sensor) := by
  unfold State.declareStep
  repeat' with_reducible first
    | assumption
    | exact State.Keeps.refl _
    | intro _
    | lift_lets
    | apply keeps_ite
    | apply State.alert_keeps
    | apply State.count_keeps
    | apply State.fillLog_keeps
    | apply State.logEvent_keeps
    | apply State.setFlag_keeps
    | apply State.showSteps_keeps
    | apply State.traceEvent_keeps
    | apply State.voidFor_keeps
    | apply State.withFree_keeps

theorem State.raiseStep_keeps {s0 : State} {s : State} {u : Nat} (hs : s0.Keeps s) :
    s0.Keeps (State.raiseStep s u) := by
  unfold State.raiseStep
  repeat' with_reducible first
    | assumption
    | exact State.Keeps.refl _
    | intro _
    | lift_lets
    | apply keeps_ite
    | apply State.declareStep_keeps
    | split
    | fail_if_no_progress refine keeps_mk rfl rfl rfl rfl rfl rfl rfl rfl rfl rfl rfl rfl rfl rfl ?_

theorem State.showInput_keeps {s0 : State} {s : State} {input : Nat} (hs : s0.Keeps s) :
    s0.Keeps (State.showInput s input) := by
  unfold State.showInput
  repeat' with_reducible first
    | assumption
    | exact State.Keeps.refl _
    | intro _
    | lift_lets
    | apply keeps_ite
    | apply State.wr_keeps

theorem State.sampled_keeps {s0 : State} {s : State} {input west east : Nat} (hs : s0.Keeps s) :
    s0.Keeps (State.sampled s input west east) := by
  unfold State.sampled
  repeat' with_reducible first
    | assumption
    | exact State.Keeps.refl _
    | intro _
    | lift_lets
    | apply keeps_ite
    | apply State.wr_keeps
    | split
    | fail_if_no_progress refine keeps_mk rfl rfl rfl rfl rfl rfl rfl rfl rfl rfl rfl rfl rfl rfl ?_

theorem execPowerSample_keeps {s0 : State} {input west east : BitVec 32} {s : State} (hs : s0.Keeps s) :
    s0.AnsKeeps (execPowerSample input west east s) := by
  unfold execPowerSample
  repeat' with_reducible first
    | assumption
    | exact State.Keeps.refl _
    | intro _
    | lift_lets
    | apply keeps_ite
    | apply State.raiseStep_keeps
    | apply State.sampled_keeps
    | apply State.showInput_keeps
    | apply State.AnsKeeps.next

theorem execStepLower_keeps {s0 : State} {unit : StepUnit} {s : State} (hs : s0.Keeps s) :
    s0.AnsKeeps (execStepLower unit s) := by
  unfold execStepLower
  repeat' with_reducible first
    | assumption
    | exact State.Keeps.refl _
    | intro _
    | lift_lets
    | apply keeps_ite
    | apply State.showSteps_keeps
    | apply State.AnsKeeps.next
    | split
    | fail_if_no_progress refine keeps_mk rfl rfl rfl rfl rfl rfl rfl rfl rfl rfl rfl rfl rfl rfl ?_

theorem execDiePowerStep_keeps {s0 : State} {die : Nat} {s : State} (hs : s0.Keeps s) :
    s0.AnsKeeps (execDiePowerStep die s) := by
  unfold execDiePowerStep
  repeat' with_reducible first
    | assumption
    | exact State.Keeps.refl _
    | intro _
    | lift_lets
    | apply keeps_ite
    | apply State.raiseStep_keeps
    | apply State.AnsKeeps.next
    | split
    | fail_if_no_progress refine keeps_mk rfl rfl rfl rfl rfl rfl rfl rfl rfl rfl rfl rfl rfl rfl ?_

theorem State.setTemp_keeps {s0 : State} {s : State} {u off : Nat} {v : BitVec 16} (hs : s0.Keeps s) :
    s0.Keeps (State.setTemp s u off v) := by
  unfold State.setTemp
  repeat' with_reducible first
    | assumption
    | exact State.Keeps.refl _
    | intro _
    | lift_lets
    | apply keeps_ite
    | apply State.alert_keeps
    | apply State.wr_keeps
    | apply keeps_foldl
    | apply keeps_foldl2
    | apply keeps_foldl3
    | apply keeps_foldl4
    | apply keeps_getD
    | split
    | fail_if_no_progress refine keeps_mk rfl rfl rfl rfl rfl rfl rfl rfl rfl rfl rfl rfl rfl rfl ?_

theorem execThermalStep_keeps {s0 : State} {unit : HeatUnit} {s : State} (hs : s0.Keeps s) :
    s0.AnsKeeps (execThermalStep unit s) := by
  unfold execThermalStep
  repeat' with_reducible first
    | assumption
    | exact State.Keeps.refl _
    | intro _
    | lift_lets
    | apply keeps_ite
    | apply State.declareStep_keeps
    | apply State.showSteps_keeps
    | apply State.AnsKeeps.next
    | split
    | fail_if_no_progress refine keeps_mk rfl rfl rfl rfl rfl rfl rfl rfl rfl rfl rfl rfl rfl rfl ?_

theorem execClusterGate_keeps {s0 : State} {u : Nat} {s : State} (hs : s0.Keeps s) :
    s0.AnsKeeps (execClusterGate u s) := by
  unfold execClusterGate
  repeat' with_reducible first
    | assumption
    | exact State.Keeps.refl _
    | intro _
    | lift_lets
    | apply keeps_ite
    | apply State.AnsKeeps.next
    | split
    | fail_if_no_progress refine keeps_mk rfl rfl rfl rfl rfl rfl rfl rfl rfl rfl rfl rfl rfl rfl ?_

theorem execClusterWake_keeps {s0 : State} {u : Nat} {s : State} (hs : s0.Keeps s) :
    s0.AnsKeeps (execClusterWake u s) := by
  unfold execClusterWake
  repeat' with_reducible first
    | assumption
    | exact State.Keeps.refl _
    | intro _
    | lift_lets
    | apply keeps_ite
    | apply State.AnsKeeps.next
    | split
    | fail_if_no_progress refine keeps_mk rfl rfl rfl rfl rfl rfl rfl rfl rfl rfl rfl rfl rfl rfl ?_

theorem State.recal_keeps {s0 : State} {s : State} {k : Nat} {ok : Bool} (hs : s0.Keeps s) :
    s0.Keeps (State.recal s k ok) := by
  unfold State.recal
  repeat' with_reducible first
    | assumption
    | exact State.Keeps.refl _
    | intro _
    | lift_lets
    | apply keeps_ite
    | apply State.alert_keeps
    | apply State.logEvent_keeps
    | apply State.putFlag_keeps
    | apply State.raiseCause_keeps
    | apply State.setFlag_keeps
    | apply State.setFld_keeps
    | apply State.wr_keeps
    | split
    | fail_if_no_progress refine keeps_mk rfl rfl rfl rfl rfl rfl rfl rfl rfl rfl rfl rfl rfl rfl ?_

theorem State.scrub_keeps {s0 : State} {s : State} {k sector : Nat} {u : Upset} (hs : s0.Keeps s) :
    s0.Keeps (State.scrub s k sector u) := by
  unfold State.scrub
  repeat' with_reducible first
    | assumption
    | exact State.Keeps.refl _
    | intro _
    | lift_lets
    | apply keeps_ite
    | apply State.detect_keeps
    | apply State.rowEvent_keeps
    | split
    | fail_if_no_progress refine keeps_mkm rfl rfl rfl rfl rfl rfl rfl rfl rfl rfl rfl rfl rfl ?_ ?_
    | exact MemSys.Keeps.refl _
    | fail_if_no_progress apply memKeeps_mk rfl

theorem State.maintain_keeps {s0 : State} {s : State} {k : Nat} {w : MaintWork} (hs : s0.Keeps s) :
    s0.Keeps (State.maintain s k w) := by
  unfold State.maintain
  repeat' with_reducible first
    | assumption
    | exact State.Keeps.refl _
    | intro _
    | lift_lets
    | apply keeps_ite
    | apply State.recal_keeps
    | apply State.scrub_keeps
    | apply State.setFlag_keeps
    | apply State.setTemp_keeps
    | apply State.wr_keeps
    | apply keeps_foldl
    | apply keeps_foldl2
    | apply keeps_foldl3
    | apply keeps_foldl4
    | split
    | fail_if_no_progress refine keeps_mk rfl rfl rfl rfl rfl rfl rfl rfl rfl rfl rfl rfl rfl rfl ?_
    | refine keeps_eq2 ?_ (by assumption)
    | refine keeps_eq3 ?_ (by assumption)
    | refine keeps_eq4 ?_ (by assumption)
    | refine keeps_eqs ?_ (by assumption)
    | refine keeps_eqo ?_ (by assumption)
    | refine keeps_eqo2 ?_ (by assumption)
    | refine keeps_eqo3 ?_ (by assumption)
    | dsimp only [id]
    | dsimp +zetaDelta only

theorem execMaintWindowOpen_keeps {s0 : State} {channel : Byte} {work : MaintWork} {s : State} (hs : s0.Keeps s) :
    s0.AnsKeeps (execMaintWindowOpen channel work s) := by
  unfold execMaintWindowOpen
  repeat' with_reducible first
    | assumption
    | exact State.Keeps.refl _
    | intro _
    | lift_lets
    | apply keeps_ite
    | apply State.maintain_keeps
    | apply State.AnsKeeps.next

theorem execMaintOverrun_keeps {s0 : State} {channel : Byte} {task : Fin 4} {cycles : Fin 2000} {work : MaintWork} {s : State} (hs : s0.Keeps s) :
    s0.AnsKeeps (execMaintOverrun channel task cycles work s) := by
  unfold execMaintOverrun
  repeat' with_reducible first
    | assumption
    | exact State.Keeps.refl _
    | intro _
    | lift_lets
    | apply keeps_ite
    | apply State.count_keeps
    | apply State.maintain_keeps
    | apply State.setFlag_keeps
    | apply State.trace_keeps
    | apply State.voidCmds_keeps
    | apply State.wr_keeps
    | apply State.AnsKeeps.next
    | split
    | fail_if_no_progress refine keeps_mk rfl rfl rfl rfl rfl rfl rfl rfl rfl rfl rfl rfl rfl rfl ?_

/-! ### Machine/Reset.lean -/

theorem State.toStep_keeps {s0 : State} {s : State} {n : Nat} (hs : s0.Keeps s) :
    s0.Keeps (State.toStep s n) := by
  unfold State.toStep
  repeat' with_reducible first
    | assumption
    | exact State.Keeps.refl _
    | intro _
    | lift_lets
    | apply keeps_ite
    | apply State.setFld_keeps

theorem State.clearMain_keeps {s0 s : State} {warm : Bool} (hs : s0.Keeps s) : s0.Keeps (s.clearMain warm) := by
  unfold State.clearMain
  lift_lets
  intro s1
  have h1 : s0.Keeps s1 := by
    show s0.Keeps (ite _ _ _)
    exact keeps_ite (State.logFlush_keeps hs) hs
  clear_value s1
  intros
  refine State.clrFlag_keeps (h1.change ?_ ?_ ?_ ?_ ?_ ?_ ?_)
  · rfl
  · exact fun k => ⟨k.dram, SMap.filter_canon k.regs _, SMap.nil_canon _, SMap.nil_canon _, SMap.nil_canon _, SMap.nil_canon _,
      SMap.nil_canon _, SMap.nil_canon _⟩
  · exact List.suffix_refl _
  · exact Nat.le_refl _
  · exact id
  · exact fun _ => Fuses.Grow.refl _
  · exact .inr rfl

theorem State.resetCause_keeps {s0 : State} {s : State} {cause : Nat} {drained : Bool} (hs : s0.Keeps s) :
    s0.Keeps (State.resetCause s cause drained) := by
  unfold State.resetCause
  repeat' with_reducible first
    | assumption
    | exact State.Keeps.refl _
    | intro _
    | lift_lets
    | apply keeps_ite
    | apply State.wr_keeps

theorem State.showFuses_keeps {s0 : State} {s : State} (hs : s0.Keeps s) :
    s0.Keeps (State.showFuses s) := by
  unfold State.showFuses
  repeat' with_reducible first
    | assumption
    | exact State.Keeps.refl _
    | intro _
    | lift_lets
    | apply keeps_ite
    | apply State.wr_keeps

theorem execStandbyPowerOn_keeps {s0 s : State} {factory : Factory} {straps : Fin 4} (hs : s0.Keeps s) :
    s0.AnsKeeps (execStandbyPowerOn factory straps s) := by
  unfold execStandbyPowerOn
  refine State.AnsKeeps.next (keeps_ite hs ?_)
  have h1 : s0.Keeps (({ s with boot := { s.boot with power := true, straps := straps.val } } : State).toStep 1) :=
    State.toStep_keeps (hs.same rfl ⟨rfl, rfl, rfl, rfl, rfl, rfl, rfl⟩ rfl rfl rfl rfl rfl rfl)
  generalize ({ s with boot := { s.boot with power := true, straps := straps.val } } : State).toStep 1 = t at h1 ⊢
  dsimp only
  split
  · exact h1
  · rename_i hm
    refine keeps_foldl (State.showFuses_keeps (State.wr_keeps (h1.change rfl (State.Tables.canon ⟨rfl, rfl, rfl, rfl, rfl, rfl, rfl⟩ id) (List.suffix_refl _) (Nat.le_refl _) (fun _ => rfl)
      (fun m => absurd m hm) (.inl rfl)))) fun u b hu => ?_
    exact State.wr_keeps (State.wr_keeps hu)

theorem execBootRomVerify_keeps {s0 : State} {badA badB : Bool} {s : State} (hs : s0.Keeps s) :
    s0.AnsKeeps (execBootRomVerify badA badB s) := by
  unfold execBootRomVerify
  repeat' with_reducible first
    | assumption
    | exact State.Keeps.refl _
    | intro _
    | lift_lets
    | apply keeps_ite
    | apply State.clrFlag_keeps
    | apply State.logEvent_keeps
    | apply State.setFlag_keeps
    | apply State.setFld_keeps
    | apply State.toStep_keeps
    | apply State.AnsKeeps.next
    | split
    | fail_if_no_progress refine keeps_mk rfl rfl rfl rfl rfl rfl rfl rfl rfl rfl rfl rfl rfl rfl ?_

theorem execMainInputValid_keeps {s0 : State} {s : State} (hs : s0.Keeps s) :
    s0.AnsKeeps (execMainInputValid s) := by
  unfold execMainInputValid
  repeat' with_reducible first
    | assumption
    | exact State.Keeps.refl _
    | intro _
    | lift_lets
    | apply keeps_ite
    | apply State.AnsKeeps.next
    | split
    | fail_if_no_progress refine keeps_mk rfl rfl rfl rfl rfl rfl rfl rfl rfl rfl rfl rfl rfl rfl ?_

theorem State.mainFail_keeps {s0 : State} {s : State} {data : Nat} (hs : s0.Keeps s) :
    s0.Keeps (State.mainFail s data) := by
  unfold State.mainFail
  repeat' with_reducible first
    | assumption
    | exact State.Keeps.refl _
    | intro _
    | lift_lets
    | apply keeps_ite
    | apply State.logEvent_keeps
    | apply State.toStep_keeps
    | split
    | fail_if_no_progress refine keeps_mk rfl rfl rfl rfl rfl rfl rfl rfl rfl rfl rfl rfl rfl rfl ?_

theorem execConvertersSettled_keeps {s0 : State} {ok : Bool} {s : State} (hs : s0.Keeps s) :
    s0.AnsKeeps (execConvertersSettled ok s) := by
  unfold execConvertersSettled
  repeat' with_reducible first
    | assumption
    | exact State.Keeps.refl _
    | intro _
    | lift_lets
    | apply keeps_ite
    | apply State.mainFail_keeps
    | apply State.toStep_keeps
    | apply State.AnsKeeps.next
    | split
    | fail_if_no_progress refine keeps_mk rfl rfl rfl rfl rfl rfl rfl rfl rfl rfl rfl rfl rfl rfl ?_

theorem execPllLockTimeout_keeps {s0 : State} {s : State} (hs : s0.Keeps s) :
    s0.AnsKeeps (execPllLockTimeout s) := by
  unfold execPllLockTimeout
  repeat' with_reducible first
    | assumption
    | exact State.Keeps.refl _
    | intro _
    | lift_lets
    | apply keeps_ite
    | apply State.mainFail_keeps
    | apply State.AnsKeeps.next
    | split
    | fail_if_no_progress refine keeps_mk rfl rfl rfl rfl rfl rfl rfl rfl rfl rfl rfl rfl rfl rfl ?_

theorem execRootPllLock_keeps {s0 : State} {s : State} (hs : s0.Keeps s) :
    s0.AnsKeeps (execRootPllLock s) := by
  unfold execRootPllLock
  repeat' with_reducible first
    | assumption
    | exact State.Keeps.refl _
    | intro _
    | lift_lets
    | apply keeps_ite
    | apply State.putFlag_keeps
    | apply State.setFlag_keeps
    | apply State.toStep_keeps
    | apply State.wr_keeps
    | apply State.AnsKeeps.next
    | split
    | fail_if_no_progress refine keeps_mk rfl rfl rfl rfl rfl rfl rfl rfl rfl rfl rfl rfl rfl rfl ?_

theorem execRootPllLockLoss_keeps {s0 : State} {s : State} (hs : s0.Keeps s) :
    s0.AnsKeeps (execRootPllLockLoss s) := by
  unfold execRootPllLockLoss
  repeat' with_reducible first
    | assumption
    | exact State.Keeps.refl _
    | intro _
    | lift_lets
    | apply keeps_ite
    | apply State.alert_keeps
    | apply State.clearMain_keeps
    | apply State.clrFlag_keeps
    | apply State.logEvent_keeps
    | apply State.resetCause_keeps
    | apply State.toStep_keeps
    | apply State.withFree_keeps
    | apply State.AnsKeeps.next
    | split
    | fail_if_no_progress refine keeps_mk rfl rfl rfl rfl rfl rfl rfl rfl rfl rfl rfl rfl rfl rfl ?_

theorem State.powerOff_keeps {s0 : State} {s : State} (hs : s0.Keeps s) :
    s0.Keeps (State.powerOff s) := by
  unfold State.powerOff
  repeat' with_reducible first
    | assumption
    | exact State.Keeps.refl _
    | intro _
    | lift_lets
    | apply keeps_ite
    | apply State.clearMain_keeps
    | apply State.clrFlag_keeps
    | apply State.resetCause_keeps
    | apply State.toStep_keeps
    | split
    | fail_if_no_progress refine keeps_mk rfl rfl rfl rfl rfl rfl rfl rfl rfl rfl rfl rfl rfl rfl ?_

theorem execMainPowerLoss_keeps {s0 : State} {s : State} (hs : s0.Keeps s) :
    s0.AnsKeeps (execMainPowerLoss s) := by
  unfold execMainPowerLoss
  repeat' with_reducible first
    | assumption
    | exact State.Keeps.refl _
    | intro _
    | lift_lets
    | apply keeps_ite
    | apply State.logEvent_keeps
    | apply State.powerOff_keeps
    | apply State.withFree_keeps
    | apply State.AnsKeeps.next

theorem execMainInputOvervoltage_keeps {s0 : State} {s : State} (hs : s0.Keeps s) :
    s0.AnsKeeps (execMainInputOvervoltage s) := by
  unfold execMainInputOvervoltage
  repeat' with_reducible first
    | assumption
    | exact State.Keeps.refl _
    | intro _
    | lift_lets
    | apply keeps_ite
    | apply State.logEvent_keeps
    | apply State.powerOff_keeps
    | apply State.AnsKeeps.next

theorem execThermalTrip_keeps {s0 : State} {unit : HeatUnit} {s : State} (hs : s0.Keeps s) :
    s0.AnsKeeps (execThermalTrip unit s) := by
  unfold execThermalTrip
  repeat' with_reducible first
    | assumption
    | exact State.Keeps.refl _
    | intro _
    | lift_lets
    | apply keeps_ite
    | apply State.logEvent_keeps
    | apply State.powerOff_keeps
    | apply State.withFree_keeps
    | apply State.AnsKeeps.next
    | split
    | fail_if_no_progress refine keeps_mk rfl rfl rfl rfl rfl rfl rfl rfl rfl rfl rfl rfl rfl rfl ?_

theorem execThermtripRelease_keeps {s0 : State} {s : State} (hs : s0.Keeps s) :
    s0.AnsKeeps (execThermtripRelease s) := by
  unfold execThermtripRelease
  repeat' with_reducible first
    | assumption
    | exact State.Keeps.refl _
    | intro _
    | lift_lets
    | apply keeps_ite
    | apply State.AnsKeeps.next
    | split
    | fail_if_no_progress refine keeps_mk rfl rfl rfl rfl rfl rfl rfl rfl rfl rfl rfl rfl rfl rfl ?_

theorem execStandbyPowerLoss_keeps {s0 s : State} (hs : s0.Keeps s) : s0.AnsKeeps (execStandbyPowerLoss s) := by
  unfold execStandbyPowerLoss
  refine State.AnsKeeps.next (keeps_ite hs ?_)
  have h1 := State.powerOff_keeps hs
  refine State.toStep_keeps (h1.change ?_ ?_ ?_ ?_ ?_ ?_ ?_)
  · rfl
  · exact fun k => { k with regs := SMap.filter_canon k.regs _ }
  · exact List.suffix_refl _
  · exact Nat.le_refl _
  · exact id
  · exact fun _ => Fuses.Grow.refl _
  · exact .inl rfl

theorem execStandbyCrystalStop_keeps {s0 : State} {s : State} (hs : s0.Keeps s) :
    s0.AnsKeeps (execStandbyCrystalStop s) := by
  unfold execStandbyCrystalStop
  repeat' with_reducible first
    | assumption
    | exact State.Keeps.refl _
    | intro _
    | lift_lets
    | apply keeps_ite
    | apply State.clrFlag_keeps
    | apply State.AnsKeeps.next

theorem execStackTrainingDone_keeps {s0 : State} {failed : Byte} {s : State} (hs : s0.Keeps s) :
    s0.AnsKeeps (execStackTrainingDone failed s) := by
  unfold execStackTrainingDone
  repeat' with_reducible first
    | assumption
    | exact State.Keeps.refl _
    | intro _
    | lift_lets
    | apply keeps_ite
    | apply State.logEvent_keeps
    | apply State.noConsist_keeps
    | apply State.setFlag_keeps
    | apply State.setFld_keeps
    | apply State.toStep_keeps
    | apply State.wr_keeps
    | apply State.AnsKeeps.next
    | apply keeps_foldl
    | apply keeps_foldl2
    | apply keeps_foldl3
    | apply keeps_foldl4
    | split
    | fail_if_no_progress refine keeps_mk rfl rfl rfl rfl rfl rfl rfl rfl rfl rfl rfl rfl rfl rfl ?_

theorem execPcieLinkUp_keeps {s0 : State} {speed : Fin 16} {width : Byte} {flit : Bool} {s : State} (hs : s0.Keeps s) :
    s0.AnsKeeps (execPcieLinkUp speed width flit s) := by
  unfold execPcieLinkUp
  repeat' with_reducible first
    | assumption
    | exact State.Keeps.refl _
    | intro _
    | lift_lets
    | apply keeps_ite
    | apply State.putFlag_keeps
    | apply State.setFlag_keeps
    | apply State.setFld_keeps
    | apply State.AnsKeeps.next

theorem State.stopAll_keeps {s0 : State} {s : State} (hs : s0.Keeps s) :
    s0.Keeps (State.stopAll s) := by
  unfold State.stopAll
  repeat' with_reducible first
    | assumption
    | exact State.Keeps.refl _
    | intro _
    | lift_lets
    | apply keeps_ite
    | apply State.stopCmd_keeps
    | apply keeps_foldl
    | apply keeps_foldl2
    | apply keeps_foldl3
    | apply keeps_foldl4
    | split
    | fail_if_no_progress refine keeps_mk rfl rfl rfl rfl rfl rfl rfl rfl rfl rfl rfl rfl rfl rfl ?_

theorem State.finishStores_keeps {s0 : State} {s : State} (hs : s0.Keeps s) :
    s0.Keeps (State.finishStores s) := by
  unfold State.finishStores
  repeat' with_reducible first
    | assumption
    | exact State.Keeps.refl _
    | intro _
    | lift_lets
    | apply keeps_ite
    | apply State.closeStep_keeps
    | apply State.drainCore_keeps
    | apply State.mapCores_keeps
    | apply State.resetLog_keeps
    | apply State.settleFaults_keeps
    | apply keeps_foldl

theorem State.finishMainline_keeps {s0 : State} {s : State} (hs : s0.Keeps s) :
    s0.Keeps (State.finishMainline s) := by
  unfold State.finishMainline
  repeat' with_reducible first
    | assumption
    | exact State.Keeps.refl _
    | intro _
    | lift_lets
    | apply keeps_ite
    | apply State.emit_keeps
    | apply State.led_keeps
    | apply State.noticeAll_keeps
    | apply State.resetLog_keeps
    | apply State.setMln_keeps
    | apply State.tellLost_keeps
    | apply State.unhold_keeps
    | apply keeps_foldl

theorem State.finishCaches_keeps {s0 : State} {s : State} (hs : s0.Keeps s) :
    s0.Keeps (State.finishCaches s) := by
  unfold State.finishCaches
  repeat' with_reducible first
    | assumption
    | exact State.Keeps.refl _
    | intro _
    | lift_lets
    | apply keeps_ite
    | apply MemSys.flushLine_keeps
    | apply State.setMem_keeps
    | apply State.tktFlushAll_keeps
    | apply keeps_foldl
    | apply keeps_foldl2
    | apply keeps_foldl3
    | apply keeps_foldl4
    | split
    | fail_if_no_progress refine keeps_mkm rfl rfl rfl rfl rfl rfl rfl rfl rfl rfl rfl rfl rfl ?_ ?_
    | exact MemSys.Keeps.refl _
    | fail_if_no_progress apply memKeeps_mk rfl
    | apply memKeeps_ite
    | apply memKeeps_foldl

theorem State.warmBegin_keeps {s0 : State} {s : State} {hot : Bool} (hs : s0.Keeps s) :
    s0.Keeps (State.warmBegin s hot) := by
  unfold State.warmBegin
  repeat' with_reducible first
    | assumption
    | exact State.Keeps.refl _
    | intro _
    | lift_lets
    | apply keeps_ite
    | apply State.clrFlag_keeps
    | apply State.setFld_keeps
    | apply State.stopAll_keeps
    | split
    | fail_if_no_progress refine keeps_mk rfl rfl rfl rfl rfl rfl rfl rfl rfl rfl rfl rfl rfl rfl ?_

theorem State.domainReset_keeps {s0 : State} {s : State} (hs : s0.Keeps s) :
    s0.Keeps (State.domainReset s) := by
  unfold State.domainReset
  repeat' with_reducible first
    | assumption
    | exact State.Keeps.refl _
    | intro _
    | lift_lets
    | apply keeps_ite
    | apply State.clearMain_keeps
    | apply State.finishCaches_keeps
    | apply State.finishMainline_keeps
    | apply State.finishStores_keeps
    | apply State.resetCause_keeps
    | apply State.toStep_keeps
    | split
    | fail_if_no_progress refine keeps_mk rfl rfl rfl rfl rfl rfl rfl rfl rfl rfl rfl rfl rfl rfl ?_

theorem State.warmStart_keeps {s0 : State} {s : State} {hot : Bool} (hs : s0.Keeps s) :
    s0.Keeps (State.warmStart s hot) := by
  unfold State.warmStart
  repeat' with_reducible first
    | assumption
    | exact State.Keeps.refl _
    | intro _
    | lift_lets
    | apply keeps_ite
    | apply State.domainReset_keeps
    | apply State.warmBegin_keeps
    | split
    | fail_if_no_progress refine keeps_mk rfl rfl rfl rfl rfl rfl rfl rfl rfl rfl rfl rfl rfl rfl ?_

theorem execPerstAssert_keeps {s0 : State} {s : State} (hs : s0.Keeps s) :
    s0.AnsKeeps (execPerstAssert s) := by
  unfold execPerstAssert
  repeat' with_reducible first
    | assumption
    | exact State.Keeps.refl _
    | intro _
    | lift_lets
    | apply keeps_ite
    | apply State.warmStart_keeps
    | apply State.AnsKeeps.next
    | split
    | fail_if_no_progress refine keeps_mk rfl rfl rfl rfl rfl rfl rfl rfl rfl rfl rfl rfl rfl rfl ?_

theorem execHotReset_keeps {s0 : State} {s : State} (hs : s0.Keeps s) :
    s0.AnsKeeps (execHotReset s) := by
  unfold execHotReset
  repeat' with_reducible first
    | assumption
    | exact State.Keeps.refl _
    | intro _
    | lift_lets
    | apply keeps_ite
    | apply State.warmStart_keeps
    | apply State.AnsKeeps.next

theorem execWarmResetDomainReset_keeps {s0 : State} {s : State} (hs : s0.Keeps s) :
    s0.AnsKeeps (execWarmResetDomainReset s) := by
  unfold execWarmResetDomainReset
  repeat' with_reducible first
    | assumption
    | exact State.Keeps.refl _
    | intro _
    | lift_lets
    | apply keeps_ite
    | apply State.domainReset_keeps
    | apply State.AnsKeeps.next

theorem execPerstDeassert_keeps {s0 : State} {s : State} (hs : s0.Keeps s) :
    s0.AnsKeeps (execPerstDeassert s) := by
  unfold execPerstDeassert
  repeat' with_reducible first
    | assumption
    | exact State.Keeps.refl _
    | intro _
    | lift_lets
    | apply keeps_ite
    | apply State.toStep_keeps
    | apply State.AnsKeeps.next
    | split
    | fail_if_no_progress refine keeps_mk rfl rfl rfl rfl rfl rfl rfl rfl rfl rfl rfl rfl rfl rfl ?_

theorem execDrainRequest_keeps {s0 : State} {fn : Nat} {s : State} (hs : s0.Keeps s) :
    s0.AnsKeeps (execDrainRequest fn s) := by
  unfold execDrainRequest
  repeat' with_reducible first
    | assumption
    | exact State.Keeps.refl _
    | intro _
    | lift_lets
    | apply keeps_ite
    | apply State.mmio_keeps
    | apply State.stopAll_keeps
    | apply State.AnsKeeps.next
    | split
    | fail_if_no_progress refine keeps_mk rfl rfl rfl rfl rfl rfl rfl rfl rfl rfl rfl rfl rfl rfl ?_

theorem execDrainDone_keeps {s0 : State} {s : State} (hs : s0.Keeps s) :
    s0.AnsKeeps (execDrainDone s) := by
  unfold execDrainDone
  repeat' with_reducible first
    | assumption
    | exact State.Keeps.refl _
    | intro _
    | lift_lets
    | apply keeps_ite
    | apply State.finishCaches_keeps
    | apply State.finishMainline_keeps
    | apply State.finishStores_keeps
    | apply State.logFlush_keeps
    | apply State.raiseCause_keeps
    | apply State.setFlag_keeps
    | apply State.AnsKeeps.next
    | split
    | fail_if_no_progress refine keeps_mk rfl rfl rfl rfl rfl rfl rfl rfl rfl rfl rfl rfl rfl rfl ?_

theorem State.unitGo_keeps {s0 : State} {s : State} {fn kind index : Nat} {ok : State → Bool} {act : State → State} (hs : s0.Keeps s) (hact : ∀ (x : State), s0.Keeps x → s0.Keeps (act x)) :
    s0.Keeps (State.unitGo s fn kind index ok act) := by
  unfold State.unitGo
  repeat' with_reducible first
    | assumption
    | exact State.Keeps.refl _
    | intro _
    | lift_lets
    | apply keeps_ite
    | apply hact
    | apply State.mmio_keeps
    | apply State.setFlag_keeps
    | apply State.setFld_keeps
    | split
    | fail_if_no_progress refine keeps_mk rfl rfl rfl rfl rfl rfl rfl rfl rfl rfl rfl rfl rfl rfl ?_

theorem State.crossingReset_keeps {s0 : State} {s : State} {sel : Nat × Nat → Bool} (hs : s0.Keeps s) :
    s0.Keeps (State.crossingReset s sel) := by
  unfold State.crossingReset
  repeat' with_reducible first
    | assumption
    | exact State.Keeps.refl _
    | intro _
    | lift_lets
    | apply keeps_ite
    | apply State.withFree_keeps
    | split
    | fail_if_no_progress refine keeps_mkm rfl rfl rfl rfl rfl rfl rfl rfl rfl rfl rfl rfl rfl ?_ ?_
    | exact MemSys.Keeps.refl _
    | fail_if_no_progress apply memKeeps_mk rfl

theorem State.coreItems_keeps {s0 : State} {s : State} {c : Nat} (hs : s0.Keeps s) :
    s0.Keeps (State.coreItems s c) := by
  unfold State.coreItems
  repeat' with_reducible first
    | assumption
    | exact State.Keeps.refl _
    | intro _
    | lift_lets
    | apply keeps_ite
    | apply State.rled_keeps
    | apply State.setMln_keeps
    | split
    | fail_if_no_progress refine keeps_mk rfl rfl rfl rfl rfl rfl rfl rfl rfl rfl rfl rfl rfl rfl ?_

theorem State.resetCore_keeps {s0 : State} {s : State} {c : Nat} (hs : s0.Keeps s) :
    s0.Keeps (State.resetCore s c) := by
  unfold State.resetCore
  repeat' with_reducible first
    | assumption
    | exact State.Keeps.refl _
    | intro _
    | lift_lets
    | apply keeps_ite
    | apply State.coreItems_keeps
    | apply State.crossingReset_keeps
    | apply State.restartSet_keeps
    | apply State.updCore_keeps
    | apply State.wr_keeps
    | apply keeps_foldl
    | apply keeps_foldl2
    | apply keeps_foldl3
    | apply keeps_foldl4
    | split
    | fail_if_no_progress refine keeps_mk rfl rfl rfl rfl rfl rfl rfl rfl rfl rfl rfl rfl rfl rfl ?_

theorem execCoreReset_keeps {s0 : State} {fn : Nat} {index : Byte} {s : State} (hs : s0.Keeps s) :
    s0.AnsKeeps (execCoreReset fn index s) := by
  unfold execCoreReset
  repeat' with_reducible first
    | assumption
    | exact State.Keeps.refl _
    | intro _
    | lift_lets
    | apply keeps_ite
    | apply State.resetCore_keeps
    | apply State.unitGo_keeps
    | apply State.AnsKeeps.next

theorem State.resetCluster_keeps {s0 : State} {s : State} {n : Nat} (hs : s0.Keeps s) :
    s0.Keeps (State.resetCluster s n) := by
  unfold State.resetCluster
  repeat' with_reducible first
    | assumption
    | exact State.Keeps.refl _
    | intro _
    | lift_lets
    | apply keeps_ite
    | apply State.adopt_keeps
    | apply State.resetCore_keeps
    | apply State.restartSet_keeps
    | apply State.setUnit_keeps
    | apply State.wr_keeps
    | apply keeps_foldl
    | apply keeps_foldl2
    | apply keeps_foldl3
    | apply keeps_foldl4
    | split
    | fail_if_no_progress refine keeps_mk rfl rfl rfl rfl rfl rfl rfl rfl rfl rfl rfl rfl rfl rfl ?_

theorem execClusterReset_keeps {s0 : State} {fn : Nat} {index : Byte} {s : State} (hs : s0.Keeps s) :
    s0.AnsKeeps (execClusterReset fn index s) := by
  unfold execClusterReset
  repeat' with_reducible first
    | assumption
    | exact State.Keeps.refl _
    | intro _
    | lift_lets
    | apply keeps_ite
    | apply State.resetCluster_keeps
    | apply State.unitGo_keeps
    | apply State.AnsKeeps.next

theorem execMainlinePortReset_keeps {s0 : State} {fn : Nat} {index : Byte} {s : State} (hs : s0.Keeps s) :
    s0.AnsKeeps (execMainlinePortReset fn index s) := by
  unfold execMainlinePortReset
  repeat' with_reducible first
    | assumption
    | exact State.Keeps.refl _
    | intro _
    | lift_lets
    | apply keeps_ite
    | apply State.crossingReset_keeps
    | apply State.portDown_keeps
    | apply State.setPort_keeps
    | apply State.unitGo_keeps
    | apply State.AnsKeeps.next

theorem execEthernetPortReset_keeps {s0 : State} {fn : Nat} {index : Byte} {s : State} (hs : s0.Keeps s) :
    s0.AnsKeeps (execEthernetPortReset fn index s) := by
  unfold execEthernetPortReset
  repeat' with_reducible first
    | assumption
    | exact State.Keeps.refl _
    | intro _
    | lift_lets
    | apply keeps_ite
    | apply State.clrFlag_keeps
    | apply State.raiseCause_keeps
    | apply State.unitGo_keeps
    | apply State.AnsKeeps.next

theorem execUnitResetDone_keeps {s0 : State} {s : State} (hs : s0.Keeps s) :
    s0.AnsKeeps (execUnitResetDone s) := by
  unfold execUnitResetDone
  repeat' with_reducible first
    | assumption
    | exact State.Keeps.refl _
    | intro _
    | lift_lets
    | apply keeps_ite
    | apply State.clrFlag_keeps
    | apply State.AnsKeeps.next
    | split
    | fail_if_no_progress refine keeps_mk rfl rfl rfl rfl rfl rfl rfl rfl rfl rfl rfl rfl rfl rfl ?_

/-! ### Machine/Jtag.lean -/

theorem State.tapDo_keeps {s0 : State} {s : State} {i : TapInstr} {act : State → State} (hs : s0.Keeps s) (hact : ∀ (x : State), s0.Keeps x → s0.Keeps (act x)) :
    s0.Keeps (State.tapDo s i act) := by
  unfold State.tapDo
  repeat' with_reducible first
    | assumption
    | exact State.Keeps.refl _
    | intro _
    | lift_lets
    | apply keeps_ite
    | apply hact
    | split
    | fail_if_no_progress refine keeps_mk rfl rfl rfl rfl rfl rfl rfl rfl rfl rfl rfl rfl rfl rfl ?_

theorem execBypass_keeps {s0 : State} {s : State} (hs : s0.Keeps s) :
    s0.AnsKeeps (execBypass s) := by
  unfold execBypass
  repeat' with_reducible first
    | assumption
    | exact State.Keeps.refl _
    | intro _
    | lift_lets
    | apply keeps_ite
    | apply State.emit_keeps
    | apply State.AnsKeeps.next
    | split
    | fail_if_no_progress refine keeps_mk rfl rfl rfl rfl rfl rfl rfl rfl rfl rfl rfl rfl rfl rfl ?_

theorem execIdcode_keeps {s0 : State} {s : State} (hs : s0.Keeps s) :
    s0.AnsKeeps (execIdcode s) := by
  unfold execIdcode
  repeat' with_reducible first
    | assumption
    | exact State.Keeps.refl _
    | intro _
    | lift_lets
    | apply keeps_ite
    | apply State.emit_keeps
    | apply State.tapDo_keeps
    | apply State.AnsKeeps.next

theorem execSamplePreload_keeps {s0 : State} {cells : Nat} {s : State} (hs : s0.Keeps s) :
    s0.AnsKeeps (execSamplePreload cells s) := by
  unfold execSamplePreload
  repeat' with_reducible first
    | assumption
    | exact State.Keeps.refl _
    | intro _
    | lift_lets
    | apply keeps_ite
    | apply State.emit_keeps
    | apply State.tapDo_keeps
    | apply State.withFree_keeps
    | apply State.AnsKeeps.next
    | split
    | fail_if_no_progress refine keeps_mk rfl rfl rfl rfl rfl rfl rfl rfl rfl rfl rfl rfl rfl rfl ?_

theorem execExtest_keeps {s0 : State} {s : State} (hs : s0.Keeps s) :
    s0.AnsKeeps (execExtest s) := by
  unfold execExtest
  repeat' with_reducible first
    | assumption
    | exact State.Keeps.refl _
    | intro _
    | lift_lets
    | apply keeps_ite
    | apply State.tapDo_keeps
    | apply State.AnsKeeps.next
    | split
    | fail_if_no_progress refine keeps_mk rfl rfl rfl rfl rfl rfl rfl rfl rfl rfl rfl rfl rfl rfl ?_

theorem execExtestPulse_keeps {s0 : State} {s : State} (hs : s0.Keeps s) :
    s0.AnsKeeps (execExtestPulse s) := by
  unfold execExtestPulse
  repeat' with_reducible first
    | assumption
    | exact State.Keeps.refl _
    | intro _
    | lift_lets
    | apply keeps_ite
    | apply State.tapDo_keeps
    | apply State.AnsKeeps.next
    | split
    | fail_if_no_progress refine keeps_mk rfl rfl rfl rfl rfl rfl rfl rfl rfl rfl rfl rfl rfl rfl ?_

/-! ### Machine/Security.lean -/

theorem State.commit_keeps {s0 s : State} {fn : Nat} {f : State → Fuses} (hf : ∀ t : State, t.sec.fuses.Grow (f t)) (hs : s0.Keeps s) :
    s0.Keeps (s.commit fn f) := by
  unfold State.commit
  refine State.mmio_keeps hs fun t ht => keeps_ite (State.setFlag_keeps ht) (State.showFuses_keeps ?_)
  exact ht.change rfl (State.Tables.canon ⟨rfl, rfl, rfl, rfl, rfl, rfl, rfl⟩ id) (List.suffix_refl _) (Nat.le_refl _) id (fun _ => hf t) (.inl rfl)

theorem execCommitFw_keeps {s0 s : State} {fn : Nat} (hs : s0.Keeps s) : s0.AnsKeeps (execCommitFw fn s) :=
  State.AnsKeeps.next (State.commit_keeps (fun _ => by
    refine ⟨?_, ?_, List.prefix_refl _, fun _ h => h, fun _ h => h⟩ <;>
      first | exact Nat.le_refl _ | exact Nat.le_max_left _ _) hs)

theorem execCommitConsist_keeps {s0 s : State} {fn : Nat} (hs : s0.Keeps s) : s0.AnsKeeps (execCommitConsist fn s) :=
  State.AnsKeeps.next (State.commit_keeps (fun _ => by
    refine ⟨?_, ?_, List.prefix_refl _, fun _ h => h, fun _ h => h⟩ <;>
      first | exact Nat.le_refl _ | exact Nat.le_max_left _ _) hs)

theorem execKeyChange_keeps {s0 : State} {fn : Nat} {slot : Fin 128} {s : State} (hs : s0.Keeps s) :
    s0.AnsKeeps (execKeyChange fn slot s) := by
  unfold execKeyChange
  repeat' with_reducible first
    | assumption
    | exact State.Keeps.refl _
    | intro _
    | lift_lets
    | apply keeps_ite
    | apply State.mmio_keeps
    | apply State.rekey_keeps
    | apply State.setFlag_keeps
    | apply State.AnsKeeps.next
    | split
    | fail_if_no_progress refine keeps_mk rfl rfl rfl rfl rfl rfl rfl rfl rfl rfl rfl rfl rfl rfl ?_

theorem execKeyInstalled_keeps {s0 : State} {s : State} (hs : s0.Keeps s) :
    s0.AnsKeeps (execKeyInstalled s) := by
  unfold execKeyInstalled
  repeat' with_reducible first
    | assumption
    | exact State.Keeps.refl _
    | intro _
    | lift_lets
    | apply keeps_ite
    | apply State.clrFlag_keeps
    | apply State.AnsKeeps.next
    | split
    | fail_if_no_progress refine keeps_mk rfl rfl rfl rfl rfl rfl rfl rfl rfl rfl rfl rfl rfl rfl ?_

theorem State.takeNonce_keeps {s0 : State} {s : State} (hs : s0.Keeps s) :
    s0.Keeps (State.takeNonce s).2 := by
  unfold State.takeNonce
  repeat' with_reducible first
    | assumption
    | exact State.Keeps.refl _
    | intro _
    | lift_lets
    | apply keeps_ite
    | apply State.free_keeps
    | split
    | fail_if_no_progress refine keeps_mk rfl rfl rfl rfl rfl rfl rfl rfl rfl rfl rfl rfl rfl rfl ?_

theorem execNonceRead_keeps {s0 : State} {fn : Nat} {s : State} (hs : s0.Keeps s) :
    s0.AnsKeeps (execNonceRead fn s) := by
  unfold execNonceRead
  repeat' with_reducible first
    | assumption
    | exact State.Keeps.refl _
    | intro _
    | lift_lets
    | apply keeps_ite
    | apply State.emit_keeps
    | apply State.mmio_keeps
    | apply State.takeNonce_keeps
    | apply State.AnsKeeps.next

theorem execTokenSubmit_keeps {s0 : State} {fn : Nat} {s : State} (hs : s0.Keeps s) :
    s0.AnsKeeps (execTokenSubmit fn s) := by
  unfold execTokenSubmit
  repeat' with_reducible first
    | assumption
    | exact State.Keeps.refl _
    | intro _
    | lift_lets
    | apply keeps_ite
    | apply State.mmio_keeps
    | apply State.setFlag_keeps
    | apply State.AnsKeeps.next
    | split
    | fail_if_no_progress refine keeps_mk rfl rfl rfl rfl rfl rfl rfl rfl rfl rfl rfl rfl rfl rfl ?_

/-- TOKEN_VERIFY_DONE alone may open scopes. -/
theorem execTokenVerifyDone_keeps {s0 s t : State} (hs : s0.Keeps s) (e : execTokenVerifyDone s = .next t) : s0.KeepsMost t := by
  unfold execTokenVerifyDone at e
  split at e
  · cases e; exact hs.toKeepsMost
  · rename_i ws _
    have h1 : s0.Keeps (({ s with sec := { s.sec with checking := none, nonce := none } } : State).clrFlag R.secStatus 10) :=
      State.clrFlag_keeps (hs.same rfl ⟨rfl, rfl, rfl, rfl, rfl, rfl, rfl⟩ rfl rfl rfl rfl rfl rfl)
    generalize ({ s with sec := { s.sec with checking := none, nonce := none } } : State).clrFlag R.secStatus 10 = u at h1 e
    dsimp only at e
    split at e
    · cases e
      exact (State.setFld_keeps (State.setFlag_keeps h1)).toKeepsMost
    · cases e
      refine h1.toKeepsMost.trans (State.KeepsMost.trans (t := { u with sec := { u.sec with
        scopes := num (tokenBytes ws) 6 2, until_ := u.now + 1000000000 * num (tokenBytes ws) 0x18 4 } }) ?_
        (State.setFlag_keeps (State.Keeps.refl _)).toKeepsMost)
      exact ⟨rfl, State.Tables.canon ⟨rfl, rfl, rfl, rfl, rfl, rfl, rfl⟩ id, List.suffix_refl _, Nat.le_refl _, id, fun _ => Fuses.Grow.refl _⟩

theorem State.relock_keeps {s0 s : State} (hs : s0.Keeps s) : s0.Keeps s.relock :=
  hs.change rfl (State.Tables.canon ⟨rfl, rfl, rfl, rfl, rfl, rfl, rfl⟩ id) (List.suffix_refl _) (Nat.le_refl _) id (fun _ => Fuses.Grow.refl _) (.inr rfl)

theorem execRelock_keeps {s0 : State} {fn : Nat} {s : State} (hs : s0.Keeps s) :
    s0.AnsKeeps (execRelock fn s) := by
  unfold execRelock
  repeat' with_reducible first
    | assumption
    | exact State.Keeps.refl _
    | intro _
    | lift_lets
    | apply keeps_ite
    | apply State.mmio_keeps
    | apply State.relock_keeps
    | apply State.AnsKeeps.next

theorem execUnlockExpire_keeps {s0 : State} {s : State} (hs : s0.Keeps s) :
    s0.AnsKeeps (execUnlockExpire s) := by
  unfold execUnlockExpire
  repeat' with_reducible first
    | assumption
    | exact State.Keeps.refl _
    | intro _
    | lift_lets
    | apply keeps_ite
    | apply State.relock_keeps
    | apply State.AnsKeeps.next

theorem State.spdm_keeps {s0 : State} {s : State} {m : Medium} {need to_ : Nat} {act : State → State} (hs : s0.Keeps s) (hact : ∀ (x : State), s0.Keeps x → s0.Keeps (act x)) :
    s0.Keeps (State.spdm s m need to_ act) := by
  unfold State.spdm
  repeat' with_reducible first
    | assumption
    | exact State.Keeps.refl _
    | intro _
    | lift_lets
    | apply keeps_ite
    | apply hact
    | apply State.emit_keeps
    | split
    | fail_if_no_progress refine keeps_mk rfl rfl rfl rfl rfl rfl rfl rfl rfl rfl rfl rfl rfl rfl ?_

theorem State.spdmSay_keeps {s0 : State} {s : State} {m : Medium} {kind : Nat} {data : List Byte} (hs : s0.Keeps s) :
    s0.Keeps (State.spdmSay s m kind data) := by
  unfold State.spdmSay
  repeat' with_reducible first
    | assumption
    | exact State.Keeps.refl _
    | intro _
    | lift_lets
    | apply keeps_ite
    | apply State.emit_keeps

theorem State.spdmSign_keeps {s0 : State} {s : State} {m : Medium} {kind : Nat} {data : List Byte} (hs : s0.Keeps s) :
    s0.Keeps (State.spdmSign s m kind data) := by
  unfold State.spdmSign
  repeat' with_reducible first
    | assumption
    | exact State.Keeps.refl _
    | intro _
    | lift_lets
    | apply keeps_ite
    | apply State.emit_keeps
    | apply State.spdm_keeps
    | apply State.withFree_keeps

theorem execGetVersion_keeps {s0 : State} {medium : Medium} {s : State} (hs : s0.Keeps s) :
    s0.AnsKeeps (execGetVersion medium s) := by
  unfold execGetVersion
  repeat' with_reducible first
    | assumption
    | exact State.Keeps.refl _
    | intro _
    | lift_lets
    | apply keeps_ite
    | apply State.spdm_keeps
    | apply State.spdmSay_keeps
    | apply State.AnsKeeps.next

theorem execGetCapabilities_keeps {s0 : State} {medium : Medium} {s : State} (hs : s0.Keeps s) :
    s0.AnsKeeps (execGetCapabilities medium s) := by
  unfold execGetCapabilities
  repeat' with_reducible first
    | assumption
    | exact State.Keeps.refl _
    | intro _
    | lift_lets
    | apply keeps_ite
    | apply State.spdm_keeps
    | apply State.spdmSay_keeps
    | apply State.AnsKeeps.next

theorem execNegotiateAlgorithms_keeps {s0 : State} {medium : Medium} {s : State} (hs : s0.Keeps s) :
    s0.AnsKeeps (execNegotiateAlgorithms medium s) := by
  unfold execNegotiateAlgorithms
  repeat' with_reducible first
    | assumption
    | exact State.Keeps.refl _
    | intro _
    | lift_lets
    | apply keeps_ite
    | apply State.spdm_keeps
    | apply State.spdmSay_keeps
    | apply State.AnsKeeps.next

theorem execGetDigests_keeps {s0 : State} {medium : Medium} {s : State} (hs : s0.Keeps s) :
    s0.AnsKeeps (execGetDigests medium s) := by
  unfold execGetDigests
  repeat' with_reducible first
    | assumption
    | exact State.Keeps.refl _
    | intro _
    | lift_lets
    | apply keeps_ite
    | apply State.spdm_keeps
    | apply State.spdmSay_keeps
    | apply State.AnsKeeps.next

theorem execGetCertificate_keeps {s0 : State} {medium : Medium} {off len : Nat} {s : State} (hs : s0.Keeps s) :
    s0.AnsKeeps (execGetCertificate medium off len s) := by
  unfold execGetCertificate
  repeat' with_reducible first
    | assumption
    | exact State.Keeps.refl _
    | intro _
    | lift_lets
    | apply keeps_ite
    | apply State.spdm_keeps
    | apply State.spdmSay_keeps
    | apply State.AnsKeeps.next

theorem execChallenge_keeps {s0 : State} {medium : Medium} {s : State} (hs : s0.Keeps s) :
    s0.AnsKeeps (execChallenge medium s) := by
  unfold execChallenge
  repeat' with_reducible first
    | assumption
    | exact State.Keeps.refl _
    | intro _
    | lift_lets
    | apply keeps_ite
    | apply State.spdm_keeps
    | apply State.spdmSign_keeps
    | apply State.AnsKeeps.next

theorem execGetMeasurements_keeps {s0 : State} {medium : Medium} {s : State} (hs : s0.Keeps s) :
    s0.AnsKeeps (execGetMeasurements medium s) := by
  unfold execGetMeasurements
  repeat' with_reducible first
    | assumption
    | exact State.Keeps.refl _
    | intro _
    | lift_lets
    | apply keeps_ite
    | apply State.spdm_keeps
    | apply State.spdmSign_keeps
    | apply State.AnsKeeps.next

/-! ### Machine/Mgmt.lean -/

theorem execMctpControl_keeps {s0 : State} {medium : Medium} {req : MctpReq} {s : State} (hs : s0.Keeps s) :
    s0.AnsKeeps (execMctpControl medium req s) := by
  unfold execMctpControl
  repeat' with_reducible first
    | assumption
    | exact State.Keeps.refl _
    | intro _
    | lift_lets
    | apply keeps_ite
    | apply State.count_keeps
    | apply State.emit_keeps
    | apply State.setFld_keeps
    | apply State.AnsKeeps.next
    | split
    | fail_if_no_progress refine keeps_mk rfl rfl rfl rfl rfl rfl rfl rfl rfl rfl rfl rfl rfl rfl ?_

theorem State.putReading_keeps {s0 : State} {s : State} {id v : Nat} (hs : s0.Keeps s) :
    s0.Keeps (State.putReading s id v) := by
  unfold State.putReading
  repeat' with_reducible first
    | assumption
    | exact State.Keeps.refl _
    | intro _
    | lift_lets
    | apply keeps_ite
    | split
    | fail_if_no_progress refine keeps_mk rfl rfl rfl rfl rfl rfl rfl rfl rfl rfl rfl rfl rfl rfl ?_

theorem State.rounded_keeps {s0 : State} {s : State} {a b : Nat} {f : Nat → State → State} (hs : s0.Keeps s) (hf : ∀ (x : Nat) (y : State), s0.Keeps y → s0.Keeps (f x y)) :
    s0.Keeps (State.rounded s a b f) := by
  unfold State.rounded
  repeat' with_reducible first
    | assumption
    | exact State.Keeps.refl _
    | intro _
    | lift_lets
    | apply keeps_ite
    | apply hf
    | apply State.withFree_keeps

theorem execSensorSample_keeps {s0 : State} {id : Nat} {value : BitVec 32} {s : State} (hs : s0.Keeps s) :
    s0.AnsKeeps (execSensorSample id value s) := by
  unfold execSensorSample
  repeat' with_reducible first
    | assumption
    | exact State.Keeps.refl _
    | intro _
    | lift_lets
    | apply keeps_ite
    | apply State.putReading_keeps
    | apply State.rounded_keeps
    | apply State.setTemp_keeps
    | apply State.wr_keeps
    | apply State.AnsKeeps.next
    | split
    | fail_if_no_progress refine keeps_mk rfl rfl rfl rfl rfl rfl rfl rfl rfl rfl rfl rfl rfl rfl ?_

theorem execPldmSensorRead_keeps {s0 : State} {medium : Medium} {id : Nat} {s : State} (hs : s0.Keeps s) :
    s0.AnsKeeps (execPldmSensorRead medium id s) := by
  unfold execPldmSensorRead
  repeat' with_reducible first
    | assumption
    | exact State.Keeps.refl _
    | intro _
    | lift_lets
    | apply keeps_ite
    | apply State.emit_keeps
    | apply State.AnsKeeps.next

theorem execPldmEventLogRead_keeps {s0 : State} {medium : Medium} {n : Nat} {s : State} (hs : s0.Keeps s) :
    s0.AnsKeeps (execPldmEventLogRead medium n s) := by
  unfold execPldmEventLogRead
  repeat' with_reducible first
    | assumption
    | exact State.Keeps.refl _
    | intro _
    | lift_lets
    | apply keeps_ite
    | apply State.emit_keeps
    | apply State.AnsKeeps.next
    | split

theorem State.setEol_keeps {s0 : State} {s : State} {u : Nat} (hs : s0.Keeps s) :
    s0.Keeps (State.setEol s u) := by
  unfold State.setEol
  repeat' with_reducible first
    | assumption
    | exact State.Keeps.refl _
    | intro _
    | lift_lets
    | apply keeps_ite
    | apply State.alert_keeps
    | apply State.clrFlag_keeps
    | apply State.logEvent_keeps
    | apply State.setFlag_keeps
    | apply State.wr_keeps

theorem State.showEye_keeps {s0 : State} {s : State} {l : Nat} (hs : s0.Keeps s) :
    s0.Keeps (State.showEye s l) := by
  unfold State.showEye
  repeat' with_reducible first
    | assumption
    | exact State.Keeps.refl _
    | intro _
    | lift_lets
    | apply keeps_ite
    | apply State.withFree_keeps
    | apply State.wr_keeps
    | split

theorem State.addWear_keeps {s0 : State} {s : State} {x : WearSample} (hs : s0.Keeps s) :
    s0.Keeps (State.addWear s x) := by
  unfold State.addWear
  repeat' with_reducible first
    | assumption
    | exact State.Keeps.refl _
    | intro _
    | lift_lets
    | apply keeps_ite
    | apply State.setEol_keeps
    | apply State.showEye_keeps
    | apply State.wr_keeps
    | apply keeps_foldl
    | apply keeps_foldl2
    | apply keeps_foldl3
    | apply keeps_foldl4
    | apply keeps_getD
    | split
    | fail_if_no_progress refine keeps_mk rfl rfl rfl rfl rfl rfl rfl rfl rfl rfl rfl rfl rfl rfl ?_

theorem execWearSample_keeps {s0 : State} {reading : WearReading} {s : State} (hs : s0.Keeps s) :
    s0.AnsKeeps (execWearSample reading s) := by
  unfold execWearSample
  repeat' with_reducible first
    | assumption
    | exact State.Keeps.refl _
    | intro _
    | lift_lets
    | apply keeps_ite
    | apply State.addWear_keeps
    | apply State.count_keeps
    | apply State.AnsKeeps.next
    | split
    | fail_if_no_progress refine keeps_mk rfl rfl rfl rfl rfl rfl rfl rfl rfl rfl rfl rfl rfl rfl ?_

theorem execRequestUpdate_keeps {s0 : State} {medium : Medium} {s : State} (hs : s0.Keeps s) :
    s0.AnsKeeps (execRequestUpdate medium s) := by
  unfold execRequestUpdate
  repeat' with_reducible first
    | assumption
    | exact State.Keeps.refl _
    | intro _
    | lift_lets
    | apply keeps_ite
    | apply State.emit_keeps
    | apply State.setFlag_keeps
    | apply State.AnsKeeps.next
    | split
    | fail_if_no_progress refine keeps_mk rfl rfl rfl rfl rfl rfl rfl rfl rfl rfl rfl rfl rfl rfl ?_

theorem State.updateWritten_keeps {s0 : State} {s : State} {medium : Medium} {comp : Nat} {u : Update} (hs : s0.Keeps s) :
    s0.Keeps (State.updateWritten s medium comp u) := by
  unfold State.updateWritten
  repeat' with_reducible first
    | assumption
    | exact State.Keeps.refl _
    | intro _
    | lift_lets
    | apply keeps_ite
    | apply State.emit_keeps
    | apply State.passed_keeps
    | split
    | fail_if_no_progress refine keeps_mk rfl rfl rfl rfl rfl rfl rfl rfl rfl rfl rfl rfl rfl rfl ?_

theorem State.flashStore_keeps {s0 : State} {s : State} {base : Nat} {data : List Byte} (hs : s0.Keeps s) :
    s0.Keeps (State.flashStore s base data) := by
  unfold State.flashStore
  repeat' with_reducible first
    | assumption
    | exact State.Keeps.refl _
    | intro _
    | lift_lets
    | apply keeps_ite
    | apply keeps_foldl
    | apply keeps_foldl2
    | apply keeps_foldl3
    | apply keeps_foldl4
    | split
    | fail_if_no_progress refine keeps_mk rfl rfl rfl rfl rfl rfl rfl rfl rfl rfl rfl rfl rfl rfl ?_

theorem execUpdateWrite_keeps {s0 : State} {medium : Medium} {comp off : Nat} {data : List Byte} {s : State} (hs : s0.Keeps s) :
    s0.AnsKeeps (execUpdateWrite medium comp off data s) := by
  unfold execUpdateWrite
  repeat' with_reducible first
    | assumption
    | exact State.Keeps.refl _
    | intro _
    | lift_lets
    | apply keeps_ite
    | apply State.emit_keeps
    | apply State.flashStore_keeps
    | apply State.updateWritten_keeps
    | apply State.AnsKeeps.next
    | split

theorem execTransferComplete_keeps {s0 : State} {medium : Medium} {comp : Nat} {bad : Bool} {s : State} (hs : s0.Keeps s) :
    s0.AnsKeeps (execTransferComplete medium comp bad s) := by
  unfold execTransferComplete
  repeat' with_reducible first
    | assumption
    | exact State.Keeps.refl _
    | intro _
    | lift_lets
    | apply keeps_ite
    | apply State.conFail_keeps
    | apply State.emit_keeps
    | apply State.logEvent_keeps
    | apply State.logFlush_keeps
    | apply State.passed_keeps
    | apply State.AnsKeeps.next
    | split
    | fail_if_no_progress refine keeps_mk rfl rfl rfl rfl rfl rfl rfl rfl rfl rfl rfl rfl rfl rfl ?_

theorem State.endUpdate_keeps {s0 : State} {s : State} (hs : s0.Keeps s) :
    s0.Keeps (State.endUpdate s) := by
  unfold State.endUpdate
  repeat' with_reducible first
    | assumption
    | exact State.Keeps.refl _
    | intro _
    | lift_lets
    | apply keeps_ite
    | apply State.addWear_keeps
    | apply State.clrFlag_keeps
    | apply State.logFlush_keeps
    | split
    | fail_if_no_progress refine keeps_mk rfl rfl rfl rfl rfl rfl rfl rfl rfl rfl rfl rfl rfl rfl ?_

theorem State.activate_keeps {s0 s : State} {u : Update} {comp : Nat} (hs : s0.Keeps s) : s0.Keeps (s.activate u comp) := by
  unfold State.activate
  refine State.withFree_keeps ?_ fun r t ht => State.logEvent_keeps ht
  refine keeps_ite (hs.same rfl ⟨rfl, rfl, rfl, rfl, rfl, rfl, rfl⟩ rfl rfl rfl rfl rfl rfl) (keeps_ite (State.wr_keeps hs) (keeps_ite ?_ (keeps_ite ?_ hs)))
  · refine State.showFuses_keeps (hs.change rfl (State.Tables.canon ⟨rfl, rfl, rfl, rfl, rfl, rfl, rfl⟩ id) (List.suffix_refl _) (Nat.le_refl _) id (fun _ => ?_) (.inl rfl))
    exact ⟨Nat.le_refl _, Nat.le_refl _, List.prefix_append _ _, fun _ h => h, fun _ h => h⟩
  · refine State.showFuses_keeps (hs.change rfl (State.Tables.canon ⟨rfl, rfl, rfl, rfl, rfl, rfl, rfl⟩ id) (List.suffix_refl _) (Nat.le_refl _) id (fun _ => ?_) (.inl rfl))
    exact ⟨Nat.le_refl _, Nat.le_refl _, List.prefix_refl _, fun i h => by
      show (Nat.lor _ _).testBit i = true
      rw [show Nat.lor _ _ = _ ||| _ from rfl, Nat.testBit_or, h, Bool.true_or], fun _ h => h⟩

theorem execActivateFirmware_keeps {s0 : State} {medium : Medium} {s : State} (hs : s0.Keeps s) :
    s0.AnsKeeps (execActivateFirmware medium s) := by
  unfold execActivateFirmware
  repeat' with_reducible first
    | assumption
    | exact State.Keeps.refl _
    | intro _
    | lift_lets
    | apply keeps_ite
    | apply State.activate_keeps
    | apply State.emit_keeps
    | apply State.endUpdate_keeps
    | apply State.passed_keeps
    | apply State.AnsKeeps.next
    | apply keeps_foldl
    | apply keeps_foldl2
    | apply keeps_foldl3
    | apply keeps_foldl4
    | split

theorem execCancelUpdate_keeps {s0 : State} {medium : Medium} {s : State} (hs : s0.Keeps s) :
    s0.AnsKeeps (execCancelUpdate medium s) := by
  unfold execCancelUpdate
  repeat' with_reducible first
    | assumption
    | exact State.Keeps.refl _
    | intro _
    | lift_lets
    | apply keeps_ite
    | apply State.emit_keeps
    | apply State.endUpdate_keeps
    | apply State.AnsKeeps.next
    | split

/-! ### Machine/Registers.lean -/

theorem Answer.state_keeps {s0 : State} {a : Answer} {s : State} (ha : s0.AnsKeeps a) (hs : s0.Keeps s) :
    s0.Keeps (Answer.state a s) := by
  unfold Answer.state
  split
  · exact ha _ rfl
  · exact hs

theorem State.put_keeps {s0 : State} {s : State} {off : Nat} {w : RegWrite} {fs : List RegField} (hs : s0.Keeps s) :
    s0.Keeps (State.put s off w fs) := by
  unfold State.put
  repeat' with_reducible first
    | assumption
    | exact State.Keeps.refl _
    | intro _
    | lift_lets
    | apply keeps_ite
    | apply State.wr_keeps

theorem State.guarded_keeps {s0 : State} {s : State} {ok : Bool} {status i : Nat} {t : State} (hs : s0.Keeps s) (ht : s0.Keeps t) :
    s0.Keeps (State.guarded s ok status i t) := by
  unfold State.guarded
  repeat' with_reducible first
    | assumption
    | exact State.Keeps.refl _
    | intro _
    | lift_lets
    | apply keeps_ite
    | apply State.setFlag_keeps

theorem State.logClear_keeps {s0 : State} {s : State} {off : Nat} {w : RegWrite} {partner : Option Nat} (hs : s0.Keeps s) :
    s0.Keeps (State.logClear s off w partner) := by
  unfold State.logClear
  repeat' with_reducible first
    | assumption
    | exact State.Keeps.refl _
    | intro _
    | lift_lets
    | apply keeps_ite
    | apply State.wr_keeps
    | split

theorem State.conWrite_keeps {s0 : State} {s : State} {fn off : Nat} {w : RegWrite} {fs : List RegField} (hs : s0.Keeps s) :
    s0.Keeps (State.conWrite s fn off w fs) := by
  unfold State.conWrite
  repeat' with_reducible first
    | assumption
    | exact State.Keeps.refl _
    | intro _
    | lift_lets
    | apply keeps_ite
    | apply execSwitchRequest_keeps
    | apply State.guarded_keeps
    | apply State.put_keeps
    | apply Answer.state_keeps
    | split
    | fail_if_no_progress refine keeps_mk rfl rfl rfl rfl rfl rfl rfl rfl rfl rfl rfl rfl rfl rfl ?_

theorem State.pwrWrite_keeps {s0 : State} {s : State} {fn off : Nat} {w : RegWrite} {fs : List RegField} (hs : s0.Keeps s) :
    s0.Keeps (State.pwrWrite s fn off w fs) := by
  unfold State.pwrWrite
  repeat' with_reducible first
    | assumption
    | exact State.Keeps.refl _
    | intro _
    | lift_lets
    | apply keeps_ite
    | apply execClusterReset_keeps
    | apply execCoreReset_keeps
    | apply execDrainRequest_keeps
    | apply execEthernetPortReset_keeps
    | apply execMainlinePortReset_keeps
    | apply State.put_keeps
    | apply State.setFlag_keeps
    | apply State.setFld_keeps
    | apply Answer.state_keeps
    | split

theorem State.secWrite_keeps {s0 : State} {s : State} {fn off : Nat} {w : RegWrite} {fs : List RegField} (hs : s0.Keeps s) :
    s0.Keeps (State.secWrite s fn off w fs) := by
  unfold State.secWrite
  repeat' with_reducible first
    | assumption
    | exact State.Keeps.refl _
    | intro _
    | lift_lets
    | apply keeps_ite
    | apply execCommitConsist_keeps
    | apply execCommitFw_keeps
    | apply execKeyChange_keeps
    | apply execRelock_keeps
    | apply execTokenSubmit_keeps
    | apply State.put_keeps
    | apply Answer.state_keeps
    | split
    | fail_if_no_progress refine keeps_mk rfl rfl rfl rfl rfl rfl rfl rfl rfl rfl rfl rfl rfl rfl ?_

theorem State.settleCtr_keeps {s0 : State} {s : State} {n i : Nat} (hs : s0.Keeps s) :
    s0.Keeps (State.settleCtr s n i) := by
  unfold State.settleCtr
  repeat' with_reducible first
    | assumption
    | exact State.Keeps.refl _
    | intro _
    | lift_lets
    | apply keeps_ite
    | apply State.wr_keeps

theorem State.evselWrite_keeps {s0 : State} {s : State} {off n : Nat} {w : RegWrite} (hs : s0.Keeps s) :
    s0.Keeps (State.evselWrite s off n w) := by
  unfold State.evselWrite
  repeat' with_reducible first
    | assumption
    | exact State.Keeps.refl _
    | intro _
    | lift_lets
    | apply keeps_ite
    | apply State.setFlag_keeps
    | apply State.setFld_keeps
    | apply State.settleCtr_keeps
    | apply keeps_foldl

theorem State.dbgWrite_keeps {s0 : State} {s : State} {fn off : Nat} {w : RegWrite} {fs : List RegField} (hs : s0.Keeps s) :
    s0.Keeps (State.dbgWrite s fn off w fs) := by
  unfold State.dbgWrite
  repeat' with_reducible first
    | assumption
    | exact State.Keeps.refl _
    | intro _
    | lift_lets
    | apply keeps_ite
    | apply State.evselWrite_keeps
    | apply execCounterClear_keeps
    | apply execSemSnapshot_keeps
    | apply execSurveyStart_keeps
    | apply execTraceRestart_keeps
    | apply execTraceTrigger_keeps
    | apply State.guarded_keeps
    | apply State.put_keeps
    | apply Answer.state_keeps
    | apply State.wr_keeps
    | split
    | fail_if_no_progress refine keeps_mk rfl rfl rfl rfl rfl rfl rfl rfl rfl rfl rfl rfl rfl rfl ?_

theorem State.progWrite_keeps {s0 : State} {s t : State} {off : Nat} (hs : s0.Keeps s) (ht : s0.Keeps t) :
    s0.Keeps (State.progWrite s t off) := by
  unfold State.progWrite
  repeat' with_reducible first
    | assumption
    | exact State.Keeps.refl _
    | intro _
    | lift_lets
    | apply keeps_ite
    | apply State.guarded_keeps
    | apply State.poolCount_keeps
    | split
    | fail_if_no_progress refine keeps_mk rfl rfl rfl rfl rfl rfl rfl rfl rfl rfl rfl rfl rfl rfl ?_

theorem State.dspWrite_keeps {s0 : State} {s : State} {fn off : Nat} {w : RegWrite} {fs : List RegField} (hs : s0.Keeps s) :
    s0.Keeps (State.dspWrite s fn off w fs) := by
  unfold State.dspWrite
  repeat' with_reducible first
    | assumption
    | exact State.Keeps.refl _
    | intro _
    | lift_lets
    | apply keeps_ite
    | apply execHold_keeps
    | apply State.guarded_keeps
    | apply State.progWrite_keeps
    | apply State.put_keeps
    | apply Answer.state_keeps
    | split
    | fail_if_no_progress refine keeps_mk rfl rfl rfl rfl rfl rfl rfl rfl rfl rfl rfl rfl rfl rfl ?_

theorem State.queCfgWrite_keeps {s0 : State} {s : State} {fn q : Nat} {v : Word} (hs : s0.Keeps s) :
    s0.Keeps (State.queCfgWrite s fn q v) := by
  unfold State.queCfgWrite
  repeat' with_reducible first
    | assumption
    | exact State.Keeps.refl _
    | intro _
    | lift_lets
    | apply keeps_ite
    | apply execQueueDisable_keeps
    | apply execQueueEnable_keeps
    | apply State.qBusy_keeps
    | apply Answer.state_keeps
    | apply State.wr_keeps

theorem State.queWrite_keeps {s0 : State} {s : State} {fn off : Nat} {w : RegWrite} {fs : List RegField} (hs : s0.Keeps s) :
    s0.Keeps (State.queWrite s fn off w fs) := by
  unfold State.queWrite
  repeat' with_reducible first
    | assumption
    | exact State.Keeps.refl _
    | intro _
    | lift_lets
    | apply keeps_ite
    | apply execCqHead_keeps
    | apply execCqRetry_keeps
    | apply execSqFaultClear_keeps
    | apply State.put_keeps
    | apply State.qBusy_keeps
    | apply State.queCfgWrite_keeps
    | apply Answer.state_keeps
    | apply State.wr_keeps

theorem State.ctxWrite_keeps {s0 : State} {s : State} {fn off : Nat} {w : RegWrite} {fs : List RegField} (hs : s0.Keeps s) :
    s0.Keeps (State.ctxWrite s fn off w fs) := by
  unfold State.ctxWrite
  repeat' with_reducible first
    | assumption
    | exact State.Keeps.refl _
    | intro _
    | lift_lets
    | apply keeps_ite
    | apply State.ctxBusy_keeps
    | apply State.ctxCfgWrite_keeps
    | apply execCensus_keeps
    | apply execSeedWrite_keeps
    | apply State.put_keeps
    | apply Answer.state_keeps

theorem State.semWrite_keeps {s0 : State} {s : State} {fn off : Nat} {w : RegWrite} (hs : s0.Keeps s) :
    s0.Keeps (State.semWrite s fn off w) := by
  unfold State.semWrite
  repeat' with_reducible first
    | assumption
    | exact State.Keeps.refl _
    | intro _
    | lift_lets
    | apply keeps_ite
    | apply execSemForce_keeps
    | apply State.semBusy_keeps
    | apply State.semCfgWrite_keeps
    | apply Answer.state_keeps

theorem State.trnWrite_keeps {s0 : State} {s : State} {fn off : Nat} {w : RegWrite} {fs : List RegField} (hs : s0.Keeps s) :
    s0.Keeps (State.trnWrite s fn off w fs) := by
  unfold State.trnWrite
  repeat' with_reducible first
    | assumption
    | exact State.Keeps.refl _
    | intro _
    | lift_lets
    | apply keeps_ite
    | apply execModeSwitch_keeps
    | apply execTlbInvalidate_keeps
    | apply State.guarded_keeps
    | apply State.put_keeps
    | apply Answer.state_keeps

theorem State.setwayCmd_keeps {s0 : State} {s : State} {fn : Nat} {v : Word} (hs : s0.Keeps s) :
    s0.Keeps (State.setwayCmd s fn v) := by
  unfold State.setwayCmd
  repeat' with_reducible first
    | assumption
    | exact State.Keeps.refl _
    | intro _
    | lift_lets
    | apply keeps_ite
    | apply execSetwayClean_keeps
    | apply execSetwayCleanInvalidate_keeps
    | apply execSetwayInvalidate_keeps
    | apply State.setwayWrite_keeps
    | apply Answer.state_keeps
    | split
    | fail_if_no_progress refine keeps_mk rfl rfl rfl rfl rfl rfl rfl rfl rfl rfl rfl rfl rfl rfl ?_
    | refine keeps_eq2 ?_ (by assumption)
    | refine keeps_eq3 ?_ (by assumption)
    | refine keeps_eq4 ?_ (by assumption)
    | refine keeps_eqs ?_ (by assumption)
    | refine keeps_eqo ?_ (by assumption)
    | refine keeps_eqo2 ?_ (by assumption)
    | refine keeps_eqo3 ?_ (by assumption)
    | dsimp only [id]

theorem State.cchWrite_keeps {s0 : State} {s : State} {fn off : Nat} {w : RegWrite} {fs : List RegField} (hs : s0.Keeps s) :
    s0.Keeps (State.cchWrite s fn off w fs) := by
  unfold State.cchWrite
  repeat' with_reducible first
    | assumption
    | exact State.Keeps.refl _
    | intro _
    | lift_lets
    | apply keeps_ite
    | apply execMaintClean_keeps
    | apply execMaintCleanInvalidate_keeps
    | apply execMaintInvalidate_keeps
    | apply State.put_keeps
    | apply State.setFlag_keeps
    | apply Answer.state_keeps
    | split

theorem State.ptsWrite_keeps {s0 : State} {s : State} {off : Nat} {w : RegWrite} {fs : List RegField} (hs : s0.Keeps s) :
    s0.Keeps (State.ptsWrite s off w fs) := by
  unfold State.ptsWrite
  repeat' with_reducible first
    | assumption
    | exact State.Keeps.refl _
    | intro _
    | lift_lets
    | apply keeps_ite
    | apply State.adopt_keeps
    | apply State.put_keeps
    | apply State.setFlag_keeps
    | apply State.wr_keeps
    | apply State.wrLate_keeps

theorem State.tktRegWrite_keeps {s0 : State} {s : State} {fn off : Nat} {w : RegWrite} {fs : List RegField} (hs : s0.Keeps s) :
    s0.Keeps (State.tktRegWrite s fn off w fs) := by
  unfold State.tktRegWrite
  repeat' with_reducible first
    | assumption
    | exact State.Keeps.refl _
    | intro _
    | lift_lets
    | apply keeps_ite
    | apply execTktFlush_keeps
    | apply State.guarded_keeps
    | apply State.put_keeps
    | apply Answer.state_keeps

theorem State.mlnWrite_keeps {s0 : State} {s : State} {fn off : Nat} {w : RegWrite} {fs : List RegField} (hs : s0.Keeps s) :
    s0.Keeps (State.mlnWrite s fn off w fs) := by
  unfold State.mlnWrite
  repeat' with_reducible first
    | assumption
    | exact State.Keeps.refl _
    | intro _
    | lift_lets
    | apply keeps_ite
    | apply State.adopt_keeps
    | apply execPortRoleWrite_keeps
    | apply State.put_keeps
    | apply State.setFlag_keeps
    | apply Answer.state_keeps
    | apply State.wrLate_keeps

theorem State.ethWrite_keeps {s0 : State} {s : State} {fn off : Nat} {w : RegWrite} {fs : List RegField} (hs : s0.Keeps s) :
    s0.Keeps (State.ethWrite s fn off w fs) := by
  unfold State.ethWrite
  repeat' with_reducible first
    | assumption
    | exact State.Keeps.refl _
    | intro _
    | lift_lets
    | apply keeps_ite
    | apply execQpDoorbell_keeps
    | apply execQpReady_keeps
    | apply execQpReset_keeps
    | apply execRdmaHold_keeps
    | apply execRegionInvalidate_keeps
    | apply State.guarded_keeps
    | apply State.put_keeps
    | apply Answer.state_keeps
    | split

theorem State.pciWrite_keeps {s0 : State} {s : State} {fn off : Nat} {w : RegWrite} {fs : List RegField} (hs : s0.Keeps s) :
    s0.Keeps (State.pciWrite s fn off w fs) := by
  unfold State.pciWrite
  repeat' with_reducible first
    | assumption
    | exact State.Keeps.refl _
    | intro _
    | lift_lets
    | apply keeps_ite
    | apply State.guarded_keeps
    | apply State.put_keeps
    | apply State.sendPending_keeps
    | split
    | fail_if_no_progress refine keeps_mk rfl rfl rfl rfl rfl rfl rfl rfl rfl rfl rfl rfl rfl rfl ?_

theorem State.regStore_keeps {s0 : State} {s : State} {fn off : Nat} {w : RegWrite} (hs : s0.Keeps s) :
    s0.Keeps (State.regStore s fn off w) := by
  unfold State.regStore
  repeat' with_reducible first
    | assumption
    | exact State.Keeps.refl _
    | intro _
    | lift_lets
    | apply keeps_ite
    | apply State.cchWrite_keeps
    | apply State.conWrite_keeps
    | apply State.ctxWrite_keeps
    | apply State.dbgWrite_keeps
    | apply State.dspWrite_keeps
    | apply State.ethWrite_keeps
    | apply execLedgerSnapshot_keeps
    | apply State.logClear_keeps
    | apply State.mlnWrite_keeps
    | apply State.pciWrite_keeps
    | apply State.ptsWrite_keeps
    | apply State.put_keeps
    | apply State.pwrWrite_keeps
    | apply State.queWrite_keeps
    | apply State.secWrite_keeps
    | apply State.semWrite_keeps
    | apply State.setFlag_keeps
    | apply Answer.state_keeps
    | apply State.tktRegWrite_keeps
    | apply State.trnWrite_keeps
    | split

theorem State.mxLatch_keeps {s0 : State} {s : State} {off : Nat} (hs : s0.Keeps s) :
    s0.Keeps (State.mxLatch s off) := by
  unfold State.mxLatch
  repeat' with_reducible first
    | assumption
    | exact State.Keeps.refl _
    | intro _
    | lift_lets
    | apply keeps_ite
    | apply State.updCore_keeps

theorem State.regTake_keeps {s0 : State} {s : State} {fn off : Nat} {mask : Word} (hs : s0.Keeps s) :
    s0.Keeps (State.regTake s fn off mask).2 := by
  unfold State.regTake
  repeat' with_reducible first
    | assumption
    | exact State.Keeps.refl _
    | intro _
    | lift_lets
    | apply keeps_ite
    | apply State.mxLatch_keeps
    | apply State.setFlag_keeps
    | apply State.takeNonce_keeps
    | apply State.wr_keeps
    | split

theorem State.debugRead_keeps {s0 : State} {s : State} {mask : Word} (hs : s0.Keeps s) :
    s0.Keeps (State.debugRead s mask).2 := by
  unfold State.debugRead
  repeat' with_reducible first
    | assumption
    | exact State.Keeps.refl _
    | intro _
    | lift_lets
    | apply keeps_ite
    | apply State.memRead_keeps
    | apply State.regTake_keeps
    | apply State.setFlag_keeps
    | split
    | refine keeps_eq2 ?_ (by assumption)
    | refine keeps_eq3 ?_ (by assumption)

theorem State.debugWrite_keeps {s0 : State} {s : State} {w : RegWrite} (hs : s0.Keeps s) :
    s0.Keeps (State.debugWrite s w) := by
  unfold State.debugWrite
  repeat' with_reducible first
    | assumption
    | exact State.Keeps.refl _
    | intro _
    | lift_lets
    | apply keeps_ite
    | apply State.memWrite_keeps
    | apply State.mmio_keeps
    | apply State.regStore_keeps
    | apply State.setFlag_keeps

theorem State.readBar_keeps {s0 : State} {s : State} {fn off size : Nat} (hs : s0.Keeps s) :
    s0.Keeps (State.readBar s fn off size) := by
  unfold State.readBar
  repeat' with_reducible first
    | assumption
    | exact State.Keeps.refl _
    | intro _
    | lift_lets
    | apply keeps_ite
    | apply State.aerLog_keeps
    | apply State.debugRead_keeps
    | apply State.denied_keeps
    | apply State.emit_keeps
    | apply State.regTake_keeps
    | split

theorem State.writeBar_keeps {s0 : State} {s : State} {fn off size : Nat} {v : Word} (hs : s0.Keeps s) :
    s0.Keeps (State.writeBar s fn off size v) := by
  unfold State.writeBar
  repeat' with_reducible first
    | assumption
    | exact State.Keeps.refl _
    | intro _
    | lift_lets
    | apply keeps_ite
    | apply State.debugWrite_keeps
    | apply State.emit_keeps
    | apply State.mmio_keeps
    | apply State.regStore_keeps
    | apply State.setwayCmd_keeps
    | apply State.setwayWrite_keeps
    | split
    | refine keeps_eq2 ?_ (by assumption)
    | refine keeps_eq3 ?_ (by assumption)
    | refine keeps_eq4 ?_ (by assumption)
    | refine keeps_eqs ?_ (by assumption)
    | refine keeps_eqo ?_ (by assumption)
    | refine keeps_eqo2 ?_ (by assumption)
    | refine keeps_eqo3 ?_ (by assumption)
    | dsimp only [id]

theorem execRegisterWrite_keeps {s0 : State} {fn off size : Nat} {v : Word} {s : State} (hs : s0.Keeps s) :
    s0.AnsKeeps (execRegisterWrite fn off size v s) := by
  unfold execRegisterWrite
  repeat' with_reducible first
    | assumption
    | exact State.Keeps.refl _
    | intro _
    | lift_lets
    | apply keeps_ite
    | apply State.writeBar_keeps
    | apply State.AnsKeeps.next

theorem execRcCounterRead_keeps {s0 : State} {fn off size : Nat} {s : State} (hs : s0.Keeps s) :
    s0.AnsKeeps (execRcCounterRead fn off size s) := by
  unfold execRcCounterRead
  repeat' with_reducible first
    | assumption
    | exact State.Keeps.refl _
    | intro _
    | lift_lets
    | apply keeps_ite
    | apply State.readBar_keeps
    | apply State.AnsKeeps.next

theorem execMxCounterLatch_keeps {s0 : State} {fn c size : Nat} {s : State} (hs : s0.Keeps s) :
    s0.AnsKeeps (execMxCounterLatch fn c size s) := by
  unfold execMxCounterLatch
  repeat' with_reducible first
    | assumption
    | exact State.Keeps.refl _
    | intro _
    | lift_lets
    | apply keeps_ite
    | apply State.readBar_keeps
    | apply State.AnsKeeps.next

theorem execDebugMemoryRead_keeps {s0 : State} {fn size : Nat} {s : State} (hs : s0.Keeps s) :
    s0.AnsKeeps (execDebugMemoryRead fn size s) := by
  unfold execDebugMemoryRead
  repeat' with_reducible first
    | assumption
    | exact State.Keeps.refl _
    | intro _
    | lift_lets
    | apply keeps_ite
    | apply State.readBar_keeps
    | apply State.AnsKeeps.next

theorem execDebugMemoryWrite_keeps {s0 : State} {fn size : Nat} {v : Word} {s : State} (hs : s0.Keeps s) :
    s0.AnsKeeps (execDebugMemoryWrite fn size v s) := by
  unfold execDebugMemoryWrite
  repeat' with_reducible first
    | assumption
    | exact State.Keeps.refl _
    | intro _
    | lift_lets
    | apply keeps_ite
    | apply State.writeBar_keeps
    | apply State.AnsKeeps.next

/-! ### Machine/Tick.lean -/

theorem State.chargeCore_keeps {s0 : State} {s : State} {k : Core} (hs : s0.Keeps s) :
    s0.Keeps (State.chargeCore s k) := by
  unfold State.chargeCore
  repeat' with_reducible first
    | assumption
    | exact State.Keeps.refl _
    | intro _
    | lift_lets
    | apply keeps_ite
    | apply State.setCmd_keeps
    | apply State.setVtime_keeps
    | apply State.wr_keeps
    | apply keeps_foldl
    | apply keeps_foldl2
    | apply keeps_foldl3
    | apply keeps_foldl4
    | split
    | fail_if_no_progress refine keeps_mk rfl rfl rfl rfl rfl rfl rfl rfl rfl rfl rfl rfl rfl rfl ?_
    | refine keeps_eq2 ?_ (by assumption)
    | refine keeps_eq3 ?_ (by assumption)
    | refine keeps_eq4 ?_ (by assumption)
    | refine keeps_eqs ?_ (by assumption)
    | refine keeps_eqo ?_ (by assumption)
    | refine keeps_eqo2 ?_ (by assumption)
    | refine keeps_eqo3 ?_ (by assumption)
    | dsimp only [id]
    | dsimp +zetaDelta only

theorem State.chargeHeld_keeps {s0 : State} {s : State} (hs : s0.Keeps s) :
    s0.Keeps (State.chargeHeld s) := by
  unfold State.chargeHeld
  repeat' with_reducible first
    | assumption
    | exact State.Keeps.refl _
    | intro _
    | lift_lets
    | apply keeps_ite
    | apply State.setCmd_keeps
    | apply keeps_foldl

theorem State.arrayTick_keeps {s0 : State} {s : State} {c : Nat} {k : Core} (hs : s0.Keeps s) :
    s0.Keeps (State.arrayTick s c k) := by
  unfold State.arrayTick
  repeat' with_reducible first
    | assumption
    | exact State.Keeps.refl _
    | intro _
    | lift_lets
    | apply keeps_ite
    | apply State.count_keeps
    | apply State.countSat_keeps
    | apply State.updCore_keeps
    | split
    | fail_if_no_progress refine keeps_mk rfl rfl rfl rfl rfl rfl rfl rfl rfl rfl rfl rfl rfl rfl ?_
    | refine keeps_eq2 ?_ (by assumption)
    | refine keeps_eq3 ?_ (by assumption)
    | refine keeps_eq4 ?_ (by assumption)
    | refine keeps_eqs ?_ (by assumption)
    | refine keeps_eqo ?_ (by assumption)
    | refine keeps_eqo2 ?_ (by assumption)
    | refine keeps_eqo3 ?_ (by assumption)
    | dsimp only [id]
    | dsimp +zetaDelta only

theorem State.skipIdle_keeps {s0 : State} {s : State} (hs : s0.Keeps s) :
    s0.Keeps (State.skipIdle s) := by
  unfold State.skipIdle
  repeat' with_reducible first
    | assumption
    | exact State.Keeps.refl _
    | intro _
    | lift_lets
    | apply keeps_ite
    | apply keeps_foldl
    | apply keeps_foldl2
    | apply keeps_foldl3
    | apply keeps_foldl4
    | split
    | fail_if_no_progress refine keeps_mk rfl rfl rfl rfl rfl rfl rfl rfl rfl rfl rfl rfl rfl rfl ?_

theorem State.levelsOfCore_keeps {s0 : State} {s : State} {c : Nat} (hs : s0.Keeps s) :
    s0.Keeps (State.levelsOfCore s c) := by
  unfold State.levelsOfCore
  repeat' with_reducible first
    | assumption
    | exact State.Keeps.refl _
    | intro _
    | lift_lets
    | apply keeps_ite
    | apply State.hit_keeps
    | apply keeps_foldl

theorem State.countLevels_keeps {s0 : State} {s : State} (hs : s0.Keeps s) :
    s0.Keeps (State.countLevels s) := by
  unfold State.countLevels
  repeat' with_reducible first
    | assumption
    | exact State.Keeps.refl _
    | intro _
    | lift_lets
    | apply keeps_ite
    | apply State.hit_keeps
    | apply State.levelsOfCore_keeps
    | apply keeps_foldl

theorem State.serviceTick_keeps {s0 : State} {s : State} (hs : s0.Keeps s) :
    s0.Keeps (State.serviceTick s) := by
  unfold State.serviceTick
  repeat' with_reducible first
    | assumption
    | exact State.Keeps.refl _
    | intro _
    | lift_lets
    | apply keeps_ite
    | apply State.arrayTick_keeps
    | apply State.chargeCore_keeps
    | apply State.chargeHeld_keeps
    | apply State.countLevels_keeps
    | apply State.markQuiet_keeps
    | apply State.skipIdle_keeps
    | apply State.wr_keeps
    | apply keeps_foldl

theorem State.tick_keeps {s0 : State} {s : State} (hs : s0.Keeps s) :
    s0.Keeps (State.tick s) := by
  unfold State.tick
  repeat' with_reducible first
    | assumption
    | exact State.Keeps.refl _
    | intro _
    | lift_lets
    | apply keeps_ite
    | apply State.serviceTick_keeps
    | split
    | fail_if_no_progress refine keeps_mk rfl rfl rfl rfl rfl rfl rfl rfl rfl rfl rfl rfl rfl rfl ?_

end Sys2Proof.Machine
end

