-- ==== Sys2Proof/WellFormed.lean ====
section
/-! DEFINITION. Which commands are ones that can reach the part: accesses inside their BAR, requests and messages whose fields fit the
widths that the spec gives them. The type of an operand already says so for numbered units. -/

namespace Sys2Proof

/-- An access of BAR0 (R5, R481): `size` bytes of one request, inside 32 MiB. -/
def barAccess (off size : Nat) : Bool := decide (0 < size) && decide (size ≤ 4096) && decide (off + size ≤ 0x2000000)

/-- A doorbell write (R485): of one request, inside its page. -/
def doorbellSize (size : Nat) : Bool := decide (0 < size) && decide (size ≤ 4096)

/-- A Mainline message whose fields fit the header of R460. -/
def Machine.Msg.wf (m : Machine.Msg) : Bool :=
  decide (m.typ < 256) && decide (m.cls < 4) && decide (m.src < 256) && decide (m.dst < 256) && decide (m.seq < 65536) &&
    decide (m.flow < 65536) && decide (m.addr < 2 ^ 64) && decide (m.len < 65536) && decide (m.tenant < 256) &&
    decide (m.status < 256) && decide (m.tag < 2 ^ 32)

/-- A RoCE request whose fields fit (R502). -/
def Machine.Inbound.wf (m : Machine.Inbound) : Bool := decide (m.psn < 2 ^ 24) && decide (m.len < 2 ^ 32)

/-- What the host answers: words at aligned bus addresses (R491). -/
def Machine.HostData.wf (h : Machine.HostData) : Bool := h.words.all (fun w => decide (w.1 < 2 ^ 64) && decide (w.1 % 8 = 0))

/-- The physical errors that a maintenance window reports lie in the stacks (R298, R546). -/
def Machine.MaintWork.wf (w : Machine.MaintWork) : Bool := w.scrub.all (fun e => decide (32 * e.1 < 0x4800000000))

/-- A wear sample covers the 16 clusters, the 88 lanes and the three dies (R604). -/
def Machine.WearReading.wf (w : Machine.WearReading) : Bool :=
  decide (w.drift.length = 16) && decide (w.eye.length = 88) && decide (w.tj.length = 3)

/-- What a module holds when it leaves the factory fits its flash and fuses (R11, R576). -/
def Machine.Factory.wf (f : Machine.Factory) : Bool :=
  decide (f.ownerHash.length ≤ 8) && f.ownerHash.all (fun h => decide (h < 2 ^ 384)) && f.ownerKeys.all (fun k => decide (k < 2 ^ 768))

/-- Can the command reach the part? -/
def Instr.wf : Instr → Bool
  | .registerWrite _ off size _ => barAccess off size
  | .rcCounterRead _ off size => barAccess off size
  | .mxCounterLatch _ _ size => size = 4 || size = 8
  | .debugMemoryRead _ size => size = 4 || size = 8
  | .debugMemoryWrite _ size _ => size = 4 || size = 8
  | .standbyPowerOn f _ => f.wf
  | .numvfsWrite num => decide (num < 65536)
  | .pageWalk _ _ _ va _ h => decide (va < 2 ^ 48) && h.wf
  | .sqTail _ _ size _ => doorbellSize size
  | .cqHead _ _ size reg _ => doorbellSize size && (!reg || size = 4 || size = 8)
  | .configRequest _ (.read off) => decide (off < 4096) && off % 4 = 0
  | .hostWindowWrite off data => decide (0 < data.length) && decide (off + data.length ≤ 0x4000000)
  | .hostWindowRead off len => decide (0 < len) && decide (off + len ≤ 0x4000000)
  | .rdmaAck _ psn => decide (psn < 2 ^ 24)
  | .inboundWrite m | .inboundWriteImm m | .inboundRead m | .inboundSend m => m.wf
  | .messageForward m | .writeReceive m | .readReceive m | .readRsp m | .remoteSignalReceive m | .mlnAck m | .linkDown m
  | .linkUp m | .peerDown m | .flowLate m | .flowDown m | .mlnEpoch m | .pairReset m => m.wf
  | .controlWindow heard => heard.all (fun h => decide (h.hops < 32))
  | .replayRequest _ _ delayed => delayed.all (fun d => decide (d < 4096))
  | .getCertificate _ off len => decide (off < 65536) && decide (len < 65536)
  | .maintWindowOpen _ w | .maintOverrun _ _ _ w => w.wf
  | .wearSample r => r.wf
  | .copyEntry _ h | .patch _ h | .create _ h | .copyDone _ h => h.wf
  | .tcopySlotComplete _ _ h | .tcopySlotFault _ _ h _ => h.wf
  | .launchStart _ h | .dispLoadt _ h | .dispLaunch _ h | .dispLaunchPlat _ h | .dispatchCopy _ h | .dispTbatch _ h
  | .dispTexit _ h | .dispTadvance _ h | .dumpDone _ h => h.wf
  | .producerPoll _ h | .send _ h | .sendImm _ h | .rdmaWrite _ h | .writeImm _ h | .rdmaRead _ h | .ackTimeout _ h
  | .rnrNakReceive _ h | .rawFrameReceive _ _ h | .censusDone _ h => h.wf
  | _ => true

end Sys2Proof
end

