-- ==== Sys2Proof/Tests/Slice0.lean ====
section
/-! SUPPORT. Tests: ill-formed commands that the check refuses, one state and operands for each statement that has hypotheses (with the
boundary values of its ranges), and single steps on small states. -/

open Sys2Proof Sys2Proof.Machine

namespace Sys2Proof.Tests

-- one theorem at a time: each of them waits for the kernel, and waiting threads take memory
set_option Elab.async false

/-! ### WellFormed: an ill-formed term for each check, refused -/

/-- A Mainline message that is well-formed; the tests below spoil one field each. -/
def msg : Msg := ⟨1, 2, false, false, 1, 0, 0, 0, 0, 16, 0, 0, 0, 0, []⟩

/-- An inbound RDMA request that is well-formed. -/
def inb : Inbound := ⟨0, 5, 0, true, false, 0, 0, 0, none, []⟩

/-- No answer of the host. -/
def noHost : HostData := ⟨[], .ok⟩

/-- A host answer at a misaligned bus address. -/
def badHost : HostData := ⟨[(4, 0)], .ok⟩

theorem test_wf_bar_access : (Instr.registerWrite 0 0 0 0).wf = false ∧ (Instr.registerWrite 0 0 4097 0).wf = false ∧
    (Instr.rcCounterRead 0 0x1FFFFFC 8).wf = false ∧ (Instr.rcCounterRead 0 0x1FFFFF8 8).wf = true := by decide
theorem test_wf_latch_size : (Instr.mxCounterLatch 0 0 2).wf = false ∧ (Instr.mxCounterLatch 0 0 8).wf = true := by decide
theorem test_wf_debug_size : (Instr.debugMemoryRead 0 16).wf = false ∧ (Instr.debugMemoryWrite 0 1 0).wf = false ∧
    (Instr.debugMemoryRead 0 4).wf = true := by decide
theorem test_wf_factory : (Instr.standbyPowerOn ⟨[], 0, 0, List.replicate 9 0, 0, 0, 0, []⟩ 0).wf = false ∧
    (Instr.standbyPowerOn ⟨[], 0, 0, [2 ^ 384], 0, 0, 0, []⟩ 0).wf = false ∧
    (Instr.standbyPowerOn ⟨[], 0, 0, [], 0, 0, 0, [2 ^ 768]⟩ 0).wf = false ∧
    (Instr.standbyPowerOn ⟨[], 0, 0, List.replicate 8 0, 0, 0, 64, [2 ^ 768 - 1]⟩ 3).wf = true := by decide +kernel
theorem test_wf_numvfs : (Instr.numvfsWrite 65536).wf = false ∧ (Instr.numvfsWrite 65535).wf = true := by decide
theorem test_wf_page_walk : (Instr.pageWalk .hub 0 0 (2 ^ 48) .r noHost).wf = false ∧
    (Instr.pageWalk .hub 0 0 0 .r badHost).wf = false ∧ (Instr.pageWalk .hub 7 4095 (2 ^ 48 - 1) .x noHost).wf = true := by decide +kernel
theorem test_wf_doorbells : (Instr.sqTail 0 0 0 0).wf = false ∧ (Instr.cqHead 0 0 4097 false 0).wf = false ∧
    (Instr.cqHead 0 0 2 true 0).wf = false ∧ (Instr.cqHead 0 0 2 false 0).wf = true := by decide
theorem test_wf_config_request : (Instr.configRequest 0 (.read 4096)).wf = false ∧ (Instr.configRequest 0 (.read 2)).wf = false ∧
    (Instr.configRequest 0 (.read 4092)).wf = true := by decide
theorem test_wf_host_window : (Instr.hostWindowWrite 0 []).wf = false ∧ (Instr.hostWindowWrite 0x3FFFFFF [none, none]).wf = false ∧
    (Instr.hostWindowRead 0 0).wf = false ∧ (Instr.hostWindowRead 0x3FFFFFF 2).wf = false ∧
    (Instr.hostWindowRead 0x3FFFFFF 1).wf = true := by decide
theorem test_wf_rdma_ack : (Instr.rdmaAck 0 (2 ^ 24)).wf = false ∧ (Instr.rdmaAck 0 (2 ^ 24 - 1)).wf = true := by decide +kernel
theorem test_wf_inbound : (Instr.inboundWrite { inb with psn := 2 ^ 24 }).wf = false ∧
    (Instr.inboundRead { inb with len := 2 ^ 32 }).wf = false ∧ (Instr.inboundSend inb).wf = true := by decide +kernel
theorem test_wf_message : (Instr.writeReceive { msg with typ := 256 }).wf = false ∧ (Instr.readReceive { msg with cls := 4 }).wf = false ∧
    (Instr.mlnAck { msg with src := 256 }).wf = false ∧ (Instr.linkDown { msg with dst := 256 }).wf = false ∧
    (Instr.linkUp { msg with seq := 65536 }).wf = false ∧ (Instr.peerDown { msg with flow := 65536 }).wf = false ∧
    (Instr.flowLate { msg with addr := 2 ^ 64 }).wf = false ∧ (Instr.flowDown { msg with len := 65536 }).wf = false ∧
    (Instr.mlnEpoch { msg with tenant := 256 }).wf = false ∧ (Instr.pairReset { msg with status := 256 }).wf = false ∧
    (Instr.messageForward { msg with tag := 2 ^ 32 }).wf = false ∧ (Instr.readRsp msg).wf = true := by decide +kernel
theorem test_wf_control_window : (Instr.controlWindow [⟨0, 32, 0, []⟩]).wf = false ∧ (Instr.controlWindow [⟨0, 31, 0, []⟩]).wf = true := by
  decide
theorem test_wf_replay : (Instr.replayRequest 0 false [4096]).wf = false ∧ (Instr.replayRequest 0 false [4095]).wf = true := by decide
theorem test_wf_get_certificate : (Instr.getCertificate .doe 65536 0).wf = false ∧ (Instr.getCertificate .doe 0 65536).wf = false ∧
    (Instr.getCertificate .doe 65535 65535).wf = true := by decide
theorem test_wf_maintenance : (Instr.maintWindowOpen 0 ⟨none, none, [(0x240000000, .lost)], 0⟩).wf = false ∧
    (Instr.maintOverrun 0 0 0 ⟨none, none, [(0x23FFFFFFF, .corrected)], 0⟩).wf = true := by decide +kernel
theorem test_wf_wear : (Instr.wearSample ⟨[], List.replicate 88 none, [0, 0, 0]⟩).wf = false ∧
    (Instr.wearSample ⟨List.replicate 16 0, [], [0, 0, 0]⟩).wf = false ∧
    (Instr.wearSample ⟨List.replicate 16 0, List.replicate 88 none, []⟩).wf = false ∧
    (Instr.wearSample ⟨List.replicate 16 0, List.replicate 88 none, [0, 0, 0]⟩).wf = true := by decide +kernel
theorem test_wf_host_data : (Instr.copyEntry 0 badHost).wf = false ∧ (Instr.tcopySlotComplete 0 0 badHost).wf = false ∧
    (Instr.launchStart 0 badHost).wf = false ∧ (Instr.dispLoadt 0 badHost).wf = false ∧ (Instr.send 0 badHost).wf = false ∧
    (Instr.censusDone 0 badHost).wf = false ∧ (Instr.censusDone 0 noHost).wf = true := by decide +kernel

/-- The table gives no row bits: no word spells a command, and the queue stays as it is. -/
theorem test_decode_none : decodeTableWord 0 0 = none ∧ (State.reset.withFetchWord 32 5).pending = [] := by decide

/-! ### Small states -/

/-- The tables of a state are in canonical form, as a check. -/
def canonB (s : State) : Bool :=
  s.mem.dram.wf && SMap.wf resetOf s.regs && SMap.wf (fun _ => Core.empty) s.cores && SMap.wf (fun _ => none) s.dsp.launches &&
    SMap.wf (fun _ => none) s.dsp.cmds && SMap.wf (fun _ => none) s.dsp.threads && SMap.wf (fun _ => PtsUnit.empty) s.pts.units &&
    SMap.wf (fun _ => none) s.eth.qps

/-- The check says what the canonical form says. -/
theorem canon_of {s : State} (h : canonB s = true) : s.Canon := by
  simp only [canonB, Bool.and_eq_true, Mem.wf, SMap.wf_iff] at h
  obtain ⟨⟨⟨⟨⟨⟨⟨a, b⟩, c⟩, d⟩, e⟩, f⟩, g⟩, i⟩ := h
  exact ⟨a, b, c, d, e, f, g, i⟩

/-- A function's access to a register is served (R70, R482), as the kernel decides it. -/
abbrev serves (s : State) (fn off : Nat) (write : Bool) : Prop := s.reach fn off write = .acts ∧ s.mgtCut off = false

theorem serves_of {s : State} {fn off : Nat} {write : Bool} (h : serves s fn off write) : s.Serves fn off write := ⟨h.1, h.2⟩

/-- A module that runs: power, main input, PERST# high, consist RUNNING. -/
def rig : State :=
  { State.reset.setFld R.conStatus 3 0 2 with boot := { State.reset.boot with power := true, main := true, perst := false } }

/-- A block of launch 1 in context 1 with all of a 64 KiB allocation. -/
def blk : Block := ⟨1, 1, 0, 0, 0x10000, 1, 32, [], [], 0, 0, none, false, false, 0, 0⟩

/-- A group of barrier set 0 with 32 registers and lanes 0 and 1, at address 0. -/
def grp : Group := ⟨0, 0, 32, .ready, 0, false, 3, 0, [], [], [], 0, 0, false, false, none, none, 0, 0⟩

/-- A core of one group in slot 63 whose first instruction-cache line begins with the words. -/
def oneCore (g : Group) (l : List Word) : Core := {
  Core.empty with
    ctx := some 1, launches := [1], groups := [(63, some g)], blocks := [(0, some blk)],
    icache := [(0, some (l.flatMap (fun w => leBytes 8 w.toNat)))] }

/-- Context 1 of tenant 0 active with weight 1, its segment 0 granting everything on the first 4 GiB, mapped one to one in the core's TLB. -/
def mapped (k : Core) : State :=
  let s := { rig with cores := [(191, { k with tlb := [⟨1, 0, 2 ^ 32, 0, 0⟩] })] }
  ((s.wr (R.ctxCfg 1) 0x4000000000000001).wr (R.ctxSegCfg 1 0) (0xF8000000000#64 ||| 0x100000#64))

/-- Core 191 alone, as given. -/
def onCore (k : Core) : State := { rig with cores := [(191, k)] }

/-- A thread instruction: major opcode, predicate 7, DEST, SRCA, SRCB, and bits 28:0. -/
def ins (major dest a b low : Nat) : Word :=
  BitVec.ofNat 64 (major * 2 ^ 57 + 7 * 2 ^ 54 + dest * 2 ^ 45 + a * 2 ^ 37 + b * 2 ^ 29 + low)

/-- What every statement about a thread instruction asks of its state. -/
def Runs (s : State) (g : Group) (w : Word) : Prop := s.Canon ∧ s.Issuable 191 63 g w

theorem issues_of {s : State} {g : Group} {w : Word} (h : canonB s = true ∧ (s.core 191).group 63 = some g ∧ (s.core 191).canIssue g = true ∧
    (s.core 191).word g.pc = some w ∧ (s.core 191).turnOf s.now 63 g = true ∧ (s.core 191).acquiring 63 = false) : Runs s g w :=
  ⟨canon_of h.1, h.2.1, h.2.2.1, h.2.2.2.1, h.2.2.2.2.1, fun _ => h.2.2.2.2.2⟩

/-- The words of the register instructions' witness: major opcode, legal word, decoder. -/
def regWords : List (Nat × Word × (Group → Word → Option RegEffect)) :=
  [(0x01, ins 0x01 31 30 29 0, decIalu), (0x02, ins 0x02 31 30 0 0, decIaluI), (0x03, ins 0x03 31 30 29 0, decImul),
   (0x04, ins 0x04 31 30 0 0, decImulI), (0x05, ins 0x05 6 30 29 0, decIcmp), (0x06, ins 0x06 6 30 0 0, decIcmpI),
   (0x07, ins 0x07 6 5 4 0, decPlop), (0x08, ins 0x08 31 30 29 0x100, fun g w => decFp g w falufmt),
   (0x09, ins 0x09 31 30 0 0x4000000, decFaluI), (0x0A, ins 0x0A 31 30 29 0x180, fun g w => decFp g w halufmt),
   (0x0B, ins 0x0B 6 30 29 0x100, decFcmp), (0x0C, ins 0x0C 31 30 0 0x100, decSfu), (0x0E, ins 0x0E 31 30 29 0, decXlane)]


theorem test_witness_RegisterInstructionsRun : (regWords.all (fun x => let s := onCore (oneCore grp [x.2.1])
    canonB s && decide ((s.core 191).group 63 = some grp) && (s.core 191).canIssue grp && decide ((s.core 191).word grp.pc = some x.2.1) &&
      (s.core 191).turnOf s.now 63 grp && !(s.core 191).acquiring 63 && isMajor x.1 x.2.1 && (x.2.2 grp x.2.1).any (fun e => (s.core 191).blocked 63 e.regs = 0))) = true := by decide +kernel

/-- ADD v31, v30, v29 and the ninth of the listed operations, SHR. -/
theorem test_witness_IntegerResults : ∀ minor ∈ [0, 0x0A], let w := ins 0x01 31 30 29 (minor * 1024)
    Runs (onCore (oneCore grp [w])) grp w ∧ isMajor 0x01 w = true ∧
    fmtA w = ⟨false, false, false, false, minor, 0, 0, false, false, false, false, false⟩ ∧ (iFields w).srcC = 0 ∧ (iFields w).dest < grp.decl ∧
    (iFields w).srcA < grp.decl ∧ (iFields w).srcB < grp.decl ∧
    ((onCore (oneCore grp [w])).core 191).blocked 63 [(iFields w).dest, (iFields w).srcA, (iFields w).srcB] = 0 := by
  intro minor h
  simp only [List.mem_cons, List.not_mem_nil, or_false] at h
  rcases h with rfl | rfl <;> exact ⟨issues_of (by decide +kernel), by decide +kernel⟩

/-- The state of one group whose instruction is `w` and whose next word is `w2`. -/
def one (w : Word) (w2 : Word := 0) : State := onCore (oneCore grp [w, w2])

/-- The core of that state. -/
def core1 (w : Word) (w2 : Word := 0) : Core := (one w w2).core 191

/-- A witness for a clause about the instruction `w` of the group of `one`. -/
def Wit (w : Word) (p : Word → Prop) : Prop := Runs (one w) grp w ∧ p w

theorem wit_of {w : Word} {p : Word → Prop} (h : canonB (one w) = true ∧ ((one w).core 191).group 63 = some grp ∧
    ((one w).core 191).canIssue grp = true ∧ ((one w).core 191).word grp.pc = some w ∧
    ((one w).core 191).turnOf (one w).now 63 grp = true ∧ ((one w).core 191).acquiring 63 = false) (hp : p w) : Wit w p := ⟨issues_of h, hp⟩

theorem test_witness_ThreadControlFlow :
    Wit (ins 0x00 0 0 0 0) (fun w => fld w 63 57 = 0x00 ∧ fld w 52 0 = 0) ∧
    Wit (ins 0x30 0 0 0 0x1FFFFF) (fun w => fld w 63 57 = 0x30 ∧ fld w 28 21 = 0 ∧ (iFields w).dest = 0 ∧ (iFields w).srcA = 0 ∧ (iFields w).srcB = 0) ∧
    Wit (ins 0x30 0 0 0 0x2FFFFF) (fun w => fld w 63 57 = 0x30 ∧ fld w 28 21 = 1 ∧ (iFields w).dest = 0 ∧ (iFields w).srcA = 0 ∧ (iFields w).srcB = 0) ∧
    Wit (ins 0x30 0 63 0 0x400000) (fun w => fld w 63 57 = 0x30 ∧ fld w 28 21 = 2 ∧ (iFields w).dest = 0 ∧ (iFields w).srcA < 64 ∧ (iFields w).srcB = 0 ∧
      (iFields w).pred = 7 ∧ (core1 w).blocked 63 [256 + (iFields w).srcA] = 0) ∧
    Wit (ins 0x31 62 0 0 1) (fun w => fld w 63 57 = 0x31 ∧ fld w 28 21 = 0 ∧ (iFields w).srcA = 0 ∧ (iFields w).srcB = 0 ∧ (iFields w).dest < 64 ∧
      (iFields w).dest % 2 = 0 ∧ (core1 w).blocked 63 [256 + (iFields w).dest, 257 + (iFields w).dest] = 0) ∧
    Wit (ins 0x32 0 62 0 0) (fun w => fld w 63 57 = 0x32 ∧ fld w 28 0 = 0 ∧ (iFields w).dest = 0 ∧ (iFields w).srcB = 0 ∧ (iFields w).srcA < 64 ∧
      (iFields w).srcA % 2 = 0 ∧ (core1 w).blocked 63 [256 + (iFields w).srcA, 257 + (iFields w).srcA] = 0 ∧
      (grp.getU (iFields w).srcA + 2 ^ 32 * grp.getU ((iFields w).srcA + 1)) % 8 = 0) ∧
    Wit (ins 0x0F 31 0 0 0) (fun w => fld w 63 57 = 0x0F ∧ sregOk grp w = true ∧ (fmtA w).minor = 0 ∧ (core1 w).blocked 63 [(iFields w).dest] = 0) := by
  refine ⟨?_, ?_, ?_, ?_, ?_, ?_, ?_⟩ <;> exact wit_of (by decide +kernel) (by decide +kernel)

/-- CVT to FP32 of FP32, LDS and STS of 4 bytes at address 0x0 (aligned and inside), ATOMS ADD of one word. -/
theorem test_witness_ScratchpadInstructions :
    Wit (ins 0x0D 31 30 0 0) (fun w => fld w 63 57 = 0x0D ∧ cvtOk grp w = true ∧
      (core1 w).blocked 63 ((opd (cvtFields w).ud (iFields w).dest 1).regs ++ (opd (cvtFields w).ua (iFields w).srcA 1).regs) = 0) ∧
    Wit (ins 0x20 31 30 0 0x8000000) (fun w => let f := iFields w
      let m := fmtM w
      let k := core1 w
      let size := sizeBytes m.size
      fld w 63 57 = 0x20 ∧ lsOk grp f m true true = true ∧ k.blocked 63 ((opd m.ud f.dest (sizeRegs size)).regs ++ (opd m.ua f.srcA 1).regs) = 0 ∧
      k.drainHolds 63 (actLanes (execMask grp f) m.ud) (fun l => (k.alloc grp).1 + scratchAddr grp f m l) size = false ∧
      ∀ l ∈ actLanes (execMask grp f) m.ud, (scratchAddr grp f m l % size = 0 ∧ scratchAddr grp f m l + size ≤ (k.alloc grp).2) ∧
        k.scratchBad ((k.alloc grp).1 + scratchAddr grp f m l) size = false) ∧
    Wit (ins 0x21 0 30 31 0x8000000) (fun w => let f := iFields w
      let m := fmtM w
      let k := core1 w
      let size := sizeBytes m.size
      fld w 63 57 = 0x21 ∧ lsOk grp f m false true = true ∧ k.blocked 63 ((opd m.ud f.srcB (sizeRegs size)).regs ++ (opd m.ua f.srcA 1).regs) = 0 ∧
      ∀ l ∈ lanesOf (execMask grp f), scratchAddr grp f m l % size = 0 ∧ scratchAddr grp f m l + size ≤ (k.alloc grp).2) ∧
    Wit (ins 0x24 31 30 29 0) (fun w => let f := iFields w
      let m := fmtM w
      let k := core1 w
      let n := if m.wide then 2 else 1
      fld w 63 57 = 0x24 ∧ atomOk grp f m true = true ∧
      k.blocked 63 ((opd m.ud f.dest n).regs ++ (opd m.ud f.srcB n).regs ++ (opd m.ua f.srcA 1).regs) = 0 ∧
      k.drainHolds 63 (actLanes (execMask grp f) m.ud) (fun l => (k.alloc grp).1 + scratchAddr grp f m l) (4 * n) = false ∧
      ∀ l ∈ actLanes (execMask grp f) m.ud, (scratchAddr grp f m l % (4 * n) = 0 ∧ scratchAddr grp f m l + 4 * n ≤ (k.alloc grp).2) ∧
        k.scratchBad ((k.alloc grp).1 + scratchAddr grp f m l) (4 * n) = false) := by
  refine ⟨?_, ?_, ?_, ?_⟩ <;> exact wit_of (by decide +kernel) (by decide +kernel)

/-- The state of `one` with context 1 mapped one to one. -/
def oneM (w : Word) : State := mapped (oneCore grp [w])

/-- A witness for a clause about an instruction of the mapped group. -/
def WitM (w : Word) (p : Word → Prop) : Prop := Runs (oneM w) grp w ∧ p w

theorem witM_of {w : Word} {p : Word → Prop} (h : canonB (oneM w) = true ∧ ((oneM w).core 191).group 63 = some grp ∧
    ((oneM w).core 191).canIssue grp = true ∧ ((oneM w).core 191).word grp.pc = some w ∧
    ((oneM w).core 191).turnOf (oneM w).now 63 grp = true ∧ ((oneM w).core 191).acquiring 63 = false) (hp : p w) : WitM w p := ⟨issues_of h, hp⟩

/-- LDG, STG and ATOMG of 4 bytes at address 0 of a mapped page. -/
theorem test_witness_DeviceMemoryInstructions :
    WitM (ins 0x22 28 30 0 0x8000000) (fun w => let s := oneM w
      let k := s.core 191
      let f := iFields w
      let m := fmtM w
      let lanes := actLanes (execMask grp f) m.ud
      let size := sizeBytes m.size
      let view := s.viewOf (k.groupLaunch grp) (k.groupCtx grp)
      let x := s.xlateLanes 191 view lanes (globalAddr grp f m) needR
      let y := x.2.2.loadLanes 191 grp (k.groupCtx grp) size m false x.1
      fld w 63 57 = 0x22 ∧ lsOk grp f m true false = true ∧ k.blocked 63 ((opd m.ud f.dest (sizeRegs size)).regs ++ (opd m.ua f.srcA 2).regs) = 0 ∧
      (∀ l ∈ lanes, globalAddr grp f m l % size = 0) ∧ x.2.1 = [] ∧ (∀ p ∈ x.1, x.2.2.placeOf p.pa ≠ .remote) ∧
      (x.2.2.core 191).behindDevice (x.1.filter (fun p => p.region = 2)) = false ∧
      x.2.2.pci.reqs.length + (x.1.filter (fun p => x.2.2.placeOf p.pa = .host)).length ≤ 768 ∧ y.1.bad = []) ∧
    WitM (ins 0x23 0 30 28 0x8000000) (fun w => let s := oneM w
      let k := s.core 191
      let f := iFields w
      let m := fmtM w
      let lanes := lanesOf (execMask grp f)
      let size := sizeBytes m.size
      let ctx := k.groupCtx grp
      let view := s.viewOf (k.groupLaunch grp) ctx
      let x := s.xlateLanes 191 view lanes (globalAddr grp f m) needW
      let entry (p : LanePa) : StoreEntry :=
        x.2.2.storeEntry 63 (k.turns + 1) (k.groupLaunch grp) ctx m (leBytes size (grp.read (opd m.ud f.srcB (sizeRegs size)) p.lane)) p
      fld w 63 57 = 0x23 ∧ lsOk grp f m false false = true ∧ k.blocked 63 ((opd m.ud f.srcB (sizeRegs size)).regs ++ (opd m.ua f.srcA 2).regs) = 0 ∧
      (∀ l ∈ lanes, globalAddr grp f m l % size = 0) ∧ x.2.1 = [] ∧ m.ord = 0 ∧
      (x.1.foldl (fun l p => putStore l (entry p)) (x.2.2.core 191).stores).length ≤ 64) ∧
    WitM (ins 0x25 28 30 29 0) (fun w => let s := oneM w
      let k := s.core 191
      let f := iFields w
      let m := fmtM w
      let n := if m.wide then 2 else 1
      let lanes := actLanes (execMask grp f) m.ud
      let ctx := k.groupCtx grp
      let from_ := k.groupLaunch grp
      let x := s.xlateLanes 191 (s.viewOf from_ ctx) lanes (globalAddr grp f m) needRW
      let y := x.2.2.atomPoison 191 from_ ctx (4 * n) m.hint x.1
      fld w 63 57 = 0x25 ∧ atomOk grp f m false = true ∧
      k.blocked 63 ((opd m.ud f.dest n).regs ++ (opd m.ud f.srcB n).regs ++ (opd m.ua f.srcA 2).regs) = 0 ∧
      (∀ l ∈ lanes, globalAddr grp f m l % (4 * n) = 0) ∧ x.2.1 = [] ∧ (∀ p ∈ x.1, x.2.2.placeOf p.pa = .localMem) ∧ (x.2.2.core 191).behindDevice x.1 = false ∧ y.1 = [] ∧ m.ord = 0 ∧
      (x.1.any (fun p => y.2.inPool (paOffset p.pa) (4 * n))) = false) := by
  refine ⟨?_, ?_, ?_⟩ <;> exact witM_of (by decide +kernel) (by decide +kernel)

/-- ATOM.ACQ and ATOM.REL at scratchpad address 0x0 and at device address 0x0. -/
theorem test_witness_LockInstructions : ∀ acq : Bool,
    Wit (ins 0x26 31 30 (if acq then 29 else 0) (if acq then 0 else 0x200000)) (fun w => let k := core1 w
      let f := iFields w
      let m := fmtM w
      fld w 63 57 = 0x26 ∧ fld w 23 21 = (if acq then 0 else 1) ∧ lockOk grp f m = true ∧ m.aty = 0 ∧
      k.blocked 63 ((opd false f.dest 1).regs ++ (opd m.ua f.srcA 1).regs ++ (if acq then [f.srcB] else [])) = 0 ∧
      k.drainHolds 63 (lanesOf (execMask grp f)) (fun l => (k.alloc grp).1 + scratchAddr grp f m l) 8 = false ∧
      ∀ l ∈ lanesOf (execMask grp f), scratchAddr grp f m l % 8 = 0 ∧ scratchAddr grp f m l + 8 ≤ (k.alloc grp).2 ∧
        k.scratchBad ((k.alloc grp).1 + scratchAddr grp f m l) 8 = false) ∧
    WitM (ins 0x26 28 30 (if acq then 29 else 0) (if acq then 0x4000000 else 0x4200000)) (fun w => let s := oneM w
      let k := s.core 191
      let f := iFields w
      let m := fmtM w
      let ctx := k.groupCtx grp
      let from_ := k.groupLaunch grp
      let x := s.xlateLanes 191 (s.viewOf from_ ctx) (lanesOf (execMask grp f)) (globalAddr grp f m) needRW
      let y := x.2.2.atomPoison 191 from_ ctx 8 0 x.1
      fld w 63 57 = 0x26 ∧ fld w 23 21 = (if acq then 0 else 1) ∧ lockOk grp f m = true ∧ m.aty = 1 ∧
      k.blocked 63 ((opd false f.dest 1).regs ++ (opd m.ua f.srcA 2).regs ++ (if acq then [f.srcB] else [])) = 0 ∧
      (∀ l ∈ lanesOf (execMask grp f), globalAddr grp f m l % 8 = 0) ∧ x.2.1 = [] ∧ (∀ p ∈ x.1, x.2.2.placeOf p.pa = .localMem) ∧ (x.2.2.core 191).behindDevice x.1 = false ∧ y.1 = [] ∧
      y.2.released 191 m.scope = true ∧ (y.2.core 191).lost.contains 63 = false ∧ (x.1.any (fun p => y.2.inPool (paOffset p.pa) 8)) = false) := by
  intro acq
  cases acq <;> exact ⟨wit_of (by decide +kernel) (by decide +kernel), witM_of (by decide +kernel) (by decide +kernel)⟩

/-- EXIT of all lanes and, under p0 = lane 0, of some; BAR.SYNC and BAR.ARRIVE of barrier 15; the three fences; a barrier's last arrival and
one that is not the last. -/
theorem test_witness_ExitBarriersAndFences :
    Wit (ins 0x33 0 0 0 0) (fun w => fld w 63 57 = 0x33 ∧ fld w 52 0 = 0 ∧ grp.live &&& ~~~execMask grp (iFields w) = 0) ∧
    Wit (ins 0x34 0 0 0 15) (fun w => (core1 w).block grp.block = some blk ∧ fld w 63 57 = 0x34 ∧ (iFields w).pred = 7 ∧ (iFields w).pinv = false ∧
      fld w 20 4 = 0 ∧ (iFields w).dest = 0 ∧ (iFields w).srcA = 0 ∧ (iFields w).srcB = 0 ∧ fld w 28 21 = 0) ∧
    Wit (ins 0x34 0 0 0 0x20000F) (fun w => (core1 w).block grp.block = some blk ∧ fld w 63 57 = 0x34 ∧ (iFields w).pred = 7 ∧ (iFields w).pinv = false ∧
      fld w 20 4 = 0 ∧ (iFields w).dest = 0 ∧ (iFields w).srcA = 0 ∧ (iFields w).srcB = 0 ∧ fld w 28 21 = 1) ∧
    (let x : Barrier := ⟨2, [5], [5], [], 0, some 0, some 5⟩;
      x.arrived.contains 63 = false ∧ x.again = [] ∧ x.arrived.length + 1 = x.expected ∧ ({ x with expected := 3 } : Barrier).arrived.length + 1 ≠ 3) ∧
    (∀ kind ∈ [0, 1, 2], let w := ins 0x35 0 0 0 (0x8000000 + kind * 0x1000000);
      Wit w (fun w => fld w 63 57 = 0x35 ∧ fld w 25 24 = kind ∧ fenceOk w = true ∧ execMask grp (iFields w) ≠ 0 ∧ (core1 w).blocked 63 [] = 0 ∧
        ((one w).pointsPending 191 63 || (kind ≠ 1 && !(one w).released 191 (fld w 28 26)) ||
          (kind ≠ 2 && decide (2 ≤ fld w 28 26) && (core1 w).loads.any (fun l => l.slot = 63 && !l.want.isEmpty))) = false ∧
        (kind ≠ 1 && decide (fld w 28 26 = 4) && (core1 w).lost.contains 63) = false)) := by
  refine ⟨wit_of (by decide +kernel) (by decide +kernel), wit_of (by decide +kernel) (by decide +kernel),
    wit_of (by decide +kernel) (by decide +kernel), by decide +kernel, ?_⟩
  intro kind h
  simp only [List.mem_cons, List.not_mem_nil, or_false] at h
  rcases h with rfl | rfl | rfl <;> exact wit_of (by decide +kernel) (by decide +kernel)

/-- A predicate register that holds lane 0 only. -/
def grpP : Group := { grp with p := [(0, 1)] }

/-- EXIT under p0 leaves lane 1. -/
theorem test_witness_exit_leaves : let w : Word := BitVec.ofNat 64 (0x33 * 2 ^ 57)
    Runs (onCore (oneCore grpP [w])) grpP w ∧ fld w 63 57 = 0x33 ∧ fld w 52 0 = 0 ∧ grpP.live &&& ~~~execMask grpP (iFields w) ≠ 0 := by
  exact ⟨issues_of (by decide +kernel), by decide +kernel⟩

/-- A group at its self-lock limit and one below it; a barrier twice at the guard and one past it. -/
theorem test_witness_GuardsStopStuckGroups :
    (let s := onCore (oneCore { grp with selfLock := 0x100 } [0]);
      (s.core 191).group 63 = some { grp with selfLock := 0x100 } ∧ (s.core 191).block 0 = some blk ∧ blk.lockGuard < 0x100) ∧
    (let b := { blk with bars := [(15, ⟨2, [63], [63], [], 0, some 0, some 63⟩)] };
      let s := (onCore ((oneCore grp [0]).setBlock 0 (some b))).wr R.clkTsNow 0x8000;
      (s.core 191).block 0 = some b ∧ (b.bar 15).since = some 0 ∧ (b.bar 15).earliest = some 63 ∧ b.stopped = false ∧ 2 * (s.now - 0) ≤ 0x10000 ∧
      0x10000 < 2 * ((s.wr R.clkTsNow 0x8001).now - 0)) := by decide +kernel

/-- A legal TCOPY descriptor: one dimension of one byte from device address 0 to scratchpad address 0xFFFF. -/
def tdesc : Mem := Mem.putNat (Mem.putNat (Mem.putNat [] 2 1 1) 0x10 8 0xFFFF) 0x18 4 1

/-- The state of `one` with a scratchpad and tensor copy slots. -/
def oneT (w : Word) (m : Mem) (l : SMap (Option TSlot)) : State := onCore { oneCore grp [w] with scratch := m, tcopy := l }

/-- The slot that the descriptor makes for the block of `blk`. -/
def tslot1 : TSlot := tcopyOf (tdesc.bytes 0 64) 0 0 0x10000 1 1

/-- GO with a descriptor of zeros (malformed), with a legal one and slots 1 to 7 taken, and with all taken; WAIT for slot 7 while it works,
when it is free, and when it holds a fault. -/
theorem test_witness_TensorCopyInstructions :
    (let w := ins 0x36 1 0 0 0;
      (∀ m ∈ [[], tdesc], ∀ l ∈ [[], (List.range 7).map (fun n => (n + 1, some tslot1)), (List.range 8).map (fun n => (n, some tslot1))],
        canonB (oneT w m l) = true ∧ ((oneT w m l).core 191).group 63 = some grp ∧ ((oneT w m l).core 191).canIssue grp = true ∧
        ((oneT w m l).core 191).word grp.pc = some w ∧ ((oneT w m l).core 191).blocked 63 [256 + (iFields w).dest, 256 + (iFields w).srcA] = 0) ∧
      fld w 63 57 = 0x36 ∧ execMask grp (iFields w) ≠ 0 ∧ (iFields w).srcA < 64 ∧ fld w 20 0 = 0 ∧ (iFields w).srcB = 0 ∧ fld w 28 21 = 0 ∧
      (iFields w).dest < 64 ∧ grp.getU (iFields w).srcA % 64 = 0 ∧ grp.getU (iFields w).srcA + 64 ≤ 0x10000 ∧
      tcopyOk (Mem.bytes [] 0 64) (tcopyOf (Mem.bytes [] 0 64) 0 0 0x10000 1 1) = false ∧ tcopyOk (tdesc.bytes 0 64) tslot1 = true ∧
      ((oneT w tdesc []).core 191).scratchBad 0 64 = false) ∧
    (let w := ins 0x36 0 0 0 0x200000;
      let g := { grp with u := [(0, 0x80)] };
      let at_ (l : SMap (Option TSlot)) : State := onCore { oneCore g [w] with tcopy := l };
      (∀ l ∈ [[], [(7, some tslot1)], [(7, some { tslot1 with fault := some 6 })]], canonB (at_ l) = true ∧ ((at_ l).core 191).group 63 = some g ∧
        ((at_ l).core 191).canIssue g = true ∧ ((at_ l).core 191).word g.pc = some w ∧ ((at_ l).core 191).blocked 63 [256 + (iFields w).srcA] = 0) ∧
      fld w 63 57 = 0x36 ∧ execMask g (iFields w) ≠ 0 ∧ fld w 20 0 = 0 ∧ (iFields w).srcB = 0 ∧ fld w 28 21 = 1 ∧ (iFields w).dest = 0 ∧
      (List.range 8).filter (fun n => (g.getU (iFields w).srcA).testBit n) = [7] ∧ ((at_ []).core 191).tdone g.block 7 = true ∧
      ((at_ [(7, some tslot1)]).core 191).tdone g.block 7 = false ∧
      ((at_ [(7, some { tslot1 with fault := some 6 })]).core 191).tdone g.block 7 = true) := by decide +kernel

/-- A group whose u0 names semaphore 5 and whose u1 is a count of 3, in context 1. -/
def grpS : Group := { grp with u := [(0, 5), (1, 3)] }

/-- The group at a SEM word of a minor, with semaphore 5 as given. -/
def oneS (w : Word) (cfg val : Word) : State := ((onCore (oneCore grpS [w])).wr (R.semCfg 5) cfg).wr (R.semValue 5) val

/-- SEM.SIG, WAIT, DEC and READ on an ACTIVE semaphore of the group's tenant with value 3 (the count) and 2 (below it), and on a FREE one. -/
theorem test_witness_SemaphoreInstructions : ∀ minor ∈ [0, 1, 2, 3], let w := ins 0x37 2 0 (if minor = 3 then 0 else 1) (minor * 0x200000)
    (∀ cfg ∈ [0x4000000000000000, 0], ∀ val ∈ [3, 2], let s := oneS w (BitVec.ofNat 64 cfg) (BitVec.ofNat 64 val)
      canonB s = true ∧ (s.core 191).group 63 = some grpS ∧ (s.core 191).canIssue grpS = true ∧ (s.core 191).word grpS.pc = some w ∧
      (s.core 191).blocked 63 [256 + (iFields w).dest, 256 + (iFields w).srcA, 257 + (iFields w).dest] = 0 ∧ s.released 191 3 = true ∧
      s.semWaiters 5 = [] ∧ (s.semState 5 = 1 ↔ cfg ≠ 0) ∧ s.fld (R.semCfg 5) 59 54 = s.tenantOf ((s.core 191).groupCtx grpS)) ∧
    (oneS w 0x4000000000000000 3).semVal 5 = 3 ∧ (oneS w 0x4000000000000000 2).semVal 5 = 2 ∧
    fld w 63 57 = 0x37 ∧ execMask grpS (iFields w) ≠ 0 ∧ (iFields w).dest < 64 ∧ (iFields w).srcA < 64 ∧ (iFields w).srcB < 64 ∧ fld w 20 0 = 0 ∧
    semOperand (grpS.getU (iFields w).srcA) = some (5, none) ∧ fld w 28 21 = minor ∧ (iFields w).dest % 2 = 0 := by decide +kernel

/-- A group whose u0 names semaphore 65535 of node 1. -/
def grpR : Group := { grp with u := [(0, 0x8001FFFF)] }

/-- An open step of launch 1 with one destination in FP16. -/
def step1 : RouteStep := ⟨1, 1, 0, 0, 1, 1, 0, [], 0, 0, 0, 0, 0, 0, 0, 0, 0, 0, 0, 0, [], [], [], false⟩

/-- Its group's descriptor at scratchpad 0: records at 0x20, scores at 0x40, stride 16. -/
def pdesc : Mem := Mem.putNat (Mem.putNat (Mem.putNat [] 0 4 0x20) 4 4 0x40) 8 4 16

/-- SEM.SIG and SEM.DEC of a remote semaphore; PTS.SUB of one record in and out of a step; TRACE.MARK with a register. -/
theorem test_witness_RemoteSignalsAndMarks :
    (∀ minor ∈ [0, 2], let w := ins 0x37 2 0 1 (minor * 0x200000); let s := onCore (oneCore grpR [w]);
      Runs s grpR w ∧ execMask grpR (iFields w) ≠ 0 ∧ (iFields w).srcA < 64 ∧ fld w 63 57 = 0x37 ∧ (iFields w).dest < 64 ∧ fld w 20 0 = 0 ∧
      semOperand (grpR.getU (iFields w).srcA) = some (65535, some 1) ∧ fld w 28 21 = minor ∧ (iFields w).srcB < 64 ∧
      (s.core 191).blocked 63 [256 + (iFields w).dest, 256 + (iFields w).srcA, 256 + (iFields w).srcB] = 0 ∧ s.released 191 3 = true ∧
      1 ≠ s.con.node ∧ (s.mlnAccept (s.signalMsg (s.groupSignaller 191 grpR 1) 1 65535 0) 191 []).isSome = true) ∧
    (let w := ins 0x38 2 0 1 0; let g := { grp with u := [(1, 1)] }; let k := { oneCore g [w] with scratch := pdesc };
      let s := { onCore k with pts := { ptsReset with steps := [step1] } };
      Runs s g w ∧ Runs (onCore k) g w ∧ execMask g (iFields w) ≠ 0 ∧ (iFields w).srcA < 64 ∧ fld w 63 57 = 0x38 ∧ fld w 28 21 = 0 ∧
      fld w 20 0 = 0 ∧ (iFields w).dest < 64 ∧ (iFields w).srcB < 64 ∧
      k.blocked 63 [256 + (iFields w).dest, 256 + (iFields w).srcA, 256 + (iFields w).srcB] = 0 ∧
      s.pts.steps.find? (fun p => p.launch = k.groupLaunch g) = some step1 ∧ (onCore k).pts.steps.find? (fun p => p.launch = k.groupLaunch g) = none ∧
      g.getU (iFields w).srcB = 1 ∧ step1.dests * scoreBytes step1.sfmt ≤ 16 ∧ k.scratch.nat 12 4 = 0 ∧ 0x20 + 32 * 1 ≤ (k.alloc g).2 ∧
      recordOk (k.scratch.bytes 0x20 32) = true ∧ k.scratchBad 0 16 = false) ∧
    (let w := ins 0x39 0 63 0 0x1FFFF;
      Runs (one w) grp w ∧ execMask grp (iFields w) ≠ 0 ∧ (iFields w).srcA < 64 ∧ fld w 63 57 = 0x39 ∧ fld w 28 17 = 0 ∧ (iFields w).dest = 0 ∧
      (iFields w).srcB = 0 ∧ bit w 16 = true ∧ (core1 w).blocked 63 [256 + (iFields w).srcA] = 0) := by
  refine ⟨?_, ⟨issues_of (by decide +kernel), issues_of (by decide +kernel), by decide +kernel⟩, ⟨issues_of (by decide +kernel), by decide +kernel⟩⟩
  intro minor h
  simp only [List.mem_cons, List.not_mem_nil, or_false] at h
  rcases h with rfl | rfl <;> exact ⟨issues_of (by decide +kernel), by decide +kernel⟩

/-- A group that misses its first line; a returned load; a store of one byte; the mapped core that holds them. -/
def grpF : Group := { grp with fetching := some 0, stat := .waiting, wait := 9, hold := true }
def load1 : Load := {
  slot := 63, dest := 31, regs := 1, uni := false, mask := 3, vals := [(0, some 7)], want := [], bad := 0, fill := [], keySlot := 0,
  first := false, acq := 0, pc := 0, turn := 1, op := 0, size := 4, lanes := [], again := true }
def store1 : StoreEntry := ⟨.localMem, 0, [(127, some 1)], 0, 0, 1, true, false, 0, 1, []⟩
def memCore : Core := { oneCore grpF [] with loads := [load1], stores := [store1] }

/-- The fetch translates and reads; the load has its values; the store is the oldest; every event has its hypotheses in one state. -/
theorem test_witness_CoreMemoryEvents : (mapped memCore).Canon ∧ (let s := mapped memCore; let k := s.core 191;
    k.group 63 = some grpF ∧ grpF.fetching = some 0 ∧ s.coreCut 191 = false ∧ grpF.stopping = false ∧ grpF.stopped = false ∧ grpF.fault = none ∧
      (let x := s.xlate (.core 191) 0 (s.viewOf (k.groupLaunch grpF) (k.groupCtx grpF)) 0 needX;
        x.2.linkCut 191 0 = false ∧ (match x.1 with
          | .ok pa region => decide (x.2.placeOf pa = .localMem) && decide (region = 0) &&
              !(x.2.lineRead (paOffset pa / 128 * 128) 128 0 0 true false).2.1
          | .fault _ _ => false) = true) ∧
      k.loads[0]? = some load1 ∧ load1.want = [] ∧ load1.bad = 0 ∧ ({ load1 with bad := 1 } : Load).bad ≠ 0 ∧ load1.fill = [] ∧ k.stores[0]? = some store1 ∧ store1.place = .localMem) :=
  ⟨canon_of (by decide +kernel), by decide +kernel⟩

/-- A slot of one byte from device address 0 runs to its end without fault; one from an address in no segment meets a fault. -/
theorem test_witness_TensorCopySlots :
    (let s := (mapped { oneCore grp [] with tcopy := [(7, some tslot1)] }).hostIn noHost;
      (s.core 191).tslot 7 = some tslot1 ∧ tslot1.fault = none ∧ (s.tcopyRun 191 7 tslot1 tslot1.turns).2.1 = none ∧ tslot1.flags = 0 ∧
      (s.tcopyRun 191 7 tslot1 tslot1.turns).1.pos = 1 ∧ (tslot1.xfer s 191).total = 1 ∧ (s.tcopyRun 191 7 tslot1 tslot1.turns).2.2.awaitsRead (.tcopy 191 7) = false) ∧
    (let t := { tslot1 with src := 2 ^ 40 }; let s := (mapped { oneCore grp [] with tcopy := [(7, some t)] }).hostIn noHost;
      (s.core 191).tslot 7 = some t ∧ t.fault = none ∧ (s.tcopyRun 191 7 t t.turns).1.fault = none ∧
      (s.tcopyRun 191 7 t t.turns).2.1 = some (.code 0x09 0x1) ∧
      ((s.dropReads (.tcopy 191 7)).core 191).tslot 7 = some t ∧ t.block ≠ 64) ∧
    (let t := { tslot1 with src := 2 ^ 40, block := 64 }; let s := (mapped { oneCore grp [] with tcopy := [(7, some t)] }).hostIn noHost;
      ((s.dropReads (.tcopy 191 7)).core 191).tslot 7 = some t ∧ (s.tcopyRun 191 7 t t.turns).2.1 = some (.code 0x09 0x1)) := by decide +kernel

/-- A group whose u2 is K = 16, and scratchpad with a well-formed descriptor of extent 1 at address 0. -/
def grpX : Group := { grp with u := [(2, 16)] }
def mdesc : Mem := Mem.putNat [] 0xA 2 1

/-- The core of that group at a format-X instruction. -/
def mxCore (m : Mem) (w w2 : Word) (x : Matrix) : Core := { oneCore grpX [w, w2] with scratch := m, mx := x }

/-- The second words: FP16 by FP16 on slot 7; FP32 band-free drain of slot 7; FP16 by FP16 into FP32 for one column. -/
def issue2 : Word := BitVec.ofNat 64 (0x7F * 2 ^ 57 + 7 * 2 ^ 54 + 3 * 2 ^ 48 + 3 * 2 ^ 43)
def drain2 : Word := BitVec.ofNat 64 (0x7F * 2 ^ 57 + 7 * 2 ^ 54 + 2 * 2 ^ 48)
def mv2 : Word := BitVec.ofNat 64 (0x7F * 2 ^ 57 + 3 * 2 ^ 49 + 3 * 2 ^ 44 + 2 * 2 ^ 35)

/-- A tile, drain and operation as the instructions below make them. -/
def tile1 : Tile := (mxCore mdesc (ins 0x40 0 0 0 0x400000) issue2 Matrix.empty).newTile grpX 63 (ins 0x40 0 0 0 0x400000) issue2
def drain1 : Drain := (mxCore mdesc (ins 0x41 0 3 0 0) drain2 Matrix.empty).newDrain grpX 63 (ins 0x41 0 3 0 0) drain2
def mv1 : MvOp := (mxCore mdesc (ins 0x43 3 0 0 0x400000) mv2 Matrix.empty).newMv grpX 63 (ins 0x43 3 0 0 0x400000) mv2

/-- A matrix fault on slot 7 and one on the path, and full queues. -/
def mxFaulty : Matrix := { Matrix.empty with faults := [⟨7, 63, 0, 0x0B⟩, ⟨8, 63, 0, 0x06⟩] }
def mxFull : Matrix := { Matrix.empty with queue := List.replicate 4 tile1, drains := List.replicate 8 drain1, mv := List.replicate 3 mv1 }

/-- The four matrix instructions with free queues, full ones and a fault to report; descriptors well formed, and all zero (malformed). -/
theorem test_witness_MatrixInstructions :
    ([(ins 0x40 0 0 0 0x400000, issue2), (ins 0x41 0 3 0 0, drain2), (ins 0x43 3 0 0 0x400000, mv2), (ins 0x3A 0 0 0 0x1FF, 0)].all (fun p =>
      [Matrix.empty, mxFaulty, mxFull].all (fun x => [mdesc, []].all (fun m => let k := mxCore m p.1 p.2 x; let s := onCore k
        canonB s && decide ((s.core 191).group 63 = some grpX) && (s.core 191).canIssue grpX && decide ((s.core 191).word grpX.pc = some p.1) &&
        decide (k.word (grpX.pc + 8) = some p.2) && decide (execMask grpX (iFields p.1) ≠ 0))))) = true ∧
    (let w := ins 0x40 0 0 0 0x400000; let f := iFields w; let w2 := issue2
      fld w 63 57 = 0x40 ∧ fld w2 63 57 = 0x7F ∧ xOk w [f.srcA, f.srcB, f.srcC] = true ∧ f.dest = 0 ∧ fld w2 38 0 = 0 ∧ fld w2 42 41 ≠ 3 ∧
      fmtKnown (fld w2 52 48) = true ∧ fmtKnown (fld w2 47 43) = true ∧ fld w2 56 54 = 7 ∧
      (mxCore mdesc w w2 Matrix.empty).blocked 63 [256 + f.srcA, 256 + f.srcB, 256 + f.srcC] = 0 ∧
      descrAddr (grpX.getU f.srcA) 0x10000 = none ∧ rateClass 3 3 ≠ none ∧ grpX.getU f.srcC = 16 ∧ tile1.fault = none ∧
      ((mxCore [] w w2 Matrix.empty).newTile grpX 63 w w2).fault = some 0x0B) ∧
    (let w := ins 0x41 0 3 0 0; let f := iFields w; let w2 := drain2
      fld w 63 57 = 0x41 ∧ fld w2 63 57 = 0x7F ∧ fld w 20 0 = 0 ∧ fld w2 40 0 = 0 ∧ outFmt (fld w2 52 48) = true ∧ fld w2 47 46 ≠ 3 ∧
      ¬(fld w2 52 48 = 9 ∧ fld w2 47 46 = 2) ∧ bit w2 53 = false ∧ f.srcA < 64 ∧
      (mxCore mdesc w w2 Matrix.empty).blocked 63 [256 + f.srcA] = 0 ∧ grpX.getU f.srcA % 128 = 0 ∧
      grpX.getU f.srcA + 768 * elemBits (fld w2 52 48) ≤ 0x10000) ∧
    (let w := ins 0x43 3 0 0 0x400000; let f := iFields w; let w2 := mv2
      fld w 63 57 = 0x43 ∧ fld w2 63 57 = 0x7F ∧ xOk w [f.srcA, f.srcB, f.srcC, f.dest] = true ∧ fld w2 31 0 = 0 ∧ fld w2 43 42 ≠ 3 ∧
      fmtKnown (fld w2 53 49) = true ∧ fmtKnown (fld w2 48 44) = true ∧ outFmt (fld w2 39 35) = true ∧ fld w2 34 33 ≠ 3 ∧
      ¬(fld w2 39 35 = 9 ∧ fld w2 34 33 = 2) ∧
      (mxCore mdesc w w2 Matrix.empty).blocked 63 [256 + f.srcA, 256 + f.srcB, 256 + f.srcC, 256 + f.dest] = 0 ∧
      grpX.getU f.dest % 128 = 0 ∧ mv1.fault = none ∧ ((mxCore [] w w2 Matrix.empty).newMv grpX 63 w w2).fault = some 0x0B) ∧
    (let w := ins 0x3A 0 0 0 0x1FF; let f := iFields w
      fld w 63 57 = 0x3A ∧ fld w 28 21 = 0 ∧ fld w 20 9 = 0 ∧ f.dest = 0 ∧ f.srcA = 0 ∧ f.srcB = 0 ∧
      mxFull.mv.any (fun o => o.group = 63) = true) := by decide +kernel

/-- Engines that have something to do: a queued tile, a tile in flight, a drain to read, one read, an operation to start and one at work; and
the same met by faults. -/
theorem test_witness_MatrixEngine :
    tile1.early = none ∧ ({ Matrix.empty with flight := [tile1] } : Matrix).drainsFirst tile1 = false ∧ tile1.fails = none ∧ ({ tile1 with fault := some 0x0B } : Tile).fails = some 0x0B ∧
    ({ tile1 with fault := some 0x0B } : Tile).early = some 0x0B ∧ ({ Matrix.empty with drains := [drain1] } : Matrix).tilesFirst drain1 = false ∧ drain1.fault = none ∧ (drain1.cells.takeWhile (fun a => !SMap.get false [(drain1.cells.headD 0, true)] a)).length = 0 ∧ 0 < drain1.cells.length ∧ drain1.target = 0 ∧
    drain1.reading = none ∧ mv1.fails (mxCore mdesc 0 0 Matrix.empty) = none ∧ mv1.started = false ∧
    ({ mv1 with fault := some 0x0B } : MvOp).fails (mxCore mdesc 0 0 Matrix.empty) = some 0x0B ∧
    canonB (onCore (mxCore mdesc 0 0 { Matrix.empty with queue := [tile1], flight := [tile1], drains := [drain1], mv := [mv1] })) = true ∧
    findPos (fun d => d.reading.isNone && d.fault.isNone) [drain1] = some 0 ∧ drain1.cells.all (fun a => !SMap.get false ([] : SMap Bool) a) = true ∧
    ((onCore (mxCore mdesc 0 0 Matrix.empty)).rd (R.coreMxTiles 191)).toNat + 1 < 2 ^ 64 := by decide +kernel

/-! ### The dispatcher and the units it starts -/

/-- A launch of one block of 32 threads with 8 registers in context 1, by command 1 of thread 0. -/
def launch1 : Launch := ⟨1, 0, 1, 0, 1, 1, 1, 32, 8, false, false, false, 0, 0, 0, 0, none, 1, 0, none, 0, [], none, none, 0, 1⟩

/-- A thread that holds launches. -/
def threadOf (l : List Launch) : Thread := ⟨1, 1, 0, 1, 0, [], [], l, .none, 0, false, 1, false⟩

/-- The running module with launches, commands and threads. -/
def disp (l : SMap (Option Launch)) (c : SMap (Option Cmd)) (t : SMap (Option Thread)) : State :=
  { rig with dsp := { dspReset with launches := l, cmds := c, threads := t } }

/-- A command of queue 0 with the opcode and flags of its first word, at a stage, on no lane. -/
def cmdAt (word0 : Nat) (st : Stage) : Cmd :=
  ⟨0, 0, [word0, 0, 0, 0, 0, 0, 0, 0], 1, 1, 0, 0, 0, st, false, none, 0, 0, none, false, none, 0, 0, 0, none, none, false, false, false, 0⟩

/-- A launch that starts, one of no blocks, one no core can take, a block placed, a core that ends its switch, a block that ends, a launch
that completes, and a borrowed block at its limit. -/
theorem test_witness_LaunchesAndBlocks :
    (∀ x ∈ [launch1, { launch1 with gx := 0 }, { launch1 with vregs := 0 }], let th := threadOf [x]
      let h := (disp [] [(1, some (cmdAt 1 .running))] [(127, some th)]).hostIn noHost
      h.thread 127 = some th ∧ th.queue = [x] ∧ h.turn x = true ∧ x.plat = none ∧
        (match (h.headLaunch th.view x).1 with | .inl (some (y, _)) => decide (y = x) | _ => false) = true) ∧
    launch1.blocks ≠ 0 ∧ ({ launch1 with gx := 0 } : Launch).blocks = 0 ∧ rig.neverFits { launch1 with vregs := 0 } = some 0x07 ∧
    rig.neverFits launch1 = none ∧ (rig.placeFor launch1).isSome = true ∧
    (disp [] [(1, some { cmdAt 1 .running with lane := some 7 })] []).launchLane launch1 = some 7 ∧
    (let s := disp [(1, some launch1)] [] []; s.launch 1 = some launch1 ∧ launch1.unplaced = true ∧ s.olderFirst launch1 = false ∧
      ((s.placeFor launch1).map (fun r => (r.1, r.2.1, s.shut r.1 r.2.1))) = some (0, 0, false)) ∧
    (canonB (onCore { Core.empty with switching := true }) = true ∧ ((onCore { Core.empty with switching := true }).core 191).switching = true) ∧
    (let k := { Core.empty with blocks := [(63, some { blk with ended := [0] })] }; let s := onCore k;
      (s.core 191).block 63 = some { blk with ended := [0] } ∧ k.groupList = [] ∧ (s.core 191).mx.busyFor 63 = false ∧
      (s.unit (clusterOf 191)).subs = [] ∧ k.late = [] ∧ k.unreported 63 = none ∧ s.pointsOf 191 63 = false) ∧
    (let x := { launch1 with nextBlock := 1 }; let s := disp [(1, some x)] [] [];
      s.launch 1 = some x ∧ x.quiet = true ∧ s.launchSettled 1 = true) ∧
    (let b := { blk with borrowed := true, due := 6 }; let s := (onCore { Core.empty with blocks := [(0, some b)] }).wr R.clkTsNow 5;
      b ∈ ((s.core 191).blockList.map Prod.snd) ∧ b.launch = 1 ∧ b.due ≠ 0 ∧ b.due - 1 ≤ s.now ∧ ¬(b.due - 1 ≤ (s.wr R.clkTsNow 4).now)) := by decide +kernel

/-- A submission of one record on points unit 15 whose side table entry is valid, exited, or not valid; a ranked record with a choice;
a step that closes; TKT_FLUSH reached. -/
def sub1 : Submission := ⟨191, 63, 0, 1, 1, 0, 0x40, 16, 1, 0, 0, 0⟩
def ranked1 : RankedRec := ⟨191, 63, 0, 1, 1, 0, 0, 0, 0, [⟨0, 0, 0⟩], [], 0⟩
def ptsRig (subs : List Submission) (q : List RankedRec) : State :=
  { onCore (oneCore grp []) with pts := { ptsReset with units := [(15, ⟨subs, q⟩)], steps := [step1] } }

theorem test_witness_PointsUnitsAndTickets :
    (let s := ptsRig [sub1] []; let r := s.memRead (s.sideAddr ((s.core 191).scratch.nat 0xC 4 % 2 ^ 20)) 4 3 0 true
      (s.unit 15).subs = [sub1] ∧ (s.unit 15).queue.length < 512 ∧ s.stepOf 1 = some step1 ∧ (leNat r.1).testBit 12 = false) ∧
    (∀ v ∈ [0x1001, 0x3001], let p := ptsRig [sub1] []; let a := p.sideAddr 0
      let s := { p with mem := { memReset with dram := Mem.putNat [] a 4 v } }
      let r := s.memRead (s.sideAddr ((s.core 191).scratch.nat 0xC 4 % 2 ^ 20)) 4 3 0 true
      r.2.1 = false ∧ leNat r.1 = v ∧ v % 4096 = sub1.ctx ∧ v.testBit 12 = true ∧ (v.testBit 13 = true ↔ v = 0x3001) ∧
      (s.core 191).scratchBad 0 32 = false ∧ (s.core 191).scratchBad 0x40 2 = false) ∧
    (let s := ptsRig [] [ranked1]; (s.unit 15).queue = [ranked1] ∧ s.stepOf 1 = some step1 ∧ ranked1.primary = [⟨0, 0, 0⟩]) ∧
    (let x := { launch1 with nextBlock := 1 }; let s := disp [(1, some x)] [] []; s.launch 1 = some x ∧ x.quiet = true ∧ launch1.quiet = false) ∧
    serves rig 0 R.tktFlush true := by decide +kernel

/-- A walk outside every segment, refused by its segment, and hitting the TLB; an invalidation asked for, one while another runs, and one
that ends with no access outstanding. -/
def memG : Core := { memCore with stores := [{ store1 with parts := [⟨63, 9, 1, 127, [(0, some 1)]⟩] }] }

theorem test_witness_TranslationAndInvalidation :
    (let h := (mapped (oneCore grp [])).hostIn noHost; h.segmentOf 1 (2 ^ 47) = none ∧
      (match h.segmentOf 1 (2 ^ 32 - 1) with
        | some cfg => segGrants cfg needRW && decide ((h.tlbHit (.core 191) 1 (2 ^ 32 - 1)) = some ⟨1, 0, 2 ^ 32, 0, 0⟩) && decide (bit cfg 44 = false) &&
            decide ((h.tlbMisses (.core 191) 1 (2 ^ 32 - 1)).frameCause cfg (2 ^ 32 - 1) = 0)
        | none => false) = true) ∧
    (match ((rig.wr (R.ctxSegCfg 1 0) 0x100000).segmentOf 1 0) with | some cfg => segGrants cfg needR | none => true) = false ∧
    canonB rig = true ∧ serves rig 0 R.trnInvCmd true ∧ rig.flag R.trnStatus 3 = false ∧ (rig.setFlag R.trnStatus 3).flag R.trnStatus 3 = true ∧
    serves (rig.setFlag R.trnStatus 3) 0 R.trnInvCmd true ∧
    (let i : Inval := ⟨4096, 0, 0, []⟩; let s := { rig with trn := { trnReset with inval := some i } };
      s.trn.inval = some i ∧ i.waits = [] ∧
      (mapped memG).cores.flatMap (fun e => e.2.translated { i with tag := 1, pages := 1 }) = [9] ∧ ((mapped memG).core 191).holdsTurn 9 = true) := by decide +kernel

theorem test_witness_TranslationTables : SMap.Canon (fun _ => ([] : List TlbEntry)) rig.trn.cluster := (SMap.wf_iff _ _).mp (by decide)

/-- A dirty line of L2 and its maintenance; the three range operations by an idle, busy and foreign context; sets 767 and 768. -/
def line1 : L2Line := ⟨List.replicate 128 1, 0, true, some 15, 0, 0, false⟩

theorem test_witness_CacheMaintenance :
    serves rig 0 (R.cchMaintCmd 0) true ∧ rig.flag (R.cchMaintStatus 0) 0 = false ∧ rig.tenantOf (rig.fld (R.cchMaintCtx 0) 11 0) = 0 ∧
    (rig.setFlag (R.cchMaintStatus 0) 0).flag (R.cchMaintStatus 0) 0 = true ∧
    ((rig.wr (R.cchMaintCtx 0) 1).wr (R.ctxCfg 1) 0x4100000000000001).tenantOf (((rig.wr (R.cchMaintCtx 0) 1).wr (R.ctxCfg 1) 0x4100000000000001).fld (R.cchMaintCtx 0) 11 0) = 1 ∧
    serves rig 0 R.cchSetwayCmd true ∧ rig.flag R.cchStatus 0 = false ∧ ({ rig with pci := { pciReset with numVfs := 1, vfEnable := true } } : State).reach 1 R.cchSetwayCmd true = .refused ∧ (rig.setFlag R.cchStatus 0).flag R.cchStatus 0 = true ∧
    (let m := { memReset with l2 := [(0, some line1)] };
      SMap.wf (fun _ => (0 : Byte)) m.dram = true ∧ SMap.wf (fun _ => none) m.l2 = true ∧ m.line 0 = some line1 ∧ line1.dirty = true ∧
      line1.bytes.length = 128 ∧ m.stackCut 0 = false) := by decide +kernel

/-- Queue 16383 of function 0: enabled, ring and completion ring of two entries, tail at 1, completion tail at 1. -/
def qrig (cfg : Nat) : State :=
  ((rig.wr (R.queCfg 16383) (BitVec.ofNat 64 cfg)).wr (R.queSqTail 16383) 1).wr (R.queCqTail 16383) 0x10001

/-- QUE_CFG of that queue: ENABLE, log sizes 1. -/
def qcfg : Nat := 2 ^ 63 + 2 ^ 24 + 2 ^ 16

/-- A doorbell at the last entry and one past it, behind the tail, before the head, of another function's queue, of a stopped queue. -/
theorem test_witness_QueueDoorbellsAndEnabling :
    (let s := qrig qcfg;
      s.fnExists 0 = true ∧ SMap.get false s.pci.d3 0 = false ∧ 2 ≤ s.fld R.conStatus 3 0 ∧ s.drained = false ∧ s.boot.stopped = false ∧
      s.qFunc 16383 = 0 ∧ s.qEnable 16383 = true ∧ s.sqSize 16383 = 2 ∧ s.cqSize 16383 = 2 ∧ s.unfetched 16383 = 1 ∧
      s.unfetched 16383 ≤ (1 + 2 - s.fld (R.queSqHead 16383) 15 0) % 2 ∧ (0 + 2 - s.fld (R.queSqHead 16383) 15 0) % 2 < s.unfetched 16383 ∧
      (1 + 2 - s.fld (R.queCqHead 16383) 15 0) % 2 ≤ (s.fld (R.queCqTail 16383) 15 0 + 2 - s.fld (R.queCqHead 16383) 15 0) % 2 ∧
      serves s 0 (R.queCqHead 16383) true ∧ serves s 0 (R.queCfg 16383) true ∧ serves s 0 (R.queStatus 16383) true) ∧
    canonB (qrig qcfg) = true ∧
    ((qrig (qcfg + 2 ^ 32)).qFunc 16383 ≠ 0) ∧ serves rig 0 R.dspControl true ∧ rig.fnExists 63 = false ∧
    (let s := qrig 0; canonB s = true ∧ s.qEnable 16383 = false ∧ s.qInflight 16383 = 0 ∧ serves s 0 (R.queCfg 16383) true ∧
      (BitVec.ofNat 64 qcfg).getLsbD 63 = true ∧ s.queCfgOk 16383 (BitVec.ofNat 64 (2 ^ 63 + 6 * 2 ^ 24 + 6 * 2 ^ 16)) = true ∧
      s.queCfgOk 16383 (BitVec.ofNat 64 (2 ^ 63 + 31 * 2 ^ 24)) = false) ∧
    (let s := (qrig qcfg).setFlag (R.queStatus 16383) 4; canonB s = true ∧ s.qEnable 16383 = true ∧ s.flag (R.queStatus 16383) 4 = true ∧
      serves s 0 (R.queCfg 16383) true) := by decide +kernel

/-- A queue that may fetch from host memory and from device memory; a better-ranked queue that may; entries that pass, and fail each check. -/
theorem test_witness_EntriesAreFetchedAndChecked :
    (∀ cfg ∈ [qcfg + 2 ^ 60, qcfg], let s := (qrig cfg).wr (R.queCqTail 16383) 0x10000
      s.mayFetch 16383 = true ∧ s.enabledQueues = [16383] ∧ s.qRank 16383 = 2 ∧ s.holding = false ∧
      (s.rd (R.queSqBase 16383)).toNat + 64 * s.fld (R.queSqHead 16383) 15 0 + 64 ≤ localEnd ∧ (s.memRead 0 64 2 0 true).2.1 = false ∧
      (s.flag (R.queCfg 16383) 60 = true ↔ cfg = qcfg + 2 ^ 60)) ∧
    ((qrig 0).mayFetch 16383 = false) ∧
    (let s := ((qrig qcfg).wr (R.queCqTail 16383) 0x10000).wr (R.queCfg 0) (BitVec.ofNat 64 (qcfg + 2 ^ 62));
      let u := (s.wr (R.queSqTail 0) 1).wr (R.queCqTail 0) 0x10000;
      0 ∈ u.enabledQueues ∧ u.qRank 0 < u.qRank 16383 ∧ u.mayFetch 0 = true) ∧
    (let w (op : Nat) : List Nat := [op, 0, 0, 0, 0, 0, 0, 0]
      let s := qrig qcfg
      let act := s.wr (R.ctxCfg 0) 0x4000000000000001
      (s.entryOf 16383 (w 0)).illegal false = false ∧ (s.entryOf 16383 (w 255)).illegal false = true ∧ usesContext 0 = false ∧
      usesContext 1 = true ∧ (s.entryOf 16383 (w 1)).illegal false = false ∧ s.ctxState (s.entryOf 16383 (w 1)).ctx = 0 ∧
      act.ctxState (s.entryOf 16383 (w 1)).ctx = 1 ∧ act.tenantOf (s.entryOf 16383 (w 1)).ctx = act.qFunc 16383) := by decide +kernel

/-- Each simple entry held with its turn come, and ended. -/
theorem test_witness_SimpleEntries :
    (∀ op ∈ [0, 3, 4, 6, 7], let c := cmdAt op .held; let s := disp [] [(1, some c)] []
      canonB s = true ∧ s.cmd 1 = some c ∧ c.opcode = op ∧ c.stage = .held ∧ s.mayStart c = true ∧ c.refused = none) ∧
    (∀ op ∈ [0, 3, 4, 6, 7], let c := cmdAt op .ended; let s := disp [] [(1, some c)] []
      s.cmd 1 = some c ∧ c.opcode = op ∧ c.stage = .ended) ∧
    (let c := { cmdAt 6 .held with index := 1 }; let d := cmdAt 1 .running; let s := disp [] [(1, some d), (2, some c)] [];
      s.cmd 2 = some c ∧ s.mayStart c = false ∧ (2, c) ∈ s.cmdList ∧ (1, d) ∈ s.cmdList ∧ d.queue = c.queue ∧ d.index < c.index ∧ d.stage ≠ .ended) ∧
    (let c := { cmdAt 6 .held with index := 1 }; let d := cmdAt 0x10001 .running; let s := disp [] [(1, some { d with started := true }), (2, some c)] [];
      s.mayStart c = true) := by decide +kernel

/-- A queue with an end to write, one being written, and one that a read-back refused. -/
theorem test_witness_CompletionsAreWrittenInOrder :
    (let c := { cmdAt 0 .ended with queue := 16383, outcome := some ⟨0, 0⟩ };
      let s := { disp [] [(1, some c)] [] with dsp := { (disp [] [(1, some c)] []).dsp with queues := [(16383, ⟨1, [1], none, none, 0⟩)] } };
      let w := { disp [] [(1, some c)] [] with dsp := { (disp [] [(1, some c)] []).dsp with queues := [(16383, ⟨1, [], some 1, none, 0⟩)] } };
      let o := { disp [] [(1, some c)] [] with dsp := { (disp [] [(1, some c)] []).dsp with queues := [(16383, ⟨1, [], none, some 1, 0⟩)] } }.setFlag (R.queStatus 16383) 4;
      s.cmd 1 = some c ∧ c.event = false ∧ canonB s = true ∧ (s.queue 16383).done = [1] ∧ (s.queue 16383).writing = none ∧
      s.flag (R.queStatus 16383) 4 = false ∧ s.boot.stopped = false ∧ (w.queue 16383).writing = some 1 ∧
      serves o 0 (R.queStatus 16383) true ∧ o.flag (R.queStatus 16383) 4 = true ∧ (o.queue 16383).overflow = some 1) := by decide +kernel

/-- Contexts in each state, with the writes that R515 allows and one that it does not; a census that runs; a retirement at its last step. -/
theorem test_witness_ContextsComeAndGo :
    (∀ st ∈ [0, 1, 3], let s := rig.wr (R.ctxCfg 4095) (BitVec.ofNat 64 (st * 2 ^ 62 + 1))
      canonB s = true ∧ serves s 0 (R.ctxCfg 4095) true ∧ serves s 0 (R.ctxSeed 4095) true ∧
      serves s 0 (R.ctxCensus 4095) true ∧ s.fld (R.ctxCfg 4095) 63 62 = st ∧ s.flag (R.ctxStatus 4095) 1 = false ∧
      s.tenantOf 4095 = 0) ∧
    (∀ w ∈ [1, 65535], fld (BitVec.ofNat 64 (2 ^ 62 + w)) 63 62 = 1 ∧ fld (BitVec.ofNat 64 (2 ^ 62 + w)) 15 0 = w) ∧
    (let s := rig.setFlag (R.ctxStatus 4095) 1; s.flag (R.ctxStatus 4095) 1 = true) ∧
    (let s := { rig with dsp := { dspReset with retiring := [(4095, some ⟨[], 0⟩)] } }; (s.retire? 4095).isSome = true) := by decide +kernel

/-- A best-effort entry with room to start, a lane entry at its turn with its decision, an admitted one at its start, one at its class limit
and one at its timeout. -/
theorem test_witness_AdmissionGrantsAndLimits :
    (let c := cmdAt 2 .held; let s := disp [] [(1, some c)] [];
      s.cmd 1 = some c ∧ s.awaitsGrant c = true ∧ s.grantRoom c = true ∧ s.emergency = false ∧ s.switching = false ∧ s.dsp.draining = false ∧
      (s.sharePick s.dsp.eligibleT s.grantees).1 = some 1) ∧
    (let c := { cmdAt 2 .held with words := [2, 0, 0, 0, 10, 0, 0, 0] };
      let s := (disp [] [(1, some c)] []).wr (R.queCfg 0) (BitVec.ofNat 64 (2 ^ 61));
      s.qSched c.queue = true ∧ laneOpcode c.opcode = true ∧ s.mayStart c = true ∧ c.due = 10 ∧ s.now < c.due ∧ (s.wr R.clkTsNow 10).now = c.due ∧
      (match s.laneDecision c with | .inl n => n | .inr _ => 0) = 1 ∧
      (match (s.wr (R.dspLaneClusters 7) 1).laneDecision c with | .inl _ => 0 | .inr (l, _, _) => l) = 7) ∧
    (let c := { cmdAt 2 .admitted with lane := some 7 }; let s := disp [] [(1, some c)] [];
      s.cmd 1 = some c ∧ c.stage = .admitted ∧ c.start ≤ s.now ∧ c.opcode ≠ 1) ∧
    (let c := { cmdAt 2 .running with lane := some 7, started := true }; c.inService = true ∧ c.outcome = none ∧ c.fin < (rig.wr R.clkTsNow 1).now ∧ ¬c.fin < rig.now) ∧
    (let c := cmdAt 2 .held; c.stage ≠ .ended ∧ c.lane = none ∧ (rig.qSched c.queue && laneOpcode c.opcode) = false ∧
      1000 * c.timeout < (rig.wr R.clkTsNow 1).now - c.fetched - c.held ∧ ¬1000 * c.timeout < rig.now - c.fetched - c.held) := by decide +kernel

/-- A cleared program with and without a stored version; copies; patches of each mode whose turn it is. -/
def slot1 : PSlot := ⟨0, [], [⟨1, 512, [0], 0⟩], false, (0, 0)⟩

theorem test_witness_ProgramsAndCopies :
    (let c := { cmdAt 1 .cleared with thr := some 127 }; let s := disp [] [(1, some c)] [];
      let p := { s with dsp := { s.dsp with slots := [(0, some slot1)], tableSet := true, poolSet := true } }.wr R.dspPoolPages 1;
      s.cmd 1 = some c ∧ c.stage = .cleared ∧ c.opcode = 1 ∧ c.pin = none ∧ s.runnable c = none ∧ (p.runnable c).isSome = true ∧
      ((p.pinCmd 1 c).cmd 1).map Cmd.pin = some (some (0, 1))) ∧
    (let c := cmdAt 2 .cleared; let s := (disp [] [(1, some c)] []).hostIn noHost;
      s.cmd 1 = some c ∧ c.stage = .cleared ∧ c.opcode = 2 ∧ s.copyCount < 8) ∧
    (∀ mode ∈ [0, 1, 2], let c := { cmdAt 5 .cleared with words := [5, 0, 0, 0, 0, 0, mode, 0] }
      let s := (disp [] [(1, some c)] []).hostIn noHost
      s.cmd 1 = some c ∧ c.opcode = 5 ∧ c.patchMode = mode ∧ c.stage = .cleared ∧ s.patchTurn c = true) ∧
    (let x : Copy := ⟨1, none, 1, 0, 1, 1, 0xFFFF, 0, none, 1⟩; let s := { rig with dsp := { dspReset with copies := [(1, some x)] } };
      (s.hostIn noHost).copy? 1 = some x ∧ x.failed = none) ∧
    (let x : Patching := ⟨1, 512, [0], [0], some []⟩; let s := { disp [] [(1, some (cmdAt 5 .running))] [] with dsp := { (disp [] [(1, some (cmdAt 5 .running))] []).dsp with patching := [(4095, some x)] } };
      SMap.get none s.dsp.patching 4095 = some x ∧ s.cmd x.cmd = some (cmdAt 5 .running)) := by decide +kernel

/-! ### Dispatch code -/

/-- A word of dispatch code: OP, D, A, B, M, IMM. -/
def dins (op d a b m imm : Nat) : Word := BitVec.ofNat 64 (op * 2 ^ 56 + d * 2 ^ 51 + a * 2 ^ 46 + b * 2 ^ 41 + m * 2 ^ 32 + imm)

/-- Thread 127 at the last word of its one-page program, which is `w`, with registers as given. -/
def drig (w : Word) (x : SMap Word) (stack : List Nat) : State :=
  let th := { threadOf [] with pc := 511, x := x, stack := stack }
  let s := disp [] [(1, some (cmdAt 1 .running))] [(127, some th)]
  let d := { s.dsp with slots := [(0, some slot1)], tableSet := true, poolSet := true }
  ({ s with dsp := d, mem := { memReset with dram := Mem.putNat [] (8 * 511) 8 w.toNat } }.wr R.dspPoolPages 1)

/-- The hypotheses of a dispatch instruction, as a check. -/
def dispB (s : State) (t : Nat) (w : DWord) : Bool :=
  match s.thread t with
  | some x =>
    let r := s.memRead (s.wordAt (s.codeOf x) x.pc) 8 2 0 true
    (decide (x.hold = .none) || decide (x.hold = .retry)) && decide (x.pc < (s.codeOf x).size) && decide (r.2.1 = false) &&
      decide (w = dword (BitVec.ofNat 64 (leNat r.1))) && s.dturn t && w.ok
  | none => false

/-- The check says that the thread issues the word. -/
theorem dissues_of {s : State} {t : Nat} {w : DWord} (h : dispB s t w = true) : ∃ th r, s.DIssues t th w r := by
  unfold dispB at h
  split at h
  · rename_i x hx
    simp only [Bool.and_eq_true, Bool.or_eq_true, decide_eq_true_eq] at h
    obtain ⟨⟨⟨⟨⟨a, b⟩, c⟩, d⟩, f⟩, e⟩ := h
    exact ⟨_, _, ⟨⟨x, _, _, _, hx, a, b, rfl, c, d, rfl, rfl⟩, f, e⟩⟩
  · exact absurd h (by decide)

theorem all_issue {f : Word → State} {l : List Word} (h : (l.all fun w => dispB (f w) 127 (dword w)) = true) :
    ∀ w ∈ l, ∃ th r, (f w).DIssues 127 th (dword w) r := fun w hw => dissues_of (List.all_eq_true.mp h w hw)

/-- The words of the register instructions, all on registers 31, 30 and 29. -/
def aluWords : List Word :=
  ([0x08, 0x09, 0x0A, 0x0B, 0x0C, 0x0D, 0x0E, 0x0F].map (fun op => dins op 31 30 29 0 0)) ++
    [dins 0x10 31 30 0 0 0xFFFFFFFF, dins 0x11 31 0 0 0 0x80000000, dins 0x12 31 0 0 0 1, dins 0x2A 31 0 0 0 0, dins 0x00 0 0 0 0 0,
      dins 0x49 0 30 0 0 5, dins 0x02 0 0 0 0 0, dins 0x32 0 0 0 0 0, dins 0x01 0 0 0 0 0]

theorem test_witness_DispatchArithmetic :
    (∀ w ∈ aluWords, ∃ th r, (drig w [(30, 1)] []).DIssues 127 th (dword w) r) ∧
    (aluWords.map (fun w => (dword w).op)) = [0x08, 0x09, 0x0A, 0x0B, 0x0C, 0x0D, 0x0E, 0x0F, 0x10, 0x11, 0x12, 0x2A, 0x00, 0x49, 0x02, 0x32, 0x01] ∧
    ((drig 0 [] []).programBusy (threadOf [])) = false := by
  refine ⟨all_issue (by decide +kernel), by decide +kernel⟩

/-- Branches, a call with seven and with eight levels, a return with and without one; a word past the end, and an illegal one. -/
def braWords : List Word :=
  [dins 0x18 0 0 0 0 0xFFFFFFFF, dins 0x19 0 30 29 0 1, dins 0x1A 0 30 29 0 1, dins 0x1B 0 30 29 0 1, dins 0x1C 0 30 29 0 1, dins 0x1D 0 30 29 0 1,
    dins 0x1E 0 30 29 0 1, dins 0x1F 0 0 0 0 1, dins 0x20 0 0 0 0 0]

theorem test_witness_DispatchBranchesAndIllegalWords :
    (∀ w ∈ braWords, (∃ th r, (drig w [] (List.replicate 7 0)).DIssues 127 th (dword w) r) ∧ (∃ th r, (drig w [] (List.replicate 8 0)).DIssues 127 th (dword w) r) ∧
      ∃ th r, (drig w [] []).DIssues 127 th (dword w) r) ∧
    (braWords.map (fun w => (dword w).op)) = [0x18, 0x19, 0x1A, 0x1B, 0x1C, 0x1D, 0x1E, 0x1F, 0x20] ∧
    (dword (dins 0x03 0 0 0 0 0)).ok = false ∧
    (let th := { threadOf [] with pc := 512 }; let s := drig 0 [] []; (s.codeOf th).size ≤ th.pc ∧ th.hold = .none ∧ (threadOf []).pc < (s.codeOf th).size) := by
  refine ⟨fun w h => ⟨all_issue (f := fun w => drig w [] (List.replicate 7 0)) (by decide +kernel) w h,
    all_issue (f := fun w => drig w [] (List.replicate 8 0)) (by decide +kernel) w h, all_issue (f := fun w => drig w [] []) (by decide +kernel) w h⟩, by decide +kernel⟩

/-- The memory, launch and copy instructions of a thread in context 1 with its first 4 GiB mapped in the hub's TLB. -/
def drigM (w : Word) (x : SMap Word) : State :=
  let s := drig w x []
  let s := { s with trn := { s.trn with hub := [⟨1, 0, 2 ^ 32, 0, 0⟩] } }
  (s.wr (R.ctxCfg 1) 0x4000000000000001).wr (R.ctxSegCfg 1 0) (0xF8000000000#64 ||| 0x100000#64)

def memWords : List Word := [dins 0x28 31 0 0 3 8, dins 0x29 0 0 30 3 8, dins 0x34 31 30 29 2 0, dins 0x30 0 0 0 0 0, dins 0x31 0 0 30 0 1, dins 0x33 0 0 0 0 0]

theorem test_witness_DispatchMemoryAndLaunches :
    (∀ w ∈ memWords, ∃ th r, (drigM w [(30, 1)]).DIssues 127 th (dword w) r) ∧
    (∀ w ∈ memWords, ∃ th r, ((drigM w [(30, 1)]).hostIn noHost).DIssues 127 th (dword w) r) ∧
    (memWords.map (fun w => (dword w).op)) = [0x28, 0x29, 0x34, 0x30, 0x31, 0x33] ∧
    (let s := drigM 0 []; (match (s.vaRead (hubUser 1) 8 8).1 with | .inl _ => true | .inr _ => false) = true ∧
      (match (s.vaRead (hubUser 1) (2 ^ 47) 8).1 with | .inl _ => true | .inr _ => false) = false ∧ 8 % 2 ^ 3 = 0 ∧ 7 % 2 ^ 3 ≠ 0 ∧
      (match (s.xlate .hub 2 1 8 needW).1 with | .ok pa _ => decide (s.placeOf pa = .localMem) | .fault _ _ => false) = true ∧
      (match (s.pageWrite (hubUser 1) 0x2000 [1]).1 with | none => true | some _ => false) = true) := by
  refine ⟨all_issue (by decide +kernel),
    all_issue (by decide +kernel), by decide +kernel⟩

/-- SIGNAL and WAIT of semaphore 65535 here and on node 1; DUMP with no request and with request 15 matching; a dump that waits. -/
theorem test_witness_DispatchSemaphoresAndDumps :
    (∀ w ∈ [dins 0x38 31 30 29 0 0, dins 0x39 31 30 29 0 0, dins 0x48 31 30 29 0 9], ∃ th r, (drig w [(30, 65535)] []).DIssues 127 th (dword w) r) ∧
    semLayoutBad 65535 = false ∧ semLayoutBad 0x8001FFFF = false ∧ semLayoutBad 0x10000 = true ∧
    (let w := dword (dins 0x48 31 30 29 0 9); let th := threadOf [];
      let s := (rig.wr (R.dbgDumpCfg 15) 0xC000000000000000).wr (R.dbgDumpId 15) 9;
      rig.dumpMatch th w = none ∧ s.dumpMatch th w = some 15) ∧
    (let x : Dumping := ⟨127, 15, 0, 0, 9, 0, 0, 0⟩; let th := { threadOf [] with hold := .dump };
      let s := (disp [] [(1, some (cmdAt 1 .running))] [(127, some th)]);
      let h := { s with dbg := { dbgReset with dumps := [x] } }.hostIn noHost;
      h.dbg.dumps.find? (fun x => x.thread = 127) = some x ∧ h.thread 127 = some th ∧ th.hold = .dump ∧ h.programBusy th = false) := by
  refine ⟨all_issue (by decide +kernel), by decide +kernel⟩

/-- The seven ticket instructions on the last ticket; no free ticket is found when none is looked at. -/
def tktWords : List Word :=
  [dins 0x40 31 0 0 0 0, dins 0x41 31 30 0 0 0, dins 0x42 31 30 29 6 0, dins 0x43 31 30 29 10 0, dins 0x44 31 0 29 255 1, dins 0x45 31 0 29 0 0, dins 0x46 31 0 29 0 0]

theorem test_witness_TicketInstructions :
    (∀ w ∈ tktWords, ∃ th r, (drigM w [(30, 0xFFFFF)]).DIssues 127 th (dword w) r) ∧
    (∀ w ∈ tktWords, ∃ th r, ((drigM w [(30, 0xFFFFF)]).hostIn noHost).DIssues 127 th (dword w) r) ∧
    (tktWords.map (fun w => (dword w).op)) = [0x40, 0x41, 0x42, 0x43, 0x44, 0x45, 0x46] ∧
    (let s := drigM 0 []; s.tktFree 0 1 = some 0 ∧ (s.tktRead 0xFFFFF).2.1 = false ∧
      (match (s.tktMine 1 0xFFFFF).1 with | .inl none => true | _ => false) = true ∧
      (match (s.vaRead (hubUser 1) 0 0).1 with | .inl _ => true | .inr _ => false) = true) := by
  refine ⟨all_issue (by decide +kernel),
    all_issue (by decide +kernel), by decide +kernel⟩

/-! ### Semaphores, Mainline, the host link -/

/-- A semaphore in each state with waiters; the writes R424 allows; a snapshot asked for. -/
theorem test_witness_SemaphoreRegisters :
    (∀ st ∈ [0, 1, 2], let s := rig.wr (R.semCfg 65535) (BitVec.ofNat 64 (st * 2 ^ 62 + 1 * 2 ^ 42))
      canonB s = true ∧ s.semState 65535 = st ∧ serves s 0 (R.semCfg 65535) true ∧ serves s 0 (R.semValue 65535) true ∧
      serves s 0 R.dbgSemSel true ∧ s.semWaiters 65535 = [] ∧ s.fld (R.semCfg 65535) 53 42 = 1 ∧
      fld (BitVec.ofNat 64 (2 ^ 62 + 2 ^ 42)) 63 62 = 1 ∧ fld (BitVec.ofNat 64 (2 ^ 62 + 2 ^ 42)) 53 42 = 1) ∧
    ((rig.wr (R.ctxCfg 1) 0x4000000000000001).fld (R.ctxCfg 1) 63 62 = 1) ∧ (rig.fld (R.ctxCfg 1) 63 62 ≠ 1) ∧
    (let w : Waiter := ⟨0, 1, 12287, 5, 0, 3⟩; let s := { rig with sem := { semReset with waiters := [(65535, List.replicate 64 w)], snapping := some 65535 } };
      canonB s = true ∧ (s.semWaiters 65535)[63]? = some w ∧ s.sem.snapping = some 65535) := by decide +kernel

theorem test_witness_ForcedSemaphoreValues :
    (∀ st ∈ [0, 1], let s := rig.wr (R.semCfg 65535) (BitVec.ofNat 64 (st * 2 ^ 62))
      canonB s = true ∧ s.fnExists 0 = true ∧ SMap.get false s.pci.d3 0 = false ∧ s.answers = true ∧ s.fld R.conStatus 3 0 ≠ 0 ∧ s.drained = false ∧
      s.semState 65535 = st) ∧
    (let s := { rig with pci := { pciReset with numVfs := 63, vfEnable := true } }.wr (R.semCfg 65535) 0x4000000000000000;
      canonB s = true ∧ s.fnExists 63 = true ∧ s.fld (R.semCfg 65535) 59 54 ≠ 63 ∧ SMap.get false s.pci.d3 63 = false ∧ s.answers = true) := by
  decide +kernel

/-- Node 0 of a mesh of two by two with port 7 in a state. -/
def mesh (p st : Nat) : State := { rig with con := { conReset with meshW := 2, meshH := 2 } }.setPort p st 8

/-- A port that takes a role and one that may not; training that ends, with the expected peer, another and none; a retrain; the eighth replay; a
timetable at its frame and before it; an overrun slot with an owner and without. -/
theorem test_witness_PortsAndFrames :
    (let s := mesh 0 0; serves s 0 (R.mlnPortCfg 0) true ∧ (s.portState 0 = 0) ∧ s.facesMesh 0 = true ∧ (mesh 0 1).portState 0 = 1 ∧
      serves (mesh 0 1) 0 (R.mlnPortCfg 0) true ∧ s.facesMesh 7 = false) ∧
    (let s := mesh 0 1; s.portState 0 = 1 ∧ s.portUsable 0 = false ∧
        ({ s with mln := { s.mln with retraining := [0] } } : State).portUsable 0 = true ∧ (0x01 : Byte).toNat = stepTo s.con.node 0 ∧ (mesh 0 3).portUsable 0 = false ∧
      (s.setFld (R.mlnPortStatus 0) 23 16 1).portLanes 0 = 8) ∧
    (let s := (mesh 0 3).wr (R.mlnPortCfg 0) 1; s.portState 0 = 3 ∧ s.fld (R.mlnPortCfg 0) 1 0 = 1) ∧
    (let x : Timetable := ⟨1, 5, [], [], []⟩; let s := { rig with mln := { mlnReset with pending := some x } };
      s.mln.pending = some x ∧ s.mln.slot = 0 ∧ s.fld R.mlnFrame 47 0 < x.activate ∧ x.activate ≤ (s.wr R.mlnFrame 5).fld R.mlnFrame 47 0) ∧
    (let s := { mesh 7 2 with mln := { (mesh 7 2).mln with slotMap := [(4096 * 7 + 4095, 5)], replays := [(7, 7)] } };
      s.portState 7 = 2 ∧ SMap.get 0xFFFF s.mln.slotMap (4096 * 7 + 4095) < 0xFFFE ∧ 0xFFFE ≤ SMap.get 0xFFFF s.mln.slotMap (4096 * 7 + 4094) ∧
      8 ≤ SMap.get 0 s.mln.replays 7 + 1 ∧ s.portUp 7 = true) := by decide +kernel

/-- A one-byte WRITE, READ, signal, ACK, READ_RSP and NOTICE from node 1 to node 0. -/
def msgOf (typ : Nat) : Msg :=
  match typ with
  | 1 => ⟨1, 2, false, false, 1, 0, 0, 0xFFFF, 511, 1, 63, 0, 0, 0, [7]⟩
  | 2 => ⟨2, 2, false, false, 1, 0, 0, 0xFFFF, 511, 1, 63, 0, 0, 0, []⟩
  | 3 => ⟨3, 3, false, false, 1, 0, 0, 0, 0, 1, 0, 0, 0, 0, [7]⟩
  | 4 => ⟨4, 0, false, false, 1, 0, 0, 0, 0, 0, 63, 0, 0, 0, List.replicate 32 0⟩
  | 5 => ⟨5, 0, false, false, 1, 0, 0, 0, 0, 0, 0, 0, 0, 0, []⟩
  | _ => ⟨6, 0, false, false, 1, 0, 0, 0, 0, 0, 0, 0, 0, 0, 7 :: List.replicate 31 0⟩

/-- Well-formed messages for this node and another, in sequence, ahead of it, behind it, held already, and from a source that needs a reset. -/
theorem test_witness_MainlineMessages :
    (∀ typ ∈ [1, 2, 3, 4, 5, 6], (msgOf typ).typ = typ ∧ (msgOf typ).dst = rig.con.node ∧ (msgOf typ).malformed = false ∧ (msgOf typ).wf = true) ∧
    ({ msgOf 1 with len := 513 } : Msg).malformed = true ∧ ({ msgOf 1 with dst := 1 } : Msg).dst ≠ rig.con.node ∧
    (SMap.get 0 rig.mln.expect 1 = 0 ∧ (0 + 2 ^ 16 - 0) % 2 ^ 16 = 0 ∧ (0x7FFF + 2 ^ 16 - 0) % 2 ^ 16 < 2 ^ 15 ∧ 2 ^ 15 ≤ (0x8000 + 2 ^ 16 - 0) % 2 ^ 16) ∧
    rig.mln.needReset.contains 1 = false ∧ rig.mln.hold.any (fun h => decide (h.src = 1) && decide (h.seq = 0)) = false ∧
    ((mesh 2 2).outPort ⟨1, 2, false, false, 0, 0x10, 0, 0xFFFF, 511, 1, 63, 0, 0, 0, [7]⟩).isSome = true ∧
    rig.outPort ⟨1, 2, false, false, 0, 0x10, 0, 0xFFFF, 511, 1, 63, 0, 0, 0, [7]⟩ = none ∧
    (let s := { rig with mln := { mlnReset with performed := [(1, 1)] } }; s.dead 1 = false ∧ 1 ≠ s.con.node ∧ SMap.get 0 s.mln.performed 1 ≠ 0) ∧
    (let s := mapped { oneCore grp [] with tcopy := [(7, some tslot1)] }; (s.core 191).tslot 7 = some tslot1 ∧ tslot1.fault = none) ∧
    (let x : Copy := ⟨1, none, 1, 0, 1, 1, 0xFFFF, 0, none, 1⟩;
      let r : MlnRead := ⟨0, 1, .copy 1, 0, 1, none⟩;
      let s := { rig with dsp := { dspReset with copies := [(1, some x)] }, mln := { mlnReset with reads := [r] } };
      s.copy? 1 = some x ∧ s.mln.reads.find? (fun r => decide (r.tag = 0) && decide (r.dest = 1) && r.got.isNone) = some r ∧ s.mln.reads.find? (fun r => decide (r.who = .copy 1)) = some r ∧ (s.readerXfer r.who).isSome = true) := by
  decide +kernel

theorem test_witness_MainlineNotices :
    (∀ k ∈ [1, 2, 3, 4, 5, 6, 7], let m := { msgOf 6 with data := BitVec.ofNat 8 k :: List.replicate 31 0 }
      m.typ = 6 ∧ m.malformed = false ∧ m.part 0 1 = k ∧ m.dst = rig.con.node) ∧
    ({ msgOf 6 with data := [] } : Msg).malformed = true ∧
    (let f : Flow := ⟨5, 0, 1, 1, 0, 0, 1, 0, 0, false⟩; let s := { rig with mln := { mlnReset with flows := [f] } };
      s.flow? 5 = some f ∧ f.state < 2 ∧ s.flow? 6 = none ∧ 1 ≤ f.state) ∧
    ({ rig with mln := { mlnReset with needReset := [1] } } : State).mln.needReset.contains 1 = true := by decide +kernel

/-- A function that exists, one that does not; a part that answers and one that does not; the window open, closed and enabled; a host read that
ends. -/
theorem test_witness_FunctionsAndHostWindow :
    (let s := { rig with pci := { pciReset with numVfs := 63, vfEnable := true, reqs := [⟨767, 0, 0, 4, .fetch 191 63 0, 0⟩] } };
      s.fnExists 63 = true ∧ rig.fnExists 63 = false ∧ s.answers = true ∧ State.reset.answers = false ∧
      ({ rig with boot := { rig.boot with stopped := true } } : State).answers = false ∧ s.windowOpen = true ∧ State.reset.windowOpen = false ∧
      s.flag R.pciWinCfg 8 = false ∧ (s.setFlag R.pciWinCfg 8).flag R.pciWinCfg 8 = true ∧
      (s.pci.reqs.find? (fun r => decide (r.tag = 767))).isSome = true ∧ s.inPool 0 1 = false ∧ 63 ≤ { s.con with totalVfs := 63 }.totalVfs) ∧
    (let s := rig.setFld R.pwrBootStatus 19 16 4; s.boot.perst = false ∧ s.boot.stopped = false) := by decide +kernel

/-! ### Starting, resetting, power -/

/-- The module at a step of its start, in the state of the consist. -/
def booting (step con : Nat) : State :=
  { (State.reset.toStep step).setFld R.conStatus 3 0 con with boot := { bootReset with power := true, main := true } }

theorem test_witness_StartUp :
    State.reset.boot.power = false ∧ State.reset.boot.made = false ∧ canonB State.reset = true ∧
    ({ State.reset with boot := { bootReset with made := true } } : State).boot.made = true ∧
    (let s := { booting 2 0 with mgt := { mgtReset with running := some 1 } }; s.mgt.running.isSome = true ∧
      ({ s with boot := { s.boot with main := false } } : State).boot.main = false ∧ s.boot.converters = false) ∧
    (let s := booting 3 0; s.bootStep = 3 ∧ s.boot.pll < 3 ∧ 3 ≤ { s.boot with pll := 3 }.pll) ∧
    (let s := booting 4 1; s.bootStep = 4 ∧ s.fld R.conStatus 3 0 = 1 ∧ s.boot.stopped = false ∧ s.boot.waiting = false ∧ canonB s = true) ∧
    (let s := booting 5 1; s.bootStep = 5 ∧ s.fld R.conStatus 3 0 = 1 ∧ s.boot.stopped = false ∧ (s.baseFault 0 true).isSome = true ∧
      (s.baseFault 1 true).isSome = true) ∧
    (let s := (booting 7 1).setFld R.conStartSlot 3 0 0xF; s.bootStep = 7 ∧ s.fld R.conStartSlot 3 0 = 0xF ∧ s.fld R.conStatus 3 0 = 1 ∧
      s.boot.stopped = false) ∧
    (let s := (booting 7 1).setFld R.conStartSlot 3 0 7; (s.verifySlot (ovlSlot 7) 0x100000 2 s.conCounter true).isSome = true) ∧
    (booting 8 1).bootStep = 8 := by decide +kernel

theorem test_witness_ResetsAndPowerLoss :
    (booting 4 2).bootStep = 4 ∧ (booting 3 0).bootStep < 4 ∧ (booting 4 2).boot.main = true ∧ (booting 4 2).drained = false ∧
    ((booting 4 2).setFlag R.pwrDrain 1).drained = true ∧ canonB (booting 9 2) = true ∧ (booting 9 2).boot.power = true ∧
    rig.boot.perst = false ∧ (booting 4 2).boot.perst = true ∧ (booting 9 2).boot.warm = none ∧
    ({ rig with boot := { rig.boot with stopped := true } } : State).boot.stopped = true ∧
    (let s := { rig with boot := { rig.boot with drain := true } }; s.boot.drain = true ∧ s.entriesGone = true) ∧
    serves rig 0 R.pwrDrain true ∧ serves rig 0 R.pwrUnitReset true ∧ rig.coreIdle 191 = true ∧
    ((coresOf 15).all rig.coreIdle && !rig.stepOpen 15) = true ∧ (mesh 7 2).flag R.pwrUnitReset 30 = false ∧
    (rig.wr (R.mlnPortCfg 7) 1).fld (R.mlnPortCfg 7) 1 0 = 1 ∧ (rig.setFlag (R.ethPortCfg 1) 55).flag (R.ethPortCfg 1) 55 = true ∧
    (rig.setTemp 10 (heatSensors 10).head!.2 0x7FFF).tripped 10 = true := by decide +kernel

/-! ### Registers, the consist, power and heat -/

/-- Aligned and misaligned accesses at the last register; accesses that act, are refused, unsupported, absent and foreign. -/
theorem test_witness_MisalignedAccessesAreUnsupported :
    0x1FFFFF8 < 0x2000000 ∧ 0x1FFFFF8 % 8 = 0 ∧ 0x1FFFFFC % 4 = 0 ∧ ¬(0x1FFFFFA % 4 = 0) ∧ serves rig 0 (0x1FFFFFC / 8 * 8) true ∧
    serves rig 0 (0x1FFFFFC / 8 * 8) false ∧ (0x1FFFFFC / 8 * 8) ≠ R.cchSetwayCmd ∧ (0x1FFFFFC / 8 * 8) ≠ R.dbgMemData := by decide +kernel

theorem test_witness_RegistersReadAndWritten :
    ((0xFFFFFFFF : Word) &&& ~~~0xFFFFFFFF = 0) ∧
    (let f (a : Acc) : List RegField := [⟨63, 63, a, .none⟩]; (accMask (f .rw) .rw).getLsbD 63 = true ∧ (accMask (f .rw1c) .rw1c).getLsbD 63 = true ∧
      (accMask (f .rw1s) .rw1s).getLsbD 63 = true ∧ (accMask (f .rw) .rc).getLsbD 63 = false) ∧
    (let s := { rig with sec := { secReset with opened := 1 } }; serves s 0 (R.coreMxStep 191) false ∧
      s.coreLocked (R.coreMxStep 191) = false ∧ rig.coreLocked (R.coreMxStep 191) = true ∧ (findReg (R.coreMxStep 191)).isSome = true ∧
      (findReg (R.coreMxStep 191)).all (fun r => accMask r.fields .rc = 0) = true) ∧
    (serves rig 0 R.dbgMemData false ∧ serves rig 0 R.dbgMemData true ∧ rig.unlocked.testBit 1 = false) ∧
    (let s := { rig with sec := { secReset with opened := 2 } }.wr R.dbgMemAddr 8; s.unlocked.testBit 1 = true ∧ inLocal 8 8 = true ∧
      (s.memRead 8 8 7 s.debugSlot true).2.1 = false ∧ serves s 0 R.dbgMemData true ∧ inLocal (2 ^ 40) 8 = false ∧ inAlias (2 ^ 40) = false) ∧
    (let v := { rig with pci := { pciReset with numVfs := 1, vfEnable := true } };
      v.reach 1 R.conControl true = .refused ∧ v.reach 1 (R.semCfg 0) true = .semRefused ∧ v.reach 0 0xD01040 false = .foreign ∧
      v.reach 2 R.conControl true = .noFunction ∧ State.reset.reach 0 R.conControl true = .absent ∧ (rig.setFld R.conStatus 3 0 0).reach 0 R.dspControl true = .unsupported ∧ goodAccess 0xD01040 8 = true) := by decide +kernel

theorem test_witness_ConsistSwitchesAndClocks :
    (∀ st ∈ [2, 3, 4], let s := rig.setFld R.conStatus 3 0 st; serves s 0 R.conControl true ∧ s.fld R.conStatus 3 0 = st) ∧
    (fld (BitVec.ofNat 64 (1 + 15 * 256)) 11 8 = 15 ∧ fld (BitVec.ofNat 64 (1 + 8 * 256)) 11 8 = 8 ∧ fld (BitVec.ofNat 64 (1 + 7 * 256)) 11 8 = 7) ∧
    (let s := { rig.setFld R.conStatus 3 0 3 with con := { conReset with reqSlot := 0xF } }; s.fld R.conStatus 3 0 = 3 ∧ s.con.next = none ∧
      s.con.reqMem = false ∧ s.con.reqSlot = 0xF ∧ s.mgt.update = none ∧ s.switchQuiet = true) ∧
    (({ conReset with reqSlot := 2 } : Consist).reqSlot ≠ 0xF ∧ ({ conReset with reqMem := true, reqLen := 0x100000 } : Consist).reqMem = true) ∧
    (let s := (rig.setFld R.conStatus 3 0 3).wr R.conQuiesceLimit 1; let t := s.wr R.clkTsNow 1000;
      s.con.asked + 1000 * 1 ≤ t.now ∧ (s.wr R.clkTsNow 999).now < s.con.asked + 1000 * 1 ∧ s.con.quiet = false ∧
      ({ t with dsp := { t.dsp with launches := [(1, some launch1)] } } : State).switchQuiet = false) ∧
    (let s := { rig.setFld R.conStatus 3 0 3 with con := { conReset with next := some ([], 0) } }; s.switchQuiet = true ∧ s.con.next = some ([], 0) ∧
      s.fld R.conStatus 3 0 = 3) ∧
    (serves rig 0 R.trnMode true ∧ (rig.setFlag R.ethStatus 0).quiesced = true ∧ rig.cmdList = []) ∧
    ((1000 : BitVec 16).toInt.natAbs ≤ 1000 ∧ ¬((1001 : BitVec 16).toInt.natAbs ≤ 1000) ∧ rig.boot.main = true) ∧
    (let s := onCore { Core.empty with stores := [store1] }; stallOk 1 (stallInstance 1 191) = true ∧ s.cutOff 1 (stallInstance 1 191) = false ∧
      (0, 2) ∈ groupSides 1 ∧ s.halfWaits 1 191 = true ∧ rig.halfWaits 1 191 = false ∧ (5, 7) ∈ groupSides 8 ∧ rig.halfWaits 8 0 = true) ∧
    (7 ∈ [0, 1, 6, 7] ∧ rig.mem.events = [] ∧ 8 ∉ [0, 1, 6, 7]) := by decide +kernel

theorem test_witness_PowerAndHeat :
    canonB rig = true ∧ rig.boot.main = true ∧ SMap.wf (fun _ => (0 : Nat)) rig.pwr.dieOver = true ∧ SMap.wf (fun _ => (0 : Nat)) rig.pwr.calm = true ∧
    (let s := { rig with pwr := { pwrReset with excursionUs := 10, excursionW := 1, above := 49, steps := [(2, 3)], calm := [(2, 1000)], dieOver := [(1, 1000)] } };
      3 ≤ s.curStep 2 ∧ s.curStep 0 < 3 ∧ (s.sampled 1001 0 0).stepDue = true ∧ (s.sampled 1000 0 0).stepDue = false ∧
      (({ s with pwr := { s.pwr with excursionUs := 1, above := 0 } } : State).sampled 1000 0 0).stepDue = true ∧
      (({ s with pwr := { s.pwr with excursionUs := 1, above := 0 } } : State).sampled 999 0 0).stepDue = false ∧
      1000 ≤ SMap.get 0 s.pwr.calm 2 ∧ 1000 ≤ SMap.get 0 s.pwr.dieOver 1 ∧ SMap.get 0 s.pwr.dieOver 0 < 1000) ∧
    (rig.rd R.pwrGateIdle ≠ 0 ∨ (rig.wr R.pwrGateIdle 1).rd R.pwrGateIdle ≠ 0) ∧
    (let s := (rig.wr R.pwrGateIdle 1).wr R.clkTsNow 1000; s.laneMask.testBit 15 = false ∧ s.pwr.gated.contains 15 = false ∧
      SMap.get 0 s.pwr.lastBlock 15 + 1000 * (s.rd R.pwrGateIdle).toNat ≤ s.now) ∧
    (heatReached 0 (rig.hottest 0).2 ≤ rig.heatStep 0) ∧ rig.fld R.conStatus 3 0 = 2 ∧
    ((rig.setFld R.conStatus 3 0 1).fld R.conStatus 3 0 ≤ 1) := by decide +kernel

/-! ### Maintenance, security, management, samples, Ethernet -/

/-- A window of channel 255; an overrun with and without a lane entry in service; parts at their limit, below it, and with nothing left;
rows waiting to be spared; a ledger snapshot. -/
theorem test_witness_MaintenanceRetirementAndLedgers :
    (let s := { rig with mln := { mlnReset with windows := [(255, 0, 1)] } }; (∃ w ∈ s.mln.windows, w.1 = 255 ∧ ((s.now - s.mln.frameAt) % 262144 + 262144 - w.2.1 % 262144) % 262144 < w.2.2) ∧
      ¬(∃ w ∈ s.mln.windows, w.1 = 255 ∧ (((s.wr R.clkTsNow 1).now - s.mln.frameAt) % 262144 + 262144 - w.2.1 % 262144) % 262144 < w.2.2) ∧ ∀ w ∈ s.mln.windows, w.1 ≠ 254) ∧
    (let c := { cmdAt 2 .running with lane := some 7, started := true }; let s := disp [] [(1, some c)] [];
      ∃ e ∈ s.cmdList, e.2.lane.isSome = true ∧ e.2.inService = true) ∧
    (let p : Part := .way 1 31 15; let s := (rig.wr (R.rasPolicy p.kind) 0x100010001).partEvent 2 1023;
      s.fld (R.rasPolicy p.kind) 23 16 = 1 ∧ s.fld (R.rasPolicy p.kind) 15 0 ≤ s.partEvents p ∧ 0 < s.partEvents p ∧
      s.flag (R.cchWayRetired 63) 15 = false ∧ ones 16 (s.fld (R.cchWayRetired 63) 15 0) < 8 ∧ rig.partEvents p = 0 ∧
      ¬(ones 16 ((s.wr (R.cchWayRetired 63) 0xFF).fld (R.cchWayRetired 63) 15 0) < 8)) ∧
    (let s := { rig.wr (R.memSpareLeft 7) 1 with ras := { rasReset with sparing := [255 * 2 ^ 48] } };
      canonB s = true ∧ s.rd (R.memSpareLeft 7) ≠ 0 ∧ s.ras.sparing.find? (fun r => decide (r / 2 ^ 48 = (255 : Byte).toNat)) = some (255 * 2 ^ 48)) ∧
    (serves rig 0 R.rasSnap true ∧ rig.flag R.rasStatus 8 = false) ∧
    (let l := List.replicate 44 0 ++ [3, 1, 1, 1]; let s := { rig with ras := { rasReset with snap := some (l, 2 ^ 11) } };
      s.ras.snap = some (l, 2 ^ 11) ∧ ledgerFaults l (2 ^ 11) = 0 ∧ ledgerFaults (List.replicate 44 0 ++ [3, 1, 1, 0]) (2 ^ 11) = 2 ^ 11) := by
  decide +kernel

/-- The 4,096 contexts of a fresh machine are free. -/
theorem reset_ctxCfg (n : Nat) (h : n < 4096) : resetOf (R.ctxCfg n) = 0 := by
  unfold resetOf
  repeat rw [if_neg (by
    first
    | (simp only [R.ctxCfg, R.glbIdentity, R.conStatus, R.conControl, R.conStartSlot, R.conQuiesceLimit, R.clkStatus, R.clkDividers,
        R.pwrGateIdle, R.pwrResetCause, R.mgtEolWarn, R.dbgSurveyCtl, R.dspBorrowLimit, R.dspStatus, R.dspShareLag, R.ethStatus]; omega)
    | (simp [inArray, R.ctxCfg, R.seqBarGuard, R.seqLockGuard, R.queCqTail, R.queStatus, R.memSpareLeft]; omega))]

theorem rig_ctxCfg (n : Nat) (h : n < 4096) : rig.rd (R.ctxCfg n) = 0 := by
  have e : rig.regs = [(R.conStatus, 0x0F000002)] := by decide +kernel
  have g : SMap.get (resetOf (R.ctxCfg n)) rig.regs (R.ctxCfg n) = resetOf (R.ctxCfg n) := by
    rw [e]; simp only [SMap.get]; rw [if_neg (by simp only [R.ctxCfg, R.conStatus]; omega)]; split <;> rfl
  rw [State.rd, g, reset_ctxCfg n h]

/-- A tenant none of whose contexts is in use: a slot below 64 may then take a new key. -/
theorem test_witness_KeyChangeOfATenant (n : Nat) (h : n < 4096) : rig.tenantOf n = 0 ∧ rig.ctxState n = 0 := by
  simp [State.tenantOf, State.ctxState, State.fld, rig_ctxCfg, Nat.mod_eq_of_lt h, h, fld, nfld]

/-- SEC_CONTROL reached in RUNNING and out of it; a token being checked; an unlock at its end; key slots 1, 64, 65. -/
theorem test_witness_SecurityControls :
    (canonB rig = true ∧ serves rig 0 R.secControl true ∧ rig.fld R.conStatus 3 0 = 2 ∧ (rig.setFld R.conStatus 3 0 3).fld R.conStatus 3 0 ≠ 2 ∧
      serves (rig.setFld R.conStatus 3 0 3) 0 R.secControl true ∧ rig.sec.checking = none ∧ serves rig 0 R.secNonce false) ∧
    (let s := { rig with sec := { secReset with checking := some (List.replicate 18 0) } }; s.sec.checking.isSome = true ∧
      s.tokenErr (tokenBytes (List.replicate 18 0)) = 1) ∧
    (let s := { rig with sec := { secReset with scopes := 1, until_ := 5 } }.wr R.clkTsNow 5; s.sec.scopes ≠ 0 ∧ s.sec.until_ ≤ s.now ∧
      ¬(s.sec.until_ ≤ (s.wr R.clkTsNow 4).now)) ∧
    (serves rig 0 R.secKeyCmd true ∧ rig.sec.rekeying = none ∧ 0 < 1 ∧ 1 ≤ 64 ∧ (rig.setFlag R.ethStatus 0).quiesced = true) ∧
    ({ rig with sec := { secReset with rekeying := some 64 } } : State).sec.rekeying = some 64 := by decide +kernel

/-- A running controller with its media; each SPDM progress; an update by its medium with and without a passed component; sensors of each sort. -/
theorem test_witness_SpdmAndManagementMessages :
    (let s := { rig with mgt := { mgtReset with running := some 0 } }; let up := s.setFlag R.pciStatus 10;
      s.spdmServed .smbus = true ∧ s.spdmServed .pcie = false ∧ up.spdmServed .pcie = true ∧ up.spdmServed .doe = true ∧ s.mctpServed .smbus = true ∧
      up.mctpServed .pcie = true ∧ up.mctpServed .doe = false ∧ s.mgt.update = none ∧ s.boot.main = true) ∧
    (∀ p ∈ [0, 1, 2, 3], SMap.get 0 ({ secReset with spdm := SMap.put 0 [] Medium.doe.num p } : SecState).spdm Medium.doe.num = p) ∧
    (∀ l ∈ [[], [0x10]], let u : Update := ⟨.pcie, l, [], true⟩; let s := { rig with mgt := { mgtReset with running := some 0, update := some u } }
      s.updateOf .pcie = some u ∧ s.updateOf .smbus = none) ∧
    ((sensorOf 0x207).isSome = true ∧ sensorOf 0xFFFF = none) ∧
    ((List.replicate 29 0).length < 30) := by decide +kernel

/-- A sample that is due and one that is not, with room and without; sets 0 and 213; a trace at its last record; a survey asked for, at work and
latched; the test port while PERST# is low. -/
theorem test_witness_SamplesTraceSurveysAndTestPort :
    (let s := (rig.wr R.dbgSampleCfg (BitVec.ofNat 64 (2 ^ 63 + 1))).wr (R.dbgSetEn 3) (BitVec.ofNat 64 (2 ^ 21));
      s.flag R.dbgSampleCfg 63 = true ∧ s.now % (1000 * max 1 (s.fld R.dbgSampleCfg 19 0)) = 0 ∧
      (s.wr R.clkTsNow 999).now % (1000 * max 1 (s.fld R.dbgSampleCfg 19 0)) ≠ 0 ∧ s.enabledSets = [213] ∧ s.sampleRoom = 0 ∧
      (s.wr R.dbgSampleSize 512).sampleRoom = 1 ∧ (s.setShown 213).2.2.2.length = 24) ∧
    (serves rig 0 (R.dbgSetCfg 213) true ∧ serves rig 0 R.dbgTraceCtl true ∧ serves rig 0 R.dbgSurveyCtl true) ∧
    (let s := { rig.wr R.dbgTraceCfg 3 with dbg := { dbgReset with postLeft := some 0 } }; s.fld R.dbgTraceCfg 1 0 = 3 ∧ s.dbg.postLeft = some 0) ∧
    (let s := rig.wr R.dbgTraceCfg 0x103; let n := rig.wr R.dbgTraceCfg 0x102; s.flag R.dbgTraceCfg 8 = true ∧ s.flag R.dbgStatus 4 = false ∧
      ((s.traceWrite ⟨0x0C, 9, 0, 0, 0, 0, 0⟩).setFlag R.dbgStatus 4).fld R.dbgTraceCfg 1 0 = 3 ∧
      n.flag R.dbgTraceCfg 8 = true ∧ ((n.traceWrite ⟨0x0C, 9, 0, 0, 0, 0, 0⟩).setFlag R.dbgStatus 4).fld R.dbgTraceCfg 1 0 ≠ 3 ∧
      rig.traceSlots = 0 ∧ (s.wr R.dbgTraceSize 16).traceSlots ≠ 0) ∧
    (let t := rig.wr R.dbgSurveyBase 64; t.flag R.dbgStatus 6 = false ∧ t.flag R.dbgStatus 7 = false ∧ t.fld R.dbgSurveyBase 55 0 ≠ 0 ∧
      rig.fld R.dbgSurveyBase 55 0 = 0) ∧
    (let s := { rig with dbg := { dbgReset with survey := some 4 } }; s.dbg.survey = some 4 ∧ s.dbg.latched = false ∧
      ({ s.dbg with latched := true } : DbgState).latched = true) ∧
    (let s := { rig with boot := { rig.boot with perst := true, waiting := true } }; s.boot.perst = true ∧ s.boot.waiting = true) := by decide +kernel

/-- A queue pair of port 0 in RTS with one entry at work, and with one to send. -/
def wqe1 : Wqe := ⟨0, 1, 1, 0, 0, 1, 0, 0, 5, 5, 0, false⟩
def qp1 : Qp := ⟨1, 4, 0, 0, 0, 0, 0, 0, 0, 0, 0, 9, 0, 0, 0, 4, 4, 6, 7, 1, 1, 0, [wqe1], 0, 0, 400000, 0⟩
def qpRig : State :=
  { rig with eth := { ethReset with qps := [(4095, some qp1)] } }.wr (R.ethQpStatus 4095) 0x4000000000000000 |>.setFlag R.ethStatus 8
    |>.setFlag (R.ethPortCfg 0) 55

theorem test_witness_QueuePairsAndSends :
    (let s := qpRig; canonB s = true ∧ s.qp 4095 = some qp1 ∧ s.qpState 4095 = 1 ∧ serves s 0 (R.ethQpCmd 4095) true ∧
      serves s 0 (R.ethQpDb 4095) true ∧ qp1.flags.testBit 2 = true ∧ (s.hostIn noHost).maySend 4095 qp1 = true ∧
      15 < 2 ^ qp1.sqLog ∧ ¬(16 < 2 ^ qp1.rqLog) ∧ qp1.flight.find? (fun v => !v.acked) = some wqe1 ∧
      wqe1.sent + 4096 * 2 ^ qp1.timeout ≤ (s.wr R.clkTsNow 4096).now ∧ ¬(wqe1.sent + 4096 * 2 ^ qp1.timeout ≤ (s.wr R.clkTsNow 4095).now) ∧
      qp1.retry % 8 ≤ qp1.tries ∧ qp1.tries < (7 : Nat) % 8 ∧ qp1.flight ≠ []) ∧
    (qpRig.qpState 2 = 0 ∧ (rig.memRead (rig.fld R.ethQpTable 55 0 + 128 * 2) 128 4 0 true).2.1 = false) ∧
    (let b := List.replicate 64 (0 : Byte); let w := wqeOf qp1 b 0; wqeOk 4095 b w = true ∧ w.op = 0 ∧ wqeOk 4095 (List.replicate 64 (255 : Byte)) w = false) ∧
    (let b : List Byte := [1] ++ List.replicate 63 (0 : Byte); wqeOk 4095 b (wqeOf qp1 b 0) = true ∧ (wqeOf qp1 b 0).op = 1) ∧
    (let b : List Byte := [4] ++ List.replicate 63 (0 : Byte); wqeOk 4095 b (wqeOf qp1 b 0) = true ∧ (wqeOf qp1 b 0).op = 4) ∧
    (ringFrom 15 1 4 = [15, 0] ∧ (15 : Nat) ∉ [0] ∧ (Failing.send 3 ≠ .receive)) ∧
    (let s := { rig with eth := { ethReset with paused := [(8, some 0)] } }; s.prioPaused 1 0 = true ∧ rig.prioPaused 1 0 = false) := by decide +kernel

/-- Packets that pass every check of R502, and fail each of them in turn. -/
theorem test_witness_InboundMessages :
    (let s := qpRig; let m : Inbound := ⟨0, 4095, 7, true, false, 0, 0, 0, none, []⟩;
      s.flag (R.ethPortCfg 0) 55 = true ∧ s.flag R.ethStatus (8 + 0) = true ∧ 2 ≤ (m.qp : Nat) ∧ m.icrc = true ∧ s.qp m.qp = some qp1 ∧
      qp1.port = 0 ∧ s.flag (R.ethPortCfg 1) 56 = false ∧ s.qpState m.qp = 1 ∧ m.psn = qp1.recvPsn ∧ (s.gate m).1 = some qp1 ∧
      (s.gate { m with icrc := false }).1 = none ∧ (s.gate { m with psn := 8 }).1 = none ∧ (s.gate { m with qp := 3 }).1 = none ∧
      (s.gate { m with port := 1 }).1 = none) ∧
    (qpRig.rqCi 4095 ≠ qp1.rqPi ∧ qpRig.rqCi 4095 = { qp1 with rqPi := 0 }.rqPi) ∧
    (qpRig.qpState 0 ≠ 1) ∧
    (let b : List Byte := List.replicate 64 (255 : Byte); beNat (b.take 1) % 2 = 1 ∧ beNat ((b.drop 12).take 2) ∉ [0x8100, 0x0800, 0x86DD] ∧
      rig.rawFrame 1 b = true ∧ rig.rawFrame 1 (b.take 63) = false ∧ (rig.wr (R.ethPortCfg 1) (BitVec.ofNat 64 (2 ^ 56))).flag (R.ethPortCfg 1) 56 = true) := by decide +kernel

/-- Pauses that act and are held; a storm at its limit; a queue pair at the end of its wait; a link that changes; an invalidation that runs. -/
theorem test_witness_EthernetPortsAndRegions :
    (let s := (rig.setFlag (R.ethPortCfg 1) 55).setFlag (R.ethPortCfg 1) 47;
      s.flag (R.ethPortCfg 1) 55 = true ∧ s.flag (R.ethPortCfg 1) (40 + 7) = true ∧ ¬(s.now < SMap.get 0 s.eth.ignored 15) ∧
      (SMap.get none s.eth.paused 15).isSome = false ∧ s.flag R.ethStatus 9 = false ∧ canonB s = true) ∧
    (let s := { rig with eth := { ethReset with paused := [(15, some 0)] } }; SMap.get none s.eth.paused 15 = some 0 ∧
      0 + 100000000 ≤ (s.wr R.clkTsNow 100000000).now ∧ (s.wr R.clkTsNow 99999999).now < 0 + 100000000) ∧
    (qpRig.qp 4095 = some qp1 ∧ qp1.rateAt + 55000 ≤ (qpRig.wr R.clkTsNow 55000).now ∧ (qpRig.wr R.clkTsNow 54999).now < qp1.rateAt + 55000) ∧
    (serves rig 0 R.ethRegionInv true ∧ rig.flag R.ethStatus 3 = false ∧ serves rig 0 R.ethControl true) ∧
    (let s := { rig with eth := { ethReset with invalidating := some 65535 } }; s.eth.invalidating = some 65535 ∧ canonB s = true) := by decide +kernel

/-! ### The statements about every step -/

theorem test_witness_StepRunsFrontCommand : ({ rig with pending := [.mainInputValid, .drainDone] } : State).pending = .mainInputValid :: [.drainDone] := rfl
theorem test_witness_IdleStepPassesOneNanosecond : State.reset.pending = [] ∧ State.reset.boot.power = false ∧
    (State.reset.clrFlag R.clkStatus 4).flag R.clkStatus 4 = false ∧
    rig.pending = [] ∧ rig.boot.power = true ∧ (rig.clrFlag R.clkStatus 4).flag R.clkStatus 4 = false ∧
    State.reset.flag R.clkStatus 4 = true ∧ State.reset.cores = [] ∧ State.reset.holding = false := by decide +kernel
theorem test_witness_CommandsLeaveTheQueueAlone : exec .vfEnable rig = .next { rig with pci := { rig.pci with vfEnable := true } } := by rfl
theorem test_witness_EveryStepKeepsCanonicalForm : rig.Canon ∧ ∃ t, step { rig with pending := [.vfEnable] } = .next t :=
  ⟨canon_of (by decide +kernel), _, rfl⟩
theorem test_witness_NothingSentIsUnsent : exec .bypass rig = .next ((rig.emit (.tap 0))) := by rfl
theorem test_witness_FusesNeverUnblow : ({ rig with boot := { rig.boot with made := true } } : State).boot.made = true ∧ ∃ t, step rig = .next t :=
  ⟨rfl, _, rfl⟩
theorem test_witness_OnlyTokensOpenDebugScopes : Instr.relock 0 ≠ .tokenVerifyDone ∧ rig.pending = [] ∧ ∃ t, exec (.relock 0) rig = .next t :=
  ⟨by decide, rfl, _, rfl⟩
theorem test_witness_GroupsStartAsLaunched : 31 < 32 := by decide

/-! ### The manual's worked examples -/

/-- 07, the example after R280: 0x3FA6_6666 to E4M3 by RS with two draws, RN and RZ; R273: −5 in KF6; R281: the ends of the ranges. -/
theorem test_rounding_examples :
    let x := fmtF32.decode 0x3FA66666
    fmtE4M3.round (.rs 5000) false x = 0x3B ∧ fmtE4M3.round (.rs 1000) false x = 0x3A ∧ fmtE4M3.round .rn false x = 0x3A ∧
    fmtE4M3.round .rz false x = 0x3A ∧ fmtKF6.round .rn false (.fin true 5 0) = 0x35 ∧ fmtKF6.decode 0x07 = (FVal.fin false 7 (-4)) ∧
    fmtF16.round .rn false (.fin false 65520 0) = 0x7C00 ∧ fmtF16.round .rn false (.fin false 65519 0) = 0x7BFF ∧
    fmtE4M3.round .rn false (.fin false 464 0) = 0x7E ∧ fmtE4M3.round .rn false (.fin false 465 0) = 0x7F ∧
    fmtE4M3.round .rn true (.fin false 465 0) = 0x7E ∧ fmtE5M2.round .rn false (.fin false 61440 0) = 0x7C ∧
    fmtKF6.round .rn false (.fin false 30 0) = 0x20 ∧ fmtE2M1.round .rn false (.fin true 7 0) = 0xF := by decide +kernel

/-- 09, the example after R356: 2^24 + 1 stays, 2 + 2^24 moves. -/
theorem test_three_additions :
    fmtF32.round .rn false ((fmtF32.decode 0x4B800000).add (fmtF32.decode 0x3F800000)) = 0x4B800000 ∧
    fmtF32.round .rn false ((fmtF32.decode 0x40000000).add (fmtF32.decode 0x4B800000)) = 0x4B800001 := by decide +kernel

/-- 02, the example after R54. -/
theorem test_home_slice : homeDie 0x312345_6780 = 1 ∧ homeSlice 0x312345_6780 = 27 ∧ homeStack 0x312345_6780 = 7 := by decide +kernel

/-- 04, the examples: the fields of the predicated FMA, and the target of the loop branch. -/
theorem test_example_words :
    iFields 0x10A18080A0C00900 = ⟨0x08, 2, true, 12, 4, 5, 6, 0x900⟩ ∧ fmtA 0x10A18080A0C00900 = ⟨false, false, false, false, 2, 2, 0, false, false, false, false, false⟩ ∧
    (iFields 0x60400000001FFFF5).major = 0x30 ∧ sx 21 (iFields 0x60400000001FFFF5).low = -11 := by decide +kernel

/-- 04, the acquire load; 18, the west die's drift: 13,800 ppm left at 2.4 ppm a day, 82 °C against 88 °C; R520's quotients. -/
theorem test_example_values :
    (iFields 0x45C1004009080040).major = 0x22 ∧ (iFields 0x45C1004009080040).srcA = 2 ∧ (fmtM 0x45C1004009080040).size = 2 ∧
    (fmtM 0x45C1004009080040).ord = 1 ∧ (fmtM 0x45C1004009080040).op = 0 ∧ (fmtM 0x45C1004009080040).scope = 2 ∧ (fmtM 0x45C1004009080040).off = 64 ∧
    daysAt 13800 (24, 10) (accel (82 * 16, 1) (88 * 16, 1)) = some 3932 ∧ shareStep 64 = 1024 * 65536 ∧ shareStep 256 = 256 * 65536 ∧
    shareStep 100 = 42949672 := by decide +kernel

end Sys2Proof.Tests
end

/-! What every command and every step keeps, and that each answers a next state. -/

namespace Sys2Proof.Machine

/-- Every command but TOKEN_VERIFY_DONE keeps what `State.Keeps` lists: each meaning has its lemma, and `exec` calls the meaning. -/
theorem exec_keeps (s : State) : ∀ i : Instr, i ≠ .tokenVerifyDone → s.AnsKeeps (exec i s)
  | .registerWrite .., _ => execRegisterWrite_keeps (.refl s)
  | .rcCounterRead .., _ => execRcCounterRead_keeps (.refl s)
  | .standbyPowerOn .., _ => execStandbyPowerOn_keeps (.refl s)
  | .bootRomVerify .., _ => execBootRomVerify_keeps (.refl s)
  | .mainInputValid, _ => execMainInputValid_keeps (.refl s)
  | .convertersSettled .., _ => execConvertersSettled_keeps (.refl s)
  | .rootPllLock, _ => execRootPllLock_keeps (.refl s)
  | .rootPllLockLoss, _ => execRootPllLockLoss_keeps (.refl s)
  | .stackTrainingDone .., _ => execStackTrainingDone_keeps (.refl s)
  | .consistLoad .., _ => execConsistLoad_keeps (.refl s)
  | .startOverlay .., _ => execStartOverlay_keeps (.refl s)
  | .perstAssert, _ => execPerstAssert_keeps (.refl s)
  | .hotReset, _ => execHotReset_keeps (.refl s)
  | .warmResetDomainReset, _ => execWarmResetDomainReset_keeps (.refl s)
  | .perstDeassert, _ => execPerstDeassert_keeps (.refl s)
  | .mainPowerLoss, _ => execMainPowerLoss_keeps (.refl s)
  | .mainInputOvervoltage, _ => execMainInputOvervoltage_keeps (.refl s)
  | .standbyPowerLoss, _ => execStandbyPowerLoss_keeps (.refl s)
  | .drainRequest .., _ => execDrainRequest_keeps (.refl s)
  | .drainDone, _ => execDrainDone_keeps (.refl s)
  | .coreReset .., _ => execCoreReset_keeps (.refl s)
  | .clusterReset .., _ => execClusterReset_keeps (.refl s)
  | .mainlinePortReset .., _ => execMainlinePortReset_keeps (.refl s)
  | .ethernetPortReset .., _ => execEthernetPortReset_keeps (.refl s)
  | .unitResetDone, _ => execUnitResetDone_keeps (.refl s)
  | .functionLevelReset .., _ => execFunctionLevelReset_keeps (.refl s)
  | .pfFunctionLevelReset, _ => execPfFunctionLevelReset_keeps (.refl s)
  | .vfEnable, _ => execVfEnable_keeps (.refl s)
  | .vfDisable, _ => execVfDisable_keeps (.refl s)
  | .numvfsWrite .., _ => execNumvfsWrite_keeps (.refl s)
  | .configRequest .., _ => execConfigRequest_keeps (.refl s)
  | .powerStateChange .., _ => execPowerStateChange_keeps (.refl s)
  | .refDeviation .., _ => execRefDeviation_keeps (.refl s)
  | .cdcOverrun .., _ => execCdcOverrun_keeps (.refl s)
  | .cdcStall .., _ => execCdcStall_keeps (.refl s)
  | .switchRequest .., _ => execSwitchRequest_keeps (.refl s)
  | .overlayVerifyDone .., _ => execOverlayVerifyDone_keeps (.refl s)
  | .quiesceTimeout, _ => execQuiesceTimeout_keeps (.refl s)
  | .switchApply, _ => execSwitchApply_keeps (.refl s)
  | .timetableInstall, _ => execTimetableInstall_keeps (.refl s)
  | .nop .., _ => execNop_keeps (.refl s)
  | .ialu .., _ => execIalu_keeps (.refl s)
  | .ialuI .., _ => execIaluI_keeps (.refl s)
  | .imul .., _ => execImul_keeps (.refl s)
  | .imulI .., _ => execImulI_keeps (.refl s)
  | .icmp .., _ => execIcmp_keeps (.refl s)
  | .icmpI .., _ => execIcmpI_keeps (.refl s)
  | .plop .., _ => execPlop_keeps (.refl s)
  | .falu .., _ => execFalu_keeps (.refl s)
  | .faluI .., _ => execFaluI_keeps (.refl s)
  | .halu .., _ => execHalu_keeps (.refl s)
  | .fcmp .., _ => execFcmp_keeps (.refl s)
  | .sfu .., _ => execSfu_keeps (.refl s)
  | .cvt .., _ => execCvt_keeps (.refl s)
  | .xlane .., _ => execXlane_keeps (.refl s)
  | .sreg .., _ => execSreg_keeps (.refl s)
  | .lds .., _ => execLds_keeps (.refl s)
  | .sts .., _ => execSts_keeps (.refl s)
  | .ldg .., _ => execLdg_keeps (.refl s)
  | .stg .., _ => execStg_keeps (.refl s)
  | .atoms .., _ => execAtoms_keeps (.refl s)
  | .atomg .., _ => execAtomg_keeps (.refl s)
  | .atomAcq .., _ => execAtomAcq_keeps (.refl s)
  | .atomRel .., _ => execAtomRel_keeps (.refl s)
  | .braAny .., _ => execBraAny_keeps (.refl s)
  | .braAll .., _ => execBraAll_keeps (.refl s)
  | .braU .., _ => execBraU_keeps (.refl s)
  | .call .., _ => execCall_keeps (.refl s)
  | .ret .., _ => execRet_keeps (.refl s)
  | .exit .., _ => execExit_keeps (.refl s)
  | .barSync .., _ => execBarSync_keeps (.refl s)
  | .barArrive .., _ => execBarArrive_keeps (.refl s)
  | .barrierStall .., _ => execBarrierStall_keeps (.refl s)
  | .selfLock .., _ => execSelfLock_keeps (.refl s)
  | .fenceFull .., _ => execFenceFull_keeps (.refl s)
  | .fenceAcq .., _ => execFenceAcq_keeps (.refl s)
  | .fenceRel .., _ => execFenceRel_keeps (.refl s)
  | .tcopyGo .., _ => execTcopyGo_keeps (.refl s)
  | .tcopyWait .., _ => execTcopyWait_keeps (.refl s)
  | .tcopySlotComplete .., _ => execTcopySlotComplete_keeps (.refl s)
  | .tcopySlotFault .., _ => execTcopySlotFault_keeps (.refl s)
  | .semSig .., _ => execSemSig_keeps (.refl s)
  | .semWait .., _ => execSemWait_keeps (.refl s)
  | .semDec .., _ => execSemDec_keeps (.refl s)
  | .semRead .., _ => execSemRead_keeps (.refl s)
  | .ptsSub .., _ => execPtsSub_keeps (.refl s)
  | .traceMark .., _ => execTraceMark_keeps (.refl s)
  | .mxWait .., _ => execMxWait_keeps (.refl s)
  | .mxIssue .., _ => execMxIssue_keeps (.refl s)
  | .mxDrain .., _ => execMxDrain_keeps (.refl s)
  | .mvIssue .., _ => execMvIssue_keeps (.refl s)
  | .loadReturn .., _ => execLoadReturn_keeps (.refl s)
  | .icacheFill .., _ => execIcacheFill_keeps (.refl s)
  | .storePerform .., _ => execStorePerform_keeps (.refl s)
  | .l1LineExpire .., _ => execL1LineExpire_keeps (.refl s)
  | .blockPlace .., _ => execBlockPlace_keeps (.refl s)
  | .coreSwitchEnd .., _ => execCoreSwitchEnd_keeps (.refl s)
  | .blockEnd .., _ => execBlockEnd_keeps (.refl s)
  | .tileStart .., _ => execTileStart_keeps (.refl s)
  | .tileComplete .., _ => execTileComplete_keeps (.refl s)
  | .drainStart .., _ => execDrainStart_keeps (.refl s)
  | .drainComplete .., _ => execDrainComplete_keeps (.refl s)
  | .mvStart .., _ => execMvStart_keeps (.refl s)
  | .mvComplete .., _ => execMvComplete_keeps (.refl s)
  | .matrixFault .., _ => execMatrixFault_keeps (.refl s)
  | .mxCounterLatch .., _ => execMxCounterLatch_keeps (.refl s)
  | .pointsRecordRead .., _ => execPointsRecordRead_keeps (.refl s)
  | .choicePlace .., _ => execChoicePlace_keeps (.refl s)
  | .stepClose .., _ => execStepClose_keeps (.refl s)
  | .pageWalk .., _ => execPageWalk_keeps (.refl s)
  | .tlbInvalidate .., _ => execTlbInvalidate_keeps (.refl s)
  | .invalidateDone, _ => execInvalidateDone_keeps (.refl s)
  | .modeSwitch .., _ => execModeSwitch_keeps (.refl s)
  | .maintClean .., _ => execMaintClean_keeps (.refl s)
  | .maintInvalidate .., _ => execMaintInvalidate_keeps (.refl s)
  | .maintCleanInvalidate .., _ => execMaintCleanInvalidate_keeps (.refl s)
  | .maintDone .., _ => execMaintDone_keeps (.refl s)
  | .setwayClean .., _ => execSetwayClean_keeps (.refl s)
  | .setwayInvalidate .., _ => execSetwayInvalidate_keeps (.refl s)
  | .setwayCleanInvalidate .., _ => execSetwayCleanInvalidate_keeps (.refl s)
  | .setwayDone, _ => execSetwayDone_keeps (.refl s)
  | .sqTail .., _ => execSqTail_keeps (.refl s)
  | .cqHead .., _ => execCqHead_keeps (.refl s)
  | .queueEnable .., _ => execQueueEnable_keeps (.refl s)
  | .queueDisable .., _ => execQueueDisable_keeps (.refl s)
  | .entryFetch .., _ => execEntryFetch_keeps (.refl s)
  | .sqFaultClear .., _ => execSqFaultClear_keeps (.refl s)
  | .nopEntry .., _ => execNopEntry_keeps (.refl s)
  | .runProgram .., _ => execRunProgram_keeps (.refl s)
  | .copyEntry .., _ => execCopyEntry_keeps (.refl s)
  | .signalEntry .., _ => execSignalEntry_keeps (.refl s)
  | .waitEntry .., _ => execWaitEntry_keeps (.refl s)
  | .patch .., _ => execPatch_keeps (.refl s)
  | .create .., _ => execCreate_keeps (.refl s)
  | .delete .., _ => execDelete_keeps (.refl s)
  | .fenceEntry .., _ => execFenceEntry_keeps (.refl s)
  | .contextRetire .., _ => execContextRetire_keeps (.refl s)
  | .retireDone .., _ => execRetireDone_keeps (.refl s)
  | .admission .., _ => execAdmission_keeps (.refl s)
  | .entryStart .., _ => execEntryStart_keeps (.refl s)
  | .beGrant .., _ => execBeGrant_keeps (.refl s)
  | .classOverrun .., _ => execClassOverrun_keeps (.refl s)
  | .queueTimeout .., _ => execQueueTimeout_keeps (.refl s)
  | .borrowOverrun .., _ => execBorrowOverrun_keeps (.refl s)
  | .launchStart .., _ => execLaunchStart_keeps (.refl s)
  | .launchComplete .., _ => execLaunchComplete_keeps (.refl s)
  | .copyDone .., _ => execCopyDone_keeps (.refl s)
  | .patchCommit .., _ => execPatchCommit_keeps (.refl s)
  | .completionWrite .., _ => execCompletionWrite_keeps (.refl s)
  | .completionReadback .., _ => execCompletionReadback_keeps (.refl s)
  | .cqRetry .., _ => execCqRetry_keeps (.refl s)
  | .hold .., _ => execHold_keeps (.refl s)
  | .dispatchNop .., _ => execDispatchNop_keeps (.refl s)
  | .dispEnd .., _ => execEnd_keeps (.refl s)
  | .dispYield .., _ => execYield_keeps (.refl s)
  | .dispAdd .., _ => execAdd_keeps (.refl s)
  | .dispSub .., _ => execSub_keeps (.refl s)
  | .dispMul .., _ => execMul_keeps (.refl s)
  | .dispAnd .., _ => execAnd_keeps (.refl s)
  | .dispOr .., _ => execOr_keeps (.refl s)
  | .dispXor .., _ => execXor_keeps (.refl s)
  | .dispShl .., _ => execShl_keeps (.refl s)
  | .dispShr .., _ => execShr_keeps (.refl s)
  | .dispAddi .., _ => execAddi_keeps (.refl s)
  | .dispMovi .., _ => execMovi_keeps (.refl s)
  | .dispMovhi .., _ => execMovhi_keeps (.refl s)
  | .dispBra .., _ => execBra_keeps (.refl s)
  | .dispBeq .., _ => execBeq_keeps (.refl s)
  | .dispBne .., _ => execBne_keeps (.refl s)
  | .dispBlt .., _ => execBlt_keeps (.refl s)
  | .dispBge .., _ => execBge_keeps (.refl s)
  | .dispBltu .., _ => execBltu_keeps (.refl s)
  | .dispBgeu .., _ => execBgeu_keeps (.refl s)
  | .dispatchCall .., _ => execDispatchCall_keeps (.refl s)
  | .dispatchRet .., _ => execDispatchRet_keeps (.refl s)
  | .dispLoadt .., _ => execLoadt_keeps (.refl s)
  | .dispStore .., _ => execStore_keeps (.refl s)
  | .dispTime .., _ => execTime_keeps (.refl s)
  | .dispLaunch .., _ => execLaunch_keeps (.refl s)
  | .dispLaunchPlat .., _ => execLaunchPlat_keeps (.refl s)
  | .dispJoin .., _ => execJoin_keeps (.refl s)
  | .dispatchCopy .., _ => execDispatchCopy_keeps (.refl s)
  | .dispCmo .., _ => execCmo_keeps (.refl s)
  | .dispatchSignal .., _ => execDispatchSignal_keeps (.refl s)
  | .dispatchWait .., _ => execDispatchWait_keeps (.refl s)
  | .dispTalloc .., _ => execTalloc_keeps (.refl s)
  | .dispTfree .., _ => execTfree_keeps (.refl s)
  | .dispTset .., _ => execTset_keeps (.refl s)
  | .dispTget .., _ => execTget_keeps (.refl s)
  | .dispTbatch .., _ => execTbatch_keeps (.refl s)
  | .dispTexit .., _ => execTexit_keeps (.refl s)
  | .dispTadvance .., _ => execTadvance_keeps (.refl s)
  | .dispDump .., _ => execDump_keeps (.refl s)
  | .dumpDone .., _ => execDumpDone_keeps (.refl s)
  | .dispTmark .., _ => execTmark_keeps (.refl s)
  | .semActivate .., _ => execSemActivate_keeps (.refl s)
  | .semRemoteChange .., _ => execSemRemoteChange_keeps (.refl s)
  | .semBreak .., _ => execSemBreak_keeps (.refl s)
  | .semFree .., _ => execSemFree_keeps (.refl s)
  | .semForce .., _ => execSemForce_keeps (.refl s)
  | .semSnapshot .., _ => execSemSnapshot_keeps (.refl s)
  | .semSnapshotReady, _ => execSemSnapshotReady_keeps (.refl s)
  | .portRoleWrite .., _ => execPortRoleWrite_keeps (.refl s)
  | .portTrainingDone .., _ => execPortTrainingDone_keeps (.refl s)
  | .portDown .., _ => execPortDown_keeps (.refl s)
  | .portRetrainAttempt .., _ => execPortRetrainAttempt_keeps (.refl s)
  | .frameBoundary, _ => execFrameBoundary_keeps (.refl s)
  | .messageAccept .., _ => execMessageAccept_keeps (.refl s)
  | .messageForward .., _ => execMessageForward_keeps (.refl s)
  | .writeReceive .., _ => execWriteReceive_keeps (.refl s)
  | .readReceive .., _ => execReadReceive_keeps (.refl s)
  | .readRsp .., _ => execReadRsp_keeps (.refl s)
  | .remoteSignalReceive .., _ => execRemoteSignalReceive_keeps (.refl s)
  | .mlnAck .., _ => execMlnAck_keeps (.refl s)
  | .ackSend .., _ => execAckSend_keeps (.refl s)
  | .linkDown .., _ => execLinkDown_keeps (.refl s)
  | .linkUp .., _ => execLinkUp_keeps (.refl s)
  | .peerDown .., _ => execPeerDown_keeps (.refl s)
  | .flowLate .., _ => execFlowLate_keeps (.refl s)
  | .flowDown .., _ => execFlowDown_keeps (.refl s)
  | .mlnEpoch .., _ => execMlnEpoch_keeps (.refl s)
  | .pairReset .., _ => execPairReset_keeps (.refl s)
  | .blockCrcError .., _ => execBlockCrcError_keeps (.refl s)
  | .replayRequest .., _ => execReplayRequest_keeps (.refl s)
  | .linkMaintOverrun .., _ => execLinkMaintOverrun_keeps (.refl s)
  | .hostWindowWrite .., _ => execHostWindowWrite_keeps (.refl s)
  | .hostWindowRead .., _ => execHostWindowRead_keeps (.refl s)
  | .hostReadCompletion .., _ => execHostReadCompletion_keeps (.refl s)
  | .hostReadTimeout .., _ => execHostReadTimeout_keeps (.refl s)
  | .qpReady .., _ => execQpReady_keeps (.refl s)
  | .qpReset .., _ => execQpReset_keeps (.refl s)
  | .qpDoorbell .., _ => execQpDoorbell_keeps (.refl s)
  | .producerPoll .., _ => execProducerPoll_keeps (.refl s)
  | .send .., _ => execSend_keeps (.refl s)
  | .sendImm .., _ => execSendImm_keeps (.refl s)
  | .rdmaWrite .., _ => execRdmaWrite_keeps (.refl s)
  | .writeImm .., _ => execWriteImm_keeps (.refl s)
  | .rdmaRead .., _ => execRdmaRead_keeps (.refl s)
  | .rdmaAck .., _ => execRdmaAck_keeps (.refl s)
  | .rdmaReadResponse .., _ => execRdmaReadResponse_keeps (.refl s)
  | .ackTimeout .., _ => execAckTimeout_keeps (.refl s)
  | .rnrNakReceive .., _ => execRnrNakReceive_keeps (.refl s)
  | .inboundWrite .., _ => execInboundWrite_keeps (.refl s)
  | .inboundWriteImm .., _ => execInboundWriteImm_keeps (.refl s)
  | .inboundRead .., _ => execInboundRead_keeps (.refl s)
  | .inboundSend .., _ => execInboundSend_keeps (.refl s)
  | .rawFrameReceive .., _ => execRawFrameReceive_keeps (.refl s)
  | .pfcPauseReceive .., _ => execPfcPauseReceive_keeps (.refl s)
  | .pfcStorm .., _ => execPfcStorm_keeps (.refl s)
  | .cnpReceive .., _ => execCnpReceive_keeps (.refl s)
  | .cnpRateIncrease .., _ => execCnpRateIncrease_keeps (.refl s)
  | .ethLinkChange .., _ => execEthLinkChange_keeps (.refl s)
  | .regionInvalidate .., _ => execRegionInvalidate_keeps (.refl s)
  | .regionInvDone, _ => execRegionInvDone_keeps (.refl s)
  | .rdmaHold .., _ => execRdmaHold_keeps (.refl s)
  | .contextActivate .., _ => execContextActivate_keeps (.refl s)
  | .contextWeightChange .., _ => execContextWeightChange_keeps (.refl s)
  | .contextFree .., _ => execContextFree_keeps (.refl s)
  | .seedWrite .., _ => execSeedWrite_keeps (.refl s)
  | .census .., _ => execCensus_keeps (.refl s)
  | .censusDone .., _ => execCensusDone_keeps (.refl s)
  | .powerSample .., _ => execPowerSample_keeps (.refl s)
  | .stepLower .., _ => execStepLower_keeps (.refl s)
  | .diePowerStep .., _ => execDiePowerStep_keeps (.refl s)
  | .thermalStep .., _ => execThermalStep_keeps (.refl s)
  | .thermalTrip .., _ => execThermalTrip_keeps (.refl s)
  | .clusterGate .., _ => execClusterGate_keeps (.refl s)
  | .clusterWake .., _ => execClusterWake_keeps (.refl s)
  | .maintWindowOpen .., _ => execMaintWindowOpen_keeps (.refl s)
  | .maintOverrun .., _ => execMaintOverrun_keeps (.refl s)
  | .lastingFault .., _ => execLastingFault_keeps (.refl s)
  | .rowSpareDone .., _ => execRowSpareDone_keeps (.refl s)
  | .ledgerSnapshot .., _ => execLedgerSnapshot_keeps (.refl s)
  | .ledgerSnapshotDone, _ => execLedgerSnapshotDone_keeps (.refl s)
  | .tokenSubmit .., _ => execTokenSubmit_keeps (.refl s)
  | .tokenVerifyDone, h => absurd rfl h
  | .relock .., _ => execRelock_keeps (.refl s)
  | .unlockExpire, _ => execUnlockExpire_keeps (.refl s)
  | .nonceRead .., _ => execNonceRead_keeps (.refl s)
  | .commitFw .., _ => execCommitFw_keeps (.refl s)
  | .commitConsist .., _ => execCommitConsist_keeps (.refl s)
  | .keyChange .., _ => execKeyChange_keeps (.refl s)
  | .keyInstalled, _ => execKeyInstalled_keeps (.refl s)
  | .getVersion .., _ => execGetVersion_keeps (.refl s)
  | .getCapabilities .., _ => execGetCapabilities_keeps (.refl s)
  | .negotiateAlgorithms .., _ => execNegotiateAlgorithms_keeps (.refl s)
  | .getDigests .., _ => execGetDigests_keeps (.refl s)
  | .getCertificate .., _ => execGetCertificate_keeps (.refl s)
  | .challenge .., _ => execChallenge_keeps (.refl s)
  | .getMeasurements .., _ => execGetMeasurements_keeps (.refl s)
  | .mctpControl .., _ => execMctpControl_keeps (.refl s)
  | .pldmSensorRead .., _ => execPldmSensorRead_keeps (.refl s)
  | .pldmEventLogRead .., _ => execPldmEventLogRead_keeps (.refl s)
  | .requestUpdate .., _ => execRequestUpdate_keeps (.refl s)
  | .transferComplete .., _ => execTransferComplete_keeps (.refl s)
  | .activateFirmware .., _ => execActivateFirmware_keeps (.refl s)
  | .cancelUpdate .., _ => execCancelUpdate_keeps (.refl s)
  | .sensorSample .., _ => execSensorSample_keeps (.refl s)
  | .wearSample .., _ => execWearSample_keeps (.refl s)
  | .counterSample, _ => execCounterSample_keeps (.refl s)
  | .counterClear .., _ => execCounterClear_keeps (.refl s)
  | .traceTrigger .., _ => execTraceTrigger_keeps (.refl s)
  | .traceRestart .., _ => execTraceRestart_keeps (.refl s)
  | .traceFreeze, _ => execTraceFreeze_keeps (.refl s)
  | .surveyStart .., _ => execSurveyStart_keeps (.refl s)
  | .surveyLatch, _ => execSurveyLatch_keeps (.refl s)
  | .surveyDone, _ => execSurveyDone_keeps (.refl s)
  | .debugMemoryRead .., _ => execDebugMemoryRead_keeps (.refl s)
  | .debugMemoryWrite .., _ => execDebugMemoryWrite_keeps (.refl s)
  | .bypass, _ => execBypass_keeps (.refl s)
  | .idcode, _ => execIdcode_keeps (.refl s)
  | .samplePreload .., _ => execSamplePreload_keeps (.refl s)
  | .extest, _ => execExtest_keeps (.refl s)
  | .extestPulse, _ => execExtestPulse_keeps (.refl s)
  | .controlWindow .., _ => execControlWindow_keeps (.refl s)
  | .dieLinkReplay .., _ => execDieLinkReplay_keeps (.refl s)
  | .pllLockTimeout, _ => execPllLockTimeout_keeps (.refl s)
  | .tktFlush .., _ => execTktFlush_keeps (.refl s)
  | .remoteAccessNak .., _ => execRemoteAccessNak_keeps (.refl s)
  | .thermtripRelease, _ => execThermtripRelease_keeps (.refl s)
  | .pcieLinkUp .., _ => execPcieLinkUp_keeps (.refl s)
  | .updateWrite .., _ => execUpdateWrite_keeps (.refl s)
  | .standbyCrystalStop, _ => execStandbyCrystalStop_keeps (.refl s)

/-- What every command keeps, TOKEN_VERIFY_DONE among them: it may open scopes and keeps the rest. -/
theorem exec_keepsMost {i : Instr} {s t : State} (e : exec i s = .next t) : s.KeepsMost t := by
  by_cases h : i = .tokenVerifyDone
  · subst h
    exact execTokenVerifyDone_keeps (.refl s) e
  · exact (exec_keeps s i h t e).toKeepsMost

/-- Each meaning is written as the next state that it answers. -/
theorem exec_next (i : Instr) (s : State) : ∃ t, exec i s = .next t := by
  cases i <;> exact ⟨_, rfl⟩

theorem step_of_empty {s : State} (h : s.pending = []) : step s = .next s.tick := by
  unfold step
  rw [h]

theorem step_of_front {s : State} {c : Instr} {rest : List Instr} (h : s.pending = c :: rest) :
    step s = exec c { s with pending := rest } := by
  unfold step
  rw [h]

/-- The canonical form does not speak of the queue. -/
theorem State.Canon.withPending {s : State} (h : s.Canon) (l : List Instr) : State.Canon { s with pending := l } :=
  State.Tables.canon (t := s) ⟨rfl, rfl, rfl, rfl, rfl, rfl, rfl⟩ id h

theorem step_canon {s t : State} (h : s.Canon) (e : step s = .next t) : t.Canon := by
  cases hq : s.pending with
  | nil =>
    rw [step_of_empty hq] at e
    cases e
    exact (State.tick_keeps (.refl s)).canon h
  | cons c rest =>
    rw [step_of_front hq] at e
    exact (exec_keepsMost e).canon (h.withPending rest)

theorem step_next (s : State) : ∃ t, step s = .next t := by
  cases hq : s.pending with
  | nil => exact ⟨_, step_of_empty hq⟩
  | cons c rest => exact step_of_front hq ▸ exec_next c _

/-- Settles O1, by the two cases of `step`. -/
theorem stepRunsFrontCommand : Obligations.StepRunsFrontCommand := fun _ _ _ => step_of_front

/-- Settles O3: the queue is part of what every command keeps. -/
theorem commandsLeaveTheQueueAlone : Obligations.CommandsLeaveTheQueueAlone := fun _ _ _ e => (exec_keepsMost e).pending

/-- Settles O4: an idle step by the tick, any other by the command in front. -/
theorem everyStepKeepsCanonicalForm : Obligations.EveryStepKeepsCanonicalForm := fun _ _ => step_canon

/-- Settles O6: record and free values are part of what every command keeps. -/
theorem nothingSentIsUnsent : Obligations.NothingSentIsUnsent := fun _ _ _ e => ⟨(exec_keepsMost e).sent, (exec_keepsMost e).used⟩

/-- Settles O9: neither the tick nor a command answers anything but a next state. -/
theorem noCommandStopsTheMachine : Obligations.NoCommandStopsTheMachine := step_next

end Sys2Proof.Machine

/-! Reads and writes of BAR0 registers: how each ends, and what it leaves. -/

namespace Sys2Proof.Machine

/-! ### A write by the access codes -/

/-- Bit `i` after a write: an RW bit that the write carries is as written, an RW1C bit written as 1 is cleared, an RW1S bit written
as 1 is set (R7). -/
theorem RegWrite.getLsbD_plain (w : RegWrite) (fs : List RegField) (old : Word) {i : Nat} (h : i < 64) :
    (w.plain fs old).getLsbD i =
      ((if (accMask fs .rw).getLsbD i then old.getLsbD i && !w.mask.getLsbD i || w.raw.getLsbD i else old.getLsbD i) &&
          !(w.raw.getLsbD i && (accMask fs .rw1c).getLsbD i) ||
        w.raw.getLsbD i && (accMask fs .rw1s).getLsbD i) := by
  simp only [RegWrite.plain, RegWrite.over, BitVec.getLsbD_or, BitVec.getLsbD_and, BitVec.getLsbD_not, h, decide_true, Bool.true_and]
  cases (accMask fs .rw).getLsbD i <;> simp

/-- A write has ones only in bits that it carries. -/
theorem RegWrite.raw_eq_false {w : RegWrite} (c : w.raw &&& ~~~w.mask = 0) {i : Nat} (h : i < 64) (m : w.mask.getLsbD i = false) :
    w.raw.getLsbD i = false := by
  have b : (w.raw &&& ~~~w.mask).getLsbD i = false := by rw [c]; exact BitVec.getLsbD_zero
  simpa only [BitVec.getLsbD_and, BitVec.getLsbD_not, h, m, decide_true, Bool.not_false, Bool.and_true] using b

/-! ### Accesses of BAR0 -/

theorem exec_registerWrite (fn : Fin 64) (off size : Nat) (v : Word) (s : State) :
    exec (.registerWrite fn off size v) s = .next (s.writeBar fn off size v) := rfl

theorem exec_rcCounterRead (fn : Fin 64) (off size : Nat) (s : State) :
    exec (.rcCounterRead fn off size) s = .next (s.readBar fn off size) := rfl

theorem exec_mxCounterLatch (fn : Fin 64) (c : Fin 192) (size : Nat) (s : State) :
    exec (.mxCounterLatch fn c size) s = .next (s.readBar fn (R.coreMxStep c) size) := rfl

theorem exec_debugMemoryRead (fn : Fin 64) (size : Nat) (s : State) :
    exec (.debugMemoryRead fn size) s = .next (s.readBar fn R.dbgMemData size) := rfl

theorem exec_debugMemoryWrite (fn : Fin 64) (size : Nat) (v : Word) (s : State) :
    exec (.debugMemoryWrite fn size v) s = .next (s.writeBar fn R.dbgMemData size v) := rfl

theorem goodAccess_iff {off size : Nat} :
    goodAccess off size = true ↔ ((size = 4 ∨ size = 8) ∧ off % size = 0) ∧ off < 0x2000000 := by
  simp [goodAccess]

@[simp] theorem accessMask_eight (off : Nat) : accessMask off 8 = 0xFFFFFFFFFFFFFFFF := rfl

@[simp] theorem regWrite_eight (off : Nat) (v : Word) : regWrite off 8 v = ⟨v, 0xFFFFFFFFFFFFFFFF⟩ := by
  simp only [regWrite, accessMask_eight, Nat.reduceEqDiff, decide_false, Bool.false_and, Bool.false_eq_true, if_false]
  exact congrArg (RegWrite.mk · _) BitVec.and_allOnes

theorem readBar_bad {off size : Nat} (h : goodAccess off size = false) (s : State) (fn : Nat) :
    s.readBar fn off size = s.emit .unsupported := by
  simp [State.readBar, h]

theorem writeBar_bad {off size : Nat} (h : goodAccess off size = false) (s : State) (fn : Nat) (v : Word) :
    s.writeBar fn off size v = s.emit .unsupported := by
  simp [State.writeBar, h]

/-- What a read does where it does not reach its register. -/
def State.readUnserved (s : State) (fn off : Nat) : Reach → State
  | .refused => (s.denied fn).emit (.answer off 0)
  | .unsupported => s.emit .unsupported
  | .noFunction => s.aerLog.emit .unsupported
  | .foreign | .semRefused => s.emit (.answer off 0)
  | .absent | .acts => s

/-- What a write does where it does not reach its register. -/
def State.writeUnserved (s : State) (fn : Nat) : Reach → State
  | .refused => s.denied fn
  | .unsupported => s.emit .unsupported
  | .noFunction => s.aerLog
  | .semRefused => s.setFlag R.dbgSemStatus 0
  | .foreign | .absent | .acts => s

theorem State.mmio_write_unserved {s : State} {fn off : Nat} {x : Reach} (h : s.reach fn off true = x) (n : x ≠ .acts)
    (act : State → State) : s.mmio fn off true act = s.writeUnserved fn x := by
  unfold State.mmio
  cases x <;> simp_all [State.writeUnserved]

section
variable {s : State} {fn off size : Nat} (g : goodAccess off size = true)
include g

/-- A read that is served answers its register's value, shifted down where it covers the upper half. -/
theorem readBar_serves (h : s.Serves fn (regOf off) false) :
    s.readBar fn off size =
      let p := if regOf off = R.dbgMemData then s.debugRead (accessMask off size) else s.regTake fn (regOf off) (accessMask off size)
      p.2.emit (.answer off (if size = 4 ∧ off % 8 = 4 then p.1 >>> 32 else p.1).toNat) := by
  simp [State.readBar, g, h.reach, h.clear]

theorem readBar_cut (h : s.reach fn (regOf off) false = .acts) (c : s.mgtCut (regOf off) = true) :
    s.readBar fn off size = s.emit (.poisoned off) := by
  simp [State.readBar, g, h, c]

theorem readBar_unserved {x : Reach} (h : s.reach fn (regOf off) false = x) (n : x ≠ .acts) :
    s.readBar fn off size = s.readUnserved fn off x := by
  unfold State.readBar
  cases x <;> simp_all [State.readUnserved]

/-- A write acts through `mmio` alone, but for CCH_SETWAY_CMD, which has a check of its own. -/
theorem writeBar_mmio (n : regOf off ≠ R.cchSetwayCmd) (v : Word) :
    s.writeBar fn off size v = s.mmio fn (regOf off) true (fun s =>
      if regOf off = R.dbgMemData then s.debugWrite (regWrite off size v) else s.regStore fn (regOf off) (regWrite off size v)) := by
  by_cases d : regOf off = R.dbgMemData
  · have m : ¬R.dbgMemData = R.cchSetwayCmd := by decide
    simp [State.writeBar, g, d, m]
  · simp [State.writeBar, g, n, d]

end

theorem exec_rcCounterRead_unserved {s : State} {fn : Fin 64} {off size : Nat} (g : goodAccess off size = true) (x : Reach)
    (n : x ≠ .acts) (h : s.reach fn (regOf off) false = x) : exec (.rcCounterRead fn off size) s = .next (s.readUnserved fn off x) := by
  rw [exec_rcCounterRead, readBar_unserved g h n]

theorem exec_registerWrite_unserved {s : State} {fn : Fin 64} {off size : Nat} (g : goodAccess off size = true)
    (c : regOf off ≠ R.cchSetwayCmd) (v : Word) (x : Reach) (n : x ≠ .acts) (h : s.reach fn (regOf off) true = x) :
    exec (.registerWrite fn off size v) s = .next (s.writeUnserved fn x) := by
  rw [exec_registerWrite, writeBar_mmio g c, State.mmio_write_unserved h n]

/-! ### Reads of a register -/

theorem regTake_locked {s : State} {off : Nat} (h : s.coreLocked off = true) (fn : Nat) (m : Word) :
    s.regTake fn off m = (0, s.setFlag R.secStatus 13) := by
  simp [State.regTake, h]

/-- A read of a register that is not locked: its fields but those that are WO, and the RC bits that it covers cleared (R6 to R8). -/
theorem regTake_findReg {s : State} {off : Nat} {r : RegRow} (u : s.coreLocked off = false) (n : off ≠ R.secNonce)
    (h : findReg off = some r) (fn : Nat) (m : Word) :
    s.regTake fn off m =
      let rc := accMask r.fields .rc &&& m
      let t := s.mxLatch off
      (s.view fn off &&& fieldsMask r.fields &&& ~~~accMask r.fields .wo &&& m, if rc = 0 then t else t.wr off (t.rd off &&& ~~~rc)) := by
  simp [State.regTake, u, n, h]

/-- CORE_MX_STEP of a core is a register of its own, which a read of 8 bytes reaches. -/
theorem coreMxStep_access (c : Fin 192) :
    goodAccess (R.coreMxStep c) 8 = true ∧ regOf (R.coreMxStep c) = R.coreMxStep c ∧ R.coreMxStep c ≠ R.dbgMemData ∧
      R.coreMxStep c ≠ R.secNonce := by
  have lt := c.isLt
  have e : R.coreMxStep c = 0x1800408 + 0x8000 * c.val := rfl
  have d : R.dbgMemData = 0x80308 := rfl
  have n : R.secNonce = 0x40018 := rfl
  refine ⟨goodAccess_iff.2 ⟨⟨.inr rfl, ?_⟩, ?_⟩, ?_, ?_, ?_⟩
  · omega
  · omega
  · unfold regOf; omega
  · omega
  · omega

/-- The counters that a read of CORE_MX_STEP latches (R217). -/
def State.mxCounters (s : State) (c : Nat) : List Word :=
  [s.rd (R.coreMxBubble c), s.rd (R.coreMxFreezeA c), s.rd (R.coreMxFreezeB c), s.rd (R.coreMxFreezeDrain c), BitVec.ofNat 64 (s.mxIdle c)]

theorem mxLatch_coreMxStep (s : State) (c : Fin 192) :
    s.mxLatch (R.coreMxStep c) = s.updCore c (fun k => { k with mx := { k.mx with latched := s.mxCounters c } }) := by
  have d : R.coreMxStep c - R.coreMxStep 0 = 0x8000 * c.val := by unfold R.coreMxStep; omega
  have i : inArray (R.coreMxStep c) (R.coreMxStep 0) 0x8000 192 = true := by
    have lt := c.isLt
    simp only [inArray, d, Bool.and_eq_true, decide_eq_true_eq]
    unfold R.coreMxStep
    omega
  have q : 0x8000 * c.val / 0x8000 = c := by omega
  simp only [State.mxLatch, i, d, q, if_true, State.mxCounters]

/-- A read of CORE_MX_STEP latches the counters beside it and changes nothing but its core's matrix unit (R217). -/
theorem mxCounterLatch_effect {s : State} {fn : Fin 64} {c : Fin 192} {r : RegRow} (h : s.Serves fn (R.coreMxStep c) false)
    (u : s.coreLocked (R.coreMxStep c) = false) (f : findReg (R.coreMxStep c) = some r) (z : accMask r.fields .rc = 0) (k : s.Canon) :
    ∃ (v : Nat) (t : State), exec (.mxCounterLatch fn c 8) s = .next (t.emit (.answer (R.coreMxStep c) v)) ∧
      (t.core c).mx.latched = s.mxCounters c ∧ t = s.setCore c { s.core c with mx := (t.core c).mx } := by
  obtain ⟨g, o, d, n⟩ := coreMxStep_access c
  have take : (s.regTake fn (R.coreMxStep c) 0xFFFFFFFFFFFFFFFF).2 = s.mxLatch (R.coreMxStep c) := by
    rw [regTake_findReg u n f, z]
    rfl
  have hit : (s.mxLatch (R.coreMxStep c)).core c = { s.core c with mx := { (s.core c).mx with latched := s.mxCounters c } } := by
    rw [mxLatch_coreMxStep]
    exact State.core_setCore_same k _ _
  refine ⟨(s.regTake fn (R.coreMxStep c) 0xFFFFFFFFFFFFFFFF).1.toNat, s.mxLatch (R.coreMxStep c), ?_, by rw [hit], ?_⟩
  · rw [exec_mxCounterLatch, readBar_serves g (o.symm ▸ h), o, if_neg d, accessMask_eight]
    simp only [take]
    rfl
  · rw [hit, mxLatch_coreMxStep]
    rfl

/-! ### Debug access -/

@[simp] theorem leBytes_length (n v : Nat) : (leBytes n v).length = n := by
  induction n generalizing v with
  | zero => rfl
  | succ n ih => simp [leBytes, ih]

section
variable {s : State} (m : Word) (v : Word)

theorem debugRead_locked (h : s.unlocked.testBit 1 = false) : s.debugRead m = (0, s.setFlag R.secStatus 13) := by
  simp [State.debugRead, h]

theorem debugWrite_locked (h : s.unlocked.testBit 1 = false) (w : RegWrite) : s.debugWrite w = s.setFlag R.secStatus 13 := by
  simp [State.debugWrite, h]

theorem debugRead_local (h : s.unlocked.testBit 1 = true) (a : (s.rd R.dbgMemAddr).toNat % 8 = 0)
    (l : inLocal (s.rd R.dbgMemAddr).toNat 8 = true) :
    s.debugRead m =
      let x := s.memRead (s.rd R.dbgMemAddr).toNat 8 7 s.debugSlot true
      if x.2.1 then (0, x.2.2.setFlag R.dbgMemStatus 1) else (BitVec.ofNat 64 (leNat x.1) &&& m, x.2.2) := by
  simp [State.debugRead, h, a, l]

theorem debugWrite_local (h : s.unlocked.testBit 1 = true) (a : (s.rd R.dbgMemAddr).toNat % 8 = 0)
    (l : inLocal (s.rd R.dbgMemAddr).toNat 8 = true) :
    s.debugWrite ⟨v, 0xFFFFFFFFFFFFFFFF⟩ = s.memWrite (s.rd R.dbgMemAddr).toNat (leBytes 8 v.toNat) 7 s.debugSlot true := by
  have t : (leBytes 8 v.toNat).take 8 = leBytes 8 v.toNat := List.take_of_length_le (by simp)
  simp [State.debugWrite, h, a, l, t]

/-- An address that debug access cannot reach shows RANGE (R631). -/
theorem debugRead_outside (h : s.unlocked.testBit 1 = true)
    (o : (s.rd R.dbgMemAddr).toNat % 8 ≠ 0 ∨ (inLocal (s.rd R.dbgMemAddr).toNat 8 = false ∧ inAlias (s.rd R.dbgMemAddr).toNat = false)) :
    s.debugRead m = (0, s.setFlag R.dbgMemStatus 0) := by
  rcases o with a | ⟨l, i⟩
  · simp [State.debugRead, h, a]
  · simp [State.debugRead, h, l, i]

theorem debugWrite_outside (h : s.unlocked.testBit 1 = true)
    (o : (s.rd R.dbgMemAddr).toNat % 8 ≠ 0 ∨ (inLocal (s.rd R.dbgMemAddr).toNat 8 = false ∧ inAlias (s.rd R.dbgMemAddr).toNat = false))
    (w : RegWrite) : s.debugWrite w = s.setFlag R.dbgMemStatus 0 := by
  rcases o with a | ⟨l, i⟩
  · simp [State.debugWrite, h, a]
  · simp [State.debugWrite, h, l, i]

theorem readBar_debug {fn : Nat} (h : s.Serves fn R.dbgMemData false) :
    s.readBar fn R.dbgMemData 8 =
      (s.debugRead 0xFFFFFFFFFFFFFFFF).2.emit (.answer R.dbgMemData (s.debugRead 0xFFFFFFFFFFFFFFFF).1.toNat) :=
  readBar_serves (by decide) h

theorem writeBar_debug {fn : Nat} (h : s.Serves fn R.dbgMemData true) :
    s.writeBar fn R.dbgMemData 8 v = s.debugWrite ⟨v, 0xFFFFFFFFFFFFFFFF⟩ := by
  rw [writeBar_mmio (by decide) (by decide) v, show regOf R.dbgMemData = R.dbgMemData from rfl, State.mmio_serves h, if_pos rfl, regWrite_eight]

end

/-! ### The obligations -/

/-- Settles O49: an access that is not aligned never reaches a register, and a served one ends in `regStore` or `regTake`. -/
theorem misalignedAccessesAreUnsupported : Obligations.MisalignedAccessesAreUnsupported := by
  unfold Obligations.MisalignedAccessesAreUnsupported
  intro s fn off size v lt aligned
  refine ⟨fun bad => ?_, fun ok => ?_⟩
  · have g : goodAccess off size = false := by
      rw [← Bool.not_eq_true, goodAccess_iff]
      exact fun h => bad h.1
    rw [exec_registerWrite, exec_rcCounterRead, writeBar_bad g, readBar_bad g]
    exact ⟨rfl, rfl, State.rd_congr rfl⟩
  · have g : goodAccess off size = true := goodAccess_iff.2 ⟨ok, lt⟩
    rw [exec_registerWrite, exec_rcCounterRead]
    refine ⟨fun (h : s.Serves fn (regOf off) true) (n : regOf off ≠ _) (d : regOf off ≠ _) => ?_,
      fun x t (h : s.Serves fn (regOf off) false) (d : regOf off ≠ _) (e : s.regTake fn (regOf off) (accessMask off size) = _) => ?_⟩
    · rw [writeBar_mmio g n, State.mmio_serves h, if_neg d]
      simp [regWrite, accessMask, regOf]
    · rw [readBar_serves g h, if_neg d, e]

/-- Settles O51, clause by clause from the lemmas above: the access codes bit by bit, reads, the latch, debug access, refusals. -/
theorem registersReadAndWritten : Obligations.RegistersReadAndWritten := by
  unfold Obligations.RegistersReadAndWritten
  refine ⟨fun w fs old i h c => ?_, fun s fn off m => ⟨fun u => regTake_locked u fn m, fun r u n f => ?_⟩,
    fun s fn c r h u f z k => mxCounterLatch_effect h u f z k, fun s fn v hr hw => ?_, fun s fn off size v g n => ?_⟩
  · rw [RegWrite.getLsbD_plain w fs old h]
    refine ⟨fun r k z => ?_, fun r k z => ?_, fun r k z => ?_, fun r k z => ?_⟩ <;> rw [r, k, z]
    · cases m : w.mask.getLsbD i
      · simp [RegWrite.raw_eq_false c h m]
      · simp
    · simp
    · simp
    · simp
  · rw [regTake_findReg u n f]
    exact ⟨rfl, fun z => if_pos z, fun z => if_neg z⟩
  · rw [exec_debugMemoryRead, exec_debugMemoryWrite, readBar_debug hr, writeBar_debug v hw]
    refine ⟨fun u => ?_, fun u al lo => ?_, fun u o => ?_⟩
    · rw [debugRead_locked _ u, debugWrite_locked u]
      exact ⟨rfl, rfl⟩
    · rw [debugRead_local _ u al lo, debugWrite_local v u al lo]
      exact ⟨fun b t e => by rw [e]; rfl, fun b t e => by rw [e]; rfl, rfl⟩
    · rw [debugRead_outside _ u o, debugWrite_outside u o]
      exact ⟨rfl, rfl⟩
  · have read := exec_rcCounterRead_unserved (s := s) (fn := fn) g
    have write := exec_registerWrite_unserved (s := s) (fn := fn) g n v
    refine ⟨read .refused nofun, write .refused nofun, read .unsupported nofun, write .unsupported nofun, read .absent nofun,
      write .absent nofun, read .foreign nofun, write .foreign nofun, write .semRefused nofun, read .noFunction nofun,
      write .noFunction nofun, fun (cut : s.mgtCut (regOf off) = true) => ⟨fun h => ?_, fun (h : s.reach fn (regOf off) true = _) => ?_⟩⟩
    · rw [exec_rcCounterRead, readBar_cut g h cut]
    · rw [exec_registerWrite, writeBar_mmio g n, State.mmio_write_cut h cut]

end Sys2Proof.Machine

/-! The consist's switch in service, the reference clock and the crossings between clock domains: how each event ends. -/

namespace Sys2Proof.Machine

/-! ### A switch is asked for -/

/-- The switch that a request begins (R35): what the write named is kept, and the quiesce point is not yet reached. -/
def State.switchBegun (t : State) (v : Word) : State :=
  { t.setFld R.conStatus 3 0 3 with con := { t.con with
    next := none, asked := t.now, reqSlot := Machine.fld v 11 8, reqMem := v.getLsbD 4, reqAddr := (t.rd R.conOvlAddr).toNat
    reqLen := (t.rd R.conOvlLen).toNat, quiet := false } }

/-- A switch that has begun is abandoned at once where its source is locked or out of range (R40). -/
def State.sourceJudged (u : State) : State :=
  if u.con.reqMem = true ∧ u.unlocked.testBit 3 = false then (u.setFlag R.secStatus 13).abandon (0xF, 0)
  else if u.con.reqMem = true ∧ (u.con.reqAddr % 256 ≠ 0 ∨ localEnd < u.con.reqAddr + u.con.reqLen) then u.abandon (2, 0)
  else u.markQuiet

theorem sourceJudged_inside {u : State} (l : u.unlocked.testBit 3 = true) (a : u.con.reqAddr % 256 = 0)
    (n : u.con.reqAddr + u.con.reqLen ≤ localEnd) : u.sourceJudged = u.markQuiet := by
  rw [State.sourceJudged, if_neg (by simp [l]), if_neg (by omega)]

theorem sourceJudged_flash {u : State} (m : u.con.reqMem = false) : u.sourceJudged = u.markQuiet := by
  simp [State.sourceJudged, m]

section
variable {u : State} (m : u.con.reqMem = true)
include m

theorem sourceJudged_locked (l : u.unlocked.testBit 3 = false) : u.sourceJudged = (u.setFlag R.secStatus 13).abandon (0xF, 0) :=
  if_pos ⟨m, l⟩

theorem sourceJudged_outside (l : u.unlocked.testBit 3 = true)
    (o : u.con.reqAddr % 256 ≠ 0 ∨ localEnd < u.con.reqAddr + u.con.reqLen) : u.sourceJudged = u.abandon (2, 0) := by
  rw [State.sourceJudged, if_neg (by simp [l]), if_pos ⟨m, o⟩]

end

theorem noSlot_iff (v : Word) : noSlot v = true ↔ v.getLsbD 4 = false ∧ 8 ≤ fld v 11 8 ∧ fld v 11 8 ≤ 14 := by
  simp [noSlot, bit, and_assoc]

theorem noSlot_of_named {v : Word} (h : v.getLsbD 4 = true ∨ fld v 11 8 < 8 ∨ fld v 11 8 = 15) : ¬ noSlot v = true := by
  rw [noSlot_iff]
  rintro ⟨m, lo, hi⟩
  rcases h with h | h
  · exact ne_true_of_eq_false m h
  · omega

/-- A request that is served, by what it finds: no REQ, a switch that runs, a reserved slot, a state in which none may run, or a
switch to begin (R35, R39, R43). -/
theorem exec_switchRequest {s : State} {fn : Fin 64} (h : s.Serves fn R.conControl true) (v : Word) :
    exec (.switchRequest fn v) s = .next (
      let t := s.wr R.conControl (v &&& 0xF10#64)
      if v.getLsbD 0 = false then s
      else if s.fld R.conStatus 3 0 = 3 ∨ s.fld R.conStatus 3 0 = 4 then s.setFlag R.conStatus 15
      else if noSlot v = true then t.setFlag R.conStatus 14
      else if t.fld R.conStatus 3 0 ≠ 2 then t
      else (t.switchBegun v).sourceJudged) := by
  show execSwitchRequest fn v s = _
  unfold execSwitchRequest
  rw [State.mmio_serves h]
  simp [State.switchBegun, State.sourceJudged, bit]

/-- Where a switch may run and the request names a source, the switch begins and its source is judged (R35). -/
theorem exec_switchRequest_begins {s : State} {fn : Fin 64} (h : s.Serves fn R.conControl true) {v : Word} (r : v.getLsbD 0 = true)
    (n : ¬(s.fld R.conStatus 3 0 = 3 ∨ s.fld R.conStatus 3 0 = 4)) (k : ¬ noSlot v = true)
    (act : (s.wr R.conControl (v &&& 0xF10#64)).fld R.conStatus 3 0 = 2) :
    exec (.switchRequest fn v) s = .next ((s.wr R.conControl (v &&& 0xF10#64)).switchBegun v).sourceJudged := by
  rw [exec_switchRequest h v, if_neg (ne_false_of_eq_true r), if_neg n, if_neg k, if_neg (not_not.2 act)]

/-! ### The quiesce point -/

theorem markQuiet_reached {s : State} (r : s.fld R.conStatus 3 0 = 3) (q : s.switchQuiet = true) :
    s.markQuiet = { s with con := { s.con with quiet := true } } := by
  simp [State.markQuiet, r, q]

theorem markQuiet_not_reached {s : State} (n : s.fld R.conStatus 3 0 ≠ 3 ∨ s.switchQuiet = false) : s.markQuiet = s := by
  rcases n with n | n <;> simp [State.markQuiet, n]

/-- The limit abandons a switch whose quiesce point is not reached in time (R36). -/
theorem exec_quiesceTimeout (s : State) :
    exec .quiesceTimeout s = .next (
      let lim := (s.rd R.conQuiesceLimit).toNat
      if s.fld R.conStatus 3 0 ≠ 3 ∨ lim = 0 ∨ s.now < s.con.asked + 1000 * lim ∨ s.con.quiet = true ∨ s.switchQuiet = true then s
      else s.abandon (0xE, 0)) := by
  show execQuiesceTimeout s = _
  simp [execQuiesceTimeout, or_assoc]

theorem exec_switchApply_none {s : State} (h : s.con.next = none) : exec .switchApply s = .next s := by
  show execSwitchApply s = _
  simp [execSwitchApply, h]

/-- At the quiesce point the overlay that was verified is put in force (R35). -/
theorem exec_switchApply_some {s : State} {m : Mem} {len : Nat} (h : s.con.next = some (m, len)) :
    exec .switchApply s = .next (
      if s.fld R.conStatus 3 0 ≠ 3 ∨ s.switchQuiet = false then s
      else s.switchTo (if s.con.reqMem then 8 else s.con.reqSlot) (if len = 0 then none else some (m.bytes 0 len))) := by
  show execSwitchApply s = _
  simp [execSwitchApply, h]

/-! ### An overlay is verified -/

/-- Does an update write to the flash? -/
def State.updateWrites (s : State) : Prop := ∃ u, s.mgt.update = some u ∧ u.writing = true

/-- An image that a switch names, once judged (R35, R36): recorded as what comes next, or the switch is abandoned. -/
def State.judged (w : State) (x : List Byte) (bad : Bool) (room : Nat) : State :=
  match verifyImage (w.signers 2) x bad room 2 w.conCounter w.baseImage with
  | some e => w.abandon e
  | none => { w with con := { w.con with next := some (Mem.store [] 0 x, x.length) } }

section
variable {w : State} {x : List Byte} {bad : Bool} {room : Nat}

theorem judged_fails {e : Nat × Nat} (h : verifyImage (w.signers 2) x bad room 2 w.conCounter w.baseImage = some e) :
    w.judged x bad room = w.abandon e := by
  simp [State.judged, h]

theorem judged_passes (h : verifyImage (w.signers 2) x bad room 2 w.conCounter w.baseImage = none) :
    w.judged x bad room = { w with con := { w.con with next := some (Mem.store [] 0 x, x.length) } } := by
  simp [State.judged, h]

end

/-- How many bytes the image that a switch names may take: its slot, or what the request gave of the buffer. -/
def State.switchRoom (q : State) : Nat := if q.con.reqMem then min q.con.reqLen 0x100000 else 0x100000

/-- The image that a switch names, whether its read failed, and the state after the read (R35). -/
def State.switchImage (q : State) (bad : Bool) : List Byte × Bool × State :=
  if q.con.reqMem then
    let m := q.memRead q.con.reqAddr q.switchRoom 7 0 true
    (m.1.take (max 64 (imgLen m.1)), m.2.1, m.2.2.poisonIf m.2.1)
  else (slotImage q.mgt.flash (ovlSlot q.con.reqSlot) 0x100000, bad, q)

/-- A verification has nothing to do: no switch runs, its overlay is verified already, or its slot is being written (R35, R603). -/
def State.verifyIdle (s : State) : Prop :=
  s.fld R.conStatus 3 0 ≠ 3 ∨ s.con.next.isSome = true ∨ (s.con.reqMem = false ∧ s.updateWrites)

theorem exec_overlayVerifyDone_idle {s : State} (h : s.verifyIdle) (bad : Bool) : exec (.overlayVerifyDone bad) s = .next s := by
  show execOverlayVerifyDone bad s = _
  rcases h with h | h | ⟨f, u, e, h⟩
  · simp [execOverlayVerifyDone, h]
  · simp [execOverlayVerifyDone, h]
  · simp [execOverlayVerifyDone, f, e, h]

section
variable {s : State} (h : ¬ s.verifyIdle) (bad : Bool)
include h

/-- A verification judges what the request named, or takes no overlay where it named none (R35, R36). -/
theorem exec_overlayVerifyDone_acts :
    exec (.overlayVerifyDone bad) s = .next (
      let q := s.markQuiet
      if !q.con.reqMem && q.con.reqSlot = 0xF then { q with con := { q.con with next := some ([], 0) } }
      else (q.switchImage bad).2.2.judged (q.switchImage bad).1 (q.switchImage bad).2.1 q.switchRoom) := by
  show execOverlayVerifyDone bad s = _
  refine congrArg _ ((if_neg fun guard => h ?_).trans rfl)
  rw [Bool.or_eq_true, Bool.or_eq_true, Bool.and_eq_true, decide_eq_true_eq, or_assoc, Bool.not_eq_true'] at guard
  refine guard.imp_right (.imp_right (.imp_right fun writes => ?_))
  cases e : s.mgt.update with
  | none => simp [e] at writes
  | some u => exact ⟨u, e, by simpa [e] using writes⟩

theorem exec_overlayVerifyDone_noOverlay (m : s.markQuiet.con.reqMem = false) (k : s.markQuiet.con.reqSlot = 0xF) :
    exec (.overlayVerifyDone bad) s =
      .next { s.markQuiet with con := { s.markQuiet.con with next := some ([], 0) } } := by
  rw [exec_overlayVerifyDone_acts h bad]
  exact congrArg _ (if_pos (by simp [m, k]))

theorem exec_overlayVerifyDone_flash (m : s.markQuiet.con.reqMem = false) (k : s.markQuiet.con.reqSlot ≠ 0xF) :
    exec (.overlayVerifyDone bad) s =
      .next (s.markQuiet.judged (slotImage s.markQuiet.mgt.flash (ovlSlot s.markQuiet.con.reqSlot) 0x100000) bad 0x100000) := by
  rw [exec_overlayVerifyDone_acts h bad]
  refine congrArg _ ((if_neg (by simp [k])).trans ?_)
  simp [State.switchImage, State.switchRoom, m]

theorem exec_overlayVerifyDone_mem (m : s.markQuiet.con.reqMem = true) {b : List Byte} {p : Bool} {t : State}
    (e : s.markQuiet.memRead s.markQuiet.con.reqAddr (min s.markQuiet.con.reqLen 0x100000) 7 0 true = (b, p, t)) :
    exec (.overlayVerifyDone bad) s =
      .next ((t.poisonIf p).judged (b.take (max 64 (imgLen b))) p (min s.markQuiet.con.reqLen 0x100000)) := by
  rw [exec_overlayVerifyDone_acts h bad]
  refine congrArg _ ((if_neg (by simp [m])).trans ?_)
  simp [State.switchImage, State.switchRoom, m, e]

end

/-! ### A switch of the translation mode -/

/-- TRN_MODE changes where the mirror is permitted and the part is quiet; else TRN_STATUS shows each refusal (R326). -/
theorem exec_modeSwitch {s : State} {fn : Fin 64} (h : s.Serves fn R.trnMode true) (mirror : Bool) :
    exec (.modeSwitch fn mirror) s = .next (
      let denied := mirror = true ∧ s.flag R.trnMode 1 = false
      let busy := ¬ (s.quiesced = true ∧ s.cmdList = [])
      let t := if denied then s.setFlag R.trnStatus 1 else s
      let u := if busy then t.setFlag R.trnStatus 0 else t
      if denied ∨ busy then u else (s.putFlag R.trnMode 0 mirror).flushTlbs) := by
  show execModeSwitch fn mirror s = _
  unfold execModeSwitch
  rw [State.mmio_serves h]
  simp [imp_iff_not_or]

/-! ### The reference clock -/

theorem exec_refDeviation_off {s : State} (h : s.boot.main = false) (ppm : BitVec 16) : exec (.refDeviation ppm) s = .next s := by
  show execRefDeviation ppm s = _
  simp [execRefDeviation, h]

/-- A measurement of the reference is shown; where REF_OK clears, the alert and the log come (R56). -/
theorem exec_refDeviation_on {s : State} (h : s.boot.main = true) (ppm : BitVec 16) :
    exec (.refDeviation ppm) s = .next (
      let ok := decide (ppm.toInt.natAbs ≤ 1000)
      let t := (s.wr R.clkRefPpm (BitVec.ofNat 64 ppm.toNat)).putFlag R.clkStatus 5 ok
      if ok = true ∨ s.flag R.clkStatus 5 = false then t else (t.alert 1).withFree fun r u => u.logEvent 0x02 0 r) := by
  show execRefDeviation ppm s = _
  simp [execRefDeviation, h]

/-! ### Event lines -/

/-- A line that more events reach than its accumulator has room for holds at 63, full (R67). -/
theorem EventLine.arrivals_full (e : EventLine) (n : Nat) (h : e.acc ≤ 63) (k : 63 < e.acc + n) :
    e.arrivals n = { e with acc := 63, full := true } := by
  induction n generalizing e with
  | zero => omega
  | succ n ih =>
    rw [EventLine.arrivals, EventLine.arrive]
    by_cases room : e.acc < 63
    · rw [if_pos room, ih { e with acc := e.acc + 1 } room (by simp only; omega)]
    · have at63 : e.acc = 63 := by omega
      rw [if_neg room]
      cases n with
      | zero => simp [EventLine.arrivals, ← at63]
      | succ n => exact ih { e with full := true } h (by simp only; omega)

theorem eventGroup_iff (g : Nat) : eventGroup g = true ↔ g ∈ [0, 1, 6, 7] := by
  simp [eventGroup, or_assoc]

theorem exec_cdcOverrun_other {s : State} {g : Fin 9} (h : (g : Nat) ∉ [0, 1, 6, 7]) : exec (.cdcOverrun g) s = .next s := by
  show execCdcOverrun g s = _
  rw [execCdcOverrun, if_neg (mt (eventGroup_iff g).1 h)]

/-- A full line delivers 63, and its window is shown and counted (R67). -/
theorem exec_cdcOverrun_full {s : State} {g : Fin 9} (h : (g : Nat) ∈ [0, 1, 6, 7])
    (room : (SMap.get ⟨0, false, 0⟩ s.mem.events g).acc ≤ 63) :
    exec (.cdcOverrun g) s = .next (
      let t := { s with mem := { s.mem with events := SMap.put ⟨0, false, 0⟩ s.mem.events g ⟨0, false, 63⟩ } }
      (t.setFlag R.clkCdcOverrun g).count R.clkCdcOverrunCount 32 1) := by
  show execCdcOverrun g s = _
  rw [execCdcOverrun, if_pos ((eventGroup_iff g).2 h), State.eventWindow, EventLine.arrivals_full _ 64 room (by omega)]
  rfl

/-! ### Crossings -/

/-- A replay is counted; the eighth of one flit may leave the die link down (R52). -/
theorem exec_dieLinkReplay (s : State) (again : Bool) :
    exec (.dieLinkReplay again) s = .next (
      let t := s.detect 7 0 0 (if again then .lost else .corrected)
      if again = false ∨ t.cutOff 9 0 = true then t
      else
        let u := { t with freeCount := t.freeCount + 1 }
        if Config.free t.freeCount % 2 = 0 then u else { u with mem := { u.mem with fenced := (9, 0) :: u.mem.fenced } }) := by
  show execDieLinkReplay again s = _
  simp [execDieLinkReplay, State.withFree]

theorem sidesOk_iff (g detect stopped : Nat) :
    sidesOk g detect stopped = true ↔ (detect, stopped) ∈ groupSides g ∨ (stopped, detect) ∈ groupSides g := by
  simp only [sidesOk, List.any_eq_true, Bool.or_eq_true, decide_eq_true_eq]
  constructor
  · rintro ⟨p, m, rfl | rfl⟩
    · exact .inl m
    · exact .inr m
  · rintro (m | m)
    · exact ⟨_, m, .inl rfl⟩
    · exact ⟨_, m, .inr rfl⟩

/-- A stall is declared where the crossing exists between the two domains, is not fenced, and holds a request that waits (R69, R72). -/
def State.stallDeclared (s : State) (g i detect stopped : Nat) : Prop :=
  stallOk g i = true ∧ sidesOk g detect stopped = true ∧ s.cutOff g i = false ∧ s.halfWaits g i = true

section
variable {s : State} {g : Fin 9} {inst : Byte} {detect stopped : Fin 8}

theorem exec_cdcStall_none (h : ¬ s.stallDeclared g (stallInstance g inst.toNat) detect stopped) :
    exec (.cdcStall g inst detect stopped) s = .next s := by
  show execCdcStall g inst detect stopped s = _
  unfold execCdcStall
  refine congrArg _ (if_pos ?_)
  simpa [State.stallDeclared, imp_iff_not_or, or_assoc] using h

/-- A stall that is declared is shown, counted and logged, its crossing fenced, and the host and the manager told (R69 to R72, R75). -/
theorem exec_cdcStall_declared (h : s.stallDeclared g (stallInstance g inst.toNat) detect stopped) :
    exec (.cdcStall g inst detect stopped) s = .next (
      let i := stallInstance g inst.toNat
      let t := (s.setFlag R.clkCdcStall g).count R.clkCdcStallCount 32 1
      let u := t.fillLog R.clkCdcStallLog
        (BitVec.ofNat 64 (2 ^ 63 + (detect : Nat) * 2 ^ 59 + (stopped : Nat) * 2 ^ 55 + (g : Nat) * 2 ^ 48 + i * 2 ^ 40 + s.time40))
      let v := { u with mem := { u.mem with fenced := ((g : Nat), i) :: u.mem.fenced } }
      let w := if (g : Nat) < 2 then v.fenceCore i stopped else if (g : Nat) = 5 then v.fenceMainline else v
      let x := if s.flag R.clkCdcStall g then w else w.raiseCause 0 9
      (x.alert 2).withFree fun r y => y.logEvent 0x03 i r) := by
  obtain ⟨ok, sides, cut, waits⟩ := h
  show execCdcStall g inst detect stopped s = _
  unfold execCdcStall
  simp only [ok, sides, cut, waits]
  cases s.flag R.clkCdcStall g <;> rfl

end

/-! ### The obligation -/

/-- Settles O52, clause by clause from the equation of each event above. -/
theorem consistSwitchesAndClocks : Obligations.ConsistSwitchesAndClocks := by
  unfold Obligations.ConsistSwitchesAndClocks
  refine ⟨fun s fn v h => ?_, fun s => ⟨markQuiet_reached, markQuiet_not_reached⟩, fun s bad => ?_, fun s e => rfl, fun s => ?_,
    fun s fn mirror h => ?_, fun s ppm => ?_, fun s g => ⟨fun m room _ => exec_cdcOverrun_full m room, exec_cdcOverrun_other⟩,
    fun s again => ?_, fun s g inst detect stopped => ?_⟩
  · intro t run st slot a len u0 u
    refine ⟨fun r => ?_, fun r n => ?_, fun r n m lo hi => ?_, fun r n ne k => ?_, fun r n act m k => ?_, fun r n act m => ?_⟩
    · rw [exec_switchRequest h v, if_pos r]
    · rw [exec_switchRequest h v, if_neg (ne_false_of_eq_true r), if_pos n]
    · rw [exec_switchRequest h v, if_neg (ne_false_of_eq_true r), if_neg n, if_pos ((noSlot_iff v).2 ⟨m, lo, hi⟩)]
    · rw [exec_switchRequest h v, if_neg (ne_false_of_eq_true r), if_neg n, if_neg (noSlot_of_named k), if_pos ne]
    · rw [exec_switchRequest_begins h r n (noSlot_of_named (.inr k)) act]
      exact congrArg _ (sourceJudged_flash m)
    · rw [exec_switchRequest_begins h r n (noSlot_of_named (.inl m)) act]
      exact ⟨fun l => congrArg _ (sourceJudged_locked m l), fun l o => congrArg _ (sourceJudged_outside m l o),
        fun l z k => congrArg _ (sourceJudged_inside l z k)⟩
  · intro q writing img skip
    refine ⟨fun i => exec_overlayVerifyDone_idle i bad, fun n => exec_overlayVerifyDone_noOverlay n bad, fun n f k => ?_,
      fun b p t n m => ?_⟩
    · rw [exec_overlayVerifyDone_flash n bad f k]
      exact ⟨fun e w => congrArg _ (judged_fails w), fun w => congrArg _ (judged_passes w)⟩
    · intro room e x w why
      rw [exec_overlayVerifyDone_mem n bad m e]
      exact ⟨fun e w => congrArg _ (judged_fails w), fun w => congrArg _ (judged_passes w)⟩
  · intro lim reached
    rw [exec_quiesceTimeout]
    refine ⟨fun r l n q => congrArg _ (if_neg ?_), fun h => congrArg _ (if_pos h), exec_switchApply_none, fun m len e => ?_⟩
    · rintro (h | h | h | h)
      · exact h r
      · exact l h
      · exact Nat.not_lt.2 n h
      · exact q h
    · rw [exec_switchApply_some e]
      exact ⟨fun h => congrArg _ (if_pos h), fun r q => congrArg _ (if_neg (by simp [r, q]))⟩
  · rw [exec_modeSwitch h mirror]
    intro denied quiet
    refine ⟨fun d q => congrArg _ (if_neg (not_or.2 ⟨d, not_not.2 q⟩)), fun d q => ?_, fun d q => ?_, fun d q => ?_⟩
    · exact congrArg _ ((if_pos (.inl d)).trans ((if_neg (not_not.2 q)).trans (if_pos d)))
    · exact congrArg _ ((if_pos (.inr q)).trans ((if_pos q).trans (congrArg (State.setFlag · _ _) (if_neg d))))
    · exact congrArg _ ((if_pos (.inl d)).trans ((if_pos q).trans (congrArg (State.setFlag · _ _) (if_pos d))))
  · intro good t
    refine ⟨fun h => exec_refDeviation_off h ppm, fun h k => ?_, fun h bad was => ?_⟩ <;> rw [exec_refDeviation_on h ppm]
    · exact congrArg _ (if_pos k)
    · exact congrArg _ (if_neg (not_or.2 ⟨ne_true_of_eq_false bad, ne_false_of_eq_true was⟩))
  · intro t u
    rw [exec_dieLinkReplay]
    exact ⟨fun h => congrArg _ (if_pos h), fun a c => congrArg _ (if_neg (not_or.2 ⟨ne_false_of_eq_true a, ne_true_of_eq_false c⟩))⟩
  · intro i sides
    refine ⟨fun h => exec_cdcStall_none fun ⟨ok, sd, cut, waits⟩ => ?_, fun ok sd cut waits =>
      exec_cdcStall_declared ⟨ok, (sidesOk_iff _ _ _).2 sd, cut, waits⟩⟩
    rcases h with h | h | h | h
    · exact ne_true_of_eq_false h ok
    · exact h ((sidesOk_iff _ _ _).1 sd)
    · exact ne_true_of_eq_false cut h
    · exact ne_true_of_eq_false h waits

end Sys2Proof.Machine

/-! The nanosecond that passes on an empty queue: what a tick leaves where nothing is in use. -/

namespace Sys2Proof

/-- What a table with rising keys, each with its value of `f`, holds. -/
theorem SMap.get_map {α : Type} (d : α) (f : Nat → α) (k : Nat) {l : List Nat} (rising : l.Pairwise (· < ·)) :
    SMap.get d (l.map fun i => (i, f i)) k = if k ∈ l then f k else d := by
  induction rising with
  | nil => rfl
  | @cons a l below _ ih =>
    rw [List.map_cons, SMap.get, ih]
    by_cases same : k = a
    · simp [same]
    · by_cases before : k < a
      · have out : k ∉ l := fun m => Nat.lt_asymm before (below k m)
        simp [same, before, out]
      · simp [same, before]

end Sys2Proof

namespace Sys2Proof.Machine

/-! ### A nanosecond with nothing in use -/

/-- Nothing that a nanosecond moves is in use: no core, points unit or gated cluster, no switch or HOLD, and no counter selected in the
sets of the two dies' memory, the only units whose lasting events are looked at all the time. -/
structure State.Unused (s : State) : Prop where
  cores : s.cores = []
  units : s.pts.units = []
  gated : s.pwr.gated = []
  holding : s.holding = false
  events : ∀ d < 2, ∀ j < 4, s.rd (R.dbgEvsel (210 + d) j) = 0

namespace State

variable {s : State}

/-- An event of a set with no counter selected is counted nowhere (R610). -/
theorem hit_of_noneSelected {set : Nat} (h : ∀ j < 4, s.rd (R.dbgEvsel set j) = 0) (code n : Nat) : s.hit set code n = s := by
  have four : List.range 4 = [0, 1, 2, 3] := rfl
  rw [hit, four]
  simp only [List.foldl_cons, List.foldl_nil, h 0 (by decide), h 1 (by decide), h 2 (by decide), h 3 (by decide), if_pos]

theorem markQuiet_of_not_holding (h : s.holding = false) : s.markQuiet = s := by
  have notSwitching : s.fld R.conStatus 3 0 ≠ 3 := by
    intro e
    simp [holding, e] at h
  exact markQuiet_not_reached (.inl notSwitching)

theorem chargeHeld_of_not_holding (h : s.holding = false) : s.chargeHeld = s :=
  if_neg (ne_true_of_eq_false h)

theorem Unused.idleCores (h : s.Unused) : s.idleCores = [] := by
  simp [State.idleCores, h.cores, h.gated]

theorem Unused.skipIdle (h : s.Unused) : s.skipIdle = s := by
  simp [State.skipIdle, h.idleCores, h.gated]

theorem Unused.hit (h : s.Unused) {d : Nat} (k : d < 2) (code n : Nat) : s.hit (210 + d) code n = s :=
  hit_of_noneSelected (h.events d k) code n

theorem Unused.countLevels (h : s.Unused) : s.countLevels = s := by
  have dies : List.range 2 = [0, 1] := rfl
  rw [State.countLevels, h.cores, h.units, dies]
  simp only [List.filter_nil, List.foldl_nil, List.foldl_cons, h.hit (d := 0) (by decide), h.hit (d := 1) (by decide)]

/-- With nothing in use the timestamp alone counts (R62). -/
theorem Unused.serviceTick (h : s.Unused) : s.serviceTick = s.wr R.clkTsNow (s.rd R.clkTsNow + 1#64) := by
  have others : s.countLevels.skipIdle.chargeHeld.markQuiet = s := by
    rw [h.countLevels, h.skipIdle, chargeHeld_of_not_holding h.holding, markQuiet_of_not_holding h.holding]
  simp only [State.serviceTick, h.cores, List.foldl_nil, others]

/-! ### The standby uptime -/

/-- The state with the standby uptime counted: 1 ns more on standby power (R608). -/
def withUptime (s : State) : State :=
  if s.boot.power then { s with mgt := { s.mgt with uptimeNs := s.mgt.uptimeNs + 1 } } else s

/-- Counting the uptime touches the management controller alone. -/
theorem withUptime_eq_withMgt (s : State) : ∃ m, s.withUptime = { s with mgt := m } := by
  unfold withUptime
  split
  · exact ⟨_, rfl⟩
  · exact ⟨s.mgt, rfl⟩

theorem withUptime_rd (s : State) (off : Nat) : s.withUptime.rd off = s.rd off := by
  obtain ⟨m, e⟩ := s.withUptime_eq_withMgt
  rw [e]
  rfl

theorem withUptime_locked (s : State) : s.withUptime.locked = s.locked := by
  unfold locked fld
  rw [withUptime_rd]

theorem Unused.withUptime (h : s.Unused) : s.withUptime.Unused := by
  obtain ⟨m, e⟩ := s.withUptime_eq_withMgt
  rw [e]
  exact ⟨h.cores, h.units, h.gated, h.holding, h.events⟩

theorem tick_of_unlocked (h : s.locked = false) : s.tick = s.withUptime :=
  if_neg (ne_true_of_eq_false (s.withUptime_locked.trans h))

theorem tick_of_locked (h : s.locked = true) : s.tick = s.withUptime.serviceTick :=
  if_pos (s.withUptime_locked.trans h)

theorem Unused.tick (h : s.Unused) (l : s.locked = true) : s.tick = s.withUptime.wr R.clkTsNow (s.rd R.clkTsNow + 1#64) := by
  rw [tick_of_locked l, h.withUptime.serviceTick, withUptime_rd]

end State

/-! ### The obligation -/

/-- Settles O2: the tick counts the uptime, and with the root PLL locked and nothing in use the timestamp besides. -/
theorem idleStepPassesOneNanosecond : Obligations.IdleStepPassesOneNanosecond := by
  intro s empty up
  rw [step_of_empty empty]
  refine ⟨fun unlocked => ?_, fun locked cores units gated holding events => ?_⟩
  · exact congrArg _ (State.tick_of_unlocked unlocked)
  · have unused : s.Unused := ⟨cores, units, gated, holding, fun d _ j _ => events (210 + d) j⟩
    exact congrArg _ (unused.tick locked)

/-! ### States that meet the hypotheses -/

/-- A module on standby power whose root PLL has locked, and that has nothing else. -/
def lockedModule : State :=
  { State.reset.setFld R.pwrBootStatus 19 16 4 with boot := { State.reset.boot with power := true } }

theorem lockedModule_tick : lockedModule.tick =
    { lockedModule.wr R.clkTsNow 1 with mgt := { lockedModule.mgt with uptimeNs := 1 } } := by
  have unused : lockedModule.Unused := ⟨rfl, rfl, rfl, by decide +kernel, by decide +kernel⟩
  rw [unused.tick (by decide +kernel)]
  rfl

/-- The register table that holds `f`, which differs from the reset values below `n` only. -/
def regsHolding (n : Nat) (f : Nat → Word) : SMap Word :=
  ((List.range n).filter fun off => f off != resetOf off).map fun off => (off, f off)

theorem regsHolding_get {n : Nat} {f : Nat → Word} (above : ∀ off, n ≤ off → resetOf off = f off) (off : Nat) :
    (regsHolding n f).get (resetOf off) off = f off := by
  rw [regsHolding, SMap.get_map _ _ _ (List.pairwise_lt_range.filter _)]
  split
  next => rfl
  next unlisted =>
    by_cases low : off < n
    · exact (not_not.1 fun ne => unlisted (List.mem_filter.2 ⟨List.mem_range.2 low, bne_iff_ne.2 ne⟩)).symm
    · exact above off (Nat.le_of_not_lt low)

theorem inArray_past {off b s c : Nat} (positive : 0 < s) (past : b + c * s ≤ off) : inArray off b s c = false := by
  have beyond : c ≤ (off - b) / s := (Nat.le_div_iff_mul_le positive).2 (by omega)
  simp [inArray, Nat.not_lt.2 beyond]

/-- No register from 0x1800000 up has a reset value of its own. -/
theorem resetOf_above {off : Nat} (high : 0x1800000 ≤ off) : resetOf off = 0 := by
  have other {r : Nat} (below : r < 0x1800000) : off ≠ r := by omega
  have past {b s c : Nat} (positive : 0 < s) (below : b + c * s ≤ 0x1800000) : ¬ inArray off b s c = true :=
    ne_true_of_eq_false (inArray_past positive (below.trans high))
  unfold resetOf
  iterate 15 rw [if_neg (other (by decide))]
  iterate 5 rw [if_neg (past (by decide) (by decide))]

/-- Step 4 of the start in PWR_BOOT_STATUS, and 0 in every other register. -/
def bootStepAlone (off : Nat) : Word := if off = R.pwrBootStatus then 0x40000 else 0

theorem bootStepAlone_other {off : Nat} (h : off ≠ R.pwrBootStatus) : bootStepAlone off = 0 := if_neg h

/-- The module at reset with the contents `bootStepAlone` of its registers: no offset at all selects a counter. -/
def noneSelected : State := { State.reset with regs := regsHolding 0x1800000 bootStepAlone }

theorem noneSelected_rd (off : Nat) : noneSelected.rd off = bootStepAlone off := by
  have above (off : Nat) (high : 0x1800000 ≤ off) : resetOf off = bootStepAlone off := by
    rw [resetOf_above high, bootStepAlone_other (by unfold R.pwrBootStatus; omega)]
  rw [State.rd, noneSelected, regsHolding_get above]

/-- The second clause of O2 on `noneSelected`, which meets all its hypotheses. -/
theorem noneSelected_step : step noneSelected = .next (noneSelected.wr R.clkTsNow 1) := by
  have idle : noneSelected.holding = false := by
    simp only [State.holding, State.flag, State.fld, noneSelected_rd]
    decide
  have locked : noneSelected.locked = true := by
    unfold State.locked State.fld
    rw [noneSelected_rd]
    decide
  have events (set j : Nat) : noneSelected.rd (R.dbgEvsel set j) = 0 := by
    rw [noneSelected_rd]
    exact bootStepAlone_other (by unfold R.dbgEvsel R.pwrBootStatus; omega)
  have zero : noneSelected.rd R.clkTsNow + 1#64 = 1 := by
    rw [noneSelected_rd]
    decide
  rw [(idleStepPassesOneNanosecond noneSelected rfl).2 locked rfl rfl rfl idle events, zero]
  rfl

end Sys2Proof.Machine

/-! How a thread instruction's row ends where its word issues: the group stepped or held, and the core beside it. -/

namespace Sys2Proof

/-- A value that is not the unlisted one reads back, whatever the table's order. -/
theorem SMap.get_put_of_ne {α : Type} [DecidableEq α] {d v : α} (ne : v ≠ d) (k : Nat) (m : SMap α) : (m.put d k v).get d k = v := by
  induction m with
  | nil => simp [SMap.put, SMap.get, ne]
  | cons e t ih =>
    obtain ⟨j, x⟩ := e
    unfold SMap.put
    split
    next => simp [SMap.get]
    next before =>
      split
      next same => simp [SMap.get]
      next other => simp [SMap.get, before, other, ih]

theorem SMap.put_ne_nil {α : Type} [DecidableEq α] {d v : α} (ne : v ≠ d) (k : Nat) (m : SMap α) : m.put d k v ≠ [] := by
  intro empty
  have read := SMap.get_put_of_ne ne k m
  rw [empty] at read
  exact ne read.symm

end Sys2Proof

namespace Sys2Proof.Machine

/-! ### Counting beside an update of a core -/

theorem State.Counted.setCore {s t : State} (h : s.Counted t) (c : Nat) (k : Core) : (s.setCore c k).Counted (t.setCore c k) := by
  refine ⟨?_, h.2⟩
  rw [h.1]
  rfl

theorem State.hit_counts {s : State} (r : s.RegsRise) {set : Nat} (k : set < 214) (code n : Nat) :
    s.Counted (s.hit set code n) ∧ (s.hit set code n).RegsRise := State.hit_counted (.refl s) r k

theorem State.Counted.core {s t : State} (h : s.Counted t) (c : Nat) : t.core c = s.core c := by
  unfold State.core
  rw [h.cores]

theorem State.counts_ite {s t u : State} (p : Prop) [Decidable p] (ht : s.Counted t ∧ t.RegsRise) (hu : s.Counted u ∧ u.RegsRise) :
    s.Counted (if p then t else u) ∧ (if p then t else u).RegsRise := by
  split <;> assumption

/-! ### The group that an instruction leaves -/

@[simp] theorem Core.group_setGroup_some (k : Core) (slot : Nat) (g : Group) : (k.setGroup slot (some g)).group slot = some g :=
  SMap.get_put_of_ne (Option.some_ne_none g) _ _

theorem Core.setGroup_some_ne_empty (k : Core) (slot : Nat) (g : Group) : k.setGroup slot (some g) ≠ Core.empty := fun e =>
  SMap.put_ne_nil (Option.some_ne_none g) slot k.groups (congrArg Core.groups e)

theorem State.core_setCore_setGroup (s : State) (c slot : Nat) (k : Core) (g : Group) :
    (s.setCore c (k.setGroup slot (some g))).core c = k.setGroup slot (some g) :=
  SMap.get_put_of_ne (k.setGroup_some_ne_empty slot g) _ _

theorem State.group_setCore_setGroup (s : State) (c slot : Nat) (k : Core) (g : Group) :
    ((s.setCore c (k.setGroup slot (some g))).core c).group slot = some g := by
  rw [State.core_setCore_setGroup, Core.group_setGroup_some]

/-! ### How a row ends -/

section
variable {i : Instr} {s t u : State} {c slot : Nat} {g h : Group} {w : Word} {row : Word → Bool} {act : Group → Word → State} {k : Core}

/-- A row whose word leaves the core `k` with the group `h`, not held, issues and leaves just that. -/
theorem issues_setCore (e : exec i s = .next (s.issue c slot row act)) (a : s.Issuable c slot g w) (m : row w = true) (n : c < 192)
    (q : act g w = t.setCore c (k.setGroup slot (some h))) (x : u.Counted t ∧ t.RegsRise) (free : h.hold = false) :
    Issues i s c slot (u.setCore c (k.setGroup slot (some h))) := by
  refine issues_of_issue e a m n (q ▸ x.1.setCore c _) (q ▸ x.2) fun h' eh => ?_
  rw [q, State.group_setCore_setGroup] at eh
  exact Option.some.inj eh ▸ free

/-- A row whose word steps the group, and at most counts beside it. -/
theorem stepsGroup_setGroup (e : exec i s = .next (s.issue c slot row act)) (a : s.Issuable c slot g w) (m : row w = true) (n : c < 192)
    (q : act g w = t.setGroup c slot h) (x : s.Counted t ∧ t.RegsRise) (free : h.hold = false) : StepsGroup i s c slot h :=
  issues_setCore e a m n (q.trans (by rw [State.setGroup, x.1.core])) x free

/-- A row whose word leaves the core `k` with the group `h` held at it. -/
theorem stepsTo_held (e : exec i s = .next (s.issue c slot row act)) (a : s.Issuable c slot g w) (m : row w = true)
    (q : act g w = s.setCore c (k.setGroup slot (some h))) (held : h.hold = true) :
    StepsTo i s (s.setCore c (k.setGroup slot (some h))) :=
  steps_to_of_hold e a m (q ▸ .refl _) (q ▸ s.group_setCore_setGroup c slot k h) held

theorem holds_of_holdAt {why : Nat} (e : exec i s = .next (s.issue c slot row act)) (a : s.Issuable c slot g w) (m : row w = true)
    (q : act g w = s.holdAt c slot g why) : Holds i s c slot g why := stepsTo_held e a m q rfl

/-- A row whose word ends in `u`, without counting. -/
theorem ends_of_eq (r : u.RegsRise) (e : exec i s = .next (s.issue c slot row act)) (a : s.Issuable c slot g w) (m : row w = true)
    (n : c < 192) (q : act g w = u) : Ends i s c slot u := ends_of_issue e a m n (q ▸ .refl _) (q ▸ r)

end

/-- The two checks that open a row: its fields are legal, and no register it names is still to be written (R134, R143). -/
theorem row_passes {α : Type} {ok : Bool} {k : Core} {slot : Nat} {srcs regs : List Nat} {a b c : α} (legal : ok = true)
    (free : k.blocked slot regs = 0) : (if !ok then a else if k.why slot srcs regs ≠ 0 then b else c) = c := by
  simp [legal, (Core.why_eq_zero ..).2 free]

/-! ### Fields and operands of an instruction word -/

theorem isMajor_iff {n : Nat} {w : Word} : isMajor n w = true ↔ fld w 63 57 = n := decide_eq_true_iff

theorem isMinor_of {major minor top : Nat} {w : Word} (h : fld w 63 57 = major) (k : fld w 28 21 = minor) :
    isMinor major minor top w = true := by
  unfold isMinor
  rw [isMajor_iff.2 h]
  split <;> simp_all

/-- A register keeps the low 32 bits of what is written to it. -/
theorem half_mod (x : Nat) : (BitVec.ofNat 32 (x % 4294967296) : Half) = BitVec.ofNat 32 x :=
  BitVec.eq_of_toNat_eq (by simp)

theorem Group.setVs_one (g : Group) (r l x : Nat) : g.setVs r 1 l x = g.setV r l x := by
  simp [Group.setVs, Group.setV, half_mod]

theorem Group.setUs_two (g : Group) (r x : Nat) : g.setUs r 2 x = (g.setU r (x % 2 ^ 32)).setU (r + 1) (x / 2 ^ 32) := by
  simp [Group.setUs, Group.setU, List.range_succ, half_mod]

end Sys2Proof.Machine

/-! Control transfers: NOP, branches, calls, returns and SREG. -/

namespace Sys2Proof.Machine

@[simp] theorem Core.blocked_nil (k : Core) (slot : Nat) : k.blocked slot [] = 0 := by
  simp [Core.blocked]

/-- The lanes in which a branch's predicate holds. -/
def condOf (g : Group) (f : IFields) : Half := if f.pinv then ~~~g.getP f.pred else g.getP f.pred

theorem takenAny_iff (g : Group) (f : IFields) : takenAny g f = true ↔ condOf g f &&& g.live ≠ 0 := decide_eq_true_iff

/-- Is a branch of a form taken (R91)? -/
def branchTaken (form : Nat) (g : Group) (f : IFields) : Bool :=
  match form with
  | 0 => takenAny g f
  | 1 => decide (g.live &&& ~~~condOf g f = 0)
  | _ => decide (g.getU f.srcA ≠ 0) != f.pinv

theorem branchTaken_uniform (g : Group) (f : IFields) : branchTaken 2 g f = true ↔ (g.getU f.srcA ≠ 0 ↔ f.pinv = false) := by
  cases e : f.pinv <;> simp [branchTaken, e]

section
variable {s : State} {c : Fin 192} {slot : Fin 64} {g : Group} {w : Word} (k : s.Canon) (a : s.Issuable c slot g w)
include k a

theorem nop_steps (m : fld w 63 57 = 0x00) (z : fld w 52 0 = 0) : StepsGroup (.nop c slot) s c slot (g.next 8) :=
  stepsGroup_setGroup rfl a (isMajor_iff.2 m) c.isLt (if_pos z) ⟨.refl s, k.rise⟩ rfl

/-- A branch of a form whose fields are right and whose register is written goes on where R91 says. -/
theorem branch_steps {i : Instr} {form : Nat} (e : exec i s = .next (s.branchRow c slot form)) (m : fld w 63 57 = 0x30)
    (n : fld w 28 21 = form) (le : form ≤ 2) (d : (iFields w).dest = 0) (b : (iFields w).srcB = 0)
    (operand : (if form = 2 then decide ((iFields w).srcA < 64) && decide ((iFields w).pred = 7) else decide ((iFields w).srcA = 0)) = true)
    (free : (s.core c).blocked slot (if form = 2 then [256 + (iFields w).srcA] else []) = 0) :
    StepsGroup i s c slot (if branchTaken form g (iFields w) then g.goto (relTarget g w) else g.next 8) := by
  have hit := State.hit_counts k.rise (Nat.lt_trans c.isLt (by decide : 192 < 214)) 0x2A 1
  have counted := State.counts_ite (branchTaken form g (iFields w) = true) hit ⟨.refl s, k.rise⟩
  refine stepsGroup_setGroup e a (isMinor_of m n) c.isLt ?_ counted ?_
  · simp only [n, le, d, b, operand, (Core.why_eq_zero ..).2 free]
    rfl
  · split <;> rfl

theorem call_steps (m : fld w 63 57 = 0x31) (n : fld w 28 21 = 0) (sa : (iFields w).srcA = 0) (sb : (iFields w).srcB = 0)
    (lt : (iFields w).dest < 64) (even : (iFields w).dest % 2 = 0)
    (free : (s.core c).blocked slot [256 + (iFields w).dest, 257 + (iFields w).dest] = 0) :
    StepsGroup (.call c slot) s c slot
      (if takenAny g (iFields w) then (g.setUs (iFields w).dest 2 ((g.pc + 8) % 2 ^ 48)).goto (relTarget g w) else g.next 8) := by
  refine stepsGroup_setGroup rfl a (isMajor_iff.2 m) c.isLt ?_ ⟨.refl s, k.rise⟩ ?_
  · simp only [n, sa, sb, Opd.ok, lt, even, (Core.why_eq_zero ..).2 free]
    rfl
  · split <;> rfl

theorem ret_steps (m : fld w 63 57 = 0x32) (z : fld w 28 0 = 0) (d : (iFields w).dest = 0) (sb : (iFields w).srcB = 0)
    (lt : (iFields w).srcA < 64) (even : (iFields w).srcA % 2 = 0)
    (free : (s.core c).blocked slot [256 + (iFields w).srcA, 257 + (iFields w).srcA] = 0)
    (aligned : g.read (.u (iFields w).srcA 2) 0 % 2 ^ 48 % 8 = 0) :
    StepsGroup (.ret c slot) s c slot
      (if takenAny g (iFields w) then g.goto (g.read (.u (iFields w).srcA 2) 0 % 2 ^ 48) else g.next 8) := by
  refine stepsGroup_setGroup rfl a (isMajor_iff.2 m) c.isLt ?_ ⟨.refl s, k.rise⟩ ?_
  · simp only [z, d, sb, Opd.ok, lt, even, (Core.why_eq_zero ..).2 free, aligned]
    cases takenAny g (iFields w) <;> rfl
  · split <;> rfl

/-- SREG of LANE: the decoder lets no uniform destination through. -/
theorem sregLane_steps (m : fld w 63 57 = 0x0F) (ok : sregOk g w = true) (lane : (fmtA w).minor = 0)
    (free : (s.core c).blocked slot [(iFields w).dest] = 0) :
    StepsGroup (.sreg c slot) s c slot
      (((lanesOf (execMask g (iFields w))).foldl (fun h l => h.setV (iFields w).dest l l) g).next 8) := by
  have vector : (fmtA w).ud = false := by
    simp only [sregOk, lane, Bool.and_eq_true] at ok
    simp_all
  refine stepsGroup_setGroup rfl a (isMajor_iff.2 m) c.isLt ?_ ⟨.refl s, k.rise⟩ rfl
  simp [ok, lane, vector, opd, Opd.regs, (Core.why_eq_zero ..).2 free, Group.write, Group.setVs_one]

end

theorem Group.goto_mod (g : Group) (pc : Nat) : g.goto (pc % 2 ^ 48) = g.goto pc := by
  simp [Group.goto]

theorem mod_of_aligned {x : Nat} (h : x % 8 = 0) : x % 2 ^ 48 % 8 = 0 := by omega

/-- The pair that RET reads. -/
theorem Group.read_pair (g : Group) (r : Nat) : g.read (.u r 2) 0 = g.getU r + 2 ^ 32 * g.getU (r + 1) := by
  simp [Group.read, List.range_succ]

/-- Settles O12, an instruction at a time from the lemmas above. -/
theorem threadControlFlow : Obligations.ThreadControlFlow := by
  unfold Obligations.ThreadControlFlow
  intro s c slot g w k a f cond target
  refine ⟨nop_steps k a, fun m n d sa sb => ?_, fun m n d sa sb => ?_, fun m n d sa sb p free => ?_, fun m n sa sb lt even free => ?_,
    fun m z d sb lt even free aligned => ?_, sregLane_steps k a⟩
  · have steps := branch_steps k a (i := .braAny c slot) rfl m n (by decide) d sb (decide_eq_true sa) (Core.blocked_nil ..)
    simp only [branchTaken, takenAny_iff] at steps
    exact steps
  · have steps := branch_steps k a (i := .braAll c slot) rfl m n (by decide) d sb (decide_eq_true sa) (Core.blocked_nil ..)
    simp only [branchTaken, decide_eq_true_iff] at steps
    exact steps
  · have operand : (decide (f.srcA < 64) && decide (f.pred = 7)) = true := by simp [sa, p]
    have steps := branch_steps k a (i := .braU c slot) rfl m n (by decide) d sb operand free
    simp only [branchTaken_uniform] at steps
    exact steps
  · have steps := call_steps k a m n sa sb lt even free
    simp only [takenAny_iff, Group.setUs_two] at steps
    exact steps
  · have steps := ret_steps k a m z d sb lt even free (by rw [Group.read_pair]; exact mod_of_aligned aligned)
    simp only [takenAny_iff, Group.goto_mod, Group.read_pair] at steps
    exact steps

end Sys2Proof.Machine

/-! Conversions and scratchpad accesses whose lanes are aligned, inside the allocation and clean. -/

namespace Sys2Proof.Machine

/-! ### Lanes without a fault -/

@[simp] theorem pickFault_nil : pickFault [] = none := rfl

section
variable {lanes : List Nat} {addr : Nat → Nat} {size : Nat}

theorem misaligned_eq_nil (h : ∀ l ∈ lanes, addr l % size = 0) : misaligned lanes addr size = [] := by
  simpa [misaligned] using h

theorem outOfBounds_eq_nil {limit : Nat} (h : ∀ l ∈ lanes, addr l + size ≤ limit) : outOfBounds lanes addr size limit = [] := by
  simpa [outOfBounds] using h

theorem Core.scratchFaults_eq_nil {k : Core} {base : Nat} (h : ∀ l ∈ lanes, k.scratchBad (base + addr l) size = false) :
    k.scratchFaults lanes addr base size = [] := by
  simpa [Core.scratchFaults] using h

theorem pickFault_inside {limit : Nat} (h : ∀ l ∈ lanes, addr l % size = 0 ∧ addr l + size ≤ limit) :
    pickFault (misaligned lanes addr size ++ outOfBounds lanes addr size limit) = none := by
  rw [misaligned_eq_nil fun l i => (h l i).1, outOfBounds_eq_nil fun l i => (h l i).2]
  rfl

end

/-- An access none of whose lanes faults goes on. -/
theorem noFault {α : Type} {l : List (Nat × Nat × Nat)} {F : Nat → Half → Nat → α} {b : α} (h : pickFault l = none) :
    (match pickFault l with
      | some (code, lanes, a) => F code lanes a
      | none => b) = b := by
  rw [h]

theorem State.replayed_counts {s : State} (r : s.RegsRise) {c : Nat} (k : c < 192) (lanes : List Nat) (addr : Nat → Nat) (size : Nat)
    (atomic : Bool) : s.Counted (s.replayed c lanes addr size atomic) ∧ (s.replayed c lanes addr size atomic).RegsRise :=
  State.hit_counts r (by omega) _ _

/-- A scratchpad row whose lanes are aligned and inside the allocation, and that no drain of its group holds back, goes on. -/
theorem scratchRow_passes {α : Type} {ok : Bool} {k : Core} {slot : Nat} {srcs regs lanes : List Nat} {addr at_ : Nat → Nat}
    {size limit : Nat} {F : Nat → Half → Nat → α} {a b d e : α} (legal : ok = true) (free : k.blocked slot regs = 0)
    (inside : ∀ l ∈ lanes, addr l % size = 0 ∧ addr l + size ≤ limit) (drains : k.drainHolds slot lanes at_ size = false) :
    (if !ok then a else if k.why slot srcs regs ≠ 0 then b
      else match pickFault (misaligned lanes addr size ++ outOfBounds lanes addr size limit) with
        | some (code, lanes, x) => F code lanes x
        | none => if k.drainHolds slot lanes at_ size then d else e) = e :=
  (row_passes legal free).trans ((noFault (pickFault_inside inside)).trans (if_neg (ne_true_of_eq_false drains)))

theorem noUpset (b : Bool) : (b && decide (Upset.none ≠ Upset.none)) = false := by simp

/-! ### The obligation -/

/-- Settles O13: each instruction reaches the branch that writes, and counts its draws or replay passes beside it. -/
theorem scratchpadInstructions : Obligations.ScratchpadInstructions := by
  unfold Obligations.ScratchpadInstructions
  intro s c slot g w r a k f m v mask size n addr base inside rel clean
  have unpoisoned {sz : Nat} (lanes : ∀ l ∈ actLanes mask m.ud, clean l sz) :
      pickFault (k.scratchFaults (actLanes mask m.ud) addr base sz) = none := by
    rw [Core.scratchFaults_eq_nil fun l i => (lanes l i).2, pickFault_nil]
  refine ⟨fun j ok free => ?_, fun j ok free lanes drains => ?_, fun j ok free lanes => ?_, fun j ok => ?_⟩
  · have draws := State.hit_counts r.rise (Nat.lt_trans c.isLt (by decide : 192 < 214)) 0x28 (lanesOf mask).length
    exact issues_setCore rfl a (isMajor_iff.2 j) c.isLt (row_passes ok free) (State.counts_ite (v.rnd = 2) draws ⟨.refl s, r.rise⟩) rfl
  · have counted := State.replayed_counts r.rise c.isLt (actLanes mask m.ud) addr size false
    refine stepsGroup_setGroup rfl a (isMajor_iff.2 j) c.isLt
      ((scratchRow_passes ok free (fun l i => (lanes l i).1) drains).trans ?_) counted rfl
    simp only [noUpset, Bool.false_and, Bool.false_eq_true, if_false, State.setCore_self r]
    exact noFault (unpoisoned lanes)
  · have counted := State.replayed_counts r.rise c.isLt (lanesOf mask) addr size false
    exact issues_setCore rfl a (isMajor_iff.2 j) c.isLt ((row_passes ok free).trans (noFault (pickFault_inside lanes))) counted rfl
  · intro n dest src free lanes drains done k'
    have taken := s.bumpFree_counted
    have counted := State.replayed_counts (s := { s with freeCount := s.freeCount + 1 }) r.rise c.isLt (actLanes mask m.ud) addr (4 * n) true
    refine issues_setCore rfl a (isMajor_iff.2 j) c.isLt
      ((scratchRow_passes ok free (fun l i => (lanes l i).1) drains).trans ?_) ⟨taken.trans counted.1, counted.2⟩ rfl
    simp only [noUpset, Bool.false_and, Bool.false_eq_true, if_false, State.setCore_self r]
    exact noFault (unpoisoned lanes)

end Sys2Proof.Machine

/-! ATOM.ACQ and ATOM.REL on scratchpad and on device memory, where no lane faults and nothing holds them back. -/

namespace Sys2Proof.Machine

theorem isLock_of {acq : Bool} {w : Word} (m : fld w 63 57 = 0x26) (op : fld w 23 21 = if acq then 0 else 1) :
    isLock (if acq then 0 else 1) w = true := by
  unfold isLock
  rw [isMajor_iff.2 m, op]
  cases acq <;> rfl

/-- Settles O15: past its checks the row takes the lanes in turn, at the core for scratchpad and at the home slice for device memory. -/
theorem lockInstructions : Obligations.LockInstructions := by
  unfold Obligations.LockInstructions
  intro s c slot g w acq r a k f m mask lanes ctx from_ i op j opcode ok free
  have e : exec i s = .next (s.lockRow c slot acq) := by cases acq <;> rfl
  have row := isLock_of j opcode
  rw [List.append_assoc] at free
  refine ⟨fun scratch => ?_, fun device => ?_⟩
  · intro addr base clean drains done got k' g'
    have counted := State.replayed_counts r.rise c.isLt lanes addr 8 true
    have within : lanes.filter (fun l => addr l + 8 ≤ (k.alloc g).2) = lanes :=
      List.filter_eq_self.2 fun l i => decide_eq_true (clean l i).2.1
    have fine : pickFault (misaligned lanes addr 8 ++ outOfBounds lanes addr 8 (k.alloc g).2 ++
        k.scratchFaults (lanes.filter (fun l => addr l + 8 ≤ (k.alloc g).2)) addr base 8) = none := by
      rw [within, Core.scratchFaults_eq_nil fun l i => (clean l i).2.2, List.append_nil,
        pickFault_inside fun l i => ⟨(clean l i).1, (clean l i).2.1⟩]
    exact issues_setCore e a row c.isLt ((row_passes ok free).trans ((if_pos scratch).trans
      ((noFault fine).trans (if_neg (ne_true_of_eq_false drains))))) counted rfl
  · intro addr aligned pas u v v' codes translated near first clean released kept outside performed got k1 granted k2 ld k'
    have other : ¬ m.aty = 0 := by omega
    have fine : pickFault (misaligned lanes addr 8) = none := by rw [misaligned_eq_nil aligned, pickFault_nil]
    have here : pas.filter (fun p => u.placeOf p.pa ≠ .localMem) = [] := by simpa using near
    have reached : pickFault ((pas.filter (fun p => u.placeOf p.pa ≠ .localMem)).map (fun p => (p.lane, 0x01, p.va)) ++ []) = none := by
      rw [here]
      rfl
    have canonU : u.Canon := .of_triple translated ((State.xlateLanes_keeps (.refl s)).canon r)
    have canonV : v.Canon := .of_pair clean ((State.atomPoison_keeps (.refl u)).canon canonU)
    have canon : v'.Canon := .of_pair performed ((State.atomLanes_keeps (.refl v)).canon canonV)
    refine issues_setCore e a row c.isLt ((row_passes ok free).trans ((if_neg other).trans ((noFault fine).trans ?_)))
      ⟨.refl v', canon.rise⟩ rfl
    rw [translated]
    refine (noFault reached).trans ((if_neg (ne_true_of_eq_false first)).trans ?_)
    rw [clean]
    refine (if_neg (ne_true_of_eq_false released)).trans ((if_neg (ne_true_of_eq_false kept)).trans
      ((if_neg (ne_true_of_eq_false outside)).trans ?_))
    rw [performed]

end Sys2Proof.Machine

/-! The guards: a group that meets its own lock too often, a barrier that a group waits at for too long. -/

namespace Sys2Proof.Machine

/-- The limits in force of R123: values below a floor act as the floor. -/
def guardFloor (floor n : Nat) : Nat := if n < floor then floor else n

section
variable {s : State} {c : Fin 192}

theorem exec_selfLock {slot : Fin 64} {g : Group} {b : Block} (hg : (s.core c).group slot = some g)
    (hb : (s.core c).block g.block = some b) (free : g.fault = none) :
    exec (.selfLock c slot) s = .next (if guardFloor 0x100 b.lockGuard ≤ g.selfLock then
      (((s.guardFault c 2 slot 0).surveyTrigger 2 (clusterOf c)).faultGroup c slot 0x03 g.live 0).traceTrigger 2 else s) := by
  show execSelfLock c slot s = _
  simp only [execSelfLock, hg, hb, free, Option.isNone_none, Bool.true_and, decide_eq_true_eq]
  rfl

/-- The barrier's guard has fired: counted and logged, every group of the block faulted, the trigger seen after theirs (R98, R121). -/
def State.barrierStalls (s : State) (c set n e : Nat) : State :=
  let u := (s.guardFault c 1 e n).surveyTrigger 1 (clusterOf c)
  (((u.core c).groupList.filter (fun x => x.2.block = set)).foldl (fun s x => s.faultGroup c x.1 0x04 x.2.live 0) u).traceTrigger 2

theorem exec_barrierStall {set : Fin 64} {n : Fin 16} {b : Block} {t e : Nat} (hb : (s.core c).block set = some b)
    (since : (b.bar n).since = some t) (earliest : (b.bar n).earliest = some e) (running : b.stopped = false) :
    exec (.barrierStall c set n) s = .next (if 2 * (s.now - t) ≤ guardFloor 0x10000 b.barGuard then s else s.barrierStalls c set n e) := by
  show execBarrierStall c set n s = _
  simp only [execBarrierStall, hb, since, earliest, running, Bool.false_or, decide_eq_true_eq]
  rfl

end

/-- Settles O17: on either side of its limit each guard takes one branch. -/
theorem guardsStopStuckGroups : Obligations.GuardsStopStuckGroups := by
  unfold Obligations.GuardsStopStuckGroups
  intro s c slot set n g b
  refine ⟨fun hg hb free => ?_, fun t e hb since earliest running => ?_⟩
  · rw [exec_selfLock hg hb free]
    exact ⟨fun past => congrArg _ (if_pos past), fun below => congrArg _ (if_neg (Nat.not_le.2 below))⟩
  · rw [exec_barrierStall hb since earliest running]
    exact ⟨fun past => congrArg _ (if_neg (Nat.not_le.2 past)), fun upTo => congrArg _ (if_pos upTo)⟩

end Sys2Proof.Machine

/-! TCOPY.GO and TCOPY.WAIT of a group whose lanes act. -/

namespace Sys2Proof.Machine

/-- The checks that open a TCOPY row whose group has lanes that act. -/
theorem actingRow_passes {α : Type} {ok : Bool} {k : Core} {slot : Nat} {srcs regs : List Nat} {m : Half} {x y z e : α}
    (legal : ok = true) (free : k.blocked slot regs = 0) (acts : m ≠ 0) :
    (if !ok then x else if k.why slot srcs regs ≠ 0 then y else if m = 0 then z else e) = e :=
  (row_passes legal free).trans (if_neg acts)

/-- TCOPY.GO gets as far as its descriptor when its fields are legal and the address is aligned and inside the allocation. -/
theorem goRow_passes {α : Type} {ok : Bool} {k : Core} {slot a limit : Nat} {srcs regs : List Nat} {m : Half} {x y z p q e : α}
    (legal : ok = true) (free : k.blocked slot regs = 0) (acts : m ≠ 0) (aligned : a % 64 = 0) (within : a + 64 ≤ limit) :
    (if !ok then x else if k.why slot srcs regs ≠ 0 then y else if m = 0 then z else if a % 64 ≠ 0 then p
      else if limit < a + 64 then q else e) = e :=
  (actingRow_passes legal free acts).trans ((if_neg (not_not.2 aligned)).trans (if_neg (Nat.not_lt.2 within)))

/-- The free slot that is taken is the lowest one (R113). -/
theorem freeSlot_lowest {k : Core} {n : Nat} (lt : n < 8) (free : (k.tslot n).isNone) (below : ∀ j < n, (k.tslot j).isSome) :
    (List.range 8).find? (fun n => (k.tslot n).isNone) = some n := by
  refine List.find?_range_eq_some.2 ⟨free, List.mem_range.2 lt, fun j l => ?_⟩
  simpa using below j l

theorem freeSlot_none {k : Core} (full : ∀ n < 8, (k.tslot n).isSome) : (List.range 8).find? (fun n => (k.tslot n).isNone) = none := by
  refine List.find?_range_eq_none.2 fun j l => ?_
  simpa using full j l

/-- No slot of a list gives a fault's code when none of them holds one. -/
theorem firstFault_eq_none {k : Core} {l : List Nat} (fine : ∀ n ∈ l, ∀ t, k.tslot n = some t → t.fault = none) :
    l.findSome? (fun n => (k.tslot n).bind (fun t => t.fault)) = none := by
  refine List.findSome?_eq_none_iff.2 fun n mem => ?_
  cases e : k.tslot n with
  | none => rfl
  | some t => exact fine n mem t e

theorem State.Canon.faultGroup {s : State} (r : s.Canon) {c slot code addr : Nat} {lanes : Half} :
    (s.faultGroup c slot code lanes addr).Canon := (State.faultGroup_keeps (.refl s)).canon r

theorem State.Canon.setCore {s : State} (r : s.Canon) {c : Nat} {k : Core} : (s.setCore c k).Canon :=
  (State.setCore_keeps (.refl s)).canon r

/-- Settles O18: the branch that each row takes once its fields are legal and its registers written. -/
theorem tensorCopyInstructions : Obligations.TensorCopyInstructions := by
  unfold Obligations.TensorCopyInstructions
  intro s c slot g w r i k f m a base d t major acts sa imm sb
  have noB : (iFields w).srcB = 0 := sb
  refine ⟨fun minor ltd free aligned within => ?_, fun minor dest free => ?_⟩
  · have row := isMinor_of (top := 1) major minor
    have legal : (decide (fld w 28 21 = 0) && unusedZero w true true false false && decide (f.dest < 64) && decide (f.srcA < 64)) = true := by
      simp [minor, unusedZero, noB, imm, ltd, sa]
    refine ⟨fun bad => ?_, fun good clean => ?_⟩
    · exact ends_of_eq r.faultGroup.rise rfl i row c.isLt ((goRow_passes legal free acts aligned within).trans (if_pos (congrArg not bad)))
    · have accepts {x y z : State} : (if !tcopyOk d t then x else if k.scratchBad (base + a) 64 then y else z) = z :=
        (if_neg (ne_true_of_eq_false (congrArg not good))).trans (if_neg (ne_true_of_eq_false clean))
      refine ⟨fun n ltn empty below => ?_, fun full => ?_⟩
      · refine issues_setCore rfl i row c.isLt ((goRow_passes legal free acts aligned within).trans (accepts.trans ?_)) ⟨.refl s, r.rise⟩ rfl
        rw [freeSlot_lowest ltn empty below]
        rfl
      · refine holds_of_holdAt rfl i row ((goRow_passes legal free acts aligned within).trans (accepts.trans ?_))
        rw [freeSlot_none full]
  · intro named mine
    have row := isMinor_of (top := 1) major minor
    have noDest : (iFields w).dest = 0 := dest
    have legal : (unusedZero w false true false false && decide (f.srcA < 64)) = true := by
      simp [unusedZero, noB, noDest, imm, sa]
    refine ⟨fun ⟨n, mem, busy⟩ => ?_, fun done fine => ?_, fun code done first => ?_⟩
    · have waits : (!named.all (fun n => k.tdone g.block n)) = true := by simpa using ⟨n, mem, busy⟩
      exact holds_of_holdAt rfl i row ((actingRow_passes legal free acts).trans (if_pos waits))
    · have goesOn : ¬ (!named.all (fun n => k.tdone g.block n)) = true := by simpa using done
      refine stepsGroup_setGroup rfl i row c.isLt ((actingRow_passes legal free acts).trans ((if_neg goesOn).trans ?_)) ⟨.refl s, r.rise⟩ rfl
      rw [firstFault_eq_none fine]
    · have goesOn : ¬ (!named.all (fun n => k.tdone g.block n)) = true := by simpa using done
      refine ends_of_eq r.setCore.faultGroup.rise rfl i row c.isLt ((actingRow_passes legal free acts).trans ((if_neg goesOn).trans ?_))
      rw [first]

end Sys2Proof.Machine

/-! EXIT, the barrier instructions and the fences. -/

namespace Sys2Proof.Machine

/-! ### A slot that a group has left -/

/-- The slot holds no group, in a table that stays readable. -/
structure Core.Vacant (k : Core) (slot : Nat) : Prop where
  rising : SMap.Rising k.groups
  empty : k.group slot = none

theorem Core.vacant_setGroup_none {k : Core} (r : SMap.Rising k.groups) (slot : Nat) : (k.setGroup slot none).Vacant slot :=
  ⟨SMap.put_rising _ _ _ r, SMap.get_put_same _ _ _ r⟩

theorem Core.Vacant.setGroup {k : Core} {slot i : Nat} (v : k.Vacant slot) (ne : slot ≠ i) (x : Option Group) :
    (k.setGroup i x).Vacant slot :=
  ⟨SMap.put_rising _ _ _ v.rising, (SMap.get_put_ne _ _ ne v.rising).trans v.empty⟩

/-- Passing a barrier steps groups that are there, so a vacant slot stays vacant. -/
theorem Core.Vacant.pass {k : Core} {slot : Nat} (v : k.Vacant slot) (l : List Nat) : (k.pass l).Vacant slot := by
  induction l generalizing k with
  | nil => exact v
  | cons i l ih =>
    refine ih (k := match k.group i with
      | some g => if g.fault.isSome || g.stopped then k else k.setGroup i (some (g.next 8))
      | none => k) ?_
    cases e : k.group i with
    | none => exact v
    | some g =>
      have ne : slot ≠ i := by
        rintro rfl
        rw [v.empty] at e
        cases e
      dsimp only
      split
      · exact v
      · exact v.setGroup ne _

theorem State.barStep_vacant {s : State} (r : s.Canon) {c slot : Nat} (v : (s.core c).Vacant slot) (set n : Nat) (f : Barrier → Barrier) :
    (s.barStep c set n f).Canon ∧ ((s.barStep c set n f).core c).Vacant slot := by
  refine ⟨(State.barStep_keeps (.refl s)).canon r, ?_⟩
  unfold State.barStep
  split
  · exact v
  · rw [State.core_setCore_same r]
    exact Core.Vacant.pass (k := (s.core c).setBlock set _) ⟨v.rising, v.empty⟩ _

theorem State.barSteps_vacant {s : State} (r : s.Canon) {c slot : Nat} (v : (s.core c).Vacant slot) (set : Nat) (f : Barrier → Barrier)
    (l : List Nat) : ((l.foldl (fun s n => s.barStep c set n f) s).core c).Vacant slot := by
  induction l generalizing s with
  | nil => exact v
  | cons n l ih =>
    obtain ⟨r', v'⟩ := State.barStep_vacant r v set n f
    exact ih r' v'

/-- The slot of a group that has ended is free (R92). -/
theorem State.group_endGroup {s : State} (r : s.Canon) {c slot : Nat} {g : Group} (h : (s.core c).group slot = some g)
    (rising : SMap.Rising (s.core c).groups) : ((s.endGroup c slot).core c).group slot = none := by
  unfold State.endGroup
  rw [h]
  refine (State.barSteps_vacant ((State.forgetSlot_keeps (State.setCore_keeps (.refl s))).canon r) ?_ _ _ _).empty
  show ((State.setCore ..).core c).Vacant slot
  rw [State.core_setCore_same r]
  have vacant := Core.vacant_setGroup_none rising slot
  split
  · exact ⟨vacant.rising, vacant.empty⟩
  · exact ⟨vacant.rising, vacant.empty⟩

/-! ### EXIT -/

section
variable {s : State} {c : Fin 192} {slot : Fin 64} {g : Group} {w : Word} (r : s.Canon) (a : s.Issuable c slot g w)
include r a

theorem exit_steps (m : fld w 63 57 = 0x33) (z : fld w 52 0 = 0) (some_ : g.live &&& ~~~execMask g (iFields w) ≠ 0) :
    StepsGroup (.exit c slot) s c slot { g.next 8 with live := g.live &&& ~~~execMask g (iFields w) } :=
  stepsGroup_setGroup rfl a (isMajor_iff.2 m) c.isLt ((if_neg (not_not.2 z)).trans (if_neg some_)) ⟨.refl s, r.rise⟩ rfl

theorem exit_ends (m : fld w 63 57 = 0x33) (z : fld w 52 0 = 0) (none_ : g.live &&& ~~~execMask g (iFields w) = 0) :
    Ends (.exit c slot) s c slot
      ((s.setGroup c slot { g.next 8 with live := g.live &&& ~~~execMask g (iFields w) }).endGroup c slot) :=
  ends_of_eq ((State.endGroup_keeps (State.setCore_keeps (.refl s))).canon r).rise rfl a (isMajor_iff.2 m) c.isLt
    ((if_neg (not_not.2 z)).trans (if_pos none_))

end

theorem State.group_endGroup_setGroup {s : State} (r : s.Canon) (c slot : Nat) (h : Group)
    (rising : SMap.Rising (s.core c).groups) : (((s.setGroup c slot h).endGroup c slot).core c).group slot = none := by
  refine State.group_endGroup r.setCore (s.group_setCore_setGroup c slot _ h) ?_
  rw [State.core_setCore_setGroup]
  exact SMap.put_rising _ _ _ rising

/-! ### Barriers -/

/-- How a barrier instruction leaves its group: waiting for the phase, or past the instruction (R94, R96). -/
def barWait (g : Group) : Group := { g with stat := .waiting, wait := 2, hold := false }

theorem bar_ends {i : Instr} {s : State} {c : Fin 192} {slot : Fin 64} {g : Group} {w : Word} {b : Block} {sync : Bool} (r : s.Canon)
    (a : s.Issuable c slot g w) (e : exec i s = .next (s.barRow c slot sync)) (hb : (s.core c).block g.block = some b)
    (m : fld w 63 57 = 0x34) (minor : fld w 28 21 = if sync then 0 else 1) (p : (iFields w).pred = 7) (pi : (iFields w).pinv = false)
    (z : fld w 20 4 = 0) (d : (iFields w).dest = 0) (sa : (iFields w).srcA = 0) (sb : (iFields w).srcB = 0) :
    Ends i s c slot (((s.updCore c (fun k => k.release 1)).setGroup c slot
        (if sync || (b.bar (fld w 3 0)).arrived.contains slot then barWait g else g.next 8)).barStep c g.block (fld w 3 0)
      (fun x => x.arrive slot s.now sync)) := by
  have legal : (decide ((iFields w).pred = 7) && !(iFields w).pinv && decide (fld w 28 21 ≤ 1) && decide (fld w 20 4 = 0) &&
      decide ((iFields w).dest = 0) && decide ((iFields w).srcA = 0) && decide ((iFields w).srcB = 0)) = true := by
    have le : fld w 28 21 ≤ 1 := by
      rw [minor]
      cases sync <;> decide
    simp [p, pi, le, z, d, sa, sb]
  refine ends_of_eq ((State.barStep_keeps (State.setCore_keeps (State.setCore_keeps (.refl s)))).canon r).rise e a
    (isMinor_of m minor) c.isLt ((if_neg (by simp only [legal]; decide)).trans ?_)
  rw [hb]
  rfl

section
variable {x : Barrier} {slot t : Nat} {sync : Bool} (fresh : x.arrived.contains slot = false) (alone : x.again = [])
include fresh alone

/-- A first arrival in a phase, as it stands in the barrier's fields. -/
theorem Barrier.arrive_first :
    (x.arrive slot t sync).expected = x.expected ∧ (x.arrive slot t sync).arrived = x.arrived ++ [slot] ∧
      (x.arrive slot t sync).waiting = x.waiting ++ (if sync then [slot] else []) ∧ (x.arrive slot t sync).again = [] ∧
      (x.arrive slot t sync).dropNext = x.dropNext := by
  unfold Barrier.arrive Barrier.watch
  rw [fresh]
  cases sync <;> cases x.since <;> simp [alone]

/-- The last expected arrival releases every waiting group and starts a fresh phase (R94, R97). -/
theorem Barrier.settle_last (last : x.arrived.length + 1 = x.expected) :
    (x.arrive slot t sync).settle t 2 =
      (⟨x.expected - x.dropNext, [], [], [], 0, none, none⟩, x.waiting ++ (if sync then [slot] else [])) := by
  obtain ⟨expected, arrived, waiting, again, dropNext⟩ := Barrier.arrive_first (t := t) (sync := sync) fresh alone
  simp [Barrier.settle, expected, arrived, waiting, again, dropNext, last]

theorem Barrier.settle_early (early : x.arrived.length + 1 ≠ x.expected) :
    (x.arrive slot t sync).settle t 2 = (x.arrive slot t sync, []) := by
  obtain ⟨expected, arrived, -⟩ := Barrier.arrive_first (t := t) (sync := sync) fresh alone
  simp [Barrier.settle, expected, arrived, early]

end

/-! ### Fences -/

theorem isFence_of {kind : Nat} {w : Word} (m : fld w 63 57 = 0x35) (k : fld w 25 24 = kind) : isFence kind w = true := by
  unfold isFence
  rw [isMajor_iff.2 m, k]
  split <;> simp_all

/-- The core once a fence of a KIND and scope has taken place: its release, then its acquire (R338 to R340). -/
def Core.fenced (k : Core) (slot kind scope : Nat) : Core :=
  let k := if kind ≠ 1 then k.release scope else k
  if !(kind ≠ 2) then k else if 2 ≤ scope then k.acquire else k.ordered slot

theorem Core.fenced_eq (k : Core) (slot kind scope : Nat) :
    k.fenced slot kind scope =
      let k1 := if kind ≠ 1 then k.release scope else k
      if kind = 2 then k1 else if 2 ≤ scope then k1.acquire else k1.ordered slot := if_congr (by simp) rfl rfl

theorem Core.fenced_lost (k : Core) (slot kind scope : Nat) : (k.fenced slot kind scope).lost = k.lost := by
  have released : (if kind ≠ 1 then k.release scope else k).lost = k.lost := by split <;> rfl
  rw [Core.fenced_eq, ← released]
  dsimp only
  split
  · rfl
  · split <;> rfl

/-- Does a fence of a KIND and scope still wait (R249, R338, R340)? -/
def State.fenceWaits (s : State) (c slot kind scope : Nat) : Bool :=
  s.pointsPending c slot || (kind ≠ 1 && !s.released c scope) ||
    (kind ≠ 2 && decide (2 ≤ scope) && (s.core c).loads.any (fun l => l.slot = slot && !l.want.isEmpty))

/-- The state after a fence that waits for nothing (R170, R346): `lost` where its release met a write that was lost. -/
def State.fenceDone (s : State) (c slot kind : Nat) (g : Group) (w : Word) : State :=
  let k := (s.core c).fenced slot kind (Machine.fld w 28 26)
  let lost := kind ≠ 1 && decide (Machine.fld w 28 26 = 4) && k.lost.contains slot
  let k := if lost then { k with lost := k.lost.filter (fun x => !decide (x = slot)) } else k
  if lost && !bit w 23 then (s.setCore c k).faultGroup c slot 0x05 (execMask g (iFields w)) 0
  else s.setCore c (k.setGroup slot
    (some ((if bit w 23 then g.setU (iFields w).dest (if lost then 0x07 else 0x00) else g).next 8)))

section
variable {s : State} {c slot kind : Nat} {g : Group} {w : Word}

theorem State.fenceDone_kept (kept : (kind ≠ 1 && decide (Machine.fld w 28 26 = 4) && (s.core c).lost.contains slot) = false) :
    s.fenceDone c slot kind g w = s.setCore c (((s.core c).fenced slot kind (Machine.fld w 28 26)).setGroup slot
      (some ((if bit w 23 then g.setU (iFields w).dest 0x00 else g).next 8))) := by
  rw [← Core.fenced_lost (s.core c) slot kind (Machine.fld w 28 26)] at kept
  simp only [State.fenceDone, kept]
  rfl

theorem State.fenceDone_lost (lost : (kind ≠ 1 && decide (Machine.fld w 28 26 = 4) && (s.core c).lost.contains slot) = true) :
    s.fenceDone c slot kind g w =
      let k := (s.core c).fenced slot kind (Machine.fld w 28 26)
      let k' := { k with lost := k.lost.filter (fun x => !decide (x = slot)) }
      if bit w 23 then s.setCore c (k'.setGroup slot (some ((g.setU (iFields w).dest 0x07).next 8)))
      else (s.setCore c k').faultGroup c slot 0x05 (execMask g (iFields w)) 0 := by
  rw [← Core.fenced_lost (s.core c) slot kind (Machine.fld w 28 26)] at lost
  simp only [State.fenceDone, lost]
  cases bit w 23 <;> rfl

end

/-- A fence gets as far as its conditions when its fields are legal, a lane acts and its status register is written. -/
theorem fenceRow_passes {α : Type} {ok : Bool} {m : Half} {k : Core} {slot : Nat} {srcs regs : List Nat} {x y z e : α}
    (legal : ok = true) (acts : m ≠ 0) (free : k.blocked slot regs = 0) :
    (if !ok then x else if m = 0 then y else if k.why slot srcs regs ≠ 0 then z else e) = e := by
  have written := (Core.why_eq_zero k slot srcs regs).2 free
  simp only [legal, acts, written, ne_eq, not_true, Bool.not_true, Bool.false_eq_true, if_false]

section
variable {i : Instr} {s : State} {c : Fin 192} {slot : Fin 64} {g : Group} {w : Word} {kind : Nat} (r : s.Canon)
  (a : s.Issuable c slot g w) (e : exec i s = .next (s.fenceRow c slot kind)) (row : isFence kind w = true) (ok : fenceOk w = true)
  (acts : execMask g (iFields w) ≠ 0)
  (free : (s.core c).blocked slot (if bit w 23 then [256 + (iFields w).dest] else []) = 0)
include a e row ok acts free

theorem fence_waits (waits : s.fenceWaits c slot kind (fld w 28 26) = true) :
    StepsTo i s (s.setCore c ((if kind ≠ 1 then (s.core c).release (fld w 28 26) else s.core c).setGroup slot
      (some { g with stat := .waiting, wait := 4, hold := true }))) :=
  stepsTo_held e a row ((fenceRow_passes ok acts free).trans (if_pos waits)) rfl

include r
variable (goes : s.fenceWaits c slot kind (fld w 28 26) = false)
include goes

theorem fence_issues {k : Core} {h : Group} (done : s.fenceDone c slot kind g w = s.setCore c (k.setGroup slot (some h)))
    (unheld : h.hold = false) : Issues i s c slot (s.setCore c (k.setGroup slot (some h))) :=
  issues_setCore e a row c.isLt ((fenceRow_passes ok acts free).trans ((if_neg (ne_true_of_eq_false goes)).trans done))
    ⟨.refl s, r.rise⟩ unheld

theorem fence_faults {k : Core} {code addr : Nat} {lanes : Half}
    (done : s.fenceDone c slot kind g w = (s.setCore c k).faultGroup c slot code lanes addr) :
    Ends i s c slot ((s.setCore c k).faultGroup c slot code lanes addr) :=
  ends_of_eq r.setCore.faultGroup.rise e a row c.isLt
    ((fenceRow_passes ok acts free).trans ((if_neg (ne_true_of_eq_false goes)).trans done))

end

/-! ### The obligation -/

theorem fence_instrs {c : Fin 192} {slot : Fin 64} {kind : Nat} {i : Instr}
    (mem : (kind, i) ∈ [(0, Instr.fenceFull c slot), (1, .fenceAcq c slot), (2, .fenceRel c slot)]) (s : State) :
    exec i s = .next (s.fenceRow c slot kind) := by
  simp only [List.mem_cons, Prod.mk.injEq, List.not_mem_nil, or_false] at mem
  obtain ⟨rfl, rfl⟩ | ⟨rfl, rfl⟩ | ⟨rfl, rfl⟩ := mem <;> rfl

/-- Settles O16: EXIT and the barriers from their rows, a phase from `settle`, a fence by what its release meets. -/
theorem exitBarriersAndFences : Obligations.ExitBarriersAndFences := by
  unfold Obligations.ExitBarriersAndFences
  intro s c slot g w r a k f left
  refine ⟨fun m z => ⟨exit_steps r a m z, fun none_ => ⟨exit_ends r a m z none_, fun canon => State.group_endGroup_setGroup r c slot _ canon.1⟩⟩,
    fun b hb m p pi z d sa sb => ?_, fun x sync fresh alone => ⟨Barrier.settle_last fresh alone, Barrier.settle_early fresh alone⟩,
    fun kind i mem m hk ok acts => ?_⟩
  · intro n wait u
    exact ⟨fun minor => bar_ends (i := .barSync c slot) (sync := true) r a rfl hb m minor p pi z d sa sb,
      fun minor => bar_ends (i := .barArrive c slot) (sync := false) r a rfl hb m minor p pi z d sa sb⟩
  · intro scope nofault free waits k1 k2 lost k3
    have e := fence_instrs mem s
    have row := isFence_of m hk
    have core : k.fenced slot kind scope = k2 := Core.fenced_eq ..
    have core3 : { k.fenced slot kind scope with lost := (k.fenced slot kind scope).lost.filter (fun x => !decide (x = ↑slot)) } = k3 := by
      rw [core]
    refine ⟨fence_waits a e row ok acts free, fun goes kept => ?_, fun goes met status => ?_, fun goes met status => ?_⟩
    · refine fence_issues r a e row ok acts free goes ?_ rfl
      rw [← core]
      exact State.fenceDone_kept kept
    · refine fence_issues r a e row ok acts free goes ?_ rfl
      rw [← core3]
      exact (State.fenceDone_lost met).trans (if_pos status)
    · refine fence_faults r a e row ok acts free goes ?_
      rw [← core3]
      exact (State.fenceDone_lost met).trans (if_neg (ne_true_of_eq_false status))

end Sys2Proof.Machine

/-! What a core's memory events change: fetched lines, returning loads, performed stores, expired L1 lines. -/

namespace Sys2Proof.Machine

/-! ### ICACHE_FILL -/

section
variable {s : State} {c : Fin 192} {slot : Fin 64} {g : Group} {pc : Nat} (hg : (s.core c).group slot = some g)
  (waits : g.fetching = some pc) (clear : s.coreCut c = false)
include hg waits clear

theorem exec_icacheFill_fault {cause lv : Nat} {u : State}
    (x : s.xlate (.core c) 0 (s.viewOf ((s.core c).groupLaunch g) ((s.core c).groupCtx g)) pc needX = (.fault cause lv, u)) :
    exec (.icacheFill c slot) s = .next (u.fetchFault c slot (causeCode cause)) := by
  show execIcacheFill c slot s = _
  simp only [execIcacheFill, hg, waits, clear, x, Bool.false_eq_true, if_false]

variable {pa region : Nat} {u : State}
  (x : s.xlate (.core c) 0 (s.viewOf ((s.core c).groupLaunch g) ((s.core c).groupCtx g)) pc needX = (.ok pa region, u))
  (near : u.placeOf pa = .localMem)
include x near

theorem exec_icacheFill_cut (cut : u.linkCut c (paOffset pa / 128 * 128) = true) :
    exec (.icacheFill c slot) s = .next (u.fetchFault c slot 0x06) := by
  show execIcacheFill c slot s = _
  simp only [execIcacheFill, hg, waits, clear, x, near, cut, Bool.false_eq_true, if_false, if_true]

theorem exec_icacheFill_line (open_ : u.linkCut c (paOffset pa / 128 * 128) = false) {b : List Byte} {t : State}
    (read : u.lineRead (paOffset pa / 128 * 128) 128 0
      (u.keySlotOf (s.viewOf ((s.core c).groupLaunch g) ((s.core c).groupCtx g)) pc) (decide (region ≤ 1)) false = (b, false, t)) :
    exec (.icacheFill c slot) s = .next (t.icachePut c (pc / 128) b) := by
  show execIcacheFill c slot s = _
  simp only [execIcacheFill, hg, waits, clear, x, near, open_, read, Bool.false_eq_true, if_false]

end

/-! ### LOAD_RETURN -/

theorem State.loadUpset_none (s : State) (c struct : Nat) (ld : Load) : s.loadUpset c struct .none ld = (ld, s) := by
  simp [State.loadUpset]

section
variable {s : State} {c : Fin 192} {n : Nat} {struct : Fin 32} {ld : Load} {g : Group} (hl : (s.core c).loads[n]? = some ld)
  (here : ld.want = []) (clear : s.coreCut c = false) (running : g.stopping = false) (unstopped : g.stopped = false)
  (sound : g.fault = none)
include hl here clear running unstopped sound

theorem exec_loadReturn_fills (clean : ld.bad = 0)
    (hg : ((ld.fill.foldl (fun s line => s.l1Fill c line ld.keySlot ld.first)
      (s.setCore c { s.core c with loads := (s.core c).loads.eraseIdx n })).core c).group ld.slot = some g) :
    exec (.loadReturn c n struct .none) s =
      let u := ld.fill.foldl (fun s line => s.l1Fill c line ld.keySlot ld.first)
        (s.setCore c { s.core c with loads := (s.core c).loads.eraseIdx n })
      let g' := g.write (opd ld.uni ld.dest ld.regs) ld.mask (fun l => (SMap.get none ld.vals l).getD 0)
      .next (u.setGroup c ld.slot
        (if g'.hold && (decide (g'.wait = 4) || decide (g'.wait = 1)) then { g' with stat := .ready, wait := 0 } else g')) := by
  show execLoadReturn c n struct .none s = _
  have open_ (k : Core) : (s.setCore c k).coreCut c = false := clear
  simp only [execLoadReturn, hl, here, State.detect, not_true_eq_false, decide_false, Bool.and_false, open_, State.loadUpset_none, clean, hg, running, unstopped, sound,
    List.isEmpty_nil, Bool.not_true, Bool.false_and, Bool.false_or, Option.isSome_none, Bool.false_eq_true, if_false, ne_eq]

theorem exec_loadReturn_faults (bad : ld.bad ≠ 0)
    (hg : ((s.setCore c { s.core c with loads := (s.core c).loads.eraseIdx n }).core c).group ld.slot = some g) :
    exec (.loadReturn c n struct .none) s =
      .next ((s.setCore c { s.core c with loads := (s.core c).loads.eraseIdx n }).loadFaults c ld) := by
  show execLoadReturn c n struct .none s = _
  have open_ (k : Core) : (s.setCore c k).coreCut c = false := clear
  simp only [execLoadReturn, hl, here, State.detect, not_true_eq_false, decide_false, Bool.and_false, open_, State.loadUpset_none, bad, hg, running, unstopped, sound,
    List.isEmpty_nil, Bool.not_true, Bool.false_and, Bool.false_or, Option.isSome_none, Bool.false_eq_true, if_false, ne_eq, not_false_iff,
    if_true]

end

/-! ### STORE_PERFORM -/

section
variable {s : State} {c : Fin 192} {n : Nat} {e : StoreEntry} (he : (s.core c).stores[n]? = some e)
include he

theorem exec_storePerform_local (first : ((s.core c).stores.take n).any (fun x => s.storeBehind e x) = false)
    (clear : s.coreCut c = false) (near : e.place = .localMem) :
    exec (.storePerform c n) s = .next ((((s.updCore c (fun k => k.eraseStore n)).rled 5 1).performLocal c e).settleFaults c) := by
  show execStorePerform c n s = _
  simp only [execStorePerform, State.performStore, he, first, clear, near, Bool.false_eq_true, if_false, Option.map_some, Option.getD_some]

theorem exec_storePerform_behind (behind : ((s.core c).stores.take n).any (fun x => s.storeBehind e x) = true) :
    exec (.storePerform c n) s = .next s := by
  show execStorePerform c n s = _
  simp only [execStorePerform, State.performStore, he, behind, if_true, Option.getD_none]

end

/-! ### The obligation -/

/-- Settles O21, event by event. -/
theorem coreMemoryEvents : Obligations.CoreMemoryEvents := by
  unfold Obligations.CoreMemoryEvents
  intro s c r k
  refine ⟨fun slot g pc hg waits clear => ?_, fun n struct ld g hl here clear => ?_, fun n e he => ?_, fun line => ?_⟩
  · exact ⟨fun cause lv u x => exec_icacheFill_fault hg waits clear x, fun pa region u x near => exec_icacheFill_cut hg waits clear x near,
      fun pa region u b t x near open_ read => exec_icacheFill_line hg waits clear x near open_ read⟩
  · exact ⟨fun clean hg running unstopped sound => exec_loadReturn_fills hl here clear running unstopped sound clean hg,
      fun bad hg running unstopped sound => exec_loadReturn_faults hl here clear running unstopped sound bad hg⟩
  · exact ⟨exec_storePerform_local he, exec_storePerform_behind he⟩
  · exact ⟨_, rfl, rfl, State.core_setCore_same r _ _, fun d ne => State.core_setCore_ne r _ ne⟩

end Sys2Proof.Machine

/-! A tensor copy slot at work: what TCOPY_SLOT_COMPLETE and TCOPY_SLOT_FAULT make of the run of its elements. -/

namespace Sys2Proof.Machine

section
variable {s : State} {c : Fin 192} {n : Fin 8} {host : HostData} {t u : TSlot} {r : State} (ht : (s.core c).tslot n = some t)
  (active : t.fault = none)
include ht active

/-- A slot whose elements move without a fault: it stands where it is, or its completion actions are performed (R115). -/
theorem exec_tcopySlotComplete_runs (run : (s.hostIn host).tcopyRun c n t t.turns = (u, none, r)) :
    exec (.tcopySlotComplete c n host) s = .next (if u.pos < (u.xfer r c).total || r.awaitsRead (.tcopy c n) then r
      else (r.tcopyActions c n u).getD r).hostOut := by
  show execTcopySlotComplete c n host s = _
  have ht' : ((s.hostIn host).core c).tslot n = some t := ht
  simp only [execTcopySlotComplete, State.withHost, ht', active, run, Option.isSome_none, Bool.false_eq_true, if_false]

theorem exec_tcopySlotComplete_faults {f : VmFault} (run : (s.hostIn host).tcopyRun c n t t.turns = (u, some f, r)) :
    exec (.tcopySlotComplete c n host) s = .next (s.hostIn host).hostOut := by
  show execTcopySlotComplete c n host s = _
  have ht' : ((s.hostIn host).core c).tslot n = some t := ht
  simp only [execTcopySlotComplete, State.withHost, ht', active, run, Option.isSome_none, Option.isSome_some, Bool.false_eq_true,
    if_false, if_true]

theorem exec_tcopySlotFault_none {f : VmFault} (run : (s.hostIn host).tcopyRun c n t t.turns = (u, some f, r)) :
    exec (.tcopySlotFault c n host .none) s = .next (r.tcopyFails c n u f).hostOut := by
  show execTcopySlotFault c n host .none s = _
  have ht' : ((s.hostIn host).core c).tslot n = some t := ht
  simp only [execTcopySlotFault, State.withHost, ht', active, run, Option.isSome_none, Bool.false_eq_true, if_false, reduceCtorEq]

theorem exec_tcopySlotFault_lost :
    exec (.tcopySlotFault c n host .lost) s =
      .next ((((s.hostIn host).detect 2 c 0 .lost).consumedPoison).tcopyFails c n t (.code 0x06 0)).hostOut := by
  show execTcopySlotFault c n host .lost s = _
  have ht' : ((s.hostIn host).core c).tslot n = some t := ht
  simp only [execTcopySlotFault, State.withHost, ht', active, Option.isSome_none, Bool.false_eq_true, if_false, if_true]

end

/-- A slot that asks for no completion action is free at once (R115). -/
theorem tcopyActions_none {s : State} {c n : Nat} {t : TSlot} (plain : t.flags = 0) : s.tcopyActions c n t = some (s.setTslot c n none) := by
  simp [State.tcopyActions, plain]

section
variable {s : State} {c n code cause : Nat} {t x : TSlot} (held : ((s.dropReads (.tcopy c n)).core c).tslot n = some x)
include held

theorem tcopyFails_resident (resident : x.block ≠ 64) :
    s.tcopyFails c n t (.code code cause) =
      (s.dropReads (.tcopy c n)).setTslot c n (some { x with fault := x.fault.or (some code) }) := by
  have held' : SMap.get none ((s.dropReads (.tcopy c n)).core c).tcopy n = some x := held
  simp only [State.tcopyFails, State.slotFault, held', resident, if_false]
  rfl

/-- A fault of a slot whose block has ended is its launch's (R116). -/
theorem tcopyFails_orphan (orphan : x.block = 64) :
    s.tcopyFails c n t (.code code cause) = ((s.dropReads (.tcopy c n)).setTslot c n none).launchFault x.launch code 0 := by
  have held' : SMap.get none ((s.dropReads (.tcopy c n)).core c).tcopy n = some x := held
  simp only [State.tcopyFails, State.slotFault, held', orphan, if_true]
  rfl

end

/-- Settles O22: the run of the slot's elements decides between moving on, completing and the fault. -/
theorem tensorCopySlots : Obligations.TensorCopySlots := by
  unfold Obligations.TensorCopySlots
  intro s c n host t u f r ht active run left
  refine ⟨?_, ?_, ?_, fun some_ => ?_, ?_, exec_tcopySlotFault_lost ht active⟩
  · rintro rfl more
    rw [exec_tcopySlotComplete_runs ht active run, if_pos more]
  · rintro rfl done v acts
    rw [exec_tcopySlotComplete_runs ht active run, if_neg (ne_true_of_eq_false done), acts]
    rfl
  · rintro rfl done plain
    rw [exec_tcopySlotComplete_runs ht active run, if_neg (ne_true_of_eq_false done), tcopyActions_none plain]
    rfl
  · obtain ⟨f, rfl⟩ := Option.isSome_iff_exists.1 some_
    exact exec_tcopySlotComplete_faults ht active run
  · rintro code cause x rfl v held
    rw [exec_tcopySlotFault_none ht active run]
    exact ⟨fun resident => by rw [tcopyFails_resident held resident], fun orphan => by rw [tcopyFails_orphan held orphan]⟩

end Sys2Proof.Machine

/-! How a group of a placed block starts: its registers, its lanes and its wait. -/

namespace Sys2Proof

theorem SMap.foldl_put_rising {α : Type} [DecidableEq α] (d : α) (f : Nat → α) (l : List Nat) {m : SMap α} (r : m.Rising) :
    SMap.Rising (l.foldl (fun m i => SMap.put d m i (f i)) m) := by
  induction l generalizing m with
  | nil => exact r
  | cons i l ih => exact ih (SMap.put_rising d _ i r)

/-- What a table holds after a value was stored under each of the first `n` keys. -/
theorem SMap.get_foldl_put {α : Type} [DecidableEq α] (d : α) (f : Nat → α) (n k : Nat) {m : SMap α} (r : m.Rising) :
    SMap.get d ((List.range n).foldl (fun m i => SMap.put d m i (f i)) m) k = if k < n then f k else m.get d k := by
  induction n with
  | zero => simp
  | succ n ih =>
    have rising := SMap.foldl_put_rising d f (List.range n) r
    rw [List.range_succ, List.foldl_append, List.foldl_cons, List.foldl_nil]
    by_cases same : k = n
    · rw [same, SMap.get_put_same d _ n rising, if_pos (Nat.lt_succ_self n)]
    · have iff : k < n + 1 ↔ k < n := by omega
      rw [SMap.get_put_ne d _ same rising, ih]
      exact (if_congr iff rfl rfl).symm

end Sys2Proof

namespace Sys2Proof.Machine

/-! ### Registers written in a row -/

theorem Group.foldl_setU (x : Nat → Nat) (l : List Nat) (g : Group) :
    l.foldl (fun g i => g.setU i (x i)) g = { g with u := l.foldl (fun m i => SMap.put 0 m i (BitVec.ofNat 32 (x i))) g.u } := by
  induction l generalizing g with
  | nil => rfl
  | cons i l ih => exact ih _

theorem Group.foldl_setV (x : Nat → Nat) (l : List Nat) (g : Group) :
    l.foldl (fun g i => g.setV 0 i (x i)) g = { g with v := l.foldl (fun m i => SMap.put 0 m i (BitVec.ofNat 32 (x i))) g.v } := by
  induction l generalizing g with
  | nil => rfl
  | cons i l ih =>
    have key : 32 * 0 + i = i := by omega
    rw [List.foldl_cons, ih, Group.setV, key]
    rfl

/-! ### A number made of bits -/

theorem sum_two_pow_lt (p : Nat → Bool) (n : Nat) : (((List.range n).filter p).map (2 ^ ·)).sum < 2 ^ n := by
  induction n with
  | zero => simp
  | succ n ih =>
    rw [List.range_succ, List.filter_append, List.map_append, List.sum_append, Nat.pow_succ]
    cases e : p n <;> simp [e] <;> omega

/-- The sum of 2 ^ `l` over the `l` below `n` that satisfy `p` has exactly those bits. -/
theorem testBit_sum_two_pow (p : Nat → Bool) (n l : Nat) :
    (((List.range n).filter p).map (2 ^ ·)).sum.testBit l = (decide (l < n) && p l) := by
  induction n with
  | zero => simp
  | succ n ih =>
    have last : (((List.range (n + 1)).filter p).map (2 ^ ·)).sum =
        if p n then 2 ^ n + (((List.range n).filter p).map (2 ^ ·)).sum else (((List.range n).filter p).map (2 ^ ·)).sum := by
      rw [List.range_succ, List.filter_append, List.map_append, List.sum_append]
      cases e : p n <;> simp [e, Nat.add_comm]
    rcases Nat.lt_trichotomy l n with h | rfl | h
    · have same : (2 ^ n + (((List.range n).filter p).map (2 ^ ·)).sum).testBit l = (((List.range n).filter p).map (2 ^ ·)).sum.testBit l :=
        Nat.testBit_two_pow_add_gt h _
      rw [last, apply_ite (Nat.testBit · l), same, ite_self, ih]
      simp [h, Nat.lt_succ_of_lt h]
    · rw [last]
      cases e : p l <;> simp [Nat.testBit_two_pow_add_eq, ih]
    · have small := Nat.lt_of_lt_of_le (sum_two_pow_lt p (n + 1)) (Nat.pow_le_pow_right (by decide) (Nat.succ_le_of_lt h))
      simp [Nat.testBit_lt_two_pow small, Nat.not_lt.2 (Nat.succ_le_of_lt h)]

/-! ### The starting state -/

section
variable (x : Launch) (set index block : Nat) (switching : Bool)

/-- What u0 to u6 start with (R83). -/
def startUniform (i : Nat) : Nat :=
  [block % x.gx, block / x.gx % x.gy, block / (x.gx * x.gy), index, x.groups, x.args % 2 ^ 32, nfld x.args 47 32].getD i 0

theorem startGroup_eq : startGroup x set index block switching =
    { block := set, index := index, decl := x.vregs, stat := if switching then .waiting else .ready,
      wait := if switching then 12 else 0, hold := switching,
      live := BitVec.ofNat 32 ((((List.range 32).filter (fun l => decide (32 * index + l < x.threads))).map (2 ^ ·)).sum),
      pc := x.entry % 2 ^ 48,
      v := (List.range 32).foldl (fun m l => SMap.put 0 m l (BitVec.ofNat 32 (32 * index + l))) [],
      u := (List.range 7).foldl (fun m i => SMap.put 0 m i (BitVec.ofNat 32 (startUniform x index block i))) [],
      p := [], tsHi := 0, selfLock := 0, stopping := false, stopped := false, fetching := none, fault := none, last := 0, issued := 0 } := by
  simp only [startGroup]
  rw [Group.foldl_setV, Group.foldl_setU]
  rfl

theorem startGroup_getU (r : Nat) : (startGroup x set index block switching).getU r =
    if r < 7 then startUniform x index block r % 2 ^ 32 else 0 := by
  rw [startGroup_eq, Group.getU, SMap.get_foldl_put 0 _ 7 r List.Pairwise.nil]
  split
  · exact BitVec.toNat_ofNat ..
  · rfl

theorem startGroup_getV {index : Nat} (small : index < 32) (r l : Nat) (lane : l < 32) :
    (startGroup x set index block switching).getV r l = if r = 0 then 32 * index + l else 0 := by
  rw [startGroup_eq, Group.getV, SMap.get_foldl_put 0 _ 32 _ List.Pairwise.nil]
  by_cases first : r = 0
  · have key : 32 * r + l = l := by omega
    have fits : 32 * index + l < 2 ^ 32 := by omega
    rw [key, if_pos lane, if_pos first, BitVec.toNat_ofNat, Nat.mod_eq_of_lt fits]
  · rw [if_neg (by omega), if_neg first]
    rfl

theorem startGroup_live (l : Nat) (lane : l < 32) :
    (startGroup x set index block switching).live.getLsbD l = decide (32 * index + l < x.threads) := by
  rw [startGroup_eq, BitVec.getLsbD_ofNat, testBit_sum_two_pow]
  simp [lane]

end

/-- Settles O26. -/
theorem groupsStartAsLaunched : Obligations.GroupsStartAsLaunched := by
  unfold Obligations.GroupsStartAsLaunched
  intro x set index block switching small g
  have start : g = _ := startGroup_eq x set index block switching
  have u (r : Nat) : g.getU r = if r < 7 then startUniform x index block r % 2 ^ 32 else 0 := startGroup_getU ..
  refine ⟨by rw [start], by rw [start], by rw [start], by rw [start], by rw [start], by rw [start], u 0, u 1, u 2, ?_, u 4, ?_, ?_,
    fun r high => ?_, fun l lane => ?_, fun r l other lane => ?_, fun r low => ?_, startGroup_live x set index block switching, ?_, ?_⟩
  · exact (u 3).trans (Nat.mod_eq_of_lt (Nat.lt_trans small (by decide)))
  · exact (u 5).trans (Nat.mod_mod ..)
  · exact (u 6).trans (Nat.mod_eq_of_lt (Nat.lt_of_lt_of_le (Nat.mod_lt _ (by decide)) (by decide)))
  · rw [u, if_neg (Nat.not_lt.2 high)]
  · exact (startGroup_getV x set block switching small 0 l lane).trans (if_pos rfl)
  · exact (startGroup_getV x set block switching small r l lane).trans (if_neg (Nat.ne_of_gt other))
  · rw [start, Group.getP, if_neg (Nat.ne_of_lt low)]
    rfl
  · rintro rfl
    rw [start]
    exact ⟨rfl, rfl⟩
  · rintro rfl
    rw [start]
    exact ⟨rfl, rfl⟩

end Sys2Proof.Machine

/-! Launches and blocks: how each event of theirs ends. -/

namespace Sys2Proof

/-- What a table holds once a function has been stored over every listed key of `l`. -/
theorem SMap.get_foldl_mapv {α : Type} [DecidableEq α] (d : α) (f : Nat → α → α) (k : Nat) {l a : SMap α} (rl : l.Rising) (ra : a.Rising) :
    SMap.get d (l.foldl (fun (a : SMap α) (e : Nat × α) => a.put d e.1 (f e.1 e.2)) a) k =
      if k ∈ l.keys then f k (l.get d k) else a.get d k := by
  induction l generalizing a with
  | nil => simp [SMap.keys]
  | cons e l ih =>
    obtain ⟨j, x⟩ := e
    obtain ⟨above, rl⟩ := List.pairwise_cons.1 rl
    rw [List.foldl_cons, ih rl (SMap.put_rising d _ j ra)]
    by_cases same : k = j
    · subst same
      have out : k ∉ SMap.keys l := fun m => by
        obtain ⟨e, me, rfl⟩ := List.mem_map.1 m
        exact Nat.lt_irrefl _ (above e me)
      rw [if_neg out, SMap.get_put_same d _ k ra, if_pos (by simp [SMap.keys])]
      simp [SMap.get]
    · rw [SMap.get_put_ne d _ same ra]
      by_cases inside : k ∈ SMap.keys l
      · obtain ⟨e, me, rfl⟩ := List.mem_map.1 inside
        have after := above e me
        rw [if_pos inside, if_pos (by simp [SMap.keys]; exact .inr ⟨_, me⟩)]
        simp [SMap.get, same, Nat.not_lt.2 (Nat.le_of_lt after)]
      · rw [if_neg inside, if_neg (by simpa [SMap.keys, same] using inside)]

theorem SMap.get_of_not_mem_keys {α : Type} (d : α) {k : Nat} {m : SMap α} (out : k ∉ m.keys) : m.get d k = d := by
  induction m with
  | nil => rfl
  | cons e m ih =>
    obtain ⟨j, x⟩ := e
    have ne : k ≠ j := fun h => out (by simp [SMap.keys, h])
    have rest : k ∉ SMap.keys m := fun h => out (List.mem_cons_of_mem _ h)
    simp [SMap.get, ne, ih rest]

/-- A function over every value of a table, one that keeps the unlisted value. -/
theorem SMap.get_mapv {α : Type} [DecidableEq α] {d : α} {f : Nat → α → α} {m : SMap α} (r : m.Rising) {k : Nat} (fix : f k d = d) :
    (m.mapv d f).get d k = f k (m.get d k) := by
  refine (SMap.get_foldl_mapv d f k r r).trans ?_
  split
  · rfl
  next out => rw [SMap.get_of_not_mem_keys d out, fix]

end Sys2Proof

namespace Sys2Proof.Machine

/-! ### LAUNCH_START -/

section
variable {t : Fin 128} {host : HostData} {s u r : State} {th : Thread} {x y : Launch} {rest : Option Launch} {more : List Launch}
  (ht : (s.hostIn host).thread t = some th) (queue : th.queue = x :: more) (turn : (s.hostIn host).turn x = true)
  (head : (s.hostIn host).headLaunch th.view x = (.inl (some (y, rest)), r))
  (taken : u = r.setThread t (some { th with queue := rest.toList ++ more }))
include ht queue turn head taken

theorem exec_launchStart_empty (empty : y.blocks = 0) :
    exec (.launchStart t host) s =
      let b := u.beginLaunch { y with stop := some (0, 0) }
      .next (b.launchOver (b.dsp.nextLaunch - 1) { y with stop := some (0, 0) }).hostOut := by
  show execLaunchStart t host s = _
  simp only [execLaunchStart, State.withHost, ht, queue, turn, head, ← taken, empty, Bool.not_true, Bool.false_eq_true, if_false, if_true]

variable (grid : y.blocks ≠ 0)
include grid

theorem exec_launchStart_never {code : Nat} (never : u.neverFits y = some code) :
    exec (.launchStart t host) s = .next (u.beginLaunch { y with stop := some (0x05, 0x300 + code) }).hostOut := by
  show execLaunchStart t host s = _
  simp only [execLaunchStart, State.withHost, ht, queue, turn, head, ← taken, grid, never, Bool.not_true, Bool.false_eq_true, if_false]

variable (fits : u.neverFits y = none) (room : (u.placeFor y).isSome)
include fits room

theorem exec_launchStart_lane {lane : Nat} (onLane : u.launchLane y = some lane) :
    exec (.launchStart t host) s = .next (u.beginLaunch y).hostOut := by
  show execLaunchStart t host s = _
  have there := Option.isNone_eq_false_iff.2 room
  simp only [execLaunchStart, State.withHost, ht, queue, turn, head, ← taken, grid, fits, there, onLane, Bool.not_true, Bool.false_eq_true,
    if_false]

theorem exec_launchStart_share {q v : State} (noLane : u.launchLane y = none)
    (first : (s.hostIn host).olderFirst { y with order := (s.hostIn host).dsp.nextOrder } = false)
    (share : (s.hostIn host).sharePick (s.hostIn host).dsp.eligibleL (s.hostIn host).launchers = (some y.ctx, q))
    (begun : v = ((s.hostIn host).launchers.foldl (fun (r : State) m => r.setVtime m (q.vtime m)) u).beginLaunch y) :
    exec (.launchStart t host) s = .next (State.hostOut { v with dsp := { v.dsp with eligibleL := (s.hostIn host).launchers } }) := by
  show execLaunchStart t host s = _
  have there := Option.isNone_eq_false_iff.2 room
  simp only [execLaunchStart, State.withHost, ht, queue, turn, head, ← taken, grid, fits, there, noLane, first, share, begun,
    Bool.not_true, Bool.false_eq_true, if_false, if_true]

end

/-! ### BLOCK_PLACE, CORE_SWITCH_END -/

theorem exec_blockPlace {s : State} {l n c : Nat} {x : Launch} {r : Room} (hx : s.launch l = some x) (left : x.unplaced = true)
    (first : s.olderFirst x = false) (place : s.placeFor x = some (n, c, r)) (open_ : s.shut n c = false) :
    exec (.blockPlace l) s = .next (s.placeBlock l x n c r) := by
  show execBlockPlace l s = _
  simp only [execBlockPlace, hx, left, first, place, open_, Bool.not_true, Bool.or_self, Bool.false_eq_true, if_false]

/-- A group after the switch of its core: one that waited for it may issue (R518). -/
def switched (g : Group) : Group := if g.wait = 12 then { g with stat := .ready, wait := 0, hold := false } else g

/-- A core after its switch. -/
def Core.switchEnd (k : Core) : Core :=
  { k with switching := false, groups := SMap.mapv none (fun _ g => g.map switched) k.groups }

theorem exec_coreSwitchEnd {s : State} {c : Fin 192} (switching : (s.core c).switching = true) :
    exec (.coreSwitchEnd c) s = .next (s.setCore c (s.core c).switchEnd) := by
  show execCoreSwitchEnd c s = _
  simp only [execCoreSwitchEnd, State.updCore, switching, Bool.not_true, Bool.false_eq_true, if_false]
  rfl

theorem Core.group_switchEnd {k : Core} {slot : Nat} {g : Group} (r : SMap.Rising k.groups) (h : k.group slot = some g) :
    k.switchEnd.group slot = some (switched g) := by
  have read : k.switchEnd.group slot = (k.group slot).map switched := SMap.get_mapv (d := none) (f := fun _ (g : Option Group) => g.map switched) r rfl
  rw [read, h]
  rfl

/-! ### BLOCK_END -/

/-- A launch takes a fault that no group received, where there is one (R117, R210). -/
def State.endsWith (s : State) (l : Nat) : Option Nat → State
  | some code => s.launchFault l code 0
  | none => s

theorem exec_blockEnd {s : State} {c : Fin 192} {set : Fin 64} {b : Block} (hb : (s.core c).block set = some b)
    (ended : ∀ e ∈ (s.core c).groupList, e.2.block = set → (s.core c).live e.1 e.2 = false) (idle : (s.core c).mx.busyFor set = false)
    (recorded : ∀ e ∈ (s.core c).late, e.set ≠ set) (chosen : b.stopped = true ∨ s.pointsOf c set = false) :
    exec (.blockEnd c set) s =
      let fault := if b.stopped || b.fault.isSome then none else (s.core c).unreported set
      let u := s.dropWhere (fun r => decide (r.core = c) && decide (r.set = set)) (fun x => decide (x.core = c) && decide (x.set = set))
      let v := (u.endCopies c set b).blockGone c set b
      .next (v.endsWith b.launch fault) := by
  show execBlockEnd c set s = _
  have live : (s.core c).groupList.any (fun e => e.2.block = set && (s.core c).live e.1 e.2) = false := by
    simpa using ended
  have late : (s.core c).late.any (fun e => e.set = set) = false := by
    simpa using recorded
  have points : (!b.stopped && s.pointsOf c set) = false := by
    simpa [or_iff_not_imp_left] using chosen
  simp only [execBlockEnd, hb, live, idle, late, points, Bool.or_self, Bool.false_eq_true, if_false]
  rfl

/-! ### LAUNCH_COMPLETE, BORROW_OVERRUN -/

theorem exec_launchComplete {s : State} {l : Nat} {x : Launch} (hx : s.launch l = some x) (quiet : x.quiet = true)
    (settled : s.launchSettled l = true) : exec (.launchComplete l) s = .next (s.launchOver l x) := by
  show execLaunchComplete l s = _
  simp only [execLaunchComplete, hx, quiet, settled, Bool.not_true, Bool.or_self, Bool.false_eq_true, if_false]

/-- Does a block of a launch lie past its due time (R405)? -/
def State.overdue (s : State) (l : Nat) : Prop :=
  ∃ e ∈ s.cores, ∃ b ∈ e.2.blockList, b.2.launch = l ∧ b.2.due ≠ 0 ∧ b.2.due - 1 ≤ s.now

theorem overdue_iff (s : State) (l : Nat) :
    s.cores.any (fun e => e.2.blockList.any (fun b =>
      b.2.launch = l && decide (b.2.due ≠ 0) && decide (b.2.due - 1 ≤ s.now))) = true ↔ s.overdue l := by
  simp only [State.overdue, List.any_eq_true, Bool.and_eq_true, decide_eq_true_eq, and_assoc]

theorem exec_borrowOverrun (s : State) (l : Nat) :
    exec (.borrowOverrun l) s = .next (if s.cores.any (fun e => e.2.blockList.any (fun b =>
      b.2.launch = l && decide (b.2.due ≠ 0) && decide (b.2.due - 1 ≤ s.now))) then s.stopLaunch l 0x02 0x03 else s) := rfl

/-! ### The obligation -/

/-- Settles O25, event by event. -/
theorem launchesAndBlocks : Obligations.LaunchesAndBlocks := by
  unfold Obligations.LaunchesAndBlocks
  refine ⟨fun t host s u r th x y rest more => ?_, fun s l x n c r hx left first place open_ => exec_blockPlace hx left first place open_,
    fun s c r switching => ?_, fun s c set b hb ended idle recorded chosen => ?_, fun s l x hx quiet settled => ?_, fun s l => ?_⟩
  · intro h ht queue turn head taken
    refine ⟨exec_launchStart_empty ht queue turn head taken, fun code grid never => exec_launchStart_never ht queue turn head taken grid never,
      fun grid fits room lane => ?_, fun q grid fits room noLane first share => ?_⟩
    · obtain ⟨lane, onLane⟩ := Option.isSome_iff_exists.1 lane
      exact exec_launchStart_lane ht queue turn head taken grid fits room onLane
    · intro v
      exact exec_launchStart_share ht queue turn head taken grid fits room noLane first share rfl
  · refine ⟨_, exec_coreSwitchEnd switching, rfl, fun d ne => State.core_setCore_ne r _ ne, ?_, fun canon slot g hg => ?_⟩ <;>
      rw [State.core_setCore_same r]
    · rfl
    · exact Core.group_switchEnd canon.1 hg
  · intro fault u v
    have ends : exec (.blockEnd c set) s = .next (v.endsWith b.launch fault) := exec_blockEnd hb ended idle recorded chosen
    exact ⟨fun none_ => by rw [ends, none_, State.endsWith], fun code some_ => by rw [ends, some_, State.endsWith]⟩
  · rw [exec_launchComplete hx quiet settled]
    rfl
  · intro late
    rw [exec_borrowOverrun]
    exact ⟨fun past => congrArg _ (if_pos ((overdue_iff s l).2 past)), fun within => congrArg _ (if_neg (mt (overdue_iff s l).1 within))⟩

end Sys2Proof.Machine

/-! Instructions that read and write the group's own registers. -/

namespace Sys2Proof.Machine

/-- A register instruction that its decoder gives an effect, with every register it names written, steps its group by that effect. -/
theorem regRow_steps {i : Instr} {s : State} {c : Fin 192} {slot : Fin 64} {g : Group} {w : Word} {row : Word → Bool}
    {dec : Group → Word → Option RegEffect} {e : RegEffect} (k : s.Canon) (a : s.Issuable c slot g w)
    (x : exec i s = .next (s.regRow c slot .none row dec)) (m : row w = true) (legal : dec g w = some e)
    (free : (s.core c).blocked slot e.regs = 0) :
    StepsGroup i s c slot ((e.run (execMask g (iFields w)) (Config.free s.freeCount) g).next 8) := by
  refine stepsGroup_setGroup (t := { s with freeCount := s.freeCount + 1 }) x a m c.isLt ?_ ⟨s.bumpFree_counted, k.rise⟩ rfl
  rw [legal]
  exact if_neg (not_not.2 ((Core.why_eq_zero ..).2 free))

section
variable {s : State} {c : Fin 192} {slot : Fin 64} {g : Group} {w : Word} (k : s.Canon) (a : s.Issuable c slot g w)
include k a

/-- IALU's row holds the reserved words too, which its decoder refuses. -/
theorem ialu_steps {e : RegEffect} (m : isMajor 0x01 w = true) (legal : decIalu g w = some e)
    (free : (s.core c).blocked slot e.regs = 0) :
    StepsGroup (.ialu c slot .none) s c slot ((e.run (execMask g (iFields w)) (Config.free s.freeCount) g).next 8) :=
  regRow_steps k a rfl (by rw [m, Bool.true_or]) ((if_pos m).trans legal) free

end

/-- Settles O10: every one of them is a register row of its decoder. -/
theorem registerInstructionsRun : Obligations.RegisterInstructionsRun := by
  unfold Obligations.RegisterInstructionsRun
  intro s c slot g w k a run
  have row {i : Instr} {n : Nat} {dec : Group → Word → Option RegEffect} (x : exec i s = .next (s.regRow c slot .none (isMajor n) dec))
      (m : isMajor n w = true) : run i dec := fun _ legal free => regRow_steps k a x m legal free
  exact ⟨fun m _ legal free => ialu_steps k a m legal free, row rfl, row rfl, row rfl, row rfl, row rfl, row rfl,
    row (dec := fun g w => decFp g w falufmt) rfl, row rfl, row (dec := fun g w => decFp g w halufmt) rfl, row rfl, row rfl, row rfl⟩

/-! ### The integer operations on 32-bit words without a sign -/

theorem Group.getV_lt (g : Group) (r l : Nat) : g.getV r l < 2 ^ 32 := BitVec.isLt _

theorem Group.read_vector (g : Group) (r l : Nat) : g.read (.v r 1) l = g.getV r l := by
  simp [Group.read]

theorem negW_false {a : Nat} (lt : a < 2 ^ 32) : negW 32 false a = a := Nat.mod_eq_of_lt lt

theorem valW_unsigned {a : Nat} (lt : a < 2 ^ 32) : valW 32 false a = a := congrArg Int.ofNat (Nat.mod_eq_of_lt lt)

/-- Without SAT a sum wraps. -/
theorem satW_wraps (z : Int) : satW 32 false false z = (z % 2 ^ 32).toNat := rfl

section
variable {a b : Nat} (ha : a < 2 ^ 32) (hb : b < 2 ^ 32) (pick : Bool) (c : Nat)
include ha hb

theorem ialuVal_add : ialuVal 0x00 32 false false pick a b c = (a + b) % 2 ^ 32 := by
  simp only [ialuVal, valW_unsigned ha, valW_unsigned hb, satW_wraps]
  omega

theorem ialuVal_sub : ialuVal 0x01 32 false false pick a b c = (a + 2 ^ 32 - b) % 2 ^ 32 := by
  simp only [ialuVal, valW_unsigned ha, valW_unsigned hb, satW_wraps]
  omega

theorem ialuVal_min : ialuVal 0x02 32 false false pick a b c = if a ≤ b then a else b := by
  simp only [ialuVal, valW_unsigned ha, valW_unsigned hb, Int.ofNat_le]

theorem ialuVal_max : ialuVal 0x03 32 false false pick a b c = if a ≤ b then b else a := by
  simp only [ialuVal, valW_unsigned ha, valW_unsigned hb, Int.ofNat_le]

end

/-- The operations of R146 that O11 lists, by their MINOR. -/
def u32Ops : List (Nat × (Nat → Nat → Nat)) :=
  [(0x00, fun a b => (a + b) % 2 ^ 32), (0x01, fun a b => (a + 2 ^ 32 - b) % 2 ^ 32),
    (0x02, fun a b => if a ≤ b then a else b), (0x03, fun a b => if a ≤ b then b else a),
    (0x05, fun a b => Nat.land a b), (0x06, fun a b => Nat.lor a b), (0x07, fun a b => Nat.xor a b),
    (0x09, fun a b => if 32 ≤ b % 256 then 0 else a * 2 ^ (b % 256) % 2 ^ 32),
    (0x0A, fun a b => if 32 ≤ b % 256 then 0 else a / 2 ^ (b % 256))]

theorem ialuVal_u32 {minor : Nat} {f : Nat → Nat → Nat} (op : (minor, f) ∈ u32Ops) {a b : Nat} (ha : a < 2 ^ 32) (hb : b < 2 ^ 32)
    (pick : Bool) (c : Nat) : ialuVal minor 32 false false pick a b c = f a b := by
  simp only [u32Ops, List.mem_cons, Prod.mk.injEq, List.not_mem_nil, or_false] at op
  obtain ⟨rfl, rfl⟩ | ⟨rfl, rfl⟩ | ⟨rfl, rfl⟩ | ⟨rfl, rfl⟩ | ⟨rfl, rfl⟩ | ⟨rfl, rfl⟩ | ⟨rfl, rfl⟩ | ⟨rfl, rfl⟩ | ⟨rfl, rfl⟩ := op
  · exact ialuVal_add ha hb pick c
  · exact ialuVal_sub ha hb pick c
  · exact ialuVal_min ha hb pick c
  · exact ialuVal_max ha hb pick c
  all_goals rfl

/-- Each of them reads two sources, and its MINOR is one that R146 defines. -/
theorem ialuUses_u32 {minor : Nat} {f : Nat → Nat → Nat} (op : (minor, f) ∈ u32Ops) :
    ialuUses minor = (true, true, false, false) ∧ minor ≤ 0x12 := by
  simp only [u32Ops, List.mem_cons, Prod.mk.injEq, List.not_mem_nil, or_false] at op
  obtain ⟨rfl, -⟩ | ⟨rfl, -⟩ | ⟨rfl, -⟩ | ⟨rfl, -⟩ | ⟨rfl, -⟩ | ⟨rfl, -⟩ | ⟨rfl, -⟩ | ⟨rfl, -⟩ | ⟨rfl, -⟩ := op <;> exact ⟨rfl, by decide⟩

/-- What IALU's decoder gives for a word of TYPE U32 with vector operands that reads two sources. -/
theorem decIalu_u32 {g : Group} {w : Word} {minor : Nat} (fmt : fmtA w = ⟨false, false, false, false, minor, 0, 0, false, false, false, false, false⟩)
    (uses : ialuUses minor = (true, true, false, false)) (known : minor ≤ 0x12) (noC : (iFields w).srcC = 0) (d : (iFields w).dest < g.decl)
    (sa : (iFields w).srcA < g.decl) (sb : (iFields w).srcB < g.decl) :
    decIalu g w = some ⟨[(iFields w).srcA, (iFields w).srcB], [(iFields w).dest, (iFields w).srcA, (iFields w).srcB], fun m _ h =>
      h.write (.v (iFields w).dest 1) m (fun l => ialuVal minor 32 false false ((h.getP (iFields w).srcC).getLsbD l)
        (negW 32 false (h.read (.v (iFields w).srcA 1) l)) (negW 32 false (h.read (.v (iFields w).srcB 1) l))
        (negW 32 false (h.read (.v (iFields w).srcC 1) l)))⟩ := by
  simp [decIalu, fmt, intType, uses, known, noC, opd, opdsOk, Opd.ok, Opd.isV, Opd.regs, Nat.mod_one, Nat.succ_le_of_lt d, Nat.succ_le_of_lt sa,
    Nat.succ_le_of_lt sb]

/-- Settles O11: the decoder's effect is a write of `ialuVal` in the lanes of the mask. -/
theorem integerResults : Obligations.IntegerResults := by
  unfold Obligations.IntegerResults
  intro s c slot g w minor f k a m fmt noC d sa sb free op
  obtain ⟨uses, known⟩ := ialuUses_u32 op
  have steps := ialu_steps k a m (decIalu_u32 fmt uses known noC d sa sb) free
  simpa only [Group.write, Group.setVs_one, Group.read_vector, negW_false (g.getV_lt _ _), ialuVal_u32 op (g.getV_lt _ _) (g.getV_lt _ _)]
    using steps

end Sys2Proof.Machine

/-! LDG, STG and ATOMG where every lane is translated, aligned and clean and nothing holds the access back. -/

namespace Sys2Proof.Machine

/-- A device-memory row whose fields are legal, whose registers are written and whose lanes are aligned gets as far as its translation. -/
theorem deviceRow_passes {α : Type} {ok : Bool} {k : Core} {slot : Nat} {srcs regs lanes : List Nat} {addr : Nat → Nat} {size : Nat}
    {F : Nat → Half → Nat → α} {a b e : α} (legal : ok = true) (free : k.blocked slot regs = 0) (aligned : ∀ l ∈ lanes, addr l % size = 0) :
    (if !ok then a else if k.why slot srcs regs ≠ 0 then b
      else match pickFault (misaligned lanes addr size) with
        | some (code, lanes, x) => F code lanes x
        | none => e) = e :=
  (row_passes legal free).trans (noFault (by rw [misaligned_eq_nil aligned, pickFault_nil]))

/-- No lane faults where none is at a refused place and each one is translated. -/
theorem pickFault_placed {p : LanePa → Bool} {pas : List LanePa} (none_ : ∀ x ∈ pas, p x = false) :
    pickFault ((pas.filter p).map (fun x => (x.lane, 0x01, x.va)) ++ []) = none := by
  rw [List.filter_eq_nil_iff.2 fun x m => ne_true_of_eq_false (none_ x m)]
  rfl

/-- Settles O14: past its checks each row takes the one branch that goes out. -/
theorem deviceMemoryInstructions : Obligations.DeviceMemoryInstructions := by
  unfold Obligations.DeviceMemoryInstructions
  intro s c slot g w r a k f m mask size n addr ctx from_ rel acq wide
  refine ⟨fun j ok free => ?_, fun j ok free => ?_, fun j ok => ?_⟩
  · intro lanes aligned pas u v v' acc want translated near first room read clean asked t ld k'
    have canonU : u.Canon := .of_triple translated ((State.xlateLanes_keeps (.refl s)).canon r)
    have canonV : v.Canon := .of_pair read ((State.loadLanes_keeps (.refl u)).canon canonU)
    have canon : v'.Canon := .of_pair asked ((State.hostLanes_keeps (.refl v)).canon canonV)
    have canonT : t.Canon := by
      unfold t
      split
      · exact canon.setCore
      · exact canon
    refine issues_setCore rfl a (isMajor_iff.2 j) c.isLt ((deviceRow_passes ok free aligned).trans ?_) ⟨.refl t, canonT.rise⟩ rfl
    have reached := pickFault_placed (p := fun p => u.placeOf p.pa = .remote) fun p i => decide_eq_false (near p i)
    have goesOn : ((u.core c).behindDevice (pas.filter (fun p => p.region = 2)) ||
        768 < u.pci.reqs.length + (pas.filter (fun p => decide (u.placeOf p.pa = .host))).length) = false := by
      rw [first, Bool.false_or]
      exact decide_eq_false (Nat.not_lt.2 room)
    rw [translated]
    refine (noFault reached).trans ((if_neg (ne_true_of_eq_false goesOn)).trans ?_)
    have read : u.loadLanes c g ctx size m (acquires m && decide (2 ≤ m.scope)) pas = (acc, v) := read
    rw [read]
    refine (noFault (by rw [clean, pickFault_nil])).trans ?_
    rw [asked]
    rfl
  · intro aligned pas u translated released kept k' entry stores room
    have canon : u.Canon := .of_triple translated ((State.xlateLanes_keeps (.refl s)).canon r)
    refine issues_setCore rfl a (isMajor_iff.2 j) c.isLt ((deviceRow_passes ok free aligned).trans ?_) ⟨.refl u, canon.rise⟩ rfl
    rw [translated]
    exact (if_neg (ne_true_of_eq_false released)).trans ((if_neg (ne_true_of_eq_false kept)).trans (if_neg (Nat.not_lt.2 room)))
  · intro n dest src lanes rel free aligned pas u v v' olds translated near first clean released kept outside performed k1 k2 ld k'
    have canonU : u.Canon := .of_triple translated ((State.xlateLanes_keeps (.refl s)).canon r)
    have canonV : v.Canon := .of_pair clean ((State.atomPoison_keeps (.refl u)).canon canonU)
    have canon : v'.Canon := .of_pair performed ((State.atomLanes_keeps (State.bumpFree_keeps (.refl v))).canon canonV)
    have reached := pickFault_placed (p := fun p => u.placeOf p.pa ≠ .localMem) fun p i => decide_eq_false (not_not.2 (near p i))
    refine issues_setCore rfl a (isMajor_iff.2 j) c.isLt ((deviceRow_passes ok free aligned).trans ?_) ⟨.refl v', canon.rise⟩ rfl
    rw [translated]
    refine (noFault reached).trans ((if_neg (ne_true_of_eq_false first)).trans ?_)
    rw [clean]
    refine (if_neg (ne_true_of_eq_false released)).trans ((if_neg (ne_true_of_eq_false kept)).trans
      ((if_neg (ne_true_of_eq_false outside)).trans ?_))
    unfold State.withFree
    beta_reduce
    rw [performed]
    rfl

end Sys2Proof.Machine

/-! A SEM.SIG whose semaphore's words cannot be corrected, on a waiter table that lists the semaphore twice. -/

namespace Sys2Proof.Machine

/-- SEM.SIG u2, u0, u1. -/
def sigWord : Word := 0x6FC0400020000000

/-- A group whose u0 names semaphore 5 and whose u1 is a count of 3. -/
def sigGroup : Group :=
  { block := 0, index := 0, decl := 32, stat := .ready, wait := 0, hold := false, live := 1, pc := 0, v := [], u := [(0, 5), (1, 3)], p := [],
    tsHi := 0, selfLock := 0, stopping := false, stopped := false, fetching := none, fault := none, last := 0, issued := 0 }

/-- A waiter in slot 1 of core 0, which holds no group. -/
def strayWaiter : Waiter := ⟨0, 0, 1, 4, 0, 2⟩

/-- The module at reset with `sigGroup` alone on core 0, at `sigWord`, and semaphore 5 twice in the table of waiter lists. -/
def listedTwice : State :=
  { State.reset with
    cores := [(0, { Core.empty with groups := [(0, some sigGroup)], icache := [(0, some (leBytes 8 sigWord.toNat))] })],
    sem := { State.reset.sem with waiters := [(5, [strayWaiter]), (5, [strayWaiter])] } }

/-- `Canon` does not speak of the waiter lists. -/
theorem listedTwice_canon : listedTwice.Canon where
  dram := SMap.nil_canon _
  regs := (SMap.wf_iff _ _).1 (by decide +kernel)
  cores := (SMap.wf_iff _ _).1 (by decide +kernel)
  launches := SMap.nil_canon _
  cmds := SMap.nil_canon _
  threads := SMap.nil_canon _
  units := SMap.nil_canon _
  qps := SMap.nil_canon _

theorem listedTwice_issuable : listedTwice.Issuable 0 0 sigGroup sigWord where
  group := by decide +kernel
  can := by decide +kernel
  word := by decide +kernel
  turn := by decide +kernel
  clear _ := by decide +kernel

/-- The semaphore is BROKEN, and its second list stands. -/
theorem listedTwice_semUpset :
    ((listedTwice.updCore 0 (fun k => k.release 3)).semUpset 5 .lost).semWaiters 5 = [strayWaiter] := by decide +kernel

/-- Refutes O19: the canonical form leaves the table of waiter lists free. Where that table lists a semaphore twice, an uncorrectable error in
the semaphore takes the first list out, and the second one reads as its waiters. -/
theorem not_semaphoreInstructions : ¬ Obligations.SemaphoreInstructions := by
  unfold Obligations.SemaphoreInstructions
  intro h
  have sig := (h listedTwice 0 0 sigGroup sigWord 5 .lost listedTwice_canon listedTwice_issuable (by decide) (by decide) (by decide)
    (by decide) (by decide) (by decide)).1 (by decide) (by decide) (by decide +kernel) (by decide +kernel)
  obtain ⟨-, -, -, -, lost⟩ := sig
  obtain ⟨-, -, -, none_, -⟩ := lost rfl
  exact List.cons_ne_nil _ _ (listedTwice_semUpset.symm.trans none_)

end Sys2Proof.Machine

/-! MX.ISSUE, MX.DRAIN, MV.ISSUE and MX.WAIT of a group whose lanes act. -/

namespace Sys2Proof.Machine

/-! ### What opens a matrix row -/

/-- A format-X instruction whose second word is there and carries the mark of one goes on (R127, R129). -/
theorem secondWord_passes {α : Type} {k : Core} {pc : Nat} {w2 : Word} {a b : α} {F : Word → α}
    (two : k.word pc = some w2 ∧ fld w2 63 57 = 0x7F) :
    (match k.word pc with
      | none => a
      | some w2 => if fld w2 63 57 ≠ 0x7F then b else F w2) = F w2 := by
  rw [two.1]
  exact if_neg (not_not.2 two.2)

/-- The state after a fault not yet reported has been taken to its group (R186). -/
def State.mxReported (s : State) (c slot : Nat) (m : Half) (named : Nat → Bool) (code : Nat) : State :=
  (s.setCore c { s.core c with mx := { (s.core c).mx with
    faults := (s.core c).mx.faults.filter (fun y => !(decide (y.group = slot) && named y.slot)) } }).faultGroup c slot code m 0

section
variable {s : State} {c slot : Nat} {m : Half} {named : Nat → Bool} {e : State}

theorem report_takes {x : MxFault} (found : (s.core c).mx.faults.find? (fun x => decide (x.group = slot) && named x.slot) = some x) :
    (match s.reportMx c slot m named with
      | some t => t
      | none => e) = s.mxReported c slot m named x.code := by
  simp only [State.reportMx, found, State.mxReported]

theorem report_passes (fine : (s.core c).mx.faults.find? (fun x => decide (x.group = slot) && named x.slot) = none) :
    (match s.reportMx c slot m named with
      | some t => t
      | none => e) = e := by
  simp only [State.reportMx, fine]

variable {ok : Bool} {k : Core} {srcs regs : List Nat} {x y z : State} (legal : ok = true) (free : k.blocked slot regs = 0) (acts : m ≠ 0)
include legal free acts

/-- The checks that open MX.ISSUE, MX.DRAIN and MV.ISSUE, where a fault of the group is still to be reported. -/
theorem mxRow_reports {f : MxFault} (found : (s.core c).mx.faults.find? (fun x => decide (x.group = slot) && named x.slot) = some f) :
    (if !ok then x else if k.why slot srcs regs ≠ 0 then y else if m = 0 then z
      else match s.reportMx c slot m named with
        | some t => t
        | none => e) = s.mxReported c slot m named f.code :=
  (actingRow_passes legal free acts).trans (report_takes found)

theorem mxRow_passes (fine : (s.core c).mx.faults.find? (fun x => decide (x.group = slot) && named x.slot) = none) :
    (if !ok then x else if k.why slot srcs regs ≠ 0 then y else if m = 0 then z
      else match s.reportMx c slot m named with
        | some t => t
        | none => e) = e :=
  (actingRow_passes legal free acts).trans (report_passes fine)

end

/-- An instruction whose descriptors and shape give no code goes on. -/
theorem noCode {α : Type} {l t : List Nat} {F : Nat → α} {e : α} (fine : firstCode l = none) (nil : t = []) :
    (match firstCode (l ++ t) with
      | some code => F code
      | none => e) = e := by
  rw [nil, List.append_nil, fine]

theorem noCodes {α : Type} {l t t' : List Nat} {F : Nat → α} {e : α} (fine : firstCode l = none) (nil : t ++ t' = []) :
    (match firstCode (l ++ t ++ t') with
      | some code => F code
      | none => e) = e := by
  rw [List.append_assoc]
  exact noCode fine nil

/-- MX.WAIT names no register that it could wait for. -/
theorem waitRow_passes {α : Type} {ok : Bool} {m : Half} {x y e : α} (legal : ok = true) (acts : m ≠ 0) :
    (if !ok then x else if m = 0 then y else e) = e :=
  (if_neg (by rw [legal]; decide)).trans (if_neg acts)

/-- MX.ISSUE's shape is in order (R193). -/
theorem tileShape_eq_nil {fa fb kk sparse : Nat} (rate : rateClass fa fb ≠ none) (whole : kk % 16 = 0) (some_ : 0 < kk) (most : kk ≤ 2 ^ 20)
    (cols : sparse = 2 → kk % 64 = 0) :
    (if rateClass fa fb = none || kk % 16 ≠ 0 || kk = 0 || 2 ^ 20 < kk || (sparse = 2 && kk % 64 ≠ 0) then [0x0B] else []) =
      ([] : List Nat) := by
  simpa [rate, whole, Nat.ne_of_gt some_] using ⟨most, cols⟩

/-- MV.ISSUE's output address and formats are in order (R185, R193). -/
theorem mvShape_eq_nil {out fw fx : Nat} (aligned : out % 128 = 0) (rate : rateClass fw fx ≠ none) :
    (if out % 128 ≠ 0 then [0x02] else []) ++ (if rateClass fw fx = none then [0x0B] else []) = ([] : List Nat) := by
  simp [aligned, rate]

/-- Stochastic rounding does not go to S8 (R157, R183). -/
theorem roundingOk {ofmt rnd : Nat} (h : ¬(ofmt = 9 ∧ rnd = 2)) : (!(decide (ofmt = 9) && decide (rnd = 2))) = true := by
  rw [← Bool.decide_and, decide_eq_false h]
  rfl

section
variable {toRegs : Bool} {ofmt dest srcA : Nat}

/-- The target of MX.DRAIN as its row checks it (R183, R184). -/
theorem drainTargetOk {decl : Nat} (h : if toRegs then ofmt ≠ 8 ∧ srcA = 0 ∧ dest + bandRegs ofmt ≤ decl else srcA < 64) :
    (if toRegs then decide (ofmt ≠ 8) && decide (srcA = 0) && decide (dest + bandRegs ofmt ≤ decl) else decide (srcA < 64)) = true := by
  cases toRegs
  · simpa using h
  · simpa [and_assoc] using h

/-- The registers that MX.DRAIN names are those of its target. -/
theorem drainRegs_eq : (if toRegs then [] else [256 + srcA]) ++ (if toRegs then (List.range (bandRegs ofmt)).map (dest + ·) else []) =
    if toRegs then (List.range (bandRegs ofmt)).map (dest + ·) else [256 + srcA] := by
  cases toRegs <;> simp

/-- A drain to scratchpad that is aligned and inside the allocation meets neither of the faults of R203; one to registers never does. -/
theorem drainPlace_passes {α : Type} {addr limit : Nat} {x y e : α}
    (h : toRegs = false → addr % 128 = 0 ∧ addr + 768 * elemBits ofmt ≤ limit) :
    (if !toRegs && addr % 128 ≠ 0 then x else if !toRegs && limit < addr + 768 * elemBits ofmt then y else e) = e := by
  cases toRegs
  · simp [(h rfl).1, Nat.not_lt.2 (h rfl).2]
  · simp

end

/-! ### The obligation -/

/-- Settles O23: past its checks each instruction queues its operation, or waits where its queue is full. -/
theorem matrixInstructions : Obligations.MatrixInstructions := by
  unfold Obligations.MatrixInstructions
  intro s c slot g w w2 r a k f m n limit view two reported none_ waits acts
  refine ⟨fun j two regs dest zero sparse fa fb free => ?_, fun j two regs zero ofmt rnd noRs target free => ?_,
    fun j two regs zero sparse fw fx ofmt rnd noRs free => ?_, fun j minor zero dest sa sb => ?_⟩
  · have row := isMajor_iff.2 j
    have legal : (xOk w [f.srcA, f.srcB, f.srcC] && decide (f.dest = 0) && decide (fld w2 38 0 = 0) && decide (fld w2 42 41 ≠ 3) &&
        fmtKnown (fld w2 52 48) && fmtKnown (fld w2 47 43)) = true := by
      simp [regs, dest, zero, sparse, fa, fb]
    refine ⟨fun x found => ?_, fun fine descr rate whole some_ most cols => ?_⟩
    · exact ends_of_eq r.setCore.faultGroup.rise rfl a row c.isLt ((secondWord_passes two).trans (mxRow_reports legal free acts found))
    · have shape := tileShape_eq_nil rate whole some_ most cols
      intro t
      refine ⟨fun full => ?_, fun room bad => ?_, fun p u room good read => ?_⟩
      · exact holds_of_holdAt rfl a row ((secondWord_passes two).trans ((mxRow_passes legal free acts fine).trans
          ((noCode descr shape).trans (if_pos full))))
      · refine issues_setCore rfl a row c.isLt ((secondWord_passes two).trans ((mxRow_passes legal free acts fine).trans
          ((noCode descr shape).trans ((if_neg (Nat.not_le.2 room)).trans ?_)))) ⟨.refl s, r.rise⟩ rfl
        have bad : ((s.core c).newTile g slot w w2).fault.isSome = true := bad
        dsimp only
        rw [if_pos bad]
      · have canon : u.Canon := .of_pair read ((State.readProduct_keeps (.refl s)).canon r)
        refine issues_setCore rfl a row c.isLt ((secondWord_passes two).trans ((mxRow_passes legal free acts fine).trans
          ((noCode descr shape).trans ((if_neg (Nat.not_le.2 room)).trans ?_)))) ⟨.refl u, canon.rise⟩ rfl
        have good : ((s.core c).newTile g slot w w2).fault = none := good
        dsimp only
        rw [if_neg (Option.not_isSome_iff_eq_none.2 good), read]
  · have row := isMajor_iff.2 j
    have free : k.blocked slot ((if bit w2 53 then [] else [256 + f.srcA]) ++
        (if bit w2 53 then (List.range (bandRegs (fld w2 52 48))).map (f.dest + ·) else [])) = 0 := drainRegs_eq ▸ free
    have legal : (xOk w ([f.srcB, f.srcC] ++ (if bit w2 53 then [] else [f.dest])) && decide (fld w2 40 0 = 0) && outFmt (fld w2 52 48) &&
        decide (fld w2 47 46 ≠ 3) && !(decide (fld w2 52 48 = 9) && decide (fld w2 47 46 = 2)) &&
        (if bit w2 53 then decide (fld w2 52 48 ≠ 8) && decide (f.srcA = 0) && decide (f.dest + bandRegs (fld w2 52 48) ≤ g.decl)
          else decide (f.srcA < 64))) = true := by
      rw [regs, decide_eq_true zero, ofmt, decide_eq_true rnd, roundingOk noRs, drainTargetOk target]
      rfl
    refine ⟨fun x found => ?_, fun fine inside => ⟨fun full => ?_, fun room => ?_⟩⟩
    · exact ends_of_eq r.setCore.faultGroup.rise rfl a row c.isLt ((secondWord_passes two).trans (mxRow_reports legal free acts found))
    · exact holds_of_holdAt rfl a row ((secondWord_passes two).trans ((mxRow_passes legal free acts fine).trans
        ((drainPlace_passes inside).trans (if_pos full))))
    · refine issues_setCore rfl a row c.isLt ((secondWord_passes two).trans ((mxRow_passes legal free acts fine).trans
        ((drainPlace_passes inside).trans (if_neg (Nat.not_le.2 room))))) ⟨.refl s, r.rise⟩ ?_
      split <;> rfl
  · have row := isMajor_iff.2 j
    have legal : (xOk w [f.srcA, f.srcB, f.srcC, f.dest] && decide (fld w2 31 0 = 0) && decide (fld w2 43 42 ≠ 3) &&
        fmtKnown (fld w2 53 49) && fmtKnown (fld w2 48 44) && outFmt (fld w2 39 35) && decide (fld w2 34 33 ≠ 3) &&
        !(decide (fld w2 39 35 = 9) && decide (fld w2 34 33 = 2))) = true := by
      rw [regs, decide_eq_true zero, decide_eq_true sparse, fw, fx, ofmt, decide_eq_true rnd, roundingOk noRs]
      rfl
    refine ⟨fun x found => ?_, fun fine descr aligned rate => ?_⟩
    · exact ends_of_eq r.setCore.faultGroup.rise rfl a row c.isLt ((secondWord_passes two).trans (mxRow_reports legal free acts found))
    · have shape := mvShape_eq_nil aligned rate
      intro o
      refine ⟨fun full => ?_, fun room bad => ?_, fun o' u room good read => ?_⟩
      · exact holds_of_holdAt rfl a row ((secondWord_passes two).trans ((mxRow_passes legal free acts fine).trans
          ((noCodes descr shape).trans (if_pos full))))
      · refine issues_setCore rfl a row c.isLt ((secondWord_passes two).trans ((mxRow_passes legal free acts fine).trans
          ((noCodes descr shape).trans ((if_neg (Nat.not_le.2 room)).trans ?_)))) ⟨.refl s, r.rise⟩ rfl
        have bad : ((s.core c).newMv g slot w w2).fault.isSome = true := bad
        dsimp only
        rw [if_pos bad]
      · have canon : u.Canon := .of_pair read ((State.readProducts_keeps (.refl s)).canon r)
        refine issues_setCore rfl a row c.isLt ((secondWord_passes two).trans ((mxRow_passes legal free acts fine).trans
          ((noCodes descr shape).trans ((if_neg (Nat.not_le.2 room)).trans ?_)))) ⟨.refl u, canon.rise⟩ rfl
        have good : ((s.core c).newMv g slot w w2).fault = none := good
        dsimp only
        rw [if_neg (Option.not_isSome_iff_eq_none.2 good), read]
  · have row := isMajor_iff.2 j
    have legal : (decide (fld w 28 21 = 0) && decide (fld w 20 9 = 0) && decide (f.dest = 0) && decide (f.srcA = 0) &&
        decide (f.srcB = 0)) = true := by
      simp [minor, zero, dest, sa, sb]
    intro busy
    refine ⟨fun x found => ?_, fun fine wait => ?_, fun fine idle => ?_⟩
    · exact ends_of_eq r.setCore.faultGroup.rise rfl a row c.isLt ((waitRow_passes legal acts).trans (report_takes found))
    · exact holds_of_holdAt rfl a row ((waitRow_passes legal acts).trans ((report_passes fine).trans (if_pos wait)))
    · exact stepsGroup_setGroup rfl a row c.isLt ((waitRow_passes legal acts).trans ((report_passes fine).trans
        (if_neg (ne_true_of_eq_false idle)))) ⟨.refl s, r.rise⟩ rfl

end Sys2Proof.Machine

/-! The array, the drain and the matrix-vector path of a core at work: what each event of theirs leaves in the core, and what it counts. -/

namespace Sys2Proof

/-- Of two values stored under one key the later stands. -/
theorem SMap.put_put {α : Type} [DecidableEq α] (d v w : α) (k : Nat) {m : SMap α} (h : m.Rising) :
    (m.put d k v).put d k w = m.put d k w := by
  induction m with
  | nil => by_cases hv : v = d <;> simp [SMap.put, hv]
  | cons e t ih =>
    obtain ⟨j, x⟩ := e
    rw [SMap.Rising, List.pairwise_cons] at h
    have after : ∀ (m : SMap α), (∀ e ∈ m, k < e.1) → m.put d k w = if w = d then m else (k, w) :: m
      | [], _ => rfl
      | e :: _, above => if_pos (above e List.mem_cons_self)
    rcases Nat.lt_trichotomy k j with before | rfl | behind
    · by_cases hv : v = d <;> simp [SMap.put, hv, before]
    · by_cases hv : v = d
      · simp [SMap.put, hv, after t h.1]
      · simp [SMap.put, hv]
    · simp [SMap.put, Nat.not_lt_of_gt behind, Nat.ne_of_gt behind, ih h.2]

end Sys2Proof

namespace Sys2Proof.Machine

/-! ### A core written twice -/

theorem State.bumpFree_canon {s : State} (r : s.Canon) : ({ s with freeCount := s.freeCount + 1 } : State).Canon :=
  (State.bumpFree_keeps (.refl s)).canon r

theorem State.updCore_setCore {s : State} (r : s.Canon) (c : Nat) (k : Core) (f : Core → Core) :
    (s.setCore c k).updCore c f = s.setCore c (f k) := by
  rw [State.updCore, State.core_setCore_same r]
  exact congrArg (fun m => { s with cores := m }) (SMap.put_put _ _ _ c r.cores.1)

/-! ### Counting in registers of a list -/

/-- The offsets of the registers in which a core's matrix path counts (R216, R233). -/
def mxOffsets (c : Nat) : List Nat := [R.coreMxStep c, R.coreMxTiles c, R.coreMvBytes c, R.coreZskipSlices c]

/-- `t` is `s` but for event counters, the registers at the listed offsets, the marks of saturated counters, and free values used up. -/
structure State.CountsIn (l : List Nat) (s t : State) : Prop where
  frame : t = { s with regs := t.regs, freeCount := t.freeCount, dbg := { s.dbg with sat := t.dbg.sat } }
  reads : ∀ off, isCounter off = false → off ∉ l → t.rd off = s.rd off
  rise : t.RegsRise

section
variable {l : List Nat} {s t u : State}

theorem State.CountsIn.refl (h : s.RegsRise) : s.CountsIn l s := ⟨rfl, fun _ _ _ => rfl, h⟩

theorem State.CountsIn.of_counted (h : s.Counted t ∧ t.RegsRise) : s.CountsIn l t := ⟨h.1.1, fun off e _ => h.1.2 off e, h.2⟩

theorem State.CountsIn.trans (h : s.CountsIn l t) (k : t.CountsIn l u) : s.CountsIn l u := by
  refine ⟨?_, fun off e n => (k.reads off e n).trans (h.reads off e n), k.rise⟩
  have e1 := h.frame
  have e2 := k.frame
  rw [e2, e1]

theorem State.CountsIn.setCore (h : s.CountsIn l t) (c : Nat) (k : Core) : (s.setCore c k).CountsIn l (t.setCore c k) := by
  refine ⟨?_, h.reads, h.rise⟩
  rw [h.frame]
  rfl

theorem State.bumpFree_countsIn (h : s.RegsRise) : s.CountsIn l { s with freeCount := s.freeCount + 1 } :=
  .of_counted ⟨s.bumpFree_counted, h⟩

theorem State.wr_countsIn (h : s.RegsRise) {off : Nat} (m : off ∈ l) (v : Word) : s.CountsIn l (s.wr off v) :=
  ⟨rfl, fun _ _ n => State.rd_wr_ne h v (ne_of_mem_of_not_mem m n).symm, State.wr_rise h off v⟩

theorem State.count_countsIn (h : s.RegsRise) {off : Nat} (m : off ∈ l) (w n : Nat) : s.CountsIn l (s.count off w n) := by
  unfold State.count
  dsimp only
  split
  · exact State.wr_countsIn h m _
  · have free := State.bumpFree_countsIn (l := l) h
    exact free.trans (State.wr_countsIn free.rise m _)

theorem State.hit_countsIn (h : s.RegsRise) {c : Nat} (k : c < 192) (code n : Nat) : s.CountsIn l (s.hit c code n) :=
  .of_counted (State.hit_counts h (by omega) code n)

/-- The steps and skipped slices of a tile count in their two registers. -/
theorem State.stepsTaken_countsIn (h : s.RegsRise) {c : Nat} (k : c < 192) (step : R.coreMxStep c ∈ l) (skip : R.coreZskipSlices c ∈ l)
    (t : Tile) (n steps : Nat) : s.CountsIn l (s.stepsTaken c t n steps) := by
  have h1 := State.count_countsIn h step 64 (steps - t.ran)
  have h2 := h1.trans (.of_counted (State.countSat_counted (.refl _) h1.rise (set := c) (n := steps - t.ran)
    (isCounter_fix (set := c) (i := 2) (by omega) (by omega))))
  have h3 := h2.trans (State.count_countsIn h2.rise skip 64 (t.product.skips n))
  exact h3.trans (State.hit_countsIn h3.rise k 0x26 (t.product.skips n))

theorem State.tileCounted_countsIn (h : s.RegsRise) {c : Nat} (k : c < 192) (t : Tile) (n steps : Nat) :
    s.CountsIn (mxOffsets c) ((s.stepsTaken c t n steps).count (R.coreMxTiles c) 64 1) := by
  have h1 := State.stepsTaken_countsIn (l := mxOffsets c) h k (by simp [mxOffsets]) (by simp [mxOffsets]) t n steps
  exact h1.trans (State.count_countsIn h1.rise (by simp [mxOffsets]) 64 1)

theorem State.mvCounted_countsIn (h : s.RegsRise) {c : Nat} (k : c < 192) (bytes skips : Nat) :
    s.CountsIn (mxOffsets c) (((s.count (R.coreMvBytes c) 64 bytes).count (R.coreZskipSlices c) 64 skips).hit c 0x26 skips) := by
  have h1 := State.count_countsIn h (l := mxOffsets c) (off := R.coreMvBytes c) (by simp [mxOffsets]) 64 bytes
  have h2 := h1.trans (State.count_countsIn h1.rise (off := R.coreZskipSlices c) (by simp [mxOffsets]) 64 skips)
  exact h2.trans (State.hit_countsIn h2.rise k 0x26 skips)

/-- The draws of a drain with RS count in event counters alone. -/
theorem State.drawn_countsIn (h : s.RegsRise) {c : Nat} (k : c < 192) (d : Drain) (n : Nat) :
    s.CountsIn l (if d.rnd = 2 then s.hit c 0x28 n else s) := by
  split
  · exact State.hit_countsIn h k 0x28 n
  · exact .refl h

/-- A register that has room for the count reads as what it held and the count. -/
theorem State.rd_count_same (h : s.RegsRise) {off n : Nat} (room : (s.rd off).toNat + n < 2 ^ 64) :
    (s.count off 64 n).rd off = s.rd off + BitVec.ofNat 64 n := by
  rw [State.count, if_pos room, State.rd_wr_same h, BitVec.ofNat_add, BitVec.ofNat_toNat, BitVec.setWidth_eq]

theorem coreMxTiles_not_isCounter (c : Nat) : isCounter (R.coreMxTiles c) = false := by
  have above : ¬R.coreMxTiles c < 0x90000 + 0x100 * 214 := by
    unfold R.coreMxTiles
    omega
  rw [isCounter, decide_eq_false above, Bool.and_false]

/-- A tile that completes counts once, past what its steps count (R216). -/
theorem State.tileCounted_rd (h : s.RegsRise) {c : Nat} (k : c < 192) (t : Tile) (n steps : Nat)
    (room : (s.rd (R.coreMxTiles c)).toNat + 1 < 2 ^ 64) :
    ((s.stepsTaken c t n steps).count (R.coreMxTiles c) 64 1).rd (R.coreMxTiles c) = s.rd (R.coreMxTiles c) + 1#64 := by
  have counts := State.stepsTaken_countsIn (l := [R.coreMxStep c, R.coreZskipSlices c]) h k (by simp) (by simp) t n steps
  have same := counts.reads (R.coreMxTiles c) (coreMxTiles_not_isCounter c) (by simp [R.coreMxTiles, R.coreMxStep, R.coreZskipSlices])
  rw [State.rd_count_same counts.rise (by rwa [same]), same]

end

/-! ### A core after work that has completed or stopped -/

/-- A core whose oldest tile in flight has completed (R188, R200). -/
def Core.tileDone (k : Core) (t : Tile) (rest : List Tile) (free : Nat) : Core :=
  { k with mx := { k.mx with flight := rest, acc := t.result k.mx.acc t.product.units free, accPoison := t.marks k.mx.accPoison } }

/-- A core one of whose tiles in flight has stopped: its fault is kept, and its slot holds the units before the one that fails (R209). -/
def Core.tileFaulted (k : Core) (t : Tile) (code free : Nat) : Core :=
  let m := Matrix.fault { k.mx with flight := k.mx.flight.erase t } t.slot t.group t.block code
  { k with mx := { m with acc := t.result k.mx.acc t.product.badUnit free, accPoison := t.marks m.accPoison } }

/-- A core whose oldest matrix-vector operation has left its queue, with its fault kept (R209). -/
def Core.pathFaulted (k : Core) (o : MvOp) (rest : List MvOp) (code : Nat) : Core :=
  { k with mx := Matrix.fault { k.mx with mv := rest } 8 o.group o.block code }

/-- A core in which a started matrix-vector operation has left some of its lines (R211). -/
def Core.pathStopped (k : Core) (o : MvOp) (free : Nat) : Core :=
  let b := o.output k (free / 2 ^ 96)
  k.scratchLines o.out b (free % 2 ^ 32 % (b.length / 128 + 1))

/-! ### What an event of the matrix path leaves -/

/-- A command of a core's matrix path leaves the core as `k`, and only counts beside it. -/
def MxLeaves (i : Instr) (s : State) (c : Nat) (k : Core) : Prop := ∃ u, exec i s = .next u ∧ (s.setCore c k).CountsIn (mxOffsets c) u

theorem MxLeaves.becomes {i : Instr} {s : State} {c : Nat} {k : Core} (r : s.Canon) (h : MxLeaves i s c k) :
    ∃ u, exec i s = .next u ∧ u.core c = k ∧ (∀ d : Nat, d ≠ c → u.core d = s.core d) ∧
      u = { s with cores := u.cores, regs := u.regs, freeCount := u.freeCount, dbg := { s.dbg with sat := u.dbg.sat } } ∧
      ∀ off, isCounter off = false → off ∉ [R.coreMxStep c, R.coreMxTiles c, R.coreMvBytes c, R.coreZskipSlices c] →
        u.rd off = s.rd off := by
  obtain ⟨u, ends, counts⟩ := h
  have cores : u.cores = (s.setCore c k).cores := by rw [counts.frame]
  have core (d : Nat) : u.core d = (s.setCore c k).core d := congrArg (SMap.get Core.empty · d) cores
  refine ⟨u, ends, (core c).trans (State.core_setCore_same r c k), fun d ne => (core d).trans (State.core_setCore_ne r k ne), ?_, counts.reads⟩
  rw [cores]
  exact counts.frame

section
variable {i : Instr} {s : State} {c : Nat} {k : Core} (r : s.Canon)
include r

theorem mxLeaves_of_setCore (e : exec i s = .next (s.setCore c k)) : MxLeaves i s c k := ⟨_, e, .refl r.rise⟩

/-- A matrix-vector operation that stops right after its core was written (R211). -/
theorem State.pathStops_setCore (c : Nat) (k : Core) (o : MvOp) :
    (s.setCore c k).pathStops c o =
      (({ s with freeCount := s.freeCount + 1 } : State).setCore c (k.pathStopped o (Config.free s.freeCount))).count (R.coreMvBytes c) 64
        (Config.free s.freeCount / 2 ^ 32 % 2 ^ 64 % (o.weightBytes + 1)) := by
  have canon := State.bumpFree_canon r
  have reads : ({ s.setCore c k with freeCount := s.freeCount + 1 } : State).core c = k := State.core_setCore_same canon c k
  have twice (f : Core → Core) : ({ s.setCore c k with freeCount := s.freeCount + 1 } : State).updCore c f =
      ({ s with freeCount := s.freeCount + 1 } : State).setCore c (f k) := State.updCore_setCore canon c k f
  simp only [State.pathStops, State.withFree, State.setCore_freeCount, reads, twice, Core.pathStopped]

/-- A command that takes a free value, writes the core and then counts. -/
theorem mxLeaves_of_counts {u : State} (e : exec i s = .next u)
    (h : (({ s with freeCount := s.freeCount + 1 } : State).setCore c k).RegsRise →
      (({ s with freeCount := s.freeCount + 1 } : State).setCore c k).CountsIn (mxOffsets c) u) : MxLeaves i s c k :=
  ⟨u, e, ((State.bumpFree_countsIn r.rise).setCore c k).trans (h r.rise)⟩

end

section
variable {s : State} {c : Fin 192} (r : s.Canon)

/-! ### Tiles -/

section
variable {t : Tile} {rest : List Tile} (flight : (s.core c).mx.flight = t :: rest) (read : (s.core c).mx.drainsFirst t = false)
  (fine : t.fails = none)
include flight read fine

theorem exec_tileComplete :
    exec (.tileComplete c) s = .next (((({ s with freeCount := s.freeCount + 1 } : State).setCore c
      ((s.core c).tileDone t rest (Config.free s.freeCount))).stepsTaken c t t.product.units t.cycles).count (R.coreMxTiles c) 64 1) := by
  show execTileComplete c s = _
  simp only [execTileComplete, State.withFree, flight, read, fine, Option.isSome_none, Bool.or_self, Bool.false_eq_true, if_false]
  rfl

include r

theorem tileComplete_leaves : MxLeaves (.tileComplete c) s c ((s.core c).tileDone t rest (Config.free s.freeCount)) :=
  mxLeaves_of_counts r (exec_tileComplete flight read fine) fun rise => State.tileCounted_countsIn rise c.isLt t _ _

theorem tileComplete_counts (room : (s.rd (R.coreMxTiles c)).toNat + 1 < 2 ^ 64) :
    ∃ u, exec (.tileComplete c) s = .next u ∧ u.rd (R.coreMxTiles c) = s.rd (R.coreMxTiles c) + 1#64 := by
  refine ⟨_, exec_tileComplete flight read fine, ?_⟩
  rw [State.tileCounted_rd (by exact r.rise) c.isLt t _ _ (by exact room)]
  rfl

end

include r

theorem tileStart_leaves {t : Tile} {rest : List Tile} (queue : (s.core c).mx.queue = t :: rest) (room : (s.core c).mx.flight.length < 4)
    (fine : t.early = none) :
    MxLeaves (.tileStart c) s c { s.core c with mx := { (s.core c).mx with queue := rest, flight := (s.core c).mx.flight ++ [t] } } := by
  refine mxLeaves_of_setCore r ?_
  show execTileStart c s = _
  simp only [execTileStart, queue, fine, Nat.not_le.2 room, Option.isSome_none, decide_false, Bool.or_self, Bool.false_eq_true, if_false]

/-! ### Drains -/

theorem drainStart_leaves {i : Nat} {d : Drain} (oldest : findPos (fun d => d.reading.isNone && d.fault.isNone) (s.core c).mx.drains = some i)
    (at_ : (s.core c).mx.drains[i]? = some d) (after : (s.core c).mx.tilesFirst d = false) :
    let k := s.core c
    let read := d.cells.takeWhile (fun a => !SMap.get false k.mx.accPoison a)
    let vals := read.map (fun a => (SMap.get 0 k.mx.acc a).toNat)
    let zeroed := if d.keep then k.mx.acc else read.foldl (fun a n => SMap.put 0 a n 0) k.mx.acc
    (read.length = d.cells.length → MxLeaves (.drainStart c .none) s c { k with mx := { k.mx with
      drains := k.mx.drains.set i { d with reading := some vals }, acc := zeroed } }) ∧
    (read.length < d.cells.length → MxLeaves (.drainStart c .none) s c (d.stopped { k with mx := { k.mx with
      drains := k.mx.drains.set i { d with fault := some 0x06 }, acc := zeroed } } vals (Config.free s.freeCount / 2 ^ 32))) := by
  intro k read vals zeroed
  refine ⟨fun whole => mxLeaves_of_counts r ?_ .refl, fun short => mxLeaves_of_counts r ?_ .refl⟩
  · have whole : ¬read.length < d.cells.length := Nat.not_lt.2 (Nat.le_of_eq whole.symm)
    dsimp only [read, k] at whole
    show execDrainStart c .none s = _
    simp only [execDrainStart, State.withFree, State.detect, oldest, at_, after, whole, reduceCtorEq, decide_false, Bool.false_eq_true, if_true,
      if_false]
    rfl
  · dsimp only [read, k] at short
    show execDrainStart c .none s = _
    simp only [execDrainStart, State.withFree, State.detect, oldest, at_, after, short, reduceCtorEq, decide_true, Bool.false_eq_true, if_true,
      if_false]
    rfl

section
variable {d : Drain} {rest : List Drain} {vals : List Nat} (oldest : (s.core c).mx.drains = d :: rest) (read : d.reading = some vals)
include oldest read

theorem drainComplete_toScratch (target : d.target = 0) :
    let q := (d.codes (s.core c) vals).2
    MxLeaves (.drainComplete c) s c
      (({ q with mx := { q.mx with drains := rest } } : Core).scratchWrite (d.base + d.addr)
        (packBits (elemBits d.ofmt) (d.codes (s.core c) vals).1)) := by
  intro q
  refine ⟨_, ?_, (State.drawn_countsIn r.rise c.isLt d vals.length).setCore ..⟩
  show execDrainComplete c s = _
  simp only [execDrainComplete, oldest, read, target, if_true]
  rfl

theorem drainComplete_toRegs (target : d.target ≠ 0) {g : Group} (hg : (s.core c).group d.group = some g) :
    let q := (d.codes (s.core c) vals).2
    MxLeaves (.drainComplete c) s c
      (((({ q with mx := { q.mx with drains := rest } } : Core).setGroup d.group
        (some (d.toRegs g (d.codes (s.core c) vals).1))).drainOver d)) := by
  intro q
  have hg : ({ q with mx := { q.mx with drains := rest } } : Core).group d.group = some g := hg
  refine ⟨_, ?_, (State.drawn_countsIn r.rise c.isLt d vals.length).setCore ..⟩
  show execDrainComplete c s = _
  simp only [execDrainComplete, oldest, read, target, if_false, q, hg]

end

/-! ### The matrix-vector path -/

section
variable {o : MvOp} {rest : List MvOp} (oldest : (s.core c).mx.mv = o :: rest)
include oldest

theorem mvStart_leaves (fine : o.fails (s.core c) = none) (idle : o.started = false) :
    MxLeaves (.mvStart c) s c { s.core c with mx := { (s.core c).mx with mv := { o with started := true } :: rest } } := by
  refine mxLeaves_of_setCore r ?_
  show execMvStart c s = _
  simp only [execMvStart, oldest, fine, idle, Option.isSome_none, Bool.or_self, Bool.false_eq_true, if_false]

theorem mvComplete_leaves (fine : o.fails (s.core c) = none) (runs : o.started = true) :
    MxLeaves (.mvComplete c) s c (({ s.core c with mx := { (s.core c).mx with mv := rest } } : Core).scratchWrite o.out
      (o.output (s.core c) (Config.free s.freeCount))) := by
  refine mxLeaves_of_counts r ?_ fun rise => State.mvCounted_countsIn rise c.isLt o.weightBytes o.skips
  show execMvComplete c s = _
  simp only [execMvComplete, State.withFree, oldest, fine, runs, Option.isSome_none, Bool.not_true, Bool.or_self, Bool.false_eq_true, if_false]

end

/-! ### Faults -/

theorem flightFault_leaves {t : Tile} {code : Nat} (found : (s.core c).mx.flight.find? (fun t => t.fails.isSome) = some t)
    (fails : t.fails = some code) : MxLeaves (.matrixFault c .array) s c ((s.core c).tileFaulted t code (Config.free s.freeCount)) := by
  refine mxLeaves_of_counts r ?_ fun rise => State.stepsTaken_countsIn rise c.isLt (by simp [mxOffsets]) (by simp [mxOffsets]) t
    t.product.badUnit (t.product.cyclesTo t.cls t.product.badUnit)
  show execMatrixFault c .array s = _
  simp only [execMatrixFault, State.withFree, State.tileStops, found, fails, Option.getD_some, State.updCore_setCore (State.bumpFree_canon r)]
  rfl

theorem queueFault_leaves {t : Tile} {code : Nat} (running : (s.core c).mx.flight.find? (fun t => t.fails.isSome) = none)
    (found : (s.core c).mx.queue.find? (fun t => t.early.isSome) = some t) (fails : t.early = some code) :
    MxLeaves (.matrixFault c .array) s c { s.core c with
      mx := Matrix.fault { (s.core c).mx with queue := (s.core c).mx.queue.erase t } t.slot t.group t.block code } := by
  refine mxLeaves_of_setCore r ?_
  show execMatrixFault c .array s = _
  simp only [execMatrixFault, running, found, fails, Option.getD_some]

theorem drainFault_leaves {d : Drain} {code : Nat} (found : (s.core c).mx.drains.find? (fun d => d.fault.isSome) = some d)
    (fails : d.fault = some code) :
    MxLeaves (.matrixFault c .drain) s c (Core.drainOver { s.core c with
      mx := Matrix.fault { (s.core c).mx with drains := (s.core c).mx.drains.erase d } d.slot d.group d.block code } d) := by
  refine mxLeaves_of_setCore r ?_
  show execMatrixFault c .drain s = _
  simp only [execMatrixFault, found, fails, Option.getD_some]

section
variable {o : MvOp} {rest : List MvOp} {code : Nat} (oldest : (s.core c).mx.mv = o :: rest) (fails : o.fails (s.core c) = some code)
include oldest fails

theorem pathFault_leaves (idle : o.started = false) : MxLeaves (.matrixFault c .path) s c ((s.core c).pathFaulted o rest code) := by
  refine mxLeaves_of_setCore r ?_
  show execMatrixFault c .path s = _
  simp only [execMatrixFault, oldest, fails, idle, Bool.false_eq_true, if_false]
  rfl

theorem pathStop_leaves (runs : o.started = true) :
    MxLeaves (.matrixFault c .path) s c (((s.core c).pathFaulted o rest code).pathStopped o (Config.free s.freeCount)) := by
  refine mxLeaves_of_counts r ?_ fun rise => State.count_countsIn rise (off := R.coreMvBytes c) (by simp [mxOffsets]) 64
    (Config.free s.freeCount / 2 ^ 32 % 2 ^ 64 % (o.weightBytes + 1))
  show execMatrixFault c .path s = _
  simp only [execMatrixFault, oldest, fails, runs, if_true]
  exact congrArg _ (State.pathStops_setCore r c _ o)

end

end

/-! ### The obligation -/

/-- Settles O24, event by event: what each leaves in the core, and that beside it only counters and free values change. -/
theorem matrixEngine : Obligations.MatrixEngine := by
  unfold Obligations.MatrixEngine
  intro s c canon k r becomes
  refine ⟨fun t rest queue room fine => (tileStart_leaves canon queue room fine).becomes canon, fun t rest flight read fine =>
    ⟨(tileComplete_leaves canon flight read fine).becomes canon, tileComplete_counts canon flight read fine⟩,
    fun i d oldest at_ after => ?_, fun d rest vals oldest read => ?_, fun o rest oldest fine => ?_,
    fun t code found fails => (flightFault_leaves canon found fails).becomes canon,
    fun t code running found fails => (queueFault_leaves canon running found fails).becomes canon,
    fun d code found fails => (drainFault_leaves canon found fails).becomes canon, fun o rest code oldest fails => ?_⟩
  · obtain ⟨reads, stops⟩ := drainStart_leaves canon oldest at_ after
    exact ⟨fun whole => (reads whole).becomes canon, fun short => (stops short).becomes canon⟩
  · exact ⟨fun target => (drainComplete_toScratch canon oldest read target).becomes canon,
      fun g target hg => (drainComplete_toRegs canon oldest read target hg).becomes canon⟩
  · exact ⟨fun idle => (mvStart_leaves canon oldest fine idle).becomes canon,
      fun runs => (mvComplete_leaves canon oldest fine runs).becomes canon⟩
  · exact ⟨fun idle => (pathFault_leaves canon oldest fails idle).becomes canon,
      fun runs => (pathStop_leaves canon oldest fails runs).becomes canon⟩

end Sys2Proof.Machine

/-! Tickets: the fields of a record, and how each ticket instruction of an issuing thread ends. -/

namespace Sys2Proof.Machine

/-! ### Fields of a record -/

theorem leNat_lt (b : List Byte) : leNat b < 256 ^ b.length := by
  induction b with
  | nil => decide
  | cons x b ih =>
    have byte : x.toNat < 256 := x.isLt
    rw [leNat, List.length_cons, pow_succ]
    omega

theorem leNat_leBytes (n v : Nat) : leNat (leBytes n v) = v % 256 ^ n := by
  induction n generalizing v with
  | zero => exact (Nat.mod_one v).symm
  | succ n ih => rw [leBytes, leNat, ih, BitVec.toNat_ofNat, pow_succ' 256, Nat.mod_mul]

theorem tktFld_lt (b : List Byte) (off len : Nat) : tktFld b off len < 256 ^ len :=
  (leNat_lt _).trans_le (Nat.pow_le_pow_right (by decide) (List.length_take_le _ _))

section
variable {b : List Byte} {off len : Nat} (v : Nat) (inside : off + len ≤ b.length)
include inside

theorem tktSet_length : (tktSet b off len v).length = b.length := by
  simp only [tktSet, List.length_append, List.length_take, List.length_drop, leBytes_length]
  omega

theorem tktFld_tktSet_same {v : Nat} (fits : v < 256 ^ len) : tktFld (tktSet b off len v) off len = v := by
  have before : (b.take off).length = off := List.length_take_of_le (by omega)
  rw [tktFld, tktSet, List.append_assoc, List.drop_left' before, List.take_left' (leBytes_length len v), leNat_leBytes, Nat.mod_eq_of_lt fits]

theorem tktFld_tktSet_disjoint {off' len' : Nat} (apart : off' + len' ≤ off ∨ off + len ≤ off') :
    tktFld (tktSet b off len v) off' len' = tktFld b off' len' := by
  have before : (b.take off).length = off := List.length_take_of_le (by omega)
  have changed : (b.take off ++ leBytes len v).length = off + len := by rw [List.length_append, before, leBytes_length]
  rw [tktFld, tktFld, tktSet]
  rcases apart with below | above
  · rw [List.append_assoc, List.drop_append_of_le_length (by omega), List.take_append_of_le_length (by rw [List.length_drop]; omega),
      List.drop_take, List.take_take, min_eq_left (by omega)]
  · rw [List.drop_append, List.drop_eq_nil_of_le (by omega), changed, List.drop_drop, Nat.add_sub_cancel' above, List.nil_append]

end

/-- TEXIT sets EXITED, and EXIT_LAYER where it was not set (R260). -/
theorem texitRec_fields {b : List Byte} {v : Nat} (whole : b.length = 64) (fits : v < 2 ^ 32) :
    tktFld (texitRec b v) 0x20 4 = tktFld b 0x20 4 ||| 1 ∧
      tktFld (texitRec b v) 4 4 = if tktFld b 4 4 = 0xFFFFFFFF then v else tktFld b 4 4 := by
  have flags : tktFld b 0x20 4 ||| 1 < 256 ^ 4 := Nat.or_lt_two_pow (n := 32) (tktFld_lt b 0x20 4) (by decide)
  have marked : (tktSet b 0x20 4 (tktFld b 0x20 4 ||| 1)).length = 64 := (tktSet_length _ (by omega)).trans whole
  have layer : tktFld (tktSet b 0x20 4 (tktFld b 0x20 4 ||| 1)) 4 4 = tktFld b 4 4 := tktFld_tktSet_disjoint _ (by omega) (by decide)
  have exited := tktFld_tktSet_same (b := b) (off := 0x20) (by omega) flags
  rw [texitRec]
  simp only [layer]
  split
  · exact ⟨(tktFld_tktSet_disjoint _ (by omega) (by decide)).trans exited, tktFld_tktSet_same (by omega) fits⟩
  · exact ⟨exited, layer⟩

/-- TADVANCE moves POSITION on, clears EXITED and unsets EXIT_LAYER (R260). -/
theorem tadvanceRec_fields {b : List Byte} (whole : b.length = 64) (v : Nat) :
    tktFld (tadvanceRec b v) 8 8 = (tktFld b 8 8 + v) % 2 ^ 64 ∧ tktFld (tadvanceRec b v) 0x20 4 = tktFld b 0x20 4 / 2 * 2 ∧
      tktFld (tadvanceRec b v) 4 4 = 0xFFFFFFFF := by
  have moved : (tktSet b 8 8 ((tktFld b 8 8 + v) % 2 ^ 64)).length = 64 := (tktSet_length _ (by omega)).trans whole
  have flags : tktFld (tktSet b 8 8 ((tktFld b 8 8 + v) % 2 ^ 64)) 0x20 4 = tktFld b 0x20 4 :=
    tktFld_tktSet_disjoint _ (by omega) (by decide)
  rw [tadvanceRec]
  simp only [flags]
  have cleared : (tktSet (tktSet b 8 8 ((tktFld b 8 8 + v) % 2 ^ 64)) 0x20 4 (tktFld b 0x20 4 / 2 * 2)).length = 64 :=
    (tktSet_length _ (by omega)).trans moved
  refine ⟨?_, ?_, tktFld_tktSet_same (by omega) (by decide)⟩
  · rw [tktFld_tktSet_disjoint _ (by omega) (by decide), tktFld_tktSet_disjoint _ (by omega) (by decide)]
    exact tktFld_tktSet_same (by omega) (Nat.mod_lt _ (by decide))
  · rw [tktFld_tktSet_disjoint _ (by omega) (by decide)]
    exact tktFld_tktSet_same (by omega) ((Nat.div_mul_le_self _ 2).trans_lt (tktFld_lt b 0x20 4))

/-! ### How an issued instruction of dispatch code ends -/

@[simp] theorem Thread.w_pc (th : Thread) (n v : Nat) : (th.w n v).pc = th.pc := by
  unfold Thread.w
  split <;> rfl

theorem Thread.next_of_pc {y th : Thread} (same : y.pc = th.pc) : y.next = { y with pc := th.pc + 1, hold := .none } := by
  rw [← same]
  rfl

/-- A thread that issues a word of a row does what the row says, and has its instruction counted (R389). -/
theorem State.dissue_issues {s r : State} {t op : Nat} {th : Thread} {w : DWord} (h : s.DIssues t th w r) (row : w.op = op)
    (act : Thread → DWord → State → State) : s.dissue t op act = (act th w r).dcount t w.op := by
  obtain ⟨⟨x, b, bad, u, thread, free, inside, read, clean, word, left, found⟩, turn, legal⟩ := h
  subst row word left found clean
  have waits : (decide (x.hold = .none) || decide (x.hold = .retry)) = true := by simpa using free
  simp only [State.dissue, thread, waits, turn, Nat.not_le.2 inside, read, legal, decide_true, Bool.not_true, Bool.or_self, Bool.false_eq_true,
    if_false, ne_eq, not_true_eq_false]

section
variable {s r : State} {t : Nat} {th : Thread} {w : DWord} {host : HostData} {i : Instr} {op : Nat} {act : Thread → DWord → State → State}

theorem exec_issued (e : exec i s = .next (s.dissue t op act)) (issue : s.DIssues t th w r) (row : w.op = op) :
    exec i s = .next ((act th w r).dcount t w.op) := by
  rw [e, State.dissue_issues issue row]

theorem exec_issued_host (e : exec i s = .next (s.withHost host fun s => s.dissue t op act)) (issue : (s.hostIn host).DIssues t th w r)
    (row : w.op = op) : exec i s = .next ((act th w r).dcount t w.op).hostOut := by
  rw [e, State.withHost, State.dissue_issues issue row]

end

/-! ### One ticket: TALLOC, TFREE, TSET, TGET -/

section
variable {s r u : State} {t : Fin 128} {th : Thread} {w : DWord} (issue : s.DIssues t th w r)
include issue

theorem exec_dispTalloc_none (row : w.op = 0x40) (full : r.tktFree 0 0x100000 = none) :
    exec (.dispTalloc t) s = .next ((r.setThread t (some (th.w w.d 0xFFFFFFFF).next)).dcount t w.op) := by
  rw [exec_issued (i := .dispTalloc t) rfl issue row]
  simp only [full]

/-- TALLOC with a FREE ticket: its record is the context's, cleared, in the cache and the side table, and counted (R260, R263, R267). -/
theorem exec_dispTalloc_some {n : Nat} (row : w.op = 0x40) (free : r.tktFree 0 0x100000 = some n) :
    exec (.dispTalloc t) s =
      let b := leBytes 2 th.ctx ++ leBytes 1 1 ++ leBytes 1 0 ++ leBytes 4 0xFFFFFFFF ++ leBytes 56 0
      let u := ((r.tktWrite n b true).sideWrite n b).count R.tktAllocs 64 1
      .next (((u.wr R.tktActive (BitVec.ofNat 64 ((u.rd R.tktActive).toNat + 1))).setThread t (some (th.w w.d n).next)).dcount t w.op) := by
  rw [exec_issued (i := .dispTalloc t) rfl issue row]
  simp only [free]

theorem exec_dispTfree_beyond (row : w.op = 0x41) (beyond : 0x100000 ≤ th.r w.a) :
    exec (.dispTfree t) s = .next ((r.setThread t (some (th.w w.d 1).next)).dcount t w.op) := by
  rw [exec_issued (i := .dispTfree t) rfl issue row]
  simp only [beyond, if_true]

section
variable {b : List Byte} {bad : Bool} (row : w.op = 0x41) (inside : th.r w.a < 0x100000) (read : r.tktRead (th.r w.a) = (b, bad, u))
include row inside read

theorem exec_dispTfree_own (own : (if bad then u.sideOwned (th.r w.a) th.ctx else tktOwned b th.ctx) = true) :
    exec (.dispTfree t) s = .next (((u.tktRelease (th.r w.a)).setThread t (some (th.w w.d 0).next)).dcount t w.op) := by
  rw [exec_issued (i := .dispTfree t) rfl issue row]
  simp only [Nat.not_le.2 inside, read, own, if_false, if_true]

theorem exec_dispTfree_foreign (foreign_ : (if bad then u.sideOwned (th.r w.a) th.ctx else tktOwned b th.ctx) = false) :
    exec (.dispTfree t) s = .next ((u.setThread t (some (th.w w.d 1).next)).dcount t w.op) := by
  rw [exec_issued (i := .dispTfree t) rfl issue row]
  simp only [Nat.not_le.2 inside, read, foreign_, Bool.false_eq_true, if_false]

end

section
variable (row : w.op = 0x42)
include row

theorem exec_dispTset_poisoned (mine : r.tktMine th.ctx (th.r w.a) = (.inr (), u)) :
    exec (.dispTset t) s = .next ((u.endProgram t 0x0A 0).dcount t w.op) := by
  rw [exec_issued (i := .dispTset t) rfl issue row]
  simp only [mine]

theorem exec_dispTset_skipped (mine : r.tktMine th.ctx (th.r w.a) = (.inl none, u)) :
    exec (.dispTset t) s = .next ((u.setThread t (some (th.w w.d 1).next)).dcount t w.op) := by
  rw [exec_issued (i := .dispTset t) rfl issue row]
  simp only [mine]

theorem exec_dispTset_own {b : List Byte} (mine : r.tktMine th.ctx (th.r w.a) = (.inl (some b), u)) :
    exec (.dispTset t) s =
      .next (((u.tktWrite (th.r w.a) (tktSet b (tktField w.m).1 (tktField w.m).2 (tktClip w.m (th.r w.b))) false).setThread t
        (some (th.w w.d 0).next)).dcount t w.op) := by
  rw [exec_issued (i := .dispTset t) rfl issue row]
  simp only [mine]

end

/-- The state in which TGET reads its ticket: an error found in a record that exists has taken effect (R556, R561). -/
def State.tktFound (r : State) (k : Nat) (upset : Upset) : State :=
  if upset = .none ∨ 0x100000 ≤ k then r else ((r.tktRead k).2.2).tktUpset k upset

section
variable {upset : Upset} (row : w.op = 0x43)
include row

theorem exec_dispTget_poisoned (mine : (r.tktFound (th.r w.a) upset).tktMine th.ctx (th.r w.a) = (.inr (), u)) :
    exec (.dispTget t upset) s = .next ((u.endProgram t 0x0A 0).dcount t w.op) := by
  rw [State.tktFound] at mine
  rw [exec_issued (i := .dispTget t upset) rfl issue row]
  simp only [Bool.or_eq_true, decide_eq_true_eq, mine]

theorem exec_dispTget_skipped (mine : (r.tktFound (th.r w.a) upset).tktMine th.ctx (th.r w.a) = (.inl none, u)) :
    exec (.dispTget t upset) s = .next ((u.setThread t (some ((th.w w.d 0).w w.b 1).next)).dcount t w.op) := by
  rw [State.tktFound] at mine
  rw [exec_issued (i := .dispTget t upset) rfl issue row]
  simp only [Bool.or_eq_true, decide_eq_true_eq, mine]

theorem exec_dispTget_own {b : List Byte} (mine : (r.tktFound (th.r w.a) upset).tktMine th.ctx (th.r w.a) = (.inl (some b), u)) :
    exec (.dispTget t upset) s =
      .next ((u.setThread t (some ((th.w w.d (tktFld b (tktField w.m).1 (tktField w.m).2)).w w.b 0).next)).dcount t w.op) := by
  rw [State.tktFound] at mine
  rw [exec_issued (i := .dispTget t upset) rfl issue row]
  simp only [Bool.or_eq_true, decide_eq_true_eq, mine]

end

end

/-! ### Lists of tickets: TBATCH, TEXIT, TADVANCE -/

section
variable {s r u v x : State} {t : Fin 128} {th : Thread} {w : DWord} {host : HostData} (issue : (s.hostIn host).DIssues t th w r)
include issue

section
variable (row : w.op = 0x44)
include row

theorem exec_dispTbatch_unread {f : VmFault} (read : r.vaRead (hubUser th.view) (th.r w.a) (4 * th.r w.b) = (.inr f, u)) :
    exec (.dispTbatch t host) s = .next ((u.programFault t f).dcount t w.op).hostOut := by
  rw [exec_issued_host (i := .dispTbatch t host) rfl issue row]
  simp only [read]

variable {b : List Byte} (read : r.vaRead (hubUser th.view) (th.r w.a) (4 * th.r w.b) = (.inl b, u))
include read

theorem exec_dispTbatch_poisoned
    (got : u.batchOf th.ctx w.m ((List.range (th.r w.b)).map (fun i => leNat ((b.drop (4 * i)).take 4))) = (none, v)) :
    exec (.dispTbatch t host) s = .next ((v.endProgram t 0x0A 0).dcount t w.op).hostOut := by
  rw [exec_issued_host (i := .dispTbatch t host) rfl issue row]
  simp only [read, got]

variable {l : List (Nat × Nat)}
  (got : u.batchOf th.ctx w.m ((List.range (th.r w.b)).map (fun i => leNat ((b.drop (4 * i)).take 4))) = (some l, v))
include got

theorem exec_dispTbatch_unwritten {f : VmFault} (put : v.vaWrite (hubUser th.view) (th.r w.a + 4 * th.r w.b)
      (((l.take w.imm).map Prod.snd).flatMap (leBytes 4)) = (some f, x)) :
    exec (.dispTbatch t host) s = .next ((x.programFault t f).dcount t w.op).hostOut := by
  rw [exec_issued_host (i := .dispTbatch t host) rfl issue row]
  simp only [read, got, put]

theorem exec_dispTbatch_written (put : v.vaWrite (hubUser th.view) (th.r w.a + 4 * th.r w.b)
      (((l.take w.imm).map Prod.snd).flatMap (leBytes 4)) = (none, x)) :
    exec (.dispTbatch t host) s =
      let out := (l.take w.imm).map Prod.snd
      .next (((x.setSteps (th.r w.d) out).setThread t (some (th.w w.d out.length).next)).dcount t w.op).hostOut := by
  rw [exec_issued_host (i := .dispTbatch t host) rfl issue row]
  simp only [read, got, put]

end

section
variable {i : Instr} {op : Nat} {f : List Byte → Nat → List Byte}
  (e : exec i s = .next (s.withHost host fun s => s.ticketList t op f)) (row : w.op = op)
include e row

theorem exec_ticketList_unread {g : VmFault} (read : r.vaRead (hubUser th.view) (th.r w.a) (8 * th.r w.b) = (.inr g, u)) :
    exec i s = .next ((u.programFault t g).dcount t w.op).hostOut := by
  rw [exec_issued_host e issue row]
  simp only [read]

variable {b : List Byte} (read : r.vaRead (hubUser th.view) (th.r w.a) (8 * th.r w.b) = (.inl b, u))
include read

theorem exec_ticketList_poisoned (got : ((List.range (th.r w.b)).map (fun i => leNat ((b.drop (8 * i)).take 8))).foldl
      (State.listEntry f th.ctx) (some 0, u) = (none, v)) :
    exec i s = .next ((v.endProgram t 0x0A 0).dcount t w.op).hostOut := by
  rw [exec_issued_host e issue row]
  simp only [read, got]

theorem exec_ticketList_counts {skipped : Nat} (got : ((List.range (th.r w.b)).map (fun i => leNat ((b.drop (8 * i)).take 8))).foldl
      (State.listEntry f th.ctx) (some 0, u) = (some skipped, v)) :
    exec i s = .next ((v.setThread t (some (th.w w.d skipped).next)).dcount t w.op).hostOut := by
  rw [exec_issued_host e issue row]
  simp only [read, got]

end

end

/-! ### The obligation -/

/-- Settles O41, instruction by instruction, then by the fields that TEXIT and TADVANCE leave in a record. -/
theorem ticketInstructions : Obligations.TicketInstructions := by
  unfold Obligations.TicketInstructions
  refine ⟨fun s r t th w issue => ?_, fun s r t th w host issue => ?_, fun b v whole fits =>
    ⟨texitRec_fields whole fits, tadvanceRec_fields whole v⟩⟩
  · intro k goes
    have ends (u : State) {y : Thread} (same : y.pc = th.pc) : goes u y = .next ((u.setThread t (some y.next)).dcount t w.op) := by
      rw [Thread.next_of_pc same]
    have one (v : Nat) : (th.w w.d v).pc = th.pc := Thread.w_pc ..
    have two (v x : Nat) : ((th.w w.d v).w w.b x).pc = th.pc := (Thread.w_pc ..).trans (one v)
    refine ⟨fun row full => ?_, fun n row free => ?_, fun row beyond => ?_, fun b bad u row inside read => ⟨fun own => ?_, fun foreign_ => ?_⟩,
      fun u mine row => exec_dispTset_poisoned issue row mine, fun u mine row => ?_, fun b u mine row => ?_, fun upset row =>
      ⟨fun u mine => exec_dispTget_poisoned issue row mine, fun u mine => ?_, fun b u mine => ?_⟩⟩
    · exact (exec_dispTalloc_none issue row full).trans (ends _ (one _)).symm
    · exact (exec_dispTalloc_some issue row free).trans (ends _ (one _)).symm
    · exact (exec_dispTfree_beyond issue row beyond).trans (ends _ (one _)).symm
    · exact (exec_dispTfree_own issue row inside read own).trans (ends _ (one _)).symm
    · exact (exec_dispTfree_foreign issue row inside read foreign_).trans (ends _ (one _)).symm
    · exact (exec_dispTset_skipped issue row mine).trans (ends _ (one _)).symm
    · exact (exec_dispTset_own issue row mine).trans (ends _ (one _)).symm
    · exact (exec_dispTget_skipped issue row mine).trans (ends _ (two _ _)).symm
    · exact (exec_dispTget_own issue row mine).trans (ends _ (two _ _)).symm
  · intro n at4 at8 ends goes
    refine ⟨fun row => ⟨fun f u read => exec_dispTbatch_unread issue row read, fun b u read =>
      ⟨fun v got => exec_dispTbatch_poisoned issue row read got, fun l v got =>
      ⟨fun f x put => exec_dispTbatch_unwritten issue row read got put, fun x put => exec_dispTbatch_written issue row read got put⟩⟩⟩,
      fun i op f of row => ?_⟩
    have e : exec i s = .next (s.withHost host fun s => s.ticketList t op f) := by
      simp only [List.mem_cons, List.not_mem_nil, or_false, Prod.mk.injEq] at of
      rcases of with ⟨rfl, rfl, rfl⟩ | ⟨rfl, rfl, rfl⟩ <;> rfl
    exact ⟨fun g u read => exec_ticketList_unread issue e row read, fun b u read =>
      ⟨fun v got => exec_ticketList_poisoned issue e row read got, fun skipped v got => exec_ticketList_counts issue e row read got⟩⟩

end Sys2Proof.Machine

/-! A points unit at work: reading a record, settling a choice; and the close of a step. -/

namespace Sys2Proof.Machine

/-! ### POINTS_RECORD_READ -/

/-- A submission with its next record read, which counts unless it is skipped (R240). -/
def Submission.afterRecord (b : Submission) (skipped : Bool) : Submission :=
  { b with next := b.next + 1, accepted := if skipped then b.accepted else b.accepted + 1 }

/-- A unit after a record of its front submission: one with records left goes to the back, one read whole lets its group go on (R240). -/
def State.recordTaken (s : State) (u : Nat) (x : PtsUnit) (rest : List Submission) (b : Submission) : State :=
  if b.count ≤ b.next then (s.setUnit u { x with subs := rest }).endSubmission b else s.setUnit u { x with subs := rest ++ [b] }

/-- Is what a submission's next record needs poisoned: its side-table word, its 32 bytes, or its scores (R560)? -/
def Submission.poisoned (b : Submission) (p : RouteStep) (k : Core) (badW : Bool) : Bool :=
  badW || k.scratchBad (b.records + 32 * b.next) 32 || k.scratchBad (b.scores + b.next * b.stride) (scoreBytes p.sfmt * p.dests)

/-- Is a record refused: poisoned, or its ticket not one of the submission's context by its side-table word (R240)? -/
def Submission.refuses (b : Submission) (bad : Bool) (word : Nat) : Bool := bad || decide (word % 4096 ≠ b.ctx) || !word.testBit 12

theorem exec_pointsRecordRead {s t : State} {u : Fin 16} {b : Submission} {rest : List Submission} {p : RouteStep} {w : List Byte}
    {badW : Bool} (front : (s.unit u).subs = b :: rest) (room : (s.unit u).queue.length < 512) (step : s.stepOf b.launch = some p)
    (read : s.memRead (s.sideAddr ((s.core b.core).scratch.nat (b.records + 32 * b.next + 0xC) 4 % 2 ^ 20)) 4 3 0 true = (w, badW, t)) :
    exec (.pointsRecordRead u .none) s =
      let bad := b.poisoned p (s.core b.core) badW
      let refused := b.refuses bad (leNat w)
      let exited := (leNat w).testBit 13
      let v := (t.poisonIf bad).recordTaken u (s.unit u) rest (b.afterRecord (refused || exited))
      .next (if refused then v.setStep { p with foreign_ := p.foreign_ + 1 }
        else if exited then v.setStep { p with excluded := p.excluded + 1 }
        else v.acceptRecord u p b (s.core b.core)) := by
  show execPointsRecordRead u .none s = _
  have noLoss : decide (Upset.none = Upset.lost) = false := by decide
  simp only [execPointsRecordRead, front, Nat.not_le.2 room, step, read, State.detect, noLoss, Bool.or_false, if_false]
  by_cases whole : b.count ≤ b.next + 1 <;>
    simp only [State.recordTaken, Submission.afterRecord, whole, decide_true, decide_false, Bool.false_eq_true, if_true, if_false] <;> rfl

/-! ### CHOICE_PLACE -/

section
variable {s t : State} {u : Fin 16} {r : RankedRec} {rest : List RankedRec} {p : RouteStep} {c : Choice} {cs : List Choice}
  (oldest : (s.unit u).queue = r :: rest) (step : s.stepOf r.launch = some p) (next : r.primary = c :: cs)
include oldest step next

theorem exec_choicePlace_placed (tried : s.tryPlace u p r c false = .placed t) :
    exec (.choicePlace u) s = .next (t.afterChoice u r cs rest r.alts) := by
  show execChoicePlace u s = _
  simp only [execChoicePlace, oldest, step, next, tried]

theorem exec_choicePlace_fault (tried : s.tryPlace u p r c false = .fault t) :
    exec (.choicePlace u) s = .next ((t.dropChoice u r c.plat .fault).afterChoice u r cs rest r.alts) := by
  show execChoicePlace u s = _
  simp only [execChoicePlace, oldest, step, next, tried]

theorem exec_choicePlace_wait (tried : s.tryPlace u p r c false = .wait) : exec (.choicePlace u) s = .next s := by
  show execChoicePlace u s = _
  simp only [execChoicePlace, oldest, step, next, tried]

section
variable (tried : s.tryPlace u p r c false = .full)
include tried

theorem exec_choicePlace_defer (policy : fld (s.platCfg c.plat) 47 46 = 1) :
    exec (.choicePlace u) s = .next ((s.deferChoice u p r c).afterChoice u r cs rest r.alts) := by
  show execChoicePlace u s = _
  simp only [execChoicePlace, oldest, step, next, tried, policy]

theorem exec_choicePlace_drop (policy : fld (s.platCfg c.plat) 47 46 = 2) :
    exec (.choicePlace u) s = .next ((s.dropChoice u r c.plat .full).afterChoice u r cs rest r.alts) := by
  show execChoicePlace u s = _
  simp only [execChoicePlace, oldest, step, next, tried, policy]

theorem exec_choicePlace_alternate (policy : fld (s.platCfg c.plat) 47 46 = 0 ∨ fld (s.platCfg c.plat) 47 46 = 3) {alts : List Choice}
    (taken : s.tryAlts u p r c.plat [] r.alts = some (alts, t)) :
    exec (.choicePlace u) s = .next (t.afterChoice u r cs rest alts) := by
  show execChoicePlace u s = _
  rcases policy with policy | policy <;> simp only [execChoicePlace, oldest, step, next, tried, policy, taken]

end

end

/-! ### STEP_CLOSE, TKT_FLUSH -/

theorem exec_stepClose {s : State} {l : Nat} {x : Launch} (hx : s.launch l = some x) :
    exec (.stepClose l) s = .next (if x.quiet then s.closeStep l else s) := by
  show execStepClose l s = _
  simp only [execStepClose, hx]

theorem exec_tktFlush {s : State} {fn : Fin 64} (h : s.Serves fn R.tktFlush true) : exec (.tktFlush fn) s = .next s.tktFlushAll :=
  congrArg _ (State.mmio_serves h _)

/-! ### The obligation -/

/-- Settles O27, event by event. -/
theorem pointsUnitsAndTickets : Obligations.PointsUnitsAndTickets := by
  unfold Obligations.PointsUnitsAndTickets
  refine ⟨fun s t u b rest p w badW front room step => ?_, fun s u r rest p c cs oldest step next => ?_, fun s l x hx => ?_,
    fun s fn h => exec_tktFlush h⟩
  · intro k a read bad exited refused b' v
    have ends := exec_pointsRecordRead front room step read
    refine ⟨fun h => ends.trans ?_, fun h e => ends.trans ?_, fun h e => ends.trans ?_⟩
    · exact congrArg _ (if_pos h)
    · exact congrArg _ ((if_neg (ne_true_of_eq_false h)).trans (if_pos e))
    · exact congrArg _ ((if_neg (ne_true_of_eq_false h)).trans (if_neg (ne_true_of_eq_false e)))
  · intro policy
    exact ⟨fun t => exec_choicePlace_placed oldest step next, fun t => exec_choicePlace_fault oldest step next,
      exec_choicePlace_wait oldest step next, fun tried => ⟨exec_choicePlace_defer oldest step next tried,
        exec_choicePlace_drop oldest step next tried, fun alts t p => exec_choicePlace_alternate oldest step next tried p⟩⟩
  · rw [exec_stepClose hx]
    exact ⟨fun q => congrArg _ (if_pos q), fun q => congrArg _ (if_neg (ne_true_of_eq_false q))⟩

end Sys2Proof.Machine

/-! Translation: the stages of a walk in order, an invalidation of what it names, and its end. -/

namespace Sys2Proof.Machine

/-! ### The stages of a translation (R304) -/

section
variable {s t : State} {q : Req} {ctx va : Nat} {n : Need}

theorem State.xlateQuiet_outside (outside : s.segmentOf ctx va = none) : s.xlateQuiet q ctx va n = (.fault 0x1 0, s) := by
  simp only [State.xlateQuiet, outside]

variable {cfg : Word} (inside : s.segmentOf ctx va = some cfg)
include inside

theorem State.xlateQuiet_denied (denied : segGrants cfg n = false) : s.xlateQuiet q ctx va n = (.fault 0x2 0, s) := by
  simp only [State.xlateQuiet, inside, denied, Bool.not_false, if_true]

variable (grants : segGrants cfg n = true) {tag : Nat} (tagged : (if bit cfg 44 then 4096 else ctx % 4096) = tag)
include grants tagged

/-- Stage 3 met by a TLB: the walker stays idle. -/
theorem State.xlateQuiet_held {e : TlbEntry} (held : s.tlbHit q tag va = some e)
    (frame : (s.tlbMisses q tag va).frameCause cfg (e.pa + (va - e.va)) = 0) :
    s.xlateQuiet q ctx va n = (.ok (e.pa + (va - e.va)) e.region, s.tlbMisses q tag va) := by
  simp only [State.xlateQuiet, inside, grants, tagged, held, frame, Bool.not_true, Bool.false_eq_true, if_false, if_true]

variable (missed : s.tlbHit q tag va = none)
include missed

/-- Stage 3 met by a walk: its leaf fills the TLBs before its frame is judged. -/
theorem State.xlateQuiet_walked {e : TlbEntry} {lv : Nat}
    (walked : (s.tlbMisses q tag va).walk q.walker ctx va (bit cfg 44) = (.inl e, lv, t))
    (frame : (t.tlbFill q e).frameCause cfg (e.pa + (va - e.va)) = 0) :
    s.xlateQuiet q ctx va n = (.ok (e.pa + (va - e.va)) e.region, t.tlbFill q e) := by
  simp only [State.xlateQuiet, inside, grants, tagged, missed, walked, frame, Bool.not_true, Bool.false_eq_true, if_false, if_true]

theorem State.xlateQuiet_unwalked {cause lv : Nat}
    (failed : (s.tlbMisses q tag va).walk q.walker ctx va (bit cfg 44) = (.inr cause, lv, t)) :
    s.xlateQuiet q ctx va n = (.fault cause lv, t) := by
  simp only [State.xlateQuiet, inside, grants, tagged, missed, failed, Bool.not_true, Bool.false_eq_true, if_false]

end

/-! ### PAGE_WALK -/

section
variable {q : WalkFor} {cls : Fin 8} {ctx : Fin 4096} {va : Nat} {p : Perm} {host : HostData} {s t : State}

theorem exec_pageWalk_ok {pa region : Nat}
    (xlated : (s.hostIn host).xlateQuiet q.req ((s.hostIn host).viewNow ctx) va p.need = (.ok pa region, t)) :
    exec (.pageWalk q cls ctx va p host) s = .next t.hostOut := by
  show execPageWalk q cls ctx va p host s = _
  simp only [execPageWalk, State.withHost, State.xlate, xlated]

theorem exec_pageWalk_fault {cause lv : Nat}
    (xlated : (s.hostIn host).xlateQuiet q.req ((s.hostIn host).viewNow ctx) va p.need = (.fault cause lv, t)) :
    exec (.pageWalk q cls ctx va p host) s =
      .next (t.logXlat q.req.walker cause lv cls ((s.hostIn host).viewNow ctx) va).hostOut := by
  show execPageWalk q cls ctx va p host s = _
  simp only [execPageWalk, State.withHost, State.xlate, xlated]

end

/-! ### TLB_INVALIDATE -/

/-- The invalidation that the registers ask for (R321), with the accesses that it waits for (R322). -/
def State.invalAsked (s : State) : Inval :=
  let i : Inval :=
    ⟨if s.flag R.trnInvCtx 12 then 4096 else s.fld R.trnInvCtx 11 0, s.fld R.trnInvVa 47 12 * 4096, s.fld R.trnInvPages 35 0, []⟩
  { i with waits := s.cores.flatMap (fun e => (e.2.translated i).map (fun t => (e.1, t))) }

theorem exec_tlbInvalidate {s : State} {fn : Fin 64} (h : s.Serves fn R.trnInvCmd true) :
    exec (.tlbInvalidate fn) s = .next (
      if s.flag R.trnStatus 3 then s.setFlag R.trnStatus 2
      else
        let u := (s.invalidate s.invalAsked).setFlag R.trnStatus 3
        { u with trn := { u.trn with inval := some s.invalAsked } }) :=
  congrArg _ (State.mmio_serves h _)

/-- A function over every core, one that keeps a core at rest. -/
theorem State.core_mapCores {s : State} (rise : s.cores.Rising) {f : Nat → Core → Core} {c : Nat} (fix : f c Core.empty = Core.empty) :
    (s.mapCores f).core c = f c (s.core c) :=
  SMap.get_mapv rise fix

/-- What an invalidation leaves of a core: all but the named entries of its TLB. -/
theorem State.core_invalidate {s : State} (rise : s.cores.Rising) (i : Inval) (c : Nat) :
    (s.invalidate i).core c = { s.core c with tlb := (s.core c).tlb.filter (fun e => !i.hits e.tag e.va e.size) } :=
  State.core_mapCores (f := fun _ k => { k with tlb := k.tlb.filter (fun e => !i.hits e.tag e.va e.size) }) rise rfl

theorem State.cluster_invalidate {s : State} (rise : s.trn.cluster.Rising) (i : Inval) (n : Nat) :
    SMap.get [] (s.invalidate i).trn.cluster n =
      (SMap.get [] s.trn.cluster n).filter (fun e => !i.hits e.tag e.va e.size) :=
  SMap.get_mapv (f := fun _ l => l.filter (fun e => !i.hits e.tag e.va e.size)) rise rfl

/-! ### INVALIDATE_DONE -/

theorem exec_invalidateDone {s : State} {i : Inval} (running : s.trn.inval = some i) :
    exec .invalidateDone s = .next (
      if ∃ w ∈ i.waits, (s.core w.1).holdsTurn w.2 = true then s
      else { s with trn := { s.trn with inval := none } }.clrFlag R.trnStatus 3) := by
  show execInvalidateDone s = _
  simp only [execInvalidateDone, running, List.any_eq_true]

/-! ### The obligation -/

/-- Settles O28: a walk by the stage that decides it, then the invalidation's start, its effect on the TLBs, and its end. -/
theorem translationAndInvalidation : Obligations.TranslationAndInvalidation := by
  unfold Obligations.TranslationAndInvalidation
  refine ⟨fun q cls ctx va p host s => ?_, fun s fn _ serves => ?_, fun s i canon clusters => ?_, fun s i running => ?_⟩
  · exact ⟨fun outside => exec_pageWalk_fault (State.xlateQuiet_outside outside),
      fun cfg inside denied => exec_pageWalk_fault (State.xlateQuiet_denied inside denied),
      fun cfg inside grants =>
        ⟨fun e held frame => exec_pageWalk_ok (State.xlateQuiet_held inside grants rfl held frame),
         fun e lv t missed walked frame => exec_pageWalk_ok (State.xlateQuiet_walked inside grants rfl missed walked frame),
         fun cause lv t missed failed => exec_pageWalk_fault (State.xlateQuiet_unwalked inside grants rfl missed failed)⟩⟩
  · have ends := exec_tlbInvalidate serves
    exact ⟨fun busy => ends.trans (congrArg _ (if_pos busy)),
      fun idle => ends.trans (congrArg _ (if_neg (ne_true_of_eq_false idle)))⟩
  · have core := State.core_invalidate canon.cores.1 i
    exact ⟨fun c => congrArg Core.tlb (core c), rfl, State.cluster_invalidate clusters.1 i, rfl, fun c => by rw [core c]⟩
  · have ends := exec_invalidateDone running
    exact ⟨fun performed => ends.trans (congrArg _ (if_neg (by simpa using performed))),
      fun waits => ends.trans (congrArg _ (if_pos waits))⟩

end Sys2Proof.Machine

/-! Cache maintenance: how a GO of each block ends, and what the cleaning of a line leaves in memory and in L2. -/

namespace Sys2Proof

/-- Bytes stored one list after the other are stored as one list. -/
theorem Mem.store_append (m : Mem) (a : Nat) (b c : List Byte) : m.store a (b ++ c) = (m.store a b).store (a + b.length) c := by
  induction b generalizing m a with
  | nil => rfl
  | cons x b ih =>
    rw [List.cons_append, Mem.store, ih, Mem.store, List.length_cons, Nat.add_right_comm, Nat.add_assoc]

end Sys2Proof

namespace Sys2Proof.Machine

/-! ### A line written back -/

/-- A memory system with one sector of a line written to its stack, as a line written back leaves it (R70, R583). -/
def MemSys.putSector (line slot : Nat) (bytes : List Byte) (poison : Nat) (m : MemSys) (i : Nat) : MemSys :=
  { m with dram := m.dram.store (128 * line + 32 * i) ((bytes.drop (32 * i)).take 32),
           key := SMap.put 0 m.key (4 * line + i) (keyId m slot),
           poison := SMap.put false m.poison (4 * line + i) (poison.testBit i) }

/-- A whole line that is not behind a fenced crossing is written sector after sector (R70). -/
theorem dramWrite_whole {m : MemSys} {line : Nat} (slot : Nat) (bytes : List Byte) (poison : Nat) (reached : m.stackCut line = false) :
    dramWrite m line slot bytes poison 15 = { (List.range 4).foldl (MemSys.putSector line slot bytes poison) m with
      tally := SMap.upd 0 ((List.range 4).foldl (MemSys.putSector line slot bytes poison) m).tally (homeDie (128 * line)) (· + 1) } := by
  rw [dramWrite, if_neg (ne_true_of_eq_false reached)]
  rfl

/-- Sectors written one after the other leave in memory the bytes of one store. -/
theorem foldl_putSector_dram (m : MemSys) (line slot poison : Nat) {bytes : List Byte} {n : Nat} (whole : 32 * n ≤ bytes.length) :
    ((List.range n).foldl (MemSys.putSector line slot bytes poison) m).dram = m.dram.store (128 * line) (bytes.take (32 * n)) := by
  induction n with
  | zero => rfl
  | succ n ih =>
    have written : (bytes.take (32 * n)).length = 32 * n := List.length_take_of_le (by omega)
    rw [List.range_succ, List.foldl_append, List.foldl_cons, List.foldl_nil, MemSys.putSector, ih (by omega), Nat.mul_succ, List.take_add,
      Mem.store_append, written]

theorem dramWrite_dram {m : MemSys} {line : Nat} {bytes : List Byte} (slot poison : Nat) (whole : bytes.length = 128)
    (reached : m.stackCut line = false) : (dramWrite m line slot bytes poison 15).dram = m.dram.store (128 * line) bytes := by
  rw [dramWrite_whole slot bytes poison reached]
  calc ((List.range 4).foldl (MemSys.putSector line slot bytes poison) m).dram
    _ = m.dram.store (128 * line) (bytes.take 128) := foldl_putSector_dram m line slot poison (n := 4) (Nat.le_of_eq whole.symm)
    _ = m.dram.store (128 * line) bytes := by rw [List.take_of_length_le (Nat.le_of_eq whole)]

theorem dramWrite_l2 (m : MemSys) (line slot : Nat) (bytes : List Byte) (poison sectors : Nat) :
    (dramWrite m line slot bytes poison sectors).l2 = m.l2 := by
  unfold dramWrite
  split
  · rfl
  · exact List.foldlRecOn _ _ (motive := fun u : MemSys => u.l2 = m.l2) rfl fun u hu i _ => by
      split
      · exact hu
      · exact hu

section
variable {m : MemSys} {n : Nat} {x : L2Line} (held : m.line n = some x) (dirty : x.dirty = true)
include held dirty

theorem MemSys.cleanLine_dram (whole : x.bytes.length = 128) (reached : m.stackCut n = false) :
    (m.cleanLine n).dram = m.dram.store (128 * n) x.bytes := by
  rw [MemSys.cleanLine, held]
  dsimp only
  rw [if_pos dirty]
  exact dramWrite_dram x.slot x.poison whole reached

theorem MemSys.cleanLine_l2 : (m.cleanLine n).l2 = SMap.put none m.l2 n (some { x with dirty := false }) := by
  rw [MemSys.cleanLine, held]
  dsimp only
  rw [if_pos dirty, MemSys.setLine, dramWrite_l2]

end

/-! ### Range maintenance -/

/-- The command of range maintenance reaches `maintGo` where its register is served (R364). -/
theorem exec_maint_served {s : State} {fn : Fin 64} {l1Only : Bool} {i : Instr} {o : MaintOp} (h : s.Serves fn (R.cchMaintCmd fn) true)
    (at_ : (i, o) ∈ [(Instr.maintClean fn l1Only, (⟨true, false, l1Only⟩ : MaintOp)), (.maintInvalidate fn l1Only, ⟨false, true, l1Only⟩),
      (.maintCleanInvalidate fn l1Only, ⟨true, true, l1Only⟩)]) : exec i s = .next (s.maintGo fn o) := by
  have served : (.next (s.mmio fn (R.cchMaintCmd fn) true fun s => s.maintGo fn o) : Answer) = .next (s.maintGo fn o) :=
    congrArg _ (State.mmio_serves h _)
  simp only [List.mem_cons, List.not_mem_nil, or_false, Prod.mk.injEq] at at_
  rcases at_ with ⟨rfl, rfl⟩ | ⟨rfl, rfl⟩ | ⟨rfl, rfl⟩ <;> exact served

section
variable {s : State} {f : Nat} (o : MaintOp)

theorem State.maintGo_busy (busy : s.flag (R.cchMaintStatus f) 0 = true) : s.maintGo f o = s.setFlag (R.cchMaintStatus f) 1 :=
  if_pos busy

theorem State.maintGo_denied (idle : s.flag (R.cchMaintStatus f) 0 = false) (other : s.tenantOf (s.fld (R.cchMaintCtx f) 11 0) ≠ f) :
    s.maintGo f o = s.setFlag (R.cchMaintStatus f) 3 := by
  simp only [State.maintGo, idle, other, Bool.false_eq_true, if_false, ne_eq, not_false_eq_true, if_true]

theorem State.maintGo_acts {skipped : Bool} {u : State} (idle : s.flag (R.cchMaintStatus f) 0 = false)
    (own : s.tenantOf (s.fld (R.cchMaintCtx f) 11 0) = f)
    (done : s.maintRange o (s.viewNow (s.fld (R.cchMaintCtx f) 11 0)) (s.fld (R.cchMaintVa f) 47 0) (s.fld (R.cchMaintLen f) 47 0) =
      (skipped, u)) :
    s.maintGo f o = if skipped then (u.setFlag (R.cchMaintStatus f) 0).setFlag (R.cchMaintStatus f) 2
      else u.setFlag (R.cchMaintStatus f) 0 := by
  simp only [State.maintGo, idle, own, done, Bool.false_eq_true, if_false, ne_eq, not_true_eq_false]

end

/-! ### Set/way maintenance -/

/-- Each of the three commands of set/way maintenance is a write of CCH_SETWAY_CMD (R366). -/
theorem exec_setway {fn : Fin 64} {all : Bool} {die : Fin 2} {slice : Fin 32} {set : Fin 1024} {way : Fin 16} {i : Instr} {o : MaintOp}
    (s : State) (at_ : (i, o) ∈ [(Instr.setwayClean fn all die slice set way, (⟨true, false, false⟩ : MaintOp)),
      (.setwayInvalidate fn all die slice set way, ⟨false, true, false⟩),
      (.setwayCleanInvalidate fn all die slice set way, ⟨true, true, false⟩)]) :
    exec i s = .next (s.setwayWrite fn fun s => s.setwayGo o all die slice set way) := by
  simp only [List.mem_cons, List.not_mem_nil, or_false, Prod.mk.injEq] at at_
  rcases at_ with ⟨rfl, rfl⟩ | ⟨rfl, rfl⟩ | ⟨rfl, rfl⟩ <;> rfl

theorem State.setwayWrite_serves {s : State} (h : s.Serves 0 R.cchSetwayCmd true) (act : State → State) : s.setwayWrite 0 act = act s :=
  State.mmio_serves h act

/-- A function that is refused a register is a virtual one that exists and is answered (R482). -/
theorem State.reach_refused {s : State} {fn off : Nat} {write : Bool} (h : s.reach fn off write = .refused) :
    s.answers = true ∧ s.fnExists fn = true ∧ SMap.get false s.pci.d3 fn = false := by
  rw [State.reach] at h
  split at h
  · cases h
  split at h
  · cases h
  split at h
  · cases h
  simp_all

/-- A write of CCH_SETWAY_CMD that is refused counts as denied and shows MAINT_DENIED to its function (R366). -/
theorem State.setwayWrite_refused {s : State} {fn : Nat} (virtual : fn ≠ 0) (h : s.reach fn R.cchSetwayCmd true = .refused)
    (act : State → State) : s.setwayWrite fn act = (s.denied fn).setFlag (R.cchMaintStatus fn) 3 := by
  obtain ⟨answers, exists_, awake⟩ := State.reach_refused h
  rw [State.setwayWrite, State.mmio_write_unserved h (by decide)]
  simp only [virtual, answers, exists_, awake, ne_eq, not_false_eq_true, decide_true, Bool.not_false, Bool.and_self, if_true,
    State.writeUnserved]

section
variable {s : State} {all : Bool} {set : Nat} (o : MaintOp) (die slice way : Nat)

theorem State.setwayGo_error (bad : s.flag R.cchStatus 0 = true ∨ (all = false ∧ 767 < set)) :
    s.setwayGo o all die slice set way = s.setFlag R.cchStatus 1 :=
  if_pos (by simpa using bad)

theorem State.setwayGo_acts (idle : s.flag R.cchStatus 0 = false) (there : all = true ∨ set ≤ 767) :
    s.setwayGo o all die slice set way =
      ((s.setwayLines all die slice set way).foldl (fun t n => t.setwayLine o n) s).setFlag R.cchStatus 0 := by
  refine if_neg ?_
  rcases there with rfl | inside
  · simp [idle]
  · simp [idle, Nat.not_lt.2 inside]

end

/-! ### The obligation -/

/-- Settles O29: a GO by the branch it takes, then the cleaned line as one store of its bytes. -/
theorem cacheMaintenance : Obligations.CacheMaintenance := by
  unfold Obligations.CacheMaintenance
  refine ⟨fun s fn l1Only i o at_ served => ?_, fun _ _ => rfl, fun s all die slice set way i o at_ served => ?_,
    fun s fn all die slice set way virtual refused i at_ => ?_, fun _ => rfl, fun m n x dram l2 held dirty whole reached => ?_⟩
  · intro st ctx
    rw [exec_maint_served served at_]
    exact ⟨fun busy => congrArg _ (State.maintGo_busy o busy), fun idle other => congrArg _ (State.maintGo_denied o idle other),
      fun skipped u idle own done => congrArg _ (State.maintGo_acts o idle own done)⟩
  · have write : exec i s = .next (s.setwayGo o all die slice set way) :=
      (exec_setway s at_).trans (congrArg _ (State.setwayWrite_serves served _))
    rw [write]
    exact ⟨fun bad => congrArg _ (State.setwayGo_error o die slice way bad),
      fun idle there => congrArg _ (State.setwayGo_acts o die slice way idle there)⟩
  · have write (o : MaintOp) : (.next (s.setwayWrite fn fun s => s.setwayGo o all die slice set way) : Answer) =
        .next ((s.denied fn).setFlag (R.cchMaintStatus fn) 3) := congrArg _ (State.setwayWrite_refused virtual refused _)
    simp only [List.mem_cons, List.not_mem_nil, or_false] at at_
    rcases at_ with rfl | rfl | rfl <;> exact write _
  · intro t
    have stored : t.dram = m.dram.store (128 * n) x.bytes := MemSys.cleanLine_dram held dirty whole reached
    have lines : t.l2 = _ := MemSys.cleanLine_l2 held dirty
    refine ⟨fun j inside => ?_, fun a outside => ?_, ?_, fun k other => ?_⟩
    · rw [stored, Mem.read_store_in dram.1 _ _ j (by omega)]
    · rw [stored, Mem.read_store_out dram.1 _ _ a (by omega)]
    · rw [MemSys.line, lines, SMap.get_put_same _ _ n l2.1]
    · rw [MemSys.line, lines, SMap.get_put_ne _ _ other l2.1, MemSys.line]

end Sys2Proof.Machine

/-! Memory accesses, maintenance, launches and copies of dispatch code: how each instruction of an issuing thread ends. -/

namespace Sys2Proof.Machine

section
variable {s r u v : State} {t : Fin 128} {th : Thread} {w : DWord} {host : HostData}

/-! ### LOADT -/

section
variable (issue : (s.hostIn host).DIssues t th w r) (row : w.op = 0x28)
include issue row

theorem exec_dispLoadt_misaligned (odd : th.addr w % 2 ^ w.m ≠ 0) :
    exec (.dispLoadt t host) s = .next ((r.endProgram t 0x05 0x02).dcount t w.op).hostOut := by
  rw [exec_issued_host (i := .dispLoadt t host) rfl issue row]
  simp only [odd, ne_eq, not_false_eq_true, if_true]

variable (aligned : th.addr w % 2 ^ w.m = 0)
include aligned

theorem exec_dispLoadt_reads {b : List Byte} (read : r.vaRead (hubUser th.view) (th.addr w) (2 ^ w.m) = (.inl b, u)) :
    exec (.dispLoadt t host) s = .next ((u.setThread t (some (th.w w.d (leNat b)).next)).dcount t w.op).hostOut := by
  rw [exec_issued_host (i := .dispLoadt t host) rfl issue row]
  simp only [aligned, read, ne_eq, not_true_eq_false, if_false]

theorem exec_dispLoadt_faults {f : VmFault} (read : r.vaRead (hubUser th.view) (th.addr w) (2 ^ w.m) = (.inr f, u)) :
    exec (.dispLoadt t host) s = .next ((u.programFault t f).dcount t w.op).hostOut := by
  rw [exec_issued_host (i := .dispLoadt t host) rfl issue row]
  simp only [aligned, read, ne_eq, not_true_eq_false, if_false]

end

/-! ### STORE -/

/-- The state in which Mainline has taken the remote write of a STORE, where it takes it (R302, R397). -/
def State.storeSent (u : State) (th : Thread) (pa region : Nat) (b : List Byte) : Option State :=
  u.mlnAccept (u.writeMsg (u.tenantOf th.ctx) (paNode pa) (paOffset pa) (decide (region = 2)) b) 192 (u.flowsOf th.cmd)

section
variable (issue : s.DIssues t th w r) (row : w.op = 0x29)
include issue row

theorem exec_dispStore_misaligned (odd : th.addr w % 2 ^ w.m ≠ 0) :
    exec (.dispStore t) s = .next ((r.endProgram t 0x05 0x02).dcount t w.op) := by
  rw [exec_issued (i := .dispStore t) rfl issue row]
  simp only [odd, ne_eq, not_false_eq_true, if_true]

variable (aligned : th.addr w % 2 ^ w.m = 0)
include aligned

theorem exec_dispStore_untranslated {c lv : Nat} (walk : r.xlate .hub 2 th.view (th.addr w) needW = (.fault c lv, u)) :
    exec (.dispStore t) s = .next ((u.programFault t (.code (causeCode c) c)).dcount t w.op) := by
  rw [exec_issued (i := .dispStore t) rfl issue row]
  simp only [aligned, walk, ne_eq, not_true_eq_false, if_false]

variable {pa region : Nat} (walk : r.xlate .hub 2 th.view (th.addr w) needW = (.ok pa region, u))
include walk

section
variable (remote : u.placeOf pa = .remote)
include remote

theorem exec_dispStore_sent (sent : u.storeSent th pa region (leBytes (2 ^ w.m) (th.r w.b)) = some v) :
    exec (.dispStore t) s = .next ((v.setThread t (some th.next)).dcount t w.op) := by
  rw [State.storeSent] at sent
  rw [exec_issued (i := .dispStore t) rfl issue row]
  simp only [aligned, walk, remote, sent, ne_eq, not_true_eq_false, if_false, if_true]

theorem exec_dispStore_waits (sent : u.storeSent th pa region (leBytes (2 ^ w.m) (th.r w.b)) = none) :
    exec (.dispStore t) s = .next ((r.setThread t (some { th with hold := .retry })).dcount t w.op) := by
  rw [State.storeSent] at sent
  rw [exec_issued (i := .dispStore t) rfl issue row]
  simp only [aligned, walk, remote, sent, ne_eq, not_true_eq_false, if_false, if_true, State.dhold]

end

section
variable (here : u.placeOf pa ≠ .remote)
include here

theorem exec_dispStore_writes (put : u.pageWrite (hubUser th.view) (th.addr w) (leBytes (2 ^ w.m) (th.r w.b)) = (none, v)) :
    exec (.dispStore t) s = .next ((v.setThread t (some th.next)).dcount t w.op) := by
  rw [exec_issued (i := .dispStore t) rfl issue row]
  simp only [aligned, walk, here, put, ne_eq, not_true_eq_false, if_false]

theorem exec_dispStore_faults {f : VmFault}
    (put : u.pageWrite (hubUser th.view) (th.addr w) (leBytes (2 ^ w.m) (th.r w.b)) = (some f, v)) :
    exec (.dispStore t) s = .next ((v.programFault t f).dcount t w.op) := by
  rw [exec_issued (i := .dispStore t) rfl issue row]
  simp only [aligned, walk, here, put, ne_eq, not_true_eq_false, if_false]

end

end

/-! ### CMO -/

/-- CMO maintains the range in the program's context and says whether it skipped a page (R364, R397). -/
theorem exec_dispCmo {skipped : Bool} (issue : s.DIssues t th w r) (row : w.op = 0x34)
    (done : r.maintRange ⟨decide (nfld w.m 2 1 = 1) || decide (nfld w.m 2 1 = 3), decide (nfld w.m 2 1 = 2) || decide (nfld w.m 2 1 = 3),
      w.m.testBit 3⟩ th.view (th.r w.a) (th.r w.b) = (skipped, u)) :
    exec (.dispCmo t) s = .next ((u.setThread t (some (th.w w.d (if skipped then 1 else 0)).next)).dcount t w.op) := by
  rw [exec_issued (i := .dispCmo t) rfl issue row]
  simp only [done]

/-! ### LAUNCH_PLAT -/

/-- Every platform of a range exists, lies in device memory and belongs to a context (R256, R257). -/
def State.OwnsPlats (r : State) (ctx first count : Nat) : Prop :=
  0 < count ∧ first + count ≤ 1024 ∧ ∀ i < count, r.platKind (first + i) = 0 ∧ r.platOwner (first + i) = ctx

/-- The check of a platform range refuses what the context does not own. -/
theorem State.platsRefused_iff {ctx first count : Nat} :
    (decide (count = 0) || decide (1024 < first + count) ||
      !(List.range count).all (fun i => decide (r.platKind (first + i) = 0) && decide (r.platOwner (first + i) = ctx))) = true ↔
      ¬r.OwnsPlats ctx first count := by
  simp only [State.OwnsPlats, Bool.or_eq_true, Bool.not_eq_true', List.all_eq_false, List.mem_range, Bool.and_eq_true, decide_eq_true_eq,
    not_and_or, not_forall, Nat.not_lt, Nat.not_le, Nat.le_zero, exists_prop, or_assoc]

section
variable (issue : (s.hostIn host).DIssues t th w r) (row : w.op = 0x31)
include issue row

theorem exec_dispLaunchPlat_waits (full : 8 ≤ th.queue.length) :
    exec (.dispLaunchPlat t host) s = .next ((r.setThread t (some { th with hold := .retry })).dcount t w.op).hostOut := by
  rw [exec_issued_host (i := .dispLaunchPlat t host) rfl issue row]
  simp only [full, if_true, State.dhold]

variable (room : th.queue.length < 8)
include room

theorem exec_dispLaunchPlat_noBlocks (noBlocks : w.imm % 2 ^ 16 = 0) :
    exec (.dispLaunchPlat t host) s = .next ((r.endProgram t 0x05 0x07).dcount t w.op).hostOut := by
  rw [exec_issued_host (i := .dispLaunchPlat t host) rfl issue row]
  simp only [Nat.not_le.2 room, noBlocks, if_false, if_true]

variable (blocks : w.imm % 2 ^ 16 ≠ 0)
include blocks

theorem exec_dispLaunchPlat_refused (foreign_ : ¬r.OwnsPlats th.ctx (nfld (th.r w.b) 9 0) (nfld (th.r w.b) 26 16)) :
    exec (.dispLaunchPlat t host) s = .next ((r.endProgram t 0x05 0x0B).dcount t w.op).hostOut := by
  rw [exec_issued_host (i := .dispLaunchPlat t host) rfl issue row]
  simp only [Nat.not_le.2 room, blocks, State.platsRefused_iff.2 foreign_, if_false, if_true]

theorem exec_dispLaunchPlat_queues (own : r.OwnsPlats th.ctx (nfld (th.r w.b) 9 0) (nfld (th.r w.b) 26 16)) :
    exec (.dispLaunchPlat t host) s = .next ((r.queueLaunch t th (th.r w.a)
      (some ⟨nfld (th.r w.b) 9 0, nfld (th.r w.b) 26 16, w.imm % 2 ^ 16, 0, 0⟩)).dcount t w.op).hostOut := by
  rw [exec_issued_host (i := .dispLaunchPlat t host) rfl issue row]
  simp only [Nat.not_le.2 room, blocks, mt State.platsRefused_iff.1 (not_not.2 own), Bool.false_eq_true, if_false]

end

/-! ### COPY -/

section
variable {view : Nat} (issue : (s.hostIn host).DIssues t th w r) (row : w.op = 0x33) (taken : r.takeView th.ctx = (view, u))
include issue row taken

theorem exec_dispatchCopy_waits (begun : u.beginCopy th.cmd (some t) th.ctx view th.pc (th.addr w) = none) :
    exec (.dispatchCopy t host) s = .next ((r.setThread t (some { th with hold := .retry })).dcount t w.op).hostOut := by
  rw [exec_issued_host (i := .dispatchCopy t host) rfl issue row]
  simp only [taken, begun, State.dhold]

theorem exec_dispatchCopy_fails {f : VmFault} (begun : u.beginCopy th.cmd (some t) th.ctx view th.pc (th.addr w) = some (.inr f, v)) :
    exec (.dispatchCopy t host) s = .next ((v.stopCmd th.cmd f.ends.1 4 f.ends.2).dcount t w.op).hostOut := by
  rw [exec_issued_host (i := .dispatchCopy t host) rfl issue row]
  simp only [taken, begun]

variable {n : Nat} (begun : u.beginCopy th.cmd (some t) th.ctx view th.pc (th.addr w) = some (.inl n, v))
include begun

theorem exec_dispatchCopy_held (holds : w.m = 1) :
    exec (.dispatchCopy t host) s = .next ((v.setThread t (some { th with hold := .copy n })).dcount t w.op).hostOut := by
  rw [exec_issued_host (i := .dispatchCopy t host) rfl issue row]
  simp only [taken, begun, holds, if_true]

theorem exec_dispatchCopy_goes_on (free : w.m = 0) :
    exec (.dispatchCopy t host) s = .next ((v.setThread t (some th.next)).dcount t w.op).hostOut := by
  rw [exec_issued_host (i := .dispatchCopy t host) rfl issue row]
  simp only [taken, begun, free, Nat.zero_ne_one, if_false]

end

end

/-! ### A launch queued -/

section
variable {r u : State} {t : Nat} {th : Thread} {a : Nat} {plat : Option PlatRange}

theorem State.queueLaunch_waits (full : 8 ≤ th.queue.length) :
    r.queueLaunch t th a plat = r.setThread t (some { th with hold := .retry }) :=
  if_pos full

section
variable (room : th.queue.length < 8)
include room

theorem State.queueLaunch_misaligned (odd : a % 64 ≠ 0) : r.queueLaunch t th a plat = r.endProgram t 0x05 0x02 :=
  (if_neg (Nat.not_le.2 room)).trans (if_pos odd)

variable (aligned : a % 64 = 0)
include aligned

theorem State.queueLaunch_unread {f : VmFault} (read : r.vaRead (hubUser th.view) a 64 = (.inr f, u)) :
    r.queueLaunch t th a plat = u.programFault t f := by
  simp only [State.queueLaunch, Nat.not_le.2 room, aligned, read, ne_eq, not_true_eq_false, if_false]

variable {b : List Byte} (read : r.vaRead (hubUser th.view) a 64 = (.inl b, u))
include read

theorem State.queueLaunch_malformed {code : Nat} (bad : launchOf b th plat = .inr code) :
    r.queueLaunch t th a plat = u.endProgram t 0x05 code := by
  simp only [State.queueLaunch, Nat.not_le.2 room, aligned, read, bad, ne_eq, not_true_eq_false, if_false]

theorem State.queueLaunch_queues {x : Launch} (good : launchOf b th plat = .inl x) :
    r.queueLaunch t th a plat =
      u.setThread t (some { th with queue := th.queue ++ [{ x with thread := t }], pc := th.pc + 1, hold := .none }) := by
  simp only [State.queueLaunch, Nat.not_le.2 room, aligned, read, good, ne_eq, not_true_eq_false, if_false]
  rfl

end

end

/-! ### The obligation -/

/-- Settles O39, instruction by instruction, then the queueing of a launch that LAUNCH and LAUNCH_PLAT share. -/
theorem dispatchMemoryAndLaunches : Obligations.DispatchMemoryAndLaunches := by
  unfold Obligations.DispatchMemoryAndLaunches
  refine ⟨fun s r t th w host issue row => ?_, fun s r t th w issue row => ?_, fun s r u t th w skipped issue row => ?_,
    fun s r t th w host issue => ?_, fun r t th a plat => ?_, fun s r u t th w host view issue row taken => ?_⟩
  · exact ⟨exec_dispLoadt_misaligned issue row, fun b u aligned => exec_dispLoadt_reads issue row aligned,
      fun f u aligned => exec_dispLoadt_faults issue row aligned⟩
  · exact ⟨exec_dispStore_misaligned issue row, fun c lv u aligned => exec_dispStore_untranslated issue row aligned,
      fun pa region u aligned walk => ⟨fun v => exec_dispStore_sent issue row aligned walk, exec_dispStore_waits issue row aligned walk,
        fun v => exec_dispStore_writes issue row aligned walk, fun f v here => exec_dispStore_faults issue row aligned walk here⟩⟩
  · exact exec_dispCmo issue row
  · exact ⟨fun row => exec_issued_host (i := .dispLaunch t host) rfl issue row, fun row =>
      ⟨exec_dispLaunchPlat_waits issue row, exec_dispLaunchPlat_noBlocks issue row, exec_dispLaunchPlat_refused issue row,
        exec_dispLaunchPlat_queues issue row⟩⟩
  · exact ⟨State.queueLaunch_waits, State.queueLaunch_misaligned, fun f u room aligned => State.queueLaunch_unread room aligned,
      fun b u room aligned read => ⟨fun code => State.queueLaunch_malformed room aligned read,
        fun x => State.queueLaunch_queues room aligned read⟩⟩
  · exact ⟨exec_dispatchCopy_waits issue row taken, fun f v => exec_dispatchCopy_fails issue row taken, fun n v begun =>
      ⟨exec_dispatchCopy_held issue row taken begun, exec_dispatchCopy_goes_on issue row taken begun⟩⟩

end Sys2Proof.Machine

/-! Instructions of dispatch code that work on registers, branches, and how a word that does not issue ends its program. -/

namespace Sys2Proof.Machine

/-! ### Two's complement -/

theorem sx_eq_toInt {n : Nat} (wide : 0 < n) (v : Nat) : sx n v = (BitVec.ofNat n v).toInt := by
  have half : 2 ^ n = 2 * 2 ^ (n - 1) := by rw [← pow_succ', Nat.sub_add_cancel wide]
  rw [sx, BitVec.toInt_eq_toNat_cond, BitVec.toNat_ofNat]
  by_cases low : 2 * (v % 2 ^ n) < 2 ^ n
  · rw [if_pos low, if_neg (by omega)]
  · rw [if_neg low, if_pos (by omega)]
    push_cast
    rfl

theorem sx_toNat (x : Word) : sx 64 x.toNat = x.toInt := by
  rw [sx_eq_toInt (by decide), BitVec.ofNat_toNat, BitVec.setWidth_eq]

theorem ofNat_wrapI (n : Nat) (z : Int) : BitVec.ofNat n (wrapI n z) = BitVec.ofInt n z := by
  refine BitVec.eq_of_toNat_eq ?_
  rw [BitVec.toNat_ofInt, BitVec.toNat_ofNat, wrapI]
  have pos : (0 : Int) < 2 ^ n := by positivity
  have below := Int.emod_lt_of_pos z pos
  have above := Int.emod_nonneg z pos.ne'
  rw [Nat.mod_eq_of_lt (by zify; omega)]
  push_cast
  rfl

theorem wrapI_eq_toNat (z : Int) : wrapI 64 z = (BitVec.ofInt 64 z).toNat := by
  rw [BitVec.toNat_ofInt]
  rfl

theorem DWord.ofNat_simm (w : DWord) : BitVec.ofNat 64 w.simm = (BitVec.ofNat 32 w.imm).signExtend 64 := by
  rw [DWord.simm, ofNat_wrapI, sx_eq_toInt (by decide)]
  rfl

/-! ### Registers of a thread -/

/-- A register as a word; x0 is zero (R396). -/
def Thread.xword (th : Thread) (n : Nat) : Word := if n = 0 then 0 else SMap.get 0 th.x n

theorem Thread.r_eq (th : Thread) (n : Nat) : th.r n = (th.xword n).toNat := by
  rw [Thread.r, Thread.xword, apply_ite BitVec.toNat]
  rfl

theorem Thread.ofNat_r (th : Thread) (n : Nat) : BitVec.ofNat 64 (th.r n) = th.xword n := by
  rw [th.r_eq, BitVec.ofNat_toNat, BitVec.setWidth_eq]

theorem Thread.w_next (th : Thread) (n v : Nat) : (th.w n v).next =
    { th with x := if n = 0 then th.x else SMap.put 0 th.x n (BitVec.ofNat 64 v), pc := th.pc + 1, hold := .none } := by
  rw [Thread.next_of_pc (Thread.w_pc th n v), Thread.w]
  split <;> rfl

theorem Thread.target_eq (th : Thread) (w : DWord) :
    th.target w = (BitVec.ofNat 64 th.pc + (BitVec.ofNat 32 w.imm).signExtend 64).toNat := by
  rw [Thread.target, wrapI_eq_toNat, BitVec.ofInt_add, BitVec.ofInt_natCast, sx_eq_toInt (by decide)]
  rfl

/-! ### Arithmetic -/

section
variable {s r : State} {t : Fin 128} {th : Thread} {w : DWord} {i : Instr} {op : Nat} (issue : s.DIssues t th w r) (row : w.op = op)
include issue row

/-- An instruction that writes one register and goes on leaves its thread with that register alone changed (R396, R397). -/
theorem exec_writes_register {f : Thread → DWord → State → Nat} {v : Word}
    (e : exec i s = .next (s.dissue t op fun th w s => s.setThread t (some (th.w w.d (f th w s)).next)))
    (value : BitVec.ofNat 64 (f th w r) = v) :
    exec i s = .next ((r.setThread t (some { th with
      x := if w.d = 0 then th.x else SMap.put 0 th.x w.d v, pc := th.pc + 1, hold := .none })).dcount t w.op) := by
  rw [exec_issued e issue row, Thread.w_next, value]

end

/-- The value that MOVHI writes: IMM above the low half of x(D) (R397). -/
theorem movhi_value (x : Word) (imm : Nat) : BitVec.ofNat 64 (x.toNat % 2 ^ 32 + 2 ^ 32 * imm) = BitVec.ofNat 32 imm ++ x.setWidth 32 := by
  refine BitVec.eq_of_toNat_eq ?_
  have low : x.toNat % 2 ^ 32 < 2 ^ 32 := Nat.mod_lt _ (by decide)
  rw [BitVec.toNat_append, BitVec.toNat_ofNat, BitVec.toNat_ofNat, BitVec.toNat_setWidth, Nat.shiftLeft_eq, Nat.mul_comm _ (2 ^ 32),
    ← Nat.two_pow_add_eq_or_of_lt low]
  omega

theorem shr_value (x : Word) (n : Nat) : BitVec.ofNat 64 (x.toNat >>> n) = x >>> n := by
  rw [← BitVec.toNat_ushiftRight, BitVec.ofNat_toNat, BitVec.setWidth_eq]

/-- Another context waits whose virtual time is less than that of the thread's by more than DSP_SHARE_LAG (R522). -/
def State.Behind (r : State) (th : Thread) : Prop :=
  ∃ n ∈ r.shareWaiters, n ≠ th.ctx ∧ r.vtime n + 2 ^ 16 * (r.rd R.dspShareLag).toNat < r.vtime th.ctx

section
variable {s r : State} {t : Fin 128} {th : Thread} {w : DWord}

theorem State.yields_iff : (!((r.cmd th.cmd).bind Cmd.lane).isSome && r.shareWaiters.any (fun n => decide (n ≠ th.ctx) &&
      decide (r.vtime n + 2 ^ 16 * (r.rd R.dspShareLag).toNat < r.vtime th.ctx))) = true ↔
    ((r.cmd th.cmd).bind Cmd.lane).isSome = false ∧ r.Behind th := by
  simp only [Bool.and_eq_true, Bool.not_eq_true', List.any_eq_true, decide_eq_true_eq, State.Behind]

variable (issue : s.DIssues t th w r) (row : w.op = 0x02)
include issue row

theorem exec_dispYield_waits (best : ((r.cmd th.cmd).bind Cmd.lane).isSome = false) (behind : r.Behind th) :
    exec (.dispYield t) s = .next ((r.setThread t (some { th with hold := .retry })).dcount t w.op) := by
  rw [exec_issued (i := .dispYield t) rfl issue row]
  exact congrArg (fun u : State => Host.Outcome.next (u.dcount t w.op)) (if_pos (State.yields_iff.2 ⟨best, behind⟩))

theorem exec_dispYield_goes_on (on : ((r.cmd th.cmd).bind Cmd.lane).isSome = true ∨ ¬r.Behind th) :
    exec (.dispYield t) s = .next ((r.setThread t (some th.next)).dcount t w.op) := by
  rw [exec_issued (i := .dispYield t) rfl issue row]
  refine congrArg (fun u : State => Host.Outcome.next (u.dcount t w.op)) (if_neg fun yields => ?_)
  obtain ⟨best, behind⟩ := State.yields_iff.1 yields
  exact on.elim (ne_true_of_eq_false best) (not_not.2 behind)

end

/-- Settles O37: each instruction that writes a register by its value, then the others by what holds their thread. -/
theorem dispatchArithmetic : Obligations.DispatchArithmetic := by
  unfold Obligations.DispatchArithmetic
  refine ⟨fun s r t th w i op v issue row => ?_, fun s r t th w issue => ?_⟩
  · intro x imm rows regs
    have word (n : Nat) : BitVec.ofNat 64 (th.r n) = x n := th.ofNat_r n
    have shift (n : Nat) : th.r n = (x n).toNat := th.r_eq n
    simp only [List.mem_cons, List.not_mem_nil, or_false, Prod.mk.injEq] at rows
    rcases rows with ⟨rfl, rfl, rfl⟩ | ⟨rfl, rfl, rfl⟩ | ⟨rfl, rfl, rfl⟩ | ⟨rfl, rfl, rfl⟩ | ⟨rfl, rfl, rfl⟩ | ⟨rfl, rfl, rfl⟩ |
      ⟨rfl, rfl, rfl⟩ | ⟨rfl, rfl, rfl⟩ | ⟨rfl, rfl, rfl⟩ | ⟨rfl, rfl, rfl⟩ | ⟨rfl, rfl, rfl⟩ | ⟨rfl, rfl, rfl⟩ <;>
      (refine exec_writes_register issue row rfl ?_; beta_reduce)
    · rw [BitVec.ofNat_add, word, word]
    · rw [shift, shift, Nat.add_comm]
      rfl
    · rw [BitVec.ofNat_mul, word, word]
    · rw [BitVec.ofNat_and, word, word]
    · rw [BitVec.ofNat_or, word, word]
    · rw [BitVec.ofNat_xor, word, word]
    · rw [shift, shift]
      rfl
    · rw [shift, shift]
      exact shr_value ..
    · rw [BitVec.ofNat_add, word, w.ofNat_simm]
    · exact w.ofNat_simm
    · rw [shift]
      exact movhi_value ..
    · rfl
  · intro on wait lane behind
    refine ⟨fun row => exec_issued (i := .dispatchNop t) rfl issue row, fun row c cmd => ?_, fun row => exec_dispYield_waits issue row,
      fun row => exec_dispYield_goes_on issue row,
      fun row busy => ?_, fun row idle => ?_, fun row busy => ?_, fun row idle => ?_⟩
    · rw [exec_issued (i := .dispTmark t) rfl issue row, cmd]
      rfl
    · rw [exec_issued (i := .dispJoin t) rfl issue row, if_pos busy]
      rfl
    · rw [exec_issued (i := .dispJoin t) rfl issue row, if_neg (ne_true_of_eq_false idle)]
      rfl
    · rw [exec_issued (i := .dispEnd t) rfl issue row, if_pos busy]
      rfl
    · rw [exec_issued (i := .dispEnd t) rfl issue row, if_neg (ne_true_of_eq_false idle)]

/-! ### Branches, calls and returns -/

section
variable {s r : State} {t : Fin 128} {th : Thread} {w : DWord} {i : Instr} {op : Nat} (issue : s.DIssues t th w r)
include issue

/-- A branch whose condition gives `taken` goes to its target or to the next word (R396). -/
theorem exec_branches {cond : Nat → Nat → Bool} {taken : Bool} (row : w.op = op) (e : exec i s = .next (s.dbranch t op cond))
    (given : cond (th.r w.a) (th.r w.b) = taken) :
    exec i s = .next ((r.setThread t (some { th with
      pc := if taken then (BitVec.ofNat 64 th.pc + (BitVec.ofNat 32 w.imm).signExtend 64).toNat else th.pc + 1,
      hold := .none })).dcount t w.op) := by
  rw [exec_issued e issue row, given, ← th.target_eq]
  cases taken <;> rfl

theorem exec_dispatchCall_pushes (row : w.op = 0x1F) (room : th.stack.length < 8) :
    exec (.dispatchCall t) s = .next ((r.setThread t (some { th with
      stack := (th.pc + 1) :: th.stack, pc := (BitVec.ofNat 64 th.pc + (BitVec.ofNat 32 w.imm).signExtend 64).toNat,
      hold := .none })).dcount t w.op) := by
  rw [exec_issued (i := .dispatchCall t) rfl issue row, if_neg (Nat.not_le.2 room), ← th.target_eq]
  rfl

theorem exec_dispatchCall_full (row : w.op = 0x1F) (full : 8 ≤ th.stack.length) :
    exec (.dispatchCall t) s = .next ((r.endProgram t 0x05 0x07).dcount t w.op) := by
  rw [exec_issued (i := .dispatchCall t) rfl issue row, if_pos full]

theorem exec_dispatchRet_pops {pc : Nat} {rest : List Nat} (row : w.op = 0x20) (pushed : th.stack = pc :: rest) :
    exec (.dispatchRet t) s = .next ((r.setThread t (some { th with stack := rest, pc := pc, hold := .none })).dcount t w.op) := by
  rw [exec_issued (i := .dispatchRet t) rfl issue row]
  simp only [pushed]
  rfl

theorem exec_dispatchRet_empty (row : w.op = 0x20) (empty : th.stack = []) :
    exec (.dispatchRet t) s = .next ((r.endProgram t 0x05 0x07).dcount t w.op) := by
  rw [exec_issued (i := .dispatchRet t) rfl issue row]
  simp only [empty]

end

/-! ### Words that do not issue -/

section
variable {s u : State} {t op : Nat} {th : Thread} (act : Thread → DWord → State → State)

theorem State.dissue_none (empty : s.thread t = none) : s.dissue t op act = s := by
  simp only [State.dissue, empty]

variable (thread : s.thread t = some th)
include thread

theorem State.dissue_held (held : th.hold ≠ .none) (waits : th.hold ≠ .retry) : s.dissue t op act = s := by
  simp [State.dissue, thread, held, waits]

theorem State.dissue_other (other : s.dturn t = false) : s.dissue t op act = s := by
  simp [State.dissue, thread, other]

variable (ready : th.hold = .none ∨ th.hold = .retry) (turn : s.dturn t = true)
include ready turn

theorem State.dissue_beyond (beyond : (s.codeOf th).size ≤ th.pc) :
    s.dissue t op act = (s.firstIssue t th).endProgram t 0x05 0x07 := by
  simp [State.dissue, thread, ready, turn, beyond]

/-- What the word of a thread that is chosen does, once it is read (R396, R560). -/
theorem State.dissue_reads {b : List Byte} {bad : Bool} (inside : th.pc < (s.codeOf th).size)
    (read : s.memRead (s.wordAt (s.codeOf th) th.pc) 8 2 0 true = (b, bad, u)) :
    s.dissue t op act =
      if bad then ((u.firstIssue t th).consumedPoison).endProgram t 0x0A 0
      else if !(dword (BitVec.ofNat 64 (leNat b))).ok then (u.firstIssue t th).endProgram t 0x05 0x07
      else if (dword (BitVec.ofNat 64 (leNat b))).op ≠ op then s
      else (act { th with fresh := false } (dword (BitVec.ofNat 64 (leNat b))) (u.firstIssue t th)).dcount t op := by
  simp [State.dissue, thread, ready, turn, Nat.not_le.2 inside, read]

end

/-- Settles O38: branches by their condition, calls and returns by the stack, then what a word does that does not issue. -/
theorem dispatchBranchesAndIllegalWords : Obligations.DispatchBranchesAndIllegalWords := by
  unfold Obligations.DispatchBranchesAndIllegalWords
  refine ⟨fun s r t th w i op taken issue row => ?_, fun s r t th w issue => ?_, fun s u t th b bad i op rows => ?_⟩
  · intro x rows target
    have word (n : Nat) : th.r n = (x n).toNat := th.r_eq n
    simp only [List.mem_cons, List.not_mem_nil, or_false, Prod.mk.injEq] at rows
    rcases rows with ⟨rfl, rfl, rfl⟩ | ⟨rfl, rfl, rfl⟩ | ⟨rfl, rfl, rfl⟩ | ⟨rfl, rfl, rfl⟩ | ⟨rfl, rfl, rfl⟩ | ⟨rfl, rfl, rfl⟩ |
      ⟨rfl, rfl, rfl⟩ <;>
      refine exec_branches issue row rfl ?_
    · rfl
    · simp only [word, BitVec.toNat_inj]
      rfl
    · simp only [word, ne_eq, BitVec.toNat_inj, decide_not]
      rfl
    · simp only [word, sx_toNat]
      rfl
    · simp only [word, sx_toNat]
      rfl
    · simp only [word]
      rfl
    · simp only [word]
      rfl
  · exact ⟨exec_dispatchCall_pushes issue, exec_dispatchCall_full issue, fun pc rest => exec_dispatchRet_pops issue,
      exec_dispatchRet_empty issue⟩
  · obtain ⟨act, e⟩ : ∃ act, exec i s = .next (s.dissue t op act) := by
      simp only [List.mem_cons, List.not_mem_nil, or_false, Prod.mk.injEq] at rows
      casesm* _ ∨ _ <;> (obtain ⟨rfl, rfl⟩ := rows; exact ⟨_, rfl⟩)
    rw [e]
    refine ⟨fun empty => ?_, fun thread held waits => ?_, fun thread other => ?_, fun thread ready turn => ⟨fun beyond => ?_, fun inside read =>
      ⟨fun poisoned => ?_, fun clean illegal => ?_, fun clean legal other => ?_⟩⟩⟩
    · rw [State.dissue_none act empty]
    · rw [State.dissue_held act thread held waits]
    · rw [State.dissue_other act thread other]
    · rw [State.dissue_beyond act thread ready turn beyond]
    · rw [State.dissue_reads act thread ready turn inside read, if_pos poisoned]
    · rw [State.dissue_reads act thread ready turn inside read, if_neg (ne_true_of_eq_false clean), if_pos (by simp [illegal])]
    · rw [State.dissue_reads act thread ready turn inside read, if_neg (ne_true_of_eq_false clean), if_neg (by simp [legal]), if_pos other]

end Sys2Proof.Machine

/-! Semaphores and dumps of dispatch code: how each instruction of an issuing thread ends, which request a DUMP matches, and the end of a dump. -/

namespace Sys2Proof.Machine

/-! ### SIGNAL and WAIT -/

/-- A semaphore operand or count that SIGNAL and WAIT refuse (R178, R397). -/
def badSem (x n : Nat) : Bool := semLayoutBad x || decide (2 ^ 48 ≤ n)

/-- Does a semaphore operand name another node (R178)? -/
def State.remoteSem (r : State) (x : Nat) : Bool := x.testBit 31 && decide (nfld x 23 16 ≠ r.con.node)

section
variable {s r u : State} {t : Fin 128} {th : Thread} {w : DWord} (issue : s.DIssues t th w r)
include issue

section
variable (row : w.op = 0x38)
include row

theorem exec_dispatchSignal_bad (bad : badSem (th.r w.a) (th.r w.b) = true) :
    exec (.dispatchSignal t) s = .next ((r.endProgram t 0x05 0x07).dcount t w.op) := by
  rw [badSem] at bad
  rw [exec_issued (i := .dispatchSignal t) rfl issue row]
  simp only [bad, if_true]

/-- The state in which Mainline has taken a remote SIGNAL, where it takes it (R397, R425). -/
def State.signalSent (r : State) (th : Thread) (x n : Nat) : Option State :=
  r.mlnAccept (r.signalMsg (r.threadSignaller th) (nfld x 23 16) (x % 2 ^ 16) n) 192 (r.flowsOf th.cmd)

variable (good : badSem (th.r w.a) (th.r w.b) = false)
include good

theorem exec_dispatchSignal_sent (there : r.remoteSem (th.r w.a) = true) (sent : r.signalSent th (th.r w.a) (th.r w.b) = some u) :
    exec (.dispatchSignal t) s = .next ((u.setThread t (some (th.w w.d stOk).next)).dcount t w.op) := by
  rw [badSem] at good
  rw [State.remoteSem] at there
  rw [State.signalSent] at sent
  rw [exec_issued (i := .dispatchSignal t) rfl issue row]
  simp only [good, there, sent, Bool.false_eq_true, if_false, if_true]

theorem exec_dispatchSignal_waits (there : r.remoteSem (th.r w.a) = true) (sent : r.signalSent th (th.r w.a) (th.r w.b) = none) :
    exec (.dispatchSignal t) s = .next ((r.setThread t (some { th with hold := .retry })).dcount t w.op) := by
  rw [badSem] at good
  rw [State.remoteSem] at there
  rw [State.signalSent] at sent
  rw [exec_issued (i := .dispatchSignal t) rfl issue row]
  simp only [good, there, sent, Bool.false_eq_true, if_false, if_true, State.dhold]

theorem exec_dispatchSignal_local {st : Nat} {y : Thread} (here : r.remoteSem (th.r w.a) = false)
    (done : (r.setThread t (some th.next)).semSignal (th.r w.a % 2 ^ 16) (th.r w.b) (r.threadSignaller th) = (st, u))
    (left : u.thread t = some y) :
    exec (.dispatchSignal t) s = .next ((u.setThread t (some (y.w w.d st))).dcount t w.op) := by
  rw [badSem] at good
  rw [State.remoteSem] at here
  rw [exec_issued (i := .dispatchSignal t) rfl issue row]
  simp only [good, here, done, left, Bool.false_eq_true, if_false]

end

section
variable (row : w.op = 0x39)
include row

theorem exec_dispatchWait_bad (bad : badSem (th.r w.a) (th.r w.b) = true) :
    exec (.dispatchWait t) s = .next ((r.endProgram t 0x05 0x07).dcount t w.op) := by
  rw [badSem] at bad
  rw [exec_issued (i := .dispatchWait t) rfl issue row]
  simp only [bad, if_true]

variable (good : badSem (th.r w.a) (th.r w.b) = false)
include good

theorem exec_dispatchWait_remote (there : r.remoteSem (th.r w.a) = true) :
    exec (.dispatchWait t) s = .next ((r.endProgram t 0x05 0x01).dcount t w.op) := by
  rw [badSem] at good
  rw [State.remoteSem] at there
  rw [exec_issued (i := .dispatchWait t) rfl issue row]
  simp only [good, there, Bool.false_eq_true, if_false, if_true]

variable (here : r.remoteSem (th.r w.a) = false)
include here

theorem exec_dispatchWait_answers {st : Nat}
    (wait : r.semWait (th.r w.a % 2 ^ 16) (r.tenantOf th.ctx) ⟨1, th.ctx, t, th.r w.b, r.now, w.d⟩ = (some st, u)) :
    exec (.dispatchWait t) s = .next ((u.setThread t (some (th.w w.d st).next)).dcount t w.op) := by
  rw [badSem] at good
  rw [State.remoteSem] at here
  rw [exec_issued (i := .dispatchWait t) rfl issue row]
  simp only [good, here, wait, Bool.false_eq_true, if_false]

theorem exec_dispatchWait_joins
    (wait : r.semWait (th.r w.a % 2 ^ 16) (r.tenantOf th.ctx) ⟨1, th.ctx, t, th.r w.b, r.now, w.d⟩ = (none, u)) :
    exec (.dispatchWait t) s = .next ((u.setThread t (some { th with hold := .sem, dest := w.d })).dcount t w.op) := by
  rw [badSem] at good
  rw [State.remoteSem] at here
  rw [exec_issued (i := .dispatchWait t) rfl issue row]
  simp only [good, here, wait, Bool.false_eq_true, if_false]

end

/-! ### DUMP -/

section
variable (row : w.op = 0x48)
include row

theorem exec_dispDump_unmatched (none_ : r.dumpMatch th w = none) :
    exec (.dispDump t) s = .next ((r.setThread t (some th.next)).dcount t w.op) := by
  rw [exec_issued (i := .dispDump t) rfl issue row]
  simp only [none_]

/-- DUMP with a match disarms the request and holds its thread until the dump is done (R624, R625). -/
theorem exec_dispDump_matched {i : Nat} (found : r.dumpMatch th w = some i) :
    exec (.dispDump t) s =
      let x : Dumping := ⟨t, i, r.rd (R.dbgDumpCfg i), r.fld (R.dbgDumpDest i) 55 0, w.imm, th.r w.d, th.r w.a, th.r w.b⟩
      let u := (r.clrFlag (R.dbgDumpCfg i) 63).setThread t (some { th with hold := .dump })
      .next ({ u with dbg := { u.dbg with dumps := u.dbg.dumps ++ [x] } }.dcount t w.op) := by
  rw [exec_issued (i := .dispDump t) rfl issue row]
  simp only [found]

end

end

/-- The request a DUMP of the thread may match (R625). -/
def State.dumpFits (s : State) (th : Thread) (w : DWord) (j : Nat) : Prop :=
  s.flag (R.dbgDumpCfg j) 63 = true ∧ s.fld (R.dbgDumpId j) 31 0 = w.imm ∧ (s.rd (R.dbgDumpStep j)).toNat = th.r w.d ∧
    (s.flag (R.dbgDumpCfg j) 62 = true ∨ s.fld (R.dbgDumpCfg j) 61 50 = th.ctx)

/-- DUMP matches the lowest request that fits (R625). -/
theorem State.dumpMatch_eq_some {s : State} {th : Thread} {w : DWord} {i : Nat} :
    s.dumpMatch th w = some i ↔ i < 16 ∧ s.dumpFits th w i ∧ ∀ j < i, ¬s.dumpFits th w j := by
  have fits (j : Nat) : (bit (s.rd (R.dbgDumpCfg j)) 63 && s.fld (R.dbgDumpId j) 31 0 = w.imm && (s.rd (R.dbgDumpStep j)).toNat = th.r w.d &&
      (bit (s.rd (R.dbgDumpCfg j)) 62 || Machine.fld (s.rd (R.dbgDumpCfg j)) 61 50 = th.ctx)) = true ↔ s.dumpFits th w j := by
    simp only [Bool.and_eq_true, Bool.or_eq_true, decide_eq_true_eq, and_assoc]
    rfl
  rw [State.dumpMatch, List.find?_range_eq_some]
  simp only [fits, List.mem_range, Bool.not_eq_true', ← Bool.not_eq_true]
  exact and_left_comm

/-! ### DUMP_DONE -/

section
variable {s : State} {t : Fin 128} {host : HostData}

theorem exec_dumpDone_none (free : (s.hostIn host).dbg.dumps.find? (fun x => x.thread = (t : Nat)) = none) :
    exec (.dumpDone t host) s = .next (s.hostIn host).hostOut := by
  show execDumpDone t host s = _
  simp only [execDumpDone, State.withHost, free]

/-- The state in which the dump of a thread is forgotten. -/
def State.dumpForgotten (h : State) (t : Nat) : State :=
  { h with dbg := { h.dbg with dumps := h.dbg.dumps.filter (fun y => !decide (y.thread = t)) } }

section
variable {x : Dumping} (found : (s.hostIn host).dbg.dumps.find? (fun x => x.thread = (t : Nat)) = some x)
include found

theorem exec_dumpDone_gone (gone : (s.hostIn host).thread t = none) :
    exec (.dumpDone t host) s = .next ((s.hostIn host).dumpForgotten t).hostOut := by
  show execDumpDone t host s = _
  simp only [execDumpDone, State.withHost, found, gone, State.dumpForgotten]

variable {th : Thread} (thread : (s.hostIn host).thread t = some th)
include thread

theorem exec_dumpDone_left (left : th.hold ≠ .dump) :
    exec (.dumpDone t host) s = .next ((s.hostIn host).dumpForgotten t).hostOut := by
  show execDumpDone t host s = _
  simp only [execDumpDone, State.withHost, found, thread, left, State.dumpForgotten, ne_eq, not_false_eq_true, decide_true, if_true]

theorem exec_dumpDone_waits (held : th.hold = .dump) (busy : (s.hostIn host).programBusy th = true) :
    exec (.dumpDone t host) s = .next (s.hostIn host).hostOut := by
  show execDumpDone t host s = _
  simp only [execDumpDone, State.withHost, found, thread, held, busy, ne_eq, not_true_eq_false, decide_false, Bool.false_eq_true, if_false, if_true]

theorem exec_dumpDone_writes (held : th.hold = .dump) (idle : (s.hostIn host).programBusy th = false) :
    exec (.dumpDone t host) s = .next (((s.hostIn host).dumpForgotten t).dumpWrite t x th).hostOut := by
  show execDumpDone t host s = _
  simp only [execDumpDone, State.withHost, found, thread, held, idle, State.dumpForgotten, ne_eq, not_true_eq_false, decide_false,
    Bool.false_eq_true, if_false]

end

end

/-! ### The obligation -/

/-- Settles O40, instruction by instruction, then by what DUMP matches and how a dump ends. -/
theorem dispatchSemaphoresAndDumps : Obligations.DispatchSemaphoresAndDumps := by
  unfold Obligations.DispatchSemaphoresAndDumps
  refine ⟨fun s r t th w issue rows => ⟨fun bad => ⟨fun row => exec_dispatchSignal_bad issue row bad,
    fun row => exec_dispatchWait_bad issue row bad⟩, fun good row => ⟨fun u => exec_dispatchSignal_sent issue row good,
    exec_dispatchSignal_waits issue row good, fun st u y => exec_dispatchSignal_local issue row good⟩, fun good row =>
    ⟨exec_dispatchWait_remote issue row good, fun st u here => exec_dispatchWait_answers issue row good here,
      fun u here => exec_dispatchWait_joins issue row good here⟩⟩,
    fun s r t th w issue row => ⟨exec_dispDump_unmatched issue row, fun i => exec_dispDump_matched issue row⟩,
    fun s th w i => State.dumpMatch_eq_some, fun s t host => ⟨exec_dumpDone_none, fun x found => ⟨exec_dumpDone_gone found,
      fun th => exec_dumpDone_left found, fun th => exec_dumpDone_waits found, fun th => exec_dumpDone_writes found⟩⟩⟩

end Sys2Proof.Machine

/-! Doorbells, QUE_CFG and what else the host writes to a queue: how each ends. -/

namespace Sys2Proof.Machine

/-! ### Doorbells -/

section
variable {s : State} {fn : Fin 64} {q : Fin 16384} {size : Fin 9} {v : Word}

section
variable (exists_ : s.fnExists fn = true) (awake : SMap.get false s.pci.d3 fn = false) (runs : 2 ≤ s.fld R.conStatus 3 0)
  (undrained : s.drained = false) (on : s.boot.stopped = false)
include exists_ awake runs undrained on

/-- A doorbell that the part hears is counted where it is malformed or foreign, and else acts (R373, R485). -/
theorem State.doorbell_heard (act : State → State) :
    s.doorbell fn q size act =
      if (size : Nat) ≠ 8 then s.count R.pciDbMalformed 32 1
      else if s.qFunc q ≠ fn then s.count R.dspDbForeign 32 1
      else act s := by
  simp [State.doorbell, exists_, awake, undrained, on, Nat.not_le.2 runs]

theorem State.doorbell_malformed (short : (size : Nat) ≠ 8) (act : State → State) :
    s.doorbell fn q size act = s.count R.pciDbMalformed 32 1 := by
  rw [State.doorbell_heard exists_ awake runs undrained on, if_pos short]

variable (whole : (size : Nat) = 8)
include whole

theorem State.doorbell_foreign (foreign_ : s.qFunc q ≠ fn) (act : State → State) :
    s.doorbell fn q size act = s.count R.dspDbForeign 32 1 := by
  rw [State.doorbell_heard exists_ awake runs undrained on, if_neg (not_not.2 whole), if_pos foreign_]

theorem State.doorbell_own (own : s.qFunc q = fn) (act : State → State) : s.doorbell fn q size act = act s := by
  rw [State.doorbell_heard exists_ awake runs undrained on, if_neg (not_not.2 whole), if_neg (not_not.2 own)]

end

theorem State.doorbell_noFunction (missing : s.fnExists fn = false) (runs : 2 ≤ s.fld R.conStatus 3 0) (undrained : s.drained = false)
    (on : s.boot.stopped = false) (act : State → State) : s.doorbell fn q size act = s.aerLog := by
  simp [State.doorbell, missing, undrained, on, Nat.not_le.2 runs]

end

/-- What a doorbell of its owner makes of a queue's tail (R373). -/
def State.sqTail (s : State) (q : Nat) (v : Word) : State :=
  if !s.qEnable q || decide (s.sqSize q ≤ v.toNat) then s.dbError q
  else if (v.toNat + s.sqSize q - s.fld (R.queSqHead q) 15 0) % s.sqSize q < s.unfetched q then s.dbError q
  else s.wr (R.queSqTail q) (BitVec.ofNat 64 v.toNat)

section
variable {s : State} {q : Nat} {v : Word}

theorem State.sqTail_taken (enabled : s.qEnable q = true) (below : v.toNat < s.sqSize q)
    (forward : s.unfetched q ≤ (v.toNat + s.sqSize q - s.fld (R.queSqHead q) 15 0) % s.sqSize q) :
    s.sqTail q v = s.wr (R.queSqTail q) v := by
  rw [State.sqTail, if_neg (by simp [enabled, below]), if_neg (Nat.not_lt.2 forward), BitVec.ofNat_toNat, BitVec.setWidth_eq]

theorem State.sqTail_refused (bad : s.qEnable q = false ∨ s.sqSize q ≤ v.toNat ∨
      (v.toNat + s.sqSize q - s.fld (R.queSqHead q) 15 0) % s.sqSize q < s.unfetched q) :
    s.sqTail q v = s.setFlag (R.queStatus q) 6 := by
  rcases bad with off | beyond | back
  · exact if_pos (by simp [off])
  · exact if_pos (by simp [beyond])
  · exact (congrArg _ (if_pos back)).trans (ite_self _)

theorem State.cqHead_taken (enabled : s.qEnable q = true) (below : v.toNat < s.cqSize q)
    (written : (v.toNat + s.cqSize q - s.fld (R.queCqHead q) 15 0) % s.cqSize q ≤
      (s.fld (R.queCqTail q) 15 0 + s.cqSize q - s.fld (R.queCqHead q) 15 0) % s.cqSize q) :
    s.cqHead q v = s.wr (R.queCqHead q) v := by
  rw [State.cqHead, if_neg (by simp [enabled, below]), if_neg (Nat.not_lt.2 written), BitVec.ofNat_toNat, BitVec.setWidth_eq]

theorem State.cqHead_refused (bad : s.qEnable q = false ∨ s.cqSize q ≤ v.toNat ∨
      (s.fld (R.queCqTail q) 15 0 + s.cqSize q - s.fld (R.queCqHead q) 15 0) % s.cqSize q <
        (v.toNat + s.cqSize q - s.fld (R.queCqHead q) 15 0) % s.cqSize q) :
    s.cqHead q v = s.setFlag (R.queStatus q) 6 := by
  rcases bad with off | beyond | past
  · exact if_pos (by simp [off])
  · exact if_pos (by simp [beyond])
  · exact (congrArg _ (if_pos past)).trans (ite_self _)

end

theorem exec_sqTail (fn : Fin 64) (q : Fin 16384) (size : Fin 9) (v : Word) (s : State) :
    exec (.sqTail fn q size v) s = .next (s.doorbell fn q size fun s => s.sqTail q v) := rfl

theorem exec_cqHead_doorbell (fn : Fin 64) (q : Fin 16384) (size : Fin 9) (v : Word) (s : State) :
    exec (.cqHead fn q size false v) s = .next (s.doorbell fn q size fun s => s.cqHead q v) := rfl

theorem exec_cqHead_register {s : State} {fn : Fin 64} {q : Fin 16384} (served : s.Serves fn (R.queCqHead q) true) (size : Fin 9) (v : Word) :
    exec (.cqHead fn q size true v) s = .next (s.cqHead q v) := by
  show execCqHead fn q size true v s = _
  rw [execCqHead, if_pos rfl, State.mmio_serves served]

/-! ### Registers written in a row -/

/-- Registers written one after the other. -/
def State.wrAll (s : State) (l : List (Nat × Word)) : State := l.foldl (fun t e => t.wr e.1 e.2) s

theorem State.wrAll_regsOnly (s : State) (l : List (Nat × Word)) : s.wrAll l = { s with regs := (s.wrAll l).regs } := by
  induction l generalizing s with
  | nil => rfl
  | cons e l ih => exact ih (s.wr e.1 e.2)

theorem State.rd_wrAll_ne {s : State} (r : s.RegsRise) {off : Nat} {l : List (Nat × Word)} (other : off ∉ l.map Prod.fst) :
    (s.wrAll l).rd off = s.rd off := by
  induction l generalizing s with
  | nil => rfl
  | cons e l ih =>
    rw [List.map_cons, List.mem_cons, not_or] at other
    exact (ih (State.wr_rise r _ _) other.2).trans (State.rd_wr_ne r _ other.1)

theorem State.rd_wrAll_same {s : State} (r : s.RegsRise) {off : Nat} {v : Word} {l : List (Nat × Word)}
    (once : (l.map Prod.fst).Nodup) (listed : (off, v) ∈ l) : (s.wrAll l).rd off = v := by
  induction l generalizing s with
  | nil => cases listed
  | cons e l ih =>
    rw [List.map_cons, List.nodup_cons] at once
    rcases List.mem_cons.1 listed with rfl | later
    · exact (State.rd_wrAll_ne (State.wr_rise r _ _) once.1).trans (State.rd_wr_same r _ _)
    · exact ih (State.wr_rise r _ _) once.2 later

/-! ### QUE_CFG -/

/-- What a queue's registers hold once QUE_CFG has started it (R371, R374). -/
def freshQueue (q : Nat) (v : Word) : List (Nat × Word) :=
  [(R.queCfg q, v &&& 0xFFFF003F1F1F007F), (R.queSqTail q, 0), (R.queSqHead q, 0), (R.queCqTail q, 0x10000), (R.queCqHead q, 0),
    (R.queInflight q, 0), (R.queCompleted q, 0), (R.queLost q, 0)]

theorem freshQueue_nodup (q : Nat) (v : Word) : ((freshQueue q v).map Prod.fst).Nodup := by
  simp [freshQueue, R.queCfg, R.queSqTail, R.queSqHead, R.queCqTail, R.queCqHead, R.queInflight, R.queCompleted, R.queLost]

section
variable {s : State} {fn : Fin 64} {q : Fin 16384} {v : Word} (served : s.Serves fn (R.queCfg q) true)
include served

theorem exec_queueEnable_idle (idle : s.qEnable q = true ∨ v.getLsbD 63 = false) : exec (.queueEnable fn q v) s = .next s := by
  show execQueueEnable fn q v s = _
  rw [execQueueEnable, State.mmio_serves served]
  exact congrArg _ (if_pos (by simpa [bit] using idle))

variable (stopped : s.qEnable q = false) (asked : v.getLsbD 63 = true)
include stopped asked

theorem exec_queueEnable_busy (bad : 0 < s.qInflight q ∨ s.queCfgOk q v = false) :
    exec (.queueEnable fn q v) s = .next (s.setFlag (R.queStatus q) 7) := by
  show execQueueEnable fn q v s = _
  rw [execQueueEnable, State.mmio_serves served]
  refine congrArg _ ((if_neg (by simp [bit, stopped, asked])).trans (if_pos ?_))
  simpa [State.qStopped, stopped, Nat.pos_iff_ne_zero] using bad

/-- QUE_CFG starts a stopped queue empty (R371, R374, R419). -/
theorem exec_queueEnable_starts (empty : s.qInflight q = 0) (legal : s.queCfgOk q v = true) :
    exec (.queueEnable fn q v) s = .next ((s.wrAll (freshQueue q v)).setQueue q ⟨0, [], none, none, 0⟩) := by
  show execQueueEnable fn q v s = _
  rw [execQueueEnable, State.mmio_serves served]
  refine congrArg _ ((if_neg (by simp [bit, stopped, asked])).trans ((if_neg ?_).trans rfl))
  simp [State.qStopped, stopped, empty, legal]

end

@[simp] theorem State.rd_setQueue (s : State) (q : Nat) (x : QueueSt) (off : Nat) : (s.setQueue q x).rd off = s.rd off := rfl

/-- Starting a queue leaves its registers as `freshQueue` lists them, and every other register as it was. -/
theorem freshQueue_rd {s : State} (canon : s.Canon) {q off : Nat} {v x : Word} (listed : (off, x) ∈ freshQueue q v) :
    ((s.wrAll (freshQueue q v)).setQueue q ⟨0, [], none, none, 0⟩).rd off = x := by
  rw [State.rd_setQueue]
  exact State.rd_wrAll_same canon.rise (freshQueue_nodup q v) listed

theorem freshQueue_rd_ne {s : State} (canon : s.Canon) {q off : Nat} {v : Word} (other : off ∉ (freshQueue q v).map Prod.fst) :
    ((s.wrAll (freshQueue q v)).setQueue q ⟨0, [], none, none, 0⟩).rd off = s.rd off := by
  rw [State.rd_setQueue]
  exact State.rd_wrAll_ne canon.rise other

theorem exec_sqFaultClear {s : State} {fn : Fin 64} {q : Fin 16384} (served : s.Serves fn (R.queStatus q) true) :
    exec (.sqFaultClear fn q) s = .next (s.clrFlag (R.queStatus q) 5) := by
  show execSqFaultClear fn q s = _
  rw [execSqFaultClear, State.mmio_serves served]

theorem exec_hold {s : State} {fn : Fin 64} (served : s.Serves fn R.dspControl true) (on : Bool) :
    exec (.hold fn on) s = .next (s.wr R.dspControl (if on then 1 else 0)) := by
  show execHold fn on s = _
  rw [execHold, State.mmio_serves served]

section
variable {s : State} {fn : Fin 64} {q : Fin 16384} (served : s.Serves fn (R.queCfg q) true)
include served

theorem exec_queueDisable_idle (idle : s.qEnable q = false) : exec (.queueDisable fn q) s = .next s := by
  show execQueueDisable fn q s = _
  rw [execQueueDisable, State.mmio_serves served, if_neg (ne_true_of_eq_false idle)]

variable (canon : s.Canon) (enabled : s.qEnable q = true)
include canon enabled

/-- A queue that stops fetches no more; where its completions are blocked, those that wait are discarded and counted (R374, R388). -/
theorem exec_queueDisable_stops : exec (.queueDisable fn q) s = .next (
    let u := s.clrFlag (R.queCfg q) 63
    let gone := (s.queue q).overflow.toList ++ (s.queue q).done
    let w := (u.setQueue q { s.queue q with overflow := none, done := [] }).clrFlag (R.queStatus q) 4
    if s.flag (R.queStatus q) 4 = false then u
    else ((gone.foldl (fun t id => t.dropCmd q id) w).count (R.queLost q) 32 gone.length).rled 11 gone.length) := by
  have status : (s.clrFlag (R.queCfg q) 63).flag (R.queStatus q) 4 = s.flag (R.queStatus q) 4 := by
    rw [State.flag, State.clrFlag, State.rd_setFld_ne canon.rise _ _ _ (by simp [R.queStatus, R.queCfg])]
    rfl
  show execQueueDisable fn q s = _
  rw [execQueueDisable, State.mmio_serves served, if_pos enabled, State.queueOff]
  simp only [status, Bool.not_eq_true']
  rfl

end

/-! ### The obligation -/

/-- Settles O30: doorbells by how they are heard and judged, then QUE_CFG and the other writes. -/
theorem queueDoorbellsAndEnabling : Obligations.QueueDoorbellsAndEnabling := by
  unfold Obligations.QueueDoorbellsAndEnabling
  refine ⟨fun s fn q size v exists_ awake runs undrained on => ?_, fun s fn q size v served => ?_, fun s fn q v canon served => ?_,
    fun s fn q canon served => ?_, fun s fn q size v missing runs undrained on => ?_, fun s fn q served => ?_, fun s fn on served => ?_⟩
  · intro n m head old
    rw [exec_sqTail, exec_cqHead_doorbell]
    refine ⟨fun short => ?_, fun whole foreign_ => ?_, fun whole own => ?_⟩
    · rw [State.doorbell_malformed exists_ awake runs undrained on short, State.doorbell_malformed exists_ awake runs undrained on short]
      exact ⟨rfl, rfl⟩
    · rw [State.doorbell_foreign exists_ awake runs undrained on whole foreign_,
        State.doorbell_foreign exists_ awake runs undrained on whole foreign_]
      exact ⟨rfl, rfl⟩
    · rw [State.doorbell_own exists_ awake runs undrained on whole own, State.doorbell_own exists_ awake runs undrained on whole own]
      exact ⟨fun enabled below forward => congrArg _ (State.sqTail_taken enabled below forward),
        fun bad => congrArg _ (State.sqTail_refused bad),
        fun enabled below written => congrArg _ (State.cqHead_taken enabled below written),
        fun bad => congrArg _ (State.cqHead_refused bad)⟩
  · exact exec_cqHead_register served size v
  · refine ⟨exec_queueEnable_idle served, exec_queueEnable_busy served, fun stopped asked empty legal =>
      ⟨_, exec_queueEnable_starts served stopped asked empty legal, ?_⟩⟩
    refine ⟨freshQueue_rd canon ?_, freshQueue_rd canon ?_, freshQueue_rd canon ?_, freshQueue_rd canon ?_, freshQueue_rd canon ?_,
      freshQueue_rd canon ?_, freshQueue_rd canon ?_, freshQueue_rd canon ?_, fun off other => freshQueue_rd_ne canon other, ?_⟩
    any_goals simp only [freshQueue, List.mem_cons, true_or, or_true]
    rw [State.wrAll_regsOnly]
    rfl
  · intro u
    refine ⟨exec_queueDisable_idle served, fun enabled free => ?_, fun enabled blocked => ?_⟩
    · rw [exec_queueDisable_stops served canon enabled]
      exact congrArg _ (if_pos free)
    · rw [exec_queueDisable_stops served canon enabled]
      exact congrArg _ (if_neg (ne_false_of_eq_true blocked))
  · rw [exec_sqTail, exec_cqHead_doorbell, State.doorbell_noFunction missing runs undrained on, State.doorbell_noFunction missing runs undrained on]
    exact ⟨rfl, rfl⟩
  · exact exec_sqFaultClear served
  · exact exec_hold served on

end Sys2Proof.Machine

/-! Fetching: which queue is served, how the read of its next entry ends, and what the checks make of an entry. -/

namespace Sys2Proof.Machine

/-! ### Whose turn it is -/

/-- A queue of a kind served before that of `q`, or before `q` in the rotation of its kind (R375). -/
def State.servedBefore (s : State) (q r : Nat) : Prop := s.qRank r < s.qRank q ∨ (s.qRank r = s.qRank q ∧ s.qTurn r < s.qTurn q)

theorem State.nextQueue_iff {s : State} {q : Nat} :
    s.nextQueue q = true ↔ s.mayFetch q = true ∧ ∀ r ∈ s.enabledQueues, s.servedBefore q r → s.mayFetch r = false := by
  simp only [State.nextQueue, State.servedBefore, Bool.and_eq_true, Bool.not_eq_true', List.any_eq_false, Bool.or_eq_true, decide_eq_true_eq,
    not_and, Bool.not_eq_true]

/-! ### The read of an entry -/

/-- The eight words in 64 bytes. -/
def entryWords (b : List Byte) : List Nat := (List.range 8).map fun i => leNat ((b.drop (8 * i)).take 8)

/-- Does a switch or HOLD hold an entry (R35, R409)? -/
def State.holdsEntry (s : State) (words : List Nat) : Bool := s.holding && !switchLets words

theorem State.takeWords_eq (s : State) (q : Nat) (b : List Byte) :
    s.takeWords q b = if s.holdsEntry (entryWords b) then s else s.takeEntry q (entryWords b) := rfl

/-- Where the next entry of a queue lies in its ring (R371). -/
def State.sqAddr (s : State) (q : Nat) : Nat := (s.rd (R.queSqBase q)).toNat + 64 * s.fld (R.queSqHead q) 15 0

section
variable {s : State} {q : Fin 16384} {data : BitVec 512} {e : HostEnd}

theorem exec_entryFetch_waits (waits : ¬s.nextQueue q = true) : exec (.entryFetch q data e) s = .next s :=
  congrArg _ (if_pos (by simpa using waits))

section
variable (turn : s.nextQueue q = true)
include turn

/-- A queue whose turn it is reads its next entry from host memory or from device memory (R375). -/
theorem exec_entryFetch_serves : exec (.entryFetch q data e) s = .next (
    let u := s.serve q
    if u.flag (R.queCfg q) 60 then
      if e = .ok then u.takeWords q (leBytes 64 data.toNat)
      else (u.hostError (u.qFunc q) 0 0 (u.sqAddr q) e).sqFault q
    else if localEnd < u.sqAddr q + 64 then u.sqFault q
    else
      let m := u.memRead (u.sqAddr q) 64 2 0 true
      if m.2.1 then m.2.2.consumedPoison.sqFault q else m.2.2.takeWords q m.1) :=
  congrArg _ (if_neg (by simpa using turn))

section
variable (host : (s.serve q).flag (R.queCfg q) 60 = true)
include host

theorem exec_entryFetch_host_takes (ok : e = .ok) :
    exec (.entryFetch q data e) s = .next ((s.serve q).takeWords q (leBytes 64 data.toNat)) := by
  rw [exec_entryFetch_serves turn]
  exact congrArg _ ((if_pos host).trans (if_pos ok))

theorem exec_entryFetch_host_fails (bad : e ≠ .ok) :
    exec (.entryFetch q data e) s =
      .next (((s.serve q).hostError ((s.serve q).qFunc q) 0 0 ((s.serve q).sqAddr q) e).sqFault q) := by
  rw [exec_entryFetch_serves turn]
  exact congrArg _ ((if_pos host).trans (if_neg bad))

end

section
variable (device : (s.serve q).flag (R.queCfg q) 60 = false)
include device

theorem exec_entryFetch_outside (outside : localEnd < (s.serve q).sqAddr q + 64) :
    exec (.entryFetch q data e) s = .next ((s.serve q).sqFault q) := by
  rw [exec_entryFetch_serves turn]
  exact congrArg _ ((if_neg (ne_true_of_eq_false device)).trans (if_pos outside))

theorem exec_entryFetch_device {b : List Byte} {bad : Bool} {t : State} (inside : (s.serve q).sqAddr q + 64 ≤ localEnd)
    (read : (s.serve q).memRead ((s.serve q).sqAddr q) 64 2 0 true = (b, bad, t)) :
    exec (.entryFetch q data e) s = .next (if bad then t.consumedPoison.sqFault q else t.takeWords q b) := by
  rw [exec_entryFetch_serves turn]
  refine congrArg _ ((if_neg (ne_true_of_eq_false device)).trans ((if_neg (Nat.not_lt.2 inside)).trans ?_))
  simp only [read]

end

end

end

/-! ### The checks of an entry -/

/-- An entry of a context that is not its queue's function's, or is FREE or RETIRED (R380). -/
abbrev State.foreignEntry (t : State) (q : Nat) (c : Cmd) : Prop :=
  usesContext c.opcode = true ∧ (t.tenantOf c.ctx ≠ t.qFunc q ∨ t.ctxState c.ctx = 0 ∨ t.ctxState c.ctx = 3)

/-- An entry of a context that is RETIRING (R528). -/
abbrev State.retiringEntry (t : State) (c : Cmd) : Prop := usesContext c.opcode = true ∧ t.ctxState c.ctx = 2

/-- A lane-admitted entry of a scheduled queue without a deadline (R377, R380). -/
abbrev State.lateEntry (t : State) (q : Nat) (c : Cmd) : Prop := t.qSched q = true ∧ laneOpcode c.opcode = true ∧ c.deadline = 0

/-- The checks of R380 and R528 in their order. -/
theorem State.entryCheck_eq (t : State) (q : Nat) (c : Cmd) :
    t.entryCheck q c =
      if c.illegal (t.qAdmin q) = true then some ⟨0x05, mkDetail 0xFFFF 0 0x07⟩
      else if t.foreignEntry q c then some ⟨0x04, mkDetail 0xFFFF 0 0x10⟩
      else if t.retiringEntry c then some ⟨0x06, mkDetail 0xFFFF 0 0⟩
      else if t.lateEntry q c then some ⟨0x01, mkDetail 0xFFFF 0 0x4⟩
      else none := by
  simp only [State.entryCheck, State.foreignEntry, State.retiringEntry, State.lateEntry, Bool.and_eq_true, Bool.or_eq_true, decide_eq_true_eq,
    or_assoc, and_assoc]

section
variable {t : State} {q : Nat} {c : Cmd}

theorem State.entryCheck_illegal (bad : c.illegal (t.qAdmin q) = true) : t.entryCheck q c = some ⟨0x05, mkDetail 0xFFFF 0 0x07⟩ := by
  rw [State.entryCheck_eq, if_pos bad]

variable (good : c.illegal (t.qAdmin q) = false)
include good

theorem State.entryCheck_foreign (out : t.foreignEntry q c) : t.entryCheck q c = some ⟨0x04, mkDetail 0xFFFF 0 0x10⟩ := by
  rw [State.entryCheck_eq, if_neg (ne_true_of_eq_false good), if_pos out]

variable (own : ¬t.foreignEntry q c)
include own

theorem State.entryCheck_retiring (leaving : t.retiringEntry c) : t.entryCheck q c = some ⟨0x06, mkDetail 0xFFFF 0 0⟩ := by
  rw [State.entryCheck_eq, if_neg (ne_true_of_eq_false good), if_neg own, if_pos leaving]

variable (stays : ¬t.retiringEntry c)
include stays

theorem State.entryCheck_late (late : t.lateEntry q c) : t.entryCheck q c = some ⟨0x01, mkDetail 0xFFFF 0 0x4⟩ := by
  rw [State.entryCheck_eq, if_neg (ne_true_of_eq_false good), if_neg own, if_neg stays, if_pos late]

theorem State.entryCheck_fine (timely : ¬t.lateEntry q c) : t.entryCheck q c = none := by
  rw [State.entryCheck_eq, if_neg (ne_true_of_eq_false good), if_neg own, if_neg stays, if_neg timely]

end

section
variable {s : State} {q : Nat} {words : List Nat}

/-- An entry that its check refuses ends at once (R380). -/
theorem State.takeEntry_refused {st d : Nat} (check : (s.fetched q).entryCheck q (s.entryOf q words) = some ⟨st, d⟩) (other : st ≠ 0x06) :
    s.takeEntry q words = ((s.fetched q).setCmd s.dsp.nextCmd (some (s.entryOf q words))).endCmd s.dsp.nextCmd st d := by
  simp only [State.takeEntry, check, other, if_false]

/-- An entry of a retiring context is counted among those aborted, and ends at once (R528). -/
theorem State.takeEntry_aborted {d : Nat} (check : (s.fetched q).entryCheck q (s.entryOf q words) = some ⟨0x06, d⟩) :
    s.takeEntry q words = (((s.fetched q).count (R.ctxAborted (s.entryOf q words).ctx) 32 1).setCmd s.dsp.nextCmd
      (some (s.entryOf q words))).endCmd s.dsp.nextCmd 0x06 d := by
  simp only [State.takeEntry, check, if_true]

/-- An entry that passes is held, with the next number of its context where it uses one (R525). -/
theorem State.takeEntry_held (check : (s.fetched q).entryCheck q (s.entryOf q words) = none) :
    s.takeEntry q words =
      let c := s.entryOf q words
      let t := s.fetched q
      if usesContext c.opcode then
        (t.count (R.ctxEpochFetched c.ctx) 64 1).setCmd s.dsp.nextCmd
          (some { c with number := (t.rd (R.ctxEpochFetched c.ctx)).toNat + 1 })
      else t.setCmd s.dsp.nextCmd (some c) := by
  simp only [State.takeEntry, check]

end

/-! ### The obligation -/

/-- Settles O31: the queue whose turn it is, the read of its entry, then the checks in R380's order. -/
theorem entriesAreFetchedAndChecked : Obligations.EntriesAreFetchedAndChecked := by
  unfold Obligations.EntriesAreFetchedAndChecked
  refine ⟨fun s q data e => ?_, fun s q words => ?_⟩
  · intro u a held wordsOf before
    refine ⟨fun idle => ?_, fun ⟨r, enabled, first, may⟩ => ?_, fun may last => ?_⟩
    · exact exec_entryFetch_waits fun turn => ne_true_of_eq_false idle (State.nextQueue_iff.1 turn).1
    · exact exec_entryFetch_waits fun turn => ne_true_of_eq_false ((State.nextQueue_iff.1 turn).2 r enabled first) may
    · have turn : s.nextQueue q = true := State.nextQueue_iff.2 ⟨may, last⟩
      refine ⟨fun host => ⟨fun ok free => ?_, fun ok holds => ?_, exec_entryFetch_host_fails turn host⟩, exec_entryFetch_outside turn,
        fun b bad t device inside read => ⟨fun poisoned => ?_, fun clean => ?_⟩⟩
      · rw [exec_entryFetch_host_takes turn host ok, State.takeWords_eq]
        exact congrArg _ (if_neg (ne_true_of_eq_false free))
      · rw [exec_entryFetch_host_takes turn host ok, State.takeWords_eq]
        exact congrArg _ (if_pos holds)
      · rw [exec_entryFetch_device turn device inside read, if_pos poisoned]
      · rw [exec_entryFetch_device turn device inside read, if_neg (ne_true_of_eq_false clean)]
  · intro c t foreign_ retiring late put
    refine ⟨fun bad => ?_, fun good out => ?_, fun good own leaving => ?_, fun good own stays tardy => ?_, fun good own stays timely =>
      ⟨fun uses => ?_, fun free => ?_⟩⟩
    · exact State.takeEntry_refused (State.entryCheck_illegal bad) (by decide)
    · exact State.takeEntry_refused (State.entryCheck_foreign good out) (by decide)
    · exact State.takeEntry_aborted (State.entryCheck_retiring good own leaving)
    · exact State.takeEntry_refused (State.entryCheck_late good own stays tardy) (by decide)
    · rw [State.takeEntry_held (State.entryCheck_fine good own stays timely)]
      exact if_pos uses
    · rw [State.takeEntry_held (State.entryCheck_fine good own stays timely)]
      exact if_neg (ne_true_of_eq_false free)

end Sys2Proof.Machine

/-! Entries that need no admission: when they start, how each opcode ends, and what the end of an entry leaves. -/

namespace Sys2Proof.Machine

/-! ### Starting in ring order -/

/-- Every entry before `c` in its ring has ended, or has started, lets others start with PIPE and is no WAIT (R376). -/
theorem State.mayStart_iff {s : State} {c : Cmd} : s.mayStart c = true ↔ ∀ e ∈ s.cmdList, e.2.queue = c.queue → e.2.index < c.index →
    e.2.stage = .ended ∨ (e.2.started = true ∧ e.2.pipe = true ∧ e.2.opcode ≠ 4) := by
  simp only [State.mayStart, List.all_eq_true, Bool.or_eq_true, Bool.and_eq_true, decide_eq_true_eq]
  refine forall₂_congr fun e _ => ?_
  rw [← Nat.not_lt]
  tauto

section
variable {s : State} {id op : Nat} {c : Cmd} (cmd : s.cmd id = some c) (act : Cmd → State → State)
include cmd

theorem State.simpleEntry_waits (waits : c.stage ≠ .held ∨ s.mayStart c = false) : s.simpleEntry id op act = s := by
  simp only [State.simpleEntry, cmd]
  exact if_pos (by rcases waits with h | h <;> simp [h])

theorem State.simpleEntry_starts (held : c.stage = .held) (turn : s.mayStart c = true) (row : c.opcode = op) :
    s.simpleEntry id op act = act c (s.startCmd id c) := by
  simp [State.simpleEntry, cmd, held, turn, row]

end

/-- An entry before `c` in its ring that has not ended (R379). -/
def State.openBefore (s : State) (c : Cmd) : Prop :=
  ∃ e ∈ s.cmdList, e.2.queue = c.queue ∧ e.2.index < c.index ∧ e.2.stage ≠ .ended

theorem State.openBefore_iff {s : State} {c : Cmd} :
    (s.cmdList.any fun e => e.2.queue = c.queue && decide (e.2.index < c.index) && e.2.stage ≠ .ended) = true ↔ s.openBefore c := by
  simp only [State.openBefore, List.any_eq_true, Bool.and_eq_true, decide_eq_true_eq, and_assoc]

/-- RETIRE of a context may be asked for by its tenant and the physical function, unless it is FREE (R528). -/
def State.mayRetire (t : State) (q n : Nat) : Prop := t.ctxState n ≠ 0 ∧ (t.qFunc q = 0 ∨ t.tenantOf n = t.qFunc q)

theorem State.retireRefused_iff {t : State} {q n : Nat} :
    (decide (t.ctxState n = 0) || (decide (t.qFunc q ≠ 0) && decide (t.tenantOf n ≠ t.qFunc q))) = true ↔ ¬t.mayRetire q n := by
  simp only [State.mayRetire, Bool.or_eq_true, Bool.and_eq_true, decide_eq_true_eq, not_and_or, not_or, not_not]

/-! ### How each opcode ends -/

section
variable {s u : State} {id st : Nat} {c : Cmd} (cmd : s.cmd id = some c)
include cmd

theorem exec_fenceEntry_waits (early : s.openBefore c) : exec (.fenceEntry id) s = .next s := by
  show execFenceEntry id s = _
  simp only [execFenceEntry, cmd]
  exact congrArg _ (if_pos (State.openBefore_iff.2 early))

theorem exec_fenceEntry_last (last : ¬s.openBefore c) :
    exec (.fenceEntry id) s = .next (s.simpleEntry id 6 fun _ s => s.endCmd id 0 (mkDetail 0xFFFF 0 0)) := by
  show execFenceEntry id s = _
  simp only [execFenceEntry, cmd]
  exact congrArg _ (if_neg (mt State.openBefore_iff.1 last))

variable (held : c.stage = .held) (turn : s.mayStart c = true)
include held turn

theorem exec_nopEntry_ends (row : c.opcode = 0) :
    exec (.nopEntry id) s = .next ((s.startCmd id c).endCmd id 0 (mkDetail 0xFFFF 0 0)) :=
  congrArg _ (State.simpleEntry_starts cmd _ held turn row)

theorem exec_fenceEntry_ends (row : c.opcode = 6) (last : ¬s.openBefore c) :
    exec (.fenceEntry id) s = .next ((s.startCmd id c).endCmd id 0 (mkDetail 0xFFFF 0 0)) := by
  rw [exec_fenceEntry_last cmd last, State.simpleEntry_starts cmd _ held turn row]

section
variable (row : c.opcode = 3)
include row

theorem exec_signalEntry_local (here : s.remoteSem c.op0 = false)
    (done : (s.startCmd id c).semSignal (c.op0 % 2 ^ 16) c.op1 ((s.startCmd id c).cmdSignaller c) = (st, u)) :
    exec (.signalEntry id) s = .next (u.endCmd id st (mkDetail 0xFFFF 6 0)) := by
  rw [State.remoteSem] at here
  show execSignalEntry id s = _
  rw [execSignalEntry, State.simpleEntry_starts cmd _ held turn row]
  simp only [here, done, Bool.false_eq_true, if_false]

/-- The state in which Mainline has taken a remote SIGNAL entry, where it takes it (R379, R425). -/
def State.entrySent (t : State) (c : Cmd) : Option State :=
  t.mlnAccept (t.signalMsg (t.cmdSignaller c) (nfld c.op0 23 16) (c.op0 % 2 ^ 16) c.op1) 192 []

theorem exec_signalEntry_sent (there : s.remoteSem c.op0 = true) (sent : (s.startCmd id c).entrySent c = some u) :
    exec (.signalEntry id) s = .next (u.endCmd id 0 (mkDetail 0xFFFF 6 0)) := by
  rw [State.remoteSem] at there
  rw [State.entrySent] at sent
  show execSignalEntry id s = _
  rw [execSignalEntry, State.simpleEntry_starts cmd _ held turn row]
  simp only [there, sent, if_true]

theorem exec_signalEntry_waits (there : s.remoteSem c.op0 = true) (sent : (s.startCmd id c).entrySent c = none) :
    exec (.signalEntry id) s = .next s := by
  rw [State.remoteSem] at there
  rw [State.entrySent] at sent
  show execSignalEntry id s = _
  rw [execSignalEntry, State.simpleEntry_starts cmd _ held turn row]
  simp only [there, sent, if_true]

end

section
variable (row : c.opcode = 4)
include row

theorem exec_waitEntry_remote (there : (s.startCmd id c).remoteSem c.op0 = true) :
    exec (.waitEntry id) s = .next ((s.startCmd id c).endCmd id 0x05 (mkDetail 0xFFFF 0 0x01)) := by
  rw [State.remoteSem] at there
  show execWaitEntry id s = _
  rw [execWaitEntry, State.simpleEntry_starts cmd _ held turn row]
  simp only [there, if_true]

variable (here : (s.startCmd id c).remoteSem c.op0 = false)
include here

theorem exec_waitEntry_answers (wait : (s.startCmd id c).semWait (c.op0 % 2 ^ 16) ((s.startCmd id c).tenantOf c.ctx)
      ⟨2, c.ctx, id, c.op1, (s.startCmd id c).now, 0⟩ = (some st, u)) :
    exec (.waitEntry id) s = .next (u.endCmd id st (mkDetail 0xFFFF 6 0)) := by
  rw [State.remoteSem] at here
  show execWaitEntry id s = _
  rw [execWaitEntry, State.simpleEntry_starts cmd _ held turn row]
  simp only [here, wait, Bool.false_eq_true, if_false]

theorem exec_waitEntry_joins {x : Cmd} (wait : (s.startCmd id c).semWait (c.op0 % 2 ^ 16) ((s.startCmd id c).tenantOf c.ctx)
      ⟨2, c.ctx, id, c.op1, (s.startCmd id c).now, 0⟩ = (none, u)) (left : u.cmd id = some x) :
    exec (.waitEntry id) s = .next (u.setCmd id (some { x with waiting := true })) := by
  rw [State.remoteSem] at here
  show execWaitEntry id s = _
  rw [execWaitEntry, State.simpleEntry_starts cmd _ held turn row]
  simp only [here, wait, left, Bool.false_eq_true, if_false]

end

section
variable (row : c.opcode = 7)
include row

theorem exec_contextRetire_own (own : c.op0 % 4096 = c.ctx) :
    exec (.contextRetire id) s = .next ((s.startCmd id c).endCmd id 0x05 (mkDetail 0xFFFF 0 0x07)) := by
  show execContextRetire id s = _
  rw [execContextRetire, State.simpleEntry_starts cmd _ held turn row, if_pos own]

variable (other : c.op0 % 4096 ≠ c.ctx)
include other

theorem exec_contextRetire_foreign (foreign_ : ¬(s.startCmd id c).mayRetire c.queue (c.op0 % 4096)) :
    exec (.contextRetire id) s = .next ((s.startCmd id c).endCmd id 0x04 (mkDetail 0xFFFF 0 0x10)) := by
  show execContextRetire id s = _
  rw [execContextRetire, State.simpleEntry_starts cmd _ held turn row, if_neg other, if_pos (State.retireRefused_iff.2 foreign_)]

variable (mine : (s.startCmd id c).mayRetire c.queue (c.op0 % 4096))
include mine

theorem exec_contextRetire_retired (retired : (s.startCmd id c).ctxState (c.op0 % 4096) = 3) :
    exec (.contextRetire id) s =
      .next ((s.startCmd id c).endCmd id 0 ((s.startCmd id c).fld (R.ctxRetireEpoch (c.op0 % 4096)) 31 0)) := by
  show execContextRetire id s = _
  rw [execContextRetire, State.simpleEntry_starts cmd _ held turn row, if_neg other, if_neg (mt State.retireRefused_iff.1 (not_not.2 mine)),
    if_pos retired]

variable (alive : (s.startCmd id c).ctxState (c.op0 % 4096) ≠ 3)
include alive

theorem exec_contextRetire_joins {r : Retire} (runs : (s.startCmd id c).retire? (c.op0 % 4096) = some r) :
    exec (.contextRetire id) s =
      .next ((s.startCmd id c).setRetire (c.op0 % 4096) (some { r with cmds := r.cmds ++ [id] })) := by
  show execContextRetire id s = _
  rw [execContextRetire, State.simpleEntry_starts cmd _ held turn row, if_neg other, if_neg (mt State.retireRefused_iff.1 (not_not.2 mine)),
    if_neg alive, runs]

theorem exec_contextRetire_begins (fresh : (s.startCmd id c).retire? (c.op0 % 4096) = none) :
    exec (.contextRetire id) s = .next ((s.startCmd id c).beginRetire (c.op0 % 4096) [id]) := by
  show execContextRetire id s = _
  rw [execContextRetire, State.simpleEntry_starts cmd _ held turn row, if_neg other, if_neg (mt State.retireRefused_iff.1 (not_not.2 mine)),
    if_neg alive, fresh]

end

end

/-! ### What the end of an entry leaves -/

/-- `t` is `s` but for registers, the numbers ended ahead of their context's, the error ledgers and free values used up. -/
def State.Accounts (s t : State) : Prop :=
  t = { s with regs := t.regs, dsp := { s.dsp with doneAhead := t.dsp.doneAhead }, ras := t.ras, freeCount := t.freeCount }

section
variable {s t u : State}

theorem State.Accounts.refl (s : State) : s.Accounts s := rfl

theorem State.Accounts.trans (h : s.Accounts t) (k : t.Accounts u) : s.Accounts u := by
  rw [State.Accounts] at *
  rw [k, h]

theorem State.Accounts.ite {p : Prop} [Decidable p] (h : s.Accounts t) (k : s.Accounts u) : s.Accounts (if p then t else u) := by
  split
  · exact h
  · exact k

theorem State.rled_accounts (s : State) (j n : Nat) : s.Accounts (s.rled j n) := rfl

theorem State.count_accounts (s : State) (off w k : Nat) : s.Accounts (s.count off w k) :=
  State.Accounts.ite rfl rfl

theorem State.laneSettle_accounts (s : State) (l : Nat) : s.Accounts (s.laneSettle l) :=
  State.Accounts.ite rfl rfl

theorem State.epochEnd_accounts (s : State) (ctx number : Nat) : s.Accounts (s.epochEnd ctx number) :=
  State.Accounts.ite rfl rfl

theorem State.Accounts.countStatus (h : s.Accounts t) (st : Nat) :
    s.Accounts (if st = 0x01 then t.count R.dspRefused 64 1 else if st = 0x02 then t.count R.dspTimeouts 64 1 else t) :=
  (h.trans (State.count_accounts ..)).ite ((h.trans (State.count_accounts ..)).ite h)

theorem State.Accounts.setCmd (h : s.Accounts t) (id : Nat) (x : Option Cmd) : (s.setCmd id x).Accounts (t.setCmd id x) := by
  rw [State.Accounts] at *
  rw [h]
  rfl

end

/-- An entry whose work has ended at `now` (R382, R383). -/
def Cmd.over (c : Cmd) (now st d : Nat) : Cmd :=
  { c with
    stage := .ended, started := true, start := if c.started || c.lane.isSome then c.start else now, endT := now
    outcome := some ⟨st, d⟩, waiting := false }

section
variable {s : State} {id : Nat} {c : Cmd} (cmd : s.cmd id = some c)
include cmd

theorem State.endCmd_ended (ended : c.stage = .ended) (st d : Nat) : s.endCmd id st d = s := by
  simp only [State.endCmd, cmd, ended, if_true]

/-- The end of an entry: its outcome and END are fixed, accounts move, and its completion joins its queue's (R382, R383, R387). -/
theorem State.endCmd_ends (going : c.stage ≠ .ended) (unrefused : c.refused = none) (st d : Nat) :
    ∃ u, (s.setCmd id (some (c.over s.now st d))).Accounts u ∧
      s.endCmd id st d = u.setQueue c.queue { u.queue c.queue with done := (u.queue c.queue).done ++ [id] } := by
  simp only [State.endCmd, cmd, going, unrefused, if_false]
  refine ⟨_, (State.Accounts.trans ?_ (State.epochEnd_accounts _ _ _)).countStatus st, rfl⟩
  have power : s.Accounts (if c.powered then s.rled (4 * 6 + 1) 1 else s) := (s.rled_accounts _ _).ite (.refl s)
  have now : (if c.powered then s.rled (4 * 6 + 1) 1 else s).now = s.now := by split <;> rfl
  simp only [now]
  rw [Cmd.over, unrefused]
  refine (power.setCmd id _).trans ?_
  generalize State.setCmd _ id _ = v
  cases c.lane with
  | none => exact .refl v
  | some l => exact v.laneSettle_accounts l

end

section
variable {s : State} (canon : s.Canon) {id : Nat} {c : Cmd} (cmd : s.cmd id = some c) (going : c.stage ≠ .ended)
  (unrefused : c.refused = none) (st d : Nat)
include canon cmd going unrefused

/-- An entry that ends has its outcome, joins its queue's completions, and leaves every other entry as it is. -/
theorem State.endCmd_leaves :
    let t := s.endCmd id st d
    t.cmd id = some (c.over s.now st d) ∧ (t.queue c.queue).done = (s.queue c.queue).done ++ [id] ∧ (∀ n, n ≠ id → t.cmd n = s.cmd n) ∧
      t = { s with regs := t.regs, dsp := t.dsp, ras := t.ras, freeCount := t.freeCount } := by
  obtain ⟨u, accounts, ends⟩ := State.endCmd_ends cmd going unrefused st d
  have cmds (n : Nat) : (s.endCmd id st d).cmd n = (s.setCmd id (some (c.over s.now st d))).cmd n := by
    rw [ends, accounts]
    rfl
  have queue : u.queue c.queue = s.queue c.queue := by
    rw [accounts]
    rfl
  refine ⟨(cmds id).trans (State.cmd_setCmd_same canon id _), ?_, fun n other => (cmds n).trans (State.cmd_setCmd_ne canon _ other), ?_⟩
  · rw [ends, queue, State.queue, State.setQueue]
    refine congrArg QueueSt.done (SMap.get_put_of_ne (fun same => ?_) _ _)
    exact absurd (congrArg QueueSt.done same) (by simp)
  · rw [ends, accounts]
    rfl

end

/-! ### The obligation -/

/-- Settles O32: what waits, the order in a ring, each opcode by how it ends, then what an end leaves. -/
theorem simpleEntries : Obligations.SimpleEntries := by
  unfold Obligations.SimpleEntries
  refine ⟨fun s id op c i rows cmd row waits => ?_, fun s c => State.mayStart_iff, fun s id c cmd held turn => ?_,
    fun s id st d c canon cmd going unrefused => State.endCmd_leaves canon cmd going unrefused st d,
    fun s id st d c cmd ended => State.endCmd_ended cmd ended st d⟩
  · simp only [List.mem_cons, List.not_mem_nil, or_false, Prod.mk.injEq] at rows
    rcases rows with ⟨rfl, rfl⟩ | ⟨rfl, rfl⟩ | ⟨rfl, rfl⟩ | ⟨rfl, rfl⟩ | ⟨rfl, rfl⟩
    · exact congrArg _ (State.simpleEntry_waits cmd _ waits)
    · exact congrArg _ (State.simpleEntry_waits cmd _ waits)
    · exact congrArg _ (State.simpleEntry_waits cmd _ waits)
    · by_cases early : s.openBefore c
      · exact exec_fenceEntry_waits cmd early
      · rw [exec_fenceEntry_last cmd early, State.simpleEntry_waits cmd _ waits]
    · exact congrArg _ (State.simpleEntry_waits cmd _ waits)
  · intro t sem node there ended
    refine ⟨exec_nopEntry_ends cmd held turn, fun row => ⟨fun st u here done => exec_signalEntry_local cmd held turn row here done,
      fun u => exec_signalEntry_sent cmd held turn row, exec_signalEntry_waits cmd held turn row⟩, fun row =>
      ⟨fun far other => exec_waitEntry_remote cmd held turn row (by simp [State.remoteSem, far]; exact other), fun r u x here wait =>
        ⟨fun st answer => exec_waitEntry_answers cmd held turn row here (wait.trans (by rw [answer])), fun joins left =>
          exec_waitEntry_joins cmd held turn row here (wait.trans (by rw [joins])) left⟩⟩,
      fun row => ⟨fun last => exec_fenceEntry_ends cmd held turn row fun ⟨e, listed, same, before, open_⟩ => open_ (last e listed same before),
        exec_fenceEntry_waits cmd⟩, fun row => ?_⟩
    intro n mine
    exact ⟨exec_contextRetire_own cmd held turn row, exec_contextRetire_foreign cmd held turn row,
      exec_contextRetire_retired cmd held turn row,
      fun r other mine alive => exec_contextRetire_joins cmd held turn row other mine alive,
      exec_contextRetire_begins cmd held turn row⟩

end Sys2Proof.Machine

/-! A completion that counts as written in a ring of more entries than its tail's field can number. -/

namespace Sys2Proof.Machine

/-- An ended NOP of queue 0 without an event. -/
def endedNop : Cmd :=
  { queue := 0, index := 0, words := [0, 0, 0, 0, 0, 0, 0, 0], ctx := 0, number := 0, evt := 0, timeout := 0, fetched := 0, stage := .ended,
    started := true, lane := none, start := 0, fin := 0, pin := none, waiting := false, thr := none, engine := 0, endT := 0, held := 0,
    outcome := some ⟨0, 0⟩, refused := none, void := false, dropped := false, boundary := false, order := 0 }

/-- The module at reset with queue 0's completion ring of 2^17 entries, its tail at 0xFFFF in phase 0, and `endedNop` to complete. -/
def longRing : State :=
  { State.reset with
    regs := [(R.queCfg 0, BitVec.ofNat 64 (17 * 2 ^ 16)), (R.queCqTail 0, 0xFFFF)], dsp := { State.reset.dsp with cmds := [(1, some endedNop)] } }

/-- `Canon` does not bound the sizes in QUE_CFG. -/
theorem longRing_canon : longRing.Canon where
  dram := SMap.nil_canon _
  regs := (SMap.wf_iff _ _).1 (by decide +kernel)
  cores := SMap.nil_canon _
  launches := SMap.nil_canon _
  cmds := (SMap.wf_iff _ _).1 (by decide +kernel)
  threads := SMap.nil_canon _
  units := SMap.nil_canon _
  qps := SMap.nil_canon _

/-- The tail has moved to 0x10000, whose only 1 stands where the phase does. -/
theorem longRing_written : (longRing.cqWritten 0 1).flag (R.queCqTail 0) 16 = true := by decide +kernel

/-- The tail has not wrapped to 0, and the phase was 0. -/
theorem longRing_unwrapped : (fld (longRing.rd (R.queCqTail 0)) 15 0 + 1) % longRing.cqSize 0 ≠ 0 ∧
    (longRing.rd (R.queCqTail 0)).getLsbD 16 = false := by decide +kernel

/-- Refutes O33: the canonical form leaves CQ_SIZE free. In a ring of 2^17 entries the tail moves from 0xFFFF into the bit of the phase, which
turns 1 although the tail has not wrapped. -/
theorem not_completionsAreWrittenInOrder : ¬ Obligations.CompletionsAreWrittenInOrder := by
  unfold Obligations.CompletionsAreWrittenInOrder
  rintro ⟨-, -, -, -, written⟩
  obtain ⟨-, -, -, phase⟩ := written longRing 0 1 endedNop longRing_canon (by decide +kernel) (by decide +kernel)
  obtain ⟨unwrapped, zero⟩ := longRing_unwrapped
  have low : (longRing.cqWritten 0 1).flag (R.queCqTail 0) 16 = false := phase.trans ((if_neg unwrapped).trans zero)
  exact ne_true_of_eq_false low longRing_written

end Sys2Proof.Machine

/-! Admission to lanes, reserved starts, best-effort grants and the two limits: when each acts, and what it decides. -/

namespace Sys2Proof.Machine

/-! ### The decision of an admission -/

/-- A program's entry names no version that may run (R402, R411). -/
def State.noProgram (s : State) (c : Cmd) : Prop := s.runnable c = none ∨ s.pslot c.slot = none

/-- What an entry's opcode needs before a lane is looked for: a program that may run with its flows served, a patch that may be taken
(R402). -/
def State.needRefused (s : State) (c : Cmd) : Option Nat :=
  if c.opcode = 1 then
    match s.runnable c, s.pslot c.slot with
    | some _, some p => if p.flows.any (fun f => decide (f ≠ 0xFFFF) && !s.flowServed f) then some 0x3 else none
    | _, _ => some 0x8
  else if c.opcode = 5 then s.patchRefused c
  else none

/-- A lane that finishes by the deadline, with power for its interval (R402). -/
def State.lanePlaced (s : State) (c : Cmd) : Nat ⊕ (Nat × Nat × Nat) :=
  match s.bestLane with
  | none => .inl 0x1
  | some (l, st) =>
    if c.due < st + s.classNs c.eclass then .inl 0x1
    else if !s.reserveFits c.eclass st (st + s.classNs c.eclass) then .inl 0x2
    else .inr (l, st, st + s.classNs c.eclass)

section
variable {s : State} {c : Cmd}

theorem State.needRefused_program {v : Version} {p : PSlot} (program : c.opcode = 1) (runs : s.runnable c = some v)
    (slot : s.pslot c.slot = some p) :
    s.needRefused c = if p.flows.any (fun f => decide (f ≠ 0xFFFF) && !s.flowServed f) then some 0x3 else none := by
  simp only [State.needRefused, program, runs, slot, if_true]

theorem State.needRefused_missing (program : c.opcode = 1) (missing : s.noProgram c) : s.needRefused c = some 0x8 := by
  rw [State.needRefused, if_pos program]
  rcases missing with none_ | none_
  · rw [none_]
  · rw [none_]
    cases s.runnable c <;> rfl

theorem State.needRefused_unserved {p : PSlot} (program : c.opcode = 1) (found : ¬s.noProgram c) (slot : s.pslot c.slot = some p)
    (unserved : ∃ f ∈ p.flows, f ≠ 0xFFFF ∧ s.flowServed f = false) : s.needRefused c = some 0x3 := by
  obtain ⟨v, runs⟩ := Option.ne_none_iff_exists'.1 fun none_ => found (.inl none_)
  rw [State.needRefused_program program runs slot, if_pos (by simpa using unserved)]

theorem State.needRefused_patch (patch : c.opcode = 5) : s.needRefused c = s.patchRefused c := by
  simp [State.needRefused, patch]

theorem State.needRefused_eq_none
    (program : c.opcode = 1 → ∃ v p, s.runnable c = some v ∧ s.pslot c.slot = some p ∧ ∀ f ∈ p.flows, f ≠ 0xFFFF → s.flowServed f = true)
    (patch : c.opcode = 5 → s.patchRefused c = none) : s.needRefused c = none := by
  by_cases isProgram : c.opcode = 1
  · obtain ⟨v, p, runs, slot, served⟩ := program isProgram
    rw [State.needRefused_program isProgram runs slot, if_neg (by simpa using served)]
  · by_cases isPatch : c.opcode = 5
    · exact (State.needRefused_patch isPatch).trans (patch isPatch)
    · simp [State.needRefused, isProgram, isPatch]

theorem State.laneDecision_emergency (emergency : s.emergency = true) : s.laneDecision c = .inl 0x2 := if_pos emergency

section
variable (calm : s.emergency = false)
include calm

theorem State.laneDecision_past (past : c.due ≤ s.now) : s.laneDecision c = .inl 0x5 :=
  (if_neg (ne_true_of_eq_false calm)).trans (if_pos past)

variable (ahead : s.now < c.due)
include ahead

/-- Before the deadline what the opcode needs is judged first, then the lane (R402). -/
theorem State.laneDecision_judged : s.laneDecision c = (s.needRefused c).elim (s.lanePlaced c) Sum.inl := by
  rw [State.laneDecision, if_neg (ne_true_of_eq_false calm), if_neg (Nat.not_le.2 ahead)]
  show (match s.needRefused c with | some code => Sum.inl code | none => s.lanePlaced c) = _
  cases s.needRefused c <;> rfl

end

theorem State.lanePlaced_none (none_ : s.bestLane = none) : s.lanePlaced c = .inl 0x1 := by
  simp only [State.lanePlaced, none_]

section
variable {l st : Nat} (best : s.bestLane = some (l, st))
include best

theorem State.lanePlaced_late (late : c.due < st + s.classNs c.eclass) : s.lanePlaced c = .inl 0x1 := by
  simp only [State.lanePlaced, best, late, if_true]

variable (inTime : st + s.classNs c.eclass ≤ c.due)
include inTime

theorem State.lanePlaced_unpowered (full : s.reserveFits c.eclass st (st + s.classNs c.eclass) = false) : s.lanePlaced c = .inl 0x2 := by
  simp only [State.lanePlaced, best, Nat.not_lt.2 inTime, full, if_false, Bool.not_false, if_true]

theorem State.lanePlaced_fits (fits : s.reserveFits c.eclass st (st + s.classNs c.eclass) = true) :
    s.lanePlaced c = .inr (l, st, st + s.classNs c.eclass) := by
  simp only [State.lanePlaced, best, Nat.not_lt.2 inTime, fits, if_false, Bool.not_true, Bool.false_eq_true]

end

end

/-! ### The events -/

/-- The turn of an entry that is admitted to lanes has come, and nothing holds it (R37, R402, R641). -/
def State.admissible (s : State) (c : Cmd) : Prop :=
  c.stage = .held ∧ s.qSched c.queue = true ∧ laneOpcode c.opcode = true ∧ s.mayStart c = true ∧ s.switching = false ∧ s.dsp.draining = false

/-- The start of an admitted entry has come, with its lane's thread free for a program (R389, R403). -/
def State.startReady (s : State) (c : Cmd) (l : Nat) : Prop :=
  c.stage = .admitted ∧ c.start ≤ s.now ∧ (c.opcode = 1 → s.threadFree (17 * l) = true)

/-- A best-effort entry may be granted now (R406, R538, R542). -/
def State.grantable (s : State) (c : Cmd) : Prop :=
  s.awaitsGrant c = true ∧ s.grantRoom c = true ∧ s.emergency = false ∧ s.switching = false ∧ s.dsp.draining = false

/-- A laned entry at work has passed the end of its interval (R403, R408). -/
def State.overrun (s : State) (c : Cmd) : Prop := c.lane.isSome = true ∧ c.inService = true ∧ c.outcome = none ∧ c.fin < s.now

/-- An entry without a lane has passed its limit (R407). -/
def State.timedOut (s : State) (c : Cmd) : Prop :=
  c.stage ≠ .ended ∧ c.outcome = none ∧ c.lane = none ∧ (s.qSched c.queue && laneOpcode c.opcode) = false ∧
    1000 * c.timeout < s.now - c.fetched - c.held

section
variable {s : State} {c : Cmd}

theorem State.admissible_guard : (decide (c.stage ≠ .held) || !s.qSched c.queue || !laneOpcode c.opcode || !s.mayStart c || s.switching ||
    s.dsp.draining) = true ↔ ¬s.admissible c := by
  simp [State.admissible, or_assoc, imp_iff_not_or]

theorem State.startReady_guard {l : Nat} : (decide (c.stage ≠ .admitted) || decide (s.now < c.start) ||
    (decide (c.opcode = 1) && !s.threadFree (17 * l))) = true ↔ ¬s.startReady c l := by
  simp [State.startReady, or_assoc, imp_iff_not_or]

theorem State.grantable_guard : (!s.awaitsGrant c || !s.grantRoom c || s.emergency || s.switching || s.dsp.draining) = true ↔
    ¬s.grantable c := by
  simp [State.grantable, or_assoc, imp_iff_not_or]

theorem State.overrun_guard : (c.lane.isNone || !c.inService || c.outcome.isSome || decide (s.now ≤ c.fin)) = true ↔ ¬s.overrun c := by
  cases lane : c.lane <;> cases outcome : c.outcome <;> simp [State.overrun, lane, outcome, imp_iff_not_or]

theorem State.timedOut_guard : (decide (c.stage = .ended) || c.outcome.isSome || c.lane.isSome || (s.qSched c.queue && laneOpcode c.opcode) ||
    decide (s.now - c.fetched - c.held ≤ 1000 * c.timeout)) = true ↔ ¬s.timedOut c := by
  simp only [State.timedOut, Bool.or_eq_true, decide_eq_true_eq, not_and_or, Option.isSome_iff_ne_none, ne_eq, not_not, Nat.not_lt,
    Bool.not_eq_false, or_assoc]

end

section
variable {s : State} {id : Nat} {c : Cmd} (cmd : s.cmd id = some c)
include cmd

theorem exec_admission_waits (waits : ¬s.admissible c) : exec (.admission id) s = .next s := by
  show execAdmission id s = _
  simp only [execAdmission, cmd]
  exact congrArg _ (if_pos (State.admissible_guard.2 waits))

section
variable (turn : s.admissible c)
include turn

theorem exec_admission_refuses {code : Nat} (decision : (s.adopt R.dspBorrowLimit).laneDecision c = .inl code) :
    exec (.admission id) s =
      .next (((s.adopt R.dspBorrowLimit).endCmd id 0x01 (mkDetail 0xFFFF 1 code)).hit 212 0x4002 1) := by
  obtain ⟨held, sched, laned, mine, steady, open_⟩ := turn
  show execAdmission id s = _
  simp [execAdmission, cmd, held, sched, laned, mine, steady, open_, decision]

theorem exec_admission_admits {l st fin : Nat} (decision : (s.adopt R.dspBorrowLimit).laneDecision c = .inr (l, st, fin)) :
    exec (.admission id) s = .next ((s.adopt R.dspBorrowLimit).admitTo id c l st fin) := by
  obtain ⟨held, sched, laned, mine, steady, open_⟩ := turn
  show execAdmission id s = _
  simp [execAdmission, cmd, held, sched, laned, mine, steady, open_, decision]

end

theorem exec_entryStart_unlaned (unlaned : c.lane = none) : exec (.entryStart id) s = .next s := by
  show execEntryStart id s = _
  simp only [execEntryStart, cmd, unlaned]

section
variable {l : Nat} (lane : c.lane = some l)
include lane

theorem exec_entryStart_waits (waits : ¬s.startReady c l) : exec (.entryStart id) s = .next s := by
  show execEntryStart id s = _
  simp only [execEntryStart, cmd, lane]
  exact congrArg _ (if_pos (State.startReady_guard.2 waits))

theorem exec_entryStart_clears (ready : s.startReady c l) : exec (.entryStart id) s =
    .next (s.setCmd id (some { c with stage := .cleared, thr := if c.opcode = 1 then some (17 * l) else none })) := by
  show execEntryStart id s = _
  simp only [execEntryStart, cmd, lane]
  exact congrArg _ (if_neg (mt State.startReady_guard.1 (not_not.2 ready)))

end

theorem exec_beGrant_waits (waits : ¬s.grantable c) : exec (.beGrant id) s = .next s := by
  show execBeGrant id s = _
  simp only [execBeGrant, cmd]
  exact congrArg _ (if_pos (State.grantable_guard.2 waits))

section
variable {n : Nat} {r : State} (room : s.grantable c) (pick : s.sharePick s.dsp.eligibleT s.grantees = (some n, r))
include room pick

theorem exec_beGrant_other (other : n ≠ c.ctx) : exec (.beGrant id) s = .next s := by
  obtain ⟨awaits, fits, calm, steady, open_⟩ := room
  show execBeGrant id s = _
  simp [execBeGrant, cmd, awaits, fits, calm, steady, open_, pick, other]

theorem exec_beGrant_grants (mine : n = c.ctx) : exec (.beGrant id) s =
    let u := { r with dsp := { r.dsp with eligibleT := s.grantees, nextGrant := r.dsp.nextGrant + 1 } }
    .next ((u.setCmd id (some { c with
      stage := .cleared, order := r.dsp.nextGrant, thr := if c.opcode = 1 then u.freeThread else none })).rled 24 1) := by
  obtain ⟨awaits, fits, calm, steady, open_⟩ := room
  show execBeGrant id s = _
  simp [execBeGrant, cmd, awaits, fits, calm, steady, open_, pick, mine]

end

theorem exec_classOverrun_waits (inTime : ¬s.overrun c) : exec (.classOverrun id) s = .next s := by
  show execClassOverrun id s = _
  simp only [execClassOverrun, cmd]
  exact congrArg _ (if_pos (State.overrun_guard.2 inTime))

theorem exec_classOverrun_stops (spent : s.overrun c) :
    exec (.classOverrun id) s = .next ((s.surveyTrigger 4 c.queue).stopCmd id 0x02 0 0x2) := by
  show execClassOverrun id s = _
  simp only [execClassOverrun, cmd]
  exact congrArg _ (if_neg (mt State.overrun_guard.1 (not_not.2 spent)))

theorem exec_queueTimeout_waits (inTime : ¬s.timedOut c) : exec (.queueTimeout id) s = .next s := by
  show execQueueTimeout id s = _
  simp only [execQueueTimeout, cmd]
  exact congrArg _ (if_pos (State.timedOut_guard.2 inTime))

theorem exec_queueTimeout_stops (out : s.timedOut c) :
    exec (.queueTimeout id) s = .next ((s.surveyTrigger 3 c.queue).stopCmd id 0x02 0 0x1) := by
  show execQueueTimeout id s = _
  simp only [execQueueTimeout, cmd]
  exact congrArg _ (if_neg (mt State.timedOut_guard.1 (not_not.2 out)))

end

theorem exec_entryRow_missing {s : State} {id : Nat} {i : Instr} (none_ : s.cmd id = none)
    (row : i ∈ [Instr.admission id, .entryStart id, .beGrant id, .classOverrun id, .queueTimeout id]) : exec i s = .next s := by
  simp only [List.mem_cons, List.not_mem_nil, or_false] at row
  rcases row with rfl | rfl | rfl | rfl | rfl
  · show execAdmission id s = _
    simp only [execAdmission, none_]
  · show execEntryStart id s = _
    simp only [execEntryStart, none_]
  · show execBeGrant id s = _
    simp only [execBeGrant, none_]
  · show execClassOverrun id s = _
    simp only [execClassOverrun, none_]
  · show execQueueTimeout id s = _
    simp only [execQueueTimeout, none_]

/-! ### The obligation -/

/-- Settles O35, event by event; the decision of an admission by what it refuses first. -/
theorem admissionGrantsAndLimits : Obligations.AdmissionGrantsAndLimits := by
  unfold Obligations.AdmissionGrantsAndLimits
  refine ⟨fun s id c cmd => ⟨exec_admission_waits cmd, fun code turn => exec_admission_refuses cmd turn,
      fun l st fin turn => exec_admission_admits cmd turn⟩,
    fun s c => ⟨State.laneDecision_emergency, State.laneDecision_past, fun calm ahead => ?_⟩,
    fun s id c cmd => ⟨exec_entryStart_unlaned cmd, fun l lane => ⟨exec_entryStart_waits cmd lane, exec_entryStart_clears cmd lane⟩⟩,
    fun s id c cmd => ⟨exec_beGrant_waits cmd, fun n r room pick => ⟨exec_beGrant_other cmd room pick, exec_beGrant_grants cmd room pick⟩⟩,
    fun s id c cmd => ⟨exec_classOverrun_waits cmd, exec_classOverrun_stops cmd, exec_queueTimeout_waits cmd, exec_queueTimeout_stops cmd⟩,
    fun s id i row none_ => exec_entryRow_missing none_ row⟩
  rw [State.laneDecision_judged calm ahead]
  refine ⟨fun program missing => ?_, fun p program found slot unserved => ?_, fun code patch refused => ?_, fun program patch => ?_⟩
  · rw [State.needRefused_missing program missing]
    rfl
  · rw [State.needRefused_unserved program found slot unserved]
    rfl
  · rw [State.needRefused_patch patch, refused]
    rfl
  · rw [State.needRefused_eq_none program patch]
    exact ⟨State.lanePlaced_none, fun l st best => ⟨State.lanePlaced_late best, State.lanePlaced_unpowered best, State.lanePlaced_fits best⟩⟩

end Sys2Proof.Machine

/-! Entries that run a stored program, copy or change a slot: how each begins, and how it ends. -/

namespace Sys2Proof.Machine

/-! ### Entries that may begin -/

section
variable {s : State} {id op : Nat} {c : Cmd} (cmd : s.cmd id = some c) (act : Cmd → State)
include cmd

theorem State.cleared_waits (waits : c.stage ≠ .cleared ∨ c.opcode ≠ op) : s.cleared id op act = s := by
  simp only [State.cleared, cmd]
  exact if_neg (by simpa [imp_iff_not_or] using waits)

theorem State.cleared_acts (ready : c.stage = .cleared) (row : c.opcode = op) : s.cleared id op act = act c := by
  simp [State.cleared, cmd, ready, row]

end

/-! ### Programs -/

/-- What register `n` holds when a program starts (R389). -/
def Cmd.runArg (c : Cmd) (n : Nat) : Word :=
  BitVec.ofNat 64 ([0, c.args, if c.deadline = 0 then 0 else c.due, c.queue, c.ctx, c.cookie].getD n 0)

theorem Cmd.get_runArgs (c : Cmd) (n : Nat) : SMap.get 0 c.runArgs n = c.runArg n := by
  have stored : c.runArgs = (List.range 6).foldl (fun m i => SMap.put 0 m i (c.runArg i)) [] := rfl
  rw [stored, SMap.get_foldl_put 0 c.runArg 6 n List.Pairwise.nil]
  split
  · rfl
  · rename_i beyond
    rw [Cmd.runArg, List.getD_eq_default _ _ (Nat.not_lt.1 beyond)]
    rfl

theorem Cmd.runArg_eq_zero (c : Cmd) {n : Nat} (other : n = 0 ∨ 5 < n) : c.runArg n = 0 := by
  rcases other with rfl | beyond
  · rfl
  · rw [Cmd.runArg, List.getD_eq_default _ _ beyond]
    rfl

/-- The thread on which a program starts (R306, R389). -/
def Cmd.startThread (c : Cmd) (id slot ver view : Nat) : Thread :=
  { cmd := id, ctx := c.ctx, slot := slot, version := ver, pc := c.entry, x := c.runArgs, stack := [], queue := [], hold := .none, dest := 0
    fresh := c.lane.isNone, view := view, quick := true }

theorem State.startProgram_eq {s u : State} {id slot ver t view : Nat} {c : Cmd} (taken : (s.startCmd id c).takeView c.ctx = (view, u)) :
    s.startProgram id c slot ver t = u.setThread t (some (c.startThread id slot ver view)) := by
  rw [State.startProgram, taken]
  rfl

/-- The state in which RUN_PROGRAM finds its version pinned, unless there is none (R413). -/
def State.pinned (s : State) (id : Nat) (c : Cmd) : State := if c.pin.isSome then s else s.pinCmd id c

/-- A program whose entry has its version and its thread starts, and is refused with SLOT otherwise (R389, R410). -/
def State.runPinned (u : State) (id : Nat) (x : Cmd) : State :=
  match x.pin, x.thr with
  | some (slot, ver), some t => u.startProgram id x slot ver t
  | _, _ => u.endCmd id 0x01 (mkDetail 0xFFFF 1 0x8)

theorem State.runPinned_refused {u : State} {id : Nat} {x : Cmd} (missing : x.pin = none ∨ x.thr = none) :
    u.runPinned id x = u.endCmd id 0x01 (mkDetail 0xFFFF 1 0x8) := by
  rw [State.runPinned]
  rcases missing with none_ | none_
  · simp only [none_]
  · cases x.pin <;> simp only [none_]

theorem State.runPinned_starts {u : State} {id slot ver t : Nat} {x : Cmd} (pin : x.pin = some (slot, ver)) (thr : x.thr = some t) :
    u.runPinned id x = u.startProgram id x slot ver t := by
  simp only [State.runPinned, pin, thr]

theorem exec_runProgram_found {s : State} {id : Nat} {c x : Cmd} (cmd : s.cmd id = some c) (ready : c.stage = .cleared) (row : c.opcode = 1)
    (found : (s.pinned id c).cmd id = some x) : exec (.runProgram id) s = .next ((s.pinned id c).runPinned id x) := by
  show execRunProgram id s = _
  rw [execRunProgram, State.cleared_acts cmd _ ready row]
  rw [State.pinned] at found ⊢
  cases pin : c.pin with
  | none =>
    simp only [pin, Option.isSome_none, Bool.false_eq_true, if_false] at found ⊢
    simp only [found]
    rfl
  | some p =>
    simp only [pin, Option.isSome_some, if_true] at found ⊢
    simp only [found]
    rfl

/-! ### Copies -/

section
variable {s r t : State} {id view : Nat} {c : Cmd} {host : HostData} (cmd : (s.hostIn host).cmd id = some c)
include cmd

theorem exec_copyEntry_idle (waits : c.stage ≠ .cleared ∨ c.opcode ≠ 2) : exec (.copyEntry id host) s = .next (s.hostIn host).hostOut := by
  show execCopyEntry id host s = _
  rw [execCopyEntry, State.withHost, State.cleared_waits cmd _ waits]

variable (ready : c.stage = .cleared) (row : c.opcode = 2) (taken : (s.hostIn host).takeView c.ctx = (view, r))
include ready row taken

theorem exec_copyEntry_waits (full : r.beginCopy id none c.ctx view 0xFFFF c.args = none) :
    exec (.copyEntry id host) s = .next (s.hostIn host).hostOut := by
  show execCopyEntry id host s = _
  rw [execCopyEntry, State.withHost, State.cleared_acts cmd _ ready row]
  simp only [taken, full]

variable {x : Cmd} (left : t.cmd id = some x)
include left

theorem exec_copyEntry_starts {n : Nat} (begun : r.beginCopy id none c.ctx view 0xFFFF c.args = some (.inl n, t)) :
    exec (.copyEntry id host) s = .next (t.startCmd id x).hostOut := by
  show execCopyEntry id host s = _
  rw [execCopyEntry, State.withHost, State.cleared_acts cmd _ ready row]
  simp only [taken, begun, left]

theorem exec_copyEntry_fails {f : VmFault} (begun : r.beginCopy id none c.ctx view 0xFFFF c.args = some (.inr f, t)) :
    exec (.copyEntry id host) s = .next ((t.startCmd id x).endCmd id f.ends.1 (mkDetail 0xFFFF 4 f.ends.2)).hostOut := by
  show execCopyEntry id host s = _
  rw [execCopyEntry, State.withHost, State.cleared_acts cmd _ ready row]
  simp only [taken, begun, left]

end

section
variable {s : State} {n : Nat} {host : HostData}

theorem exec_copyDone_none (gone : (s.hostIn host).copy? n = none) : exec (.copyDone n host) s = .next (s.hostIn host).hostOut := by
  show execCopyDone n host s = _
  simp only [execCopyDone, State.withHost, gone]

variable {x : Copy} (copy : (s.hostIn host).copy? n = some x)
include copy

theorem exec_copyDone_failed {f : Nat} (failed : x.failed = some f) :
    exec (.copyDone n host) s = .next ((s.hostIn host).copyOver n x (some (vmFaultOf f))).hostOut := by
  show execCopyDone n host s = _
  simp only [execCopyDone, State.withHost, copy, failed]

/-- A copy that has run to byte `p`, with the lines that it moved counted (R400). -/
def State.copyAt (r : State) (n : Nat) (x : Copy) (p : Nat) : State :=
  (r.hit 212 0x4004 ((p - x.pos + 127) / 128)).setCopy n (some { x with pos := p })

variable (sound : x.failed = none) {p : Nat} {r : State}
include sound

theorem exec_copyDone_faults {f : VmFault} (run : (s.hostIn host).copyRun n x = (p, some f, r)) :
    exec (.copyDone n host) s = .next ((r.copyAt n x p).copyOver n x (some f)).hostOut := by
  show execCopyDone n host s = _
  simp only [execCopyDone, State.withHost, copy, sound, run, State.copyAt]

variable (run : (s.hostIn host).copyRun n x = (p, none, r))
include run

theorem exec_copyDone_stays (more : p < x.len ∨ (r.copyAt n x p).awaitsRead (.copy n) = true) :
    exec (.copyDone n host) s = .next (r.copyAt n x p).hostOut := by
  simp only [State.copyAt, sound] at more ⊢
  show execCopyDone n host s = _
  simp only [execCopyDone, State.withHost, copy, sound, run, Bool.or_eq_true, decide_eq_true_eq, more, if_true]

theorem exec_copyDone_ends (whole : x.len ≤ p) (idle : (r.copyAt n x p).awaitsRead (.copy n) = false) :
    exec (.copyDone n host) s = .next ((r.copyAt n x p).copyOver n x none).hostOut := by
  simp only [State.copyAt, sound] at idle ⊢
  show execCopyDone n host s = _
  simp only [execCopyDone, State.withHost, copy, sound, run, Bool.or_eq_true, decide_eq_true_eq, Nat.not_lt.2 whole, idle, Bool.false_eq_true,
    or_self, if_false]

end

/-! ### Patches -/

section
variable {s : State} {id mode : Nat} {c : Cmd} {host : HostData} {i : Instr} (e : exec i s = .next (s.patchRow id mode host))
  (cmd : (s.hostIn host).cmd id = some c)
include e cmd

theorem exec_patchRow_waits (waits : c.stage ≠ .cleared ∨ c.opcode ≠ 5 ∨ c.patchMode ≠ mode ∨ (s.hostIn host).patchTurn c = false) :
    exec i s = .next (s.hostIn host).hostOut := by
  rw [e, State.patchRow, State.withHost]
  by_cases ready : c.stage = .cleared ∧ c.opcode = 5
  · rw [State.cleared_acts cmd _ ready.1 ready.2, if_pos]
    simpa [ready] using waits
  · rw [State.cleared_waits cmd _ (not_and_or.1 ready)]

variable (ready : c.stage = .cleared) (row : c.opcode = 5) (kind : c.patchMode = mode) (turn : (s.hostIn host).patchTurn c = true)
include ready row kind turn

theorem exec_patchRow_refused {code : Nat} (refused : ((s.hostIn host).startCmd id c).patchRefused c = some code) :
    exec i s = .next (((s.hostIn host).startCmd id c).endCmd id 0x01 (mkDetail 0xFFFF 1 code)).hostOut := by
  rw [e, State.patchRow, State.withHost, State.cleared_acts cmd _ ready row, if_neg (by simp [kind, turn])]
  simp only [refused]

variable (taken : ((s.hostIn host).startCmd id c).patchRefused c = none) {u : State}
include taken

theorem exec_patchRow_unread {f : VmFault} (read : ((s.hostIn host).startCmd id c).patchSource c = (.inr f, u)) :
    exec i s = .next (u.endCmd id f.ends.1 (mkDetail 0xFFFF 0 f.ends.2)).hostOut := by
  rw [e, State.patchRow, State.withHost, State.cleared_acts cmd _ ready row, if_neg (by simp [kind, turn])]
  simp only [taken, read]

theorem exec_patchRow_writes {src : List Byte} (read : ((s.hostIn host).startCmd id c).patchSource c = (.inl src, u)) :
    exec i s = .next (u.writeVersion id mode c src).hostOut := by
  rw [e, State.patchRow, State.withHost, State.cleared_acts cmd _ ready row, if_neg (by simp [kind, turn])]
  simp only [taken, read]

end

section
variable {s : State} {slot : Fin 4096}

theorem exec_patchCommit_none (none_ : SMap.get none s.dsp.patching slot = none) : exec (.patchCommit slot) s = .next s := by
  show execPatchCommit slot s = _
  simp only [execPatchCommit, none_]

/-- PATCH_COMMIT makes the version written the slot's current one, and ends its entry OK (R411 to R413). -/
theorem exec_patchCommit_some {x : Patching} {c : Cmd} (patching : SMap.get none s.dsp.patching slot = some x) (cmd : s.cmd x.cmd = some c) :
    exec (.patchCommit slot) s =
      let t := { s with dsp := { s.dsp with patching := SMap.put none s.dsp.patching slot none } }
      .next (((t.commitVersion slot (t.qFunc c.queue) x).reapSlot slot).endCmd x.cmd 0 (mkDetail 0xFFFF 0 0)) := by
  have same : State.cmd { s with dsp := { s.dsp with patching := SMap.put none s.dsp.patching slot none } } x.cmd = some c := cmd
  show execPatchCommit slot s = _
  simp only [execPatchCommit, patching, same]

end

section
variable {s : State} {id : Nat} {c : Cmd} (cmd : s.cmd id = some c)
include cmd

theorem exec_delete_waits (waits : c.stage ≠ .cleared ∨ c.opcode ≠ 5 ∨ c.patchMode ≠ 2 ∨ s.patchTurn c = false) :
    exec (.delete id) s = .next s := by
  show execDelete id s = _
  rw [execDelete]
  by_cases ready : c.stage = .cleared ∧ c.opcode = 5
  · rw [State.cleared_acts cmd _ ready.1 ready.2, if_pos]
    simpa [ready] using waits
  · rw [State.cleared_waits cmd _ (not_and_or.1 ready)]

variable (ready : c.stage = .cleared) (row : c.opcode = 5) (kind : c.patchMode = 2) (turn : s.patchTurn c = true)
include ready row kind turn

theorem exec_delete_refused {code : Nat} (refused : (s.startCmd id c).patchRefused c = some code) :
    exec (.delete id) s = .next ((s.startCmd id c).endCmd id 0x01 (mkDetail 0xFFFF 1 code)) := by
  show execDelete id s = _
  rw [execDelete, State.cleared_acts cmd _ ready row, if_neg (by simp [kind, turn])]
  simp only [refused]

/-- DELETE leaves its slot deleting, with the size and the number of the version that was current (R411, R417). -/
theorem exec_delete_deletes {p : PSlot} {v : Version} (taken : (s.startCmd id c).patchRefused c = none)
    (slot : (s.startCmd id c).pslot c.slot = some p) (current : p.versions.getLast? = some v) :
    exec (.delete id) s =
      .next ((((s.startCmd id c).setPslot c.slot (some { p with deleting := true, atDelete := (v.size, v.num) })).reapSlot c.slot).endCmd id 0
        (mkDetail 0xFFFF 0 0)) := by
  show execDelete id s = _
  rw [execDelete, State.cleared_acts cmd _ ready row, if_neg (by simp [kind, turn])]
  simp only [taken, slot, current, Option.getD_some]

end

/-! ### The obligation -/

/-- Settles O36, row by row: what waits, programs, copies, patches, DELETE. -/
theorem programsAndCopies : Obligations.ProgramsAndCopies := by
  unfold Obligations.ProgramsAndCopies
  have patches {s : State} {id mode : Nat} {host : HostData} {i : Instr}
      (rows : (i, mode) ∈ [(Instr.patch id host, 0), (.create id host, 1)]) : exec i s = .next (s.patchRow id mode host) := by
    simp only [List.mem_cons, List.not_mem_nil, or_false, Prod.mk.injEq] at rows
    rcases rows with ⟨rfl, rfl⟩ | ⟨rfl, rfl⟩ <;> rfl
  refine ⟨fun s id c cmd => ⟨fun waits => congrArg _ (State.cleared_waits cmd _ waits), exec_delete_waits cmd⟩,
    fun s id mode c host i cmd => ⟨exec_copyEntry_idle cmd, fun rows => exec_patchRow_waits (patches rows) cmd⟩,
    fun s id c cmd ready row x found => ?_, fun s id c slot ver t view u taken => ?_, fun s id c host view r cmd ready row taken => ?_,
    fun s n host => ?_, fun s id mode c host i rows cmd ready row kind turn => ?_,
    fun s slot => ⟨exec_patchCommit_none, fun x c => exec_patchCommit_some⟩, fun s id c cmd ready row kind turn => ?_⟩
  · rw [exec_runProgram_found cmd ready row found]
    exact ⟨fun missing => congrArg _ (State.runPinned_refused missing), fun slot ver t pin thr => congrArg _ (State.runPinned_starts pin thr)⟩
  · exact ⟨c.startThread id slot ver view, State.startProgram_eq taken, rfl, rfl, rfl, rfl, rfl, rfl, rfl, rfl, rfl, rfl, c.get_runArgs 1,
      c.get_runArgs 2, c.get_runArgs 3, c.get_runArgs 4, c.get_runArgs 5, fun n other => (c.get_runArgs n).trans (c.runArg_eq_zero other)⟩
  · exact ⟨exec_copyEntry_waits cmd ready row taken, fun n t x begun left => exec_copyEntry_starts cmd ready row taken left begun,
      fun f t x begun left => exec_copyEntry_fails cmd ready row taken left begun⟩
  · refine ⟨exec_copyDone_none, fun x f copy => exec_copyDone_failed copy, fun x p f r copy sound run => ⟨fun faults => ?_, fun none_ => ?_,
      fun none_ => ?_⟩⟩
    · obtain ⟨g, rfl⟩ := Option.isSome_iff_exists.1 faults
      exact exec_copyDone_faults copy sound run
    · exact exec_copyDone_stays copy sound (none_ ▸ run)
    · exact exec_copyDone_ends copy sound (none_ ▸ run)
  · exact ⟨fun code => exec_patchRow_refused (patches rows) cmd ready row kind turn, fun f u taken =>
      exec_patchRow_unread (patches rows) cmd ready row kind turn taken, fun src u taken =>
      exec_patchRow_writes (patches rows) cmd ready row kind turn taken⟩
  · exact ⟨fun code => exec_delete_refused cmd ready row kind turn, fun p v => exec_delete_deletes cmd ready row kind turn⟩

end Sys2Proof.Machine

/-! The registers of a semaphore: what SEM_CFG and SEM_VALUE do when written, what a forced value leaves standing, and what a snapshot shows. -/

namespace Sys2Proof.Machine

/-! ### Writes of SEM_CFG -/

theorem exec_semActivate {s : State} {fn : Fin 64} {n : Fin 65536} (served : s.Serves fn (R.semCfg n) true) (ctx : Fin 4096) (remote : Bool) :
    exec (.semActivate fn n ctx remote) s =
      .next (s.semCfgWrite n (BitVec.ofNat 64 (2 ^ 62 + (if remote then 2 ^ 61 else 0) + (ctx : Nat) % 4096 * 2 ^ 42))) :=
  congrArg _ (State.mmio_serves served _)

theorem exec_semRemoteChange {s : State} {fn : Fin 64} {n : Fin 65536} (served : s.Serves fn (R.semCfg n) true) (remote : Bool) :
    exec (.semRemoteChange fn n remote) s =
      .next (s.semCfgWrite n (BitVec.ofNat 64 (2 ^ 62 + (if remote then 2 ^ 61 else 0) + s.fld (R.semCfg n) 53 42 * 2 ^ 42))) :=
  congrArg _ (State.mmio_serves served _)

theorem exec_semBreak {s : State} {fn : Fin 64} {n : Fin 65536} (served : s.Serves fn (R.semCfg n) true) :
    exec (.semBreak fn n) s = .next (s.semCfgWrite n (BitVec.ofNat 64 (2 ^ 63 + s.fld (R.semCfg n) 53 42 * 2 ^ 42))) :=
  congrArg _ (State.mmio_serves served _)

theorem exec_semFree {s : State} {fn : Fin 64} {n : Fin 65536} (served : s.Serves fn (R.semCfg n) true) :
    exec (.semFree fn n) s = .next (s.semCfgWrite n 0) :=
  congrArg _ (State.mmio_serves served _)

/-- A write of SEM_CFG keeps STATE and OWNER (R424). -/
def State.semCfgSame (s : State) (n : Nat) (v : Word) : Prop :=
  Machine.fld v 63 62 = s.semState n ∧ Machine.fld v 53 42 = s.fld (R.semCfg n) 53 42

/-- The state after a write of SEM_CFG has cleared SATURATED where it asks for that (R422). -/
def State.semDesaturated (s : State) (n : Nat) (v : Word) : State := if v.getLsbD 60 then s.clrFlag (R.semCfg n) 60 else s

/-- The state after FREE to ACTIVE for an ACTIVE owner (R424). -/
def State.semActivated (s : State) (n : Nat) (v : Word) : State :=
  (s.wr (R.semCfg n) (BitVec.ofNat 64
    (2 ^ 62 + (if v.getLsbD 61 then 2 ^ 61 else 0) + s.tenantOf (Machine.fld v 53 42) * 2 ^ 54 +
      Machine.fld v 53 42 * 2 ^ 42))).semClear n

section
variable {s : State} {n : Nat} {v : Word}

theorem semCfgWrite_same (same : s.semCfgSame n v) :
    s.semCfgWrite n v = if s.semState n = 1 then (s.semDesaturated n v).putFlag (R.semCfg n) 61 (v.getLsbD 61) else s.semDesaturated n v :=
  if_pos (by simpa [State.semCfgSame] using same)

/-- The four ways out of a write of SEM_CFG that changes STATE or OWNER. -/
theorem semCfgWrite_changes (change : ¬ s.semCfgSame n v) :
    s.semCfgWrite n v =
      if s.semState n = 0 ∧ fld v 63 62 = 1 then
        if s.fld (R.ctxCfg (fld v 53 42)) 63 62 = 1 then s.semActivated n v else s.setFlag R.dbgSemStatus 0
      else if s.semState n = 1 ∧ fld v 63 62 = 2 then s.semBreak n none
      else if (s.semState n = 1 ∨ s.semState n = 2) ∧ fld v 63 62 = 0 then s.semFree n
      else s.setFlag R.dbgSemStatus 0 := by
  have other : ¬(decide (fld v 63 62 = s.semState n) && decide (fld v 53 42 = s.fld (R.semCfg n) 53 42)) = true := by
    simpa [State.semCfgSame] using change
  refine (if_neg other).trans ?_
  simp only [Bool.and_eq_true, Bool.or_eq_true, decide_eq_true_eq]
  rfl

section
variable (change : ¬ s.semCfgSame n v)
include change

theorem semCfgWrite_activates (free : s.semState n = 0) (wanted : fld v 63 62 = 1) (live : s.fld (R.ctxCfg (fld v 53 42)) 63 62 = 1) :
    s.semCfgWrite n v = s.semActivated n v := by
  rw [semCfgWrite_changes change, if_pos ⟨free, wanted⟩, if_pos live]

theorem semCfgWrite_ownerless (free : s.semState n = 0) (wanted : fld v 63 62 = 1) (dead : s.fld (R.ctxCfg (fld v 53 42)) 63 62 ≠ 1) :
    s.semCfgWrite n v = s.setFlag R.dbgSemStatus 0 := by
  rw [semCfgWrite_changes change, if_pos ⟨free, wanted⟩, if_neg dead]

theorem semCfgWrite_breaks (active : s.semState n = 1) (wanted : fld v 63 62 = 2) : s.semCfgWrite n v = s.semBreak n none := by
  rw [semCfgWrite_changes change, if_neg (by omega), if_pos ⟨active, wanted⟩]

theorem semCfgWrite_frees (held : s.semState n = 1 ∨ s.semState n = 2) (wanted : fld v 63 62 = 0) : s.semCfgWrite n v = s.semFree n := by
  rw [semCfgWrite_changes change, if_neg (by omega), if_neg (by omega), if_pos ⟨held, wanted⟩]

theorem semCfgWrite_busy (noStart : ¬(s.semState n = 0 ∧ fld v 63 62 = 1)) (noBreak : ¬(s.semState n = 1 ∧ fld v 63 62 = 2))
    (noFree : ¬((s.semState n = 1 ∨ s.semState n = 2) ∧ fld v 63 62 = 0)) : s.semCfgWrite n v = s.setFlag R.dbgSemStatus 0 := by
  rw [semCfgWrite_changes change, if_neg noStart, if_neg noBreak, if_neg noFree]

end

/-- A semaphore that breaks for no context of its own releases every waiter (R437). -/
theorem semBreak_none (s : State) (n : Nat) :
    s.semBreak n none = (s.semWaiters n).foldl (fun t w => t.wake w stSemBroken) ((s.setWaiters n []).setFld (R.semCfg n) 63 62 2) := rfl

theorem semFree_eq (s : State) (n : Nat) :
    s.semFree n = ((s.semWaiters n).foldl (fun t w => t.wake w stSemBroken) ((s.setWaiters n []).wr (R.semCfg n) 0)).semClear n := rfl

end

/-! ### The snapshot of a semaphore -/

/-- The registers that show the waiter at a place of a snapshot (R438, R439). -/
def SemSnap.waiterRegs (x : SemSnap) (i : Nat) : List (Nat × Word) :=
  [(R.dbgSemWaiter i, (x.shown.getD i (0, 0)).1), (R.dbgSemWaiterCount i, BitVec.ofNat 64 (x.shown.getD i (0, 0)).2)]

/-- The registers of a snapshot, as SEM_SNAPSHOT_READY writes them (R438). -/
def SemSnap.regs (x : SemSnap) : List (Nat × Word) :=
  (R.dbgSemLastTime, BitVec.ofNat 64 x.time) :: ((List.range 64).flatMap x.waiterRegs ++
    [(R.dbgSemSnap, BitVec.ofNat 64 (2 ^ 31 + x.total * 2 ^ 16 + x.shown.length))])

theorem semShow_eq_wrAll (s : State) (x : SemSnap) : s.semShow x = s.wrAll x.regs := by
  rw [State.wrAll, SemSnap.regs, List.foldl_cons, List.foldl_append, List.foldl_flatMap]
  rfl

theorem SemSnap.waiterRegs_offset {x : SemSnap} {i off : Nat} (h : off ∈ (x.waiterRegs i).map Prod.fst) :
    off = 0x8F100 + 16 * i ∨ off = 0x8F108 + 16 * i := by
  simpa [SemSnap.waiterRegs, R.dbgSemWaiter, R.dbgSemWaiterCount] using h

theorem SemSnap.regs_nodup (x : SemSnap) : (x.regs.map Prod.fst).Nodup := by
  have waiters : (((List.range 64).flatMap x.waiterRegs).map Prod.fst).Nodup := by
    rw [List.map_flatMap, List.nodup_flatMap]
    refine ⟨fun i _ => by simp [SemSnap.waiterRegs, R.dbgSemWaiter, R.dbgSemWaiterCount], ?_⟩
    refine List.nodup_range.imp fun {i j} apart off hi hj => ?_
    have := SemSnap.waiterRegs_offset hi
    have := SemSnap.waiterRegs_offset hj
    omega
  have above {off : Nat} (h : off ∈ ((List.range 64).flatMap x.waiterRegs).map Prod.fst) : 0x8F100 ≤ off := by
    obtain ⟨i, -, hi⟩ := List.mem_flatMap.1 (List.map_flatMap ▸ h)
    have := SemSnap.waiterRegs_offset hi
    omega
  have low (off : Nat) (h : off = R.dbgSemLastTime ∨ off = R.dbgSemSnap) : off ∉ ((List.range 64).flatMap x.waiterRegs).map Prod.fst := by
    intro listed
    have := above listed
    rcases h with rfl | rfl <;> contradiction
  rw [SemSnap.regs, List.map_cons, List.map_append, List.map_singleton, List.nodup_cons, List.mem_append, List.mem_singleton, not_or,
    ← List.concat_eq_append, List.nodup_concat]
  exact ⟨⟨low _ (.inl rfl), (by decide : R.dbgSemLastTime ≠ R.dbgSemSnap)⟩, low _ (.inr rfl), waiters⟩

theorem SemSnap.waiterRegs_subset_regs (x : SemSnap) {i : Nat} (shown : i < 64) : x.waiterRegs i ⊆ x.regs := fun _ h =>
  List.mem_cons_of_mem _ (List.mem_append_left _ (List.mem_flatMap.2 ⟨i, List.mem_range.2 shown, h⟩))

/-- A register of a snapshot reads what the snapshot holds for it. -/
theorem rd_semShow {s : State} (r : s.RegsRise) {x : SemSnap} {off : Nat} {v : Word} (listed : (off, v) ∈ x.regs) :
    (s.semShow x).rd off = v :=
  semShow_eq_wrAll s x ▸ State.rd_wrAll_same r x.regs_nodup listed

theorem semShow_regsOnly (s : State) (x : SemSnap) : s.semShow x = { s with regs := (s.semShow x).regs } :=
  semShow_eq_wrAll s x ▸ s.wrAll_regsOnly x.regs

/-- Each of the first 64 waiters stands in a snapshot at its place in the list (R438). -/
theorem semTake_shown {s : State} {n i : Nat} {w : Waiter} (shown : i < 64) (waits : (s.semWaiters n)[i]? = some w) :
    (s.semTake n).shown.getD i (0, 0) = (s.waiterWord w, w.count) := by
  rw [State.semTake, List.getD_eq_getElem?_getD, List.getElem?_map, List.getElem?_take_of_lt shown, waits]
  rfl

theorem semTake_shown_length (s : State) (n : Nat) : (s.semTake n).shown.length = min 64 (s.semWaiters n).length := by
  rw [State.semTake, List.length_map, List.length_take]

section
variable {s : State} {n i : Nat} {w : Waiter} (shown : i < 64) (waits : (s.semWaiters n)[i]? = some w)
include shown waits

theorem semTake_waiterRegs :
    (s.semTake n).waiterRegs i = [(R.dbgSemWaiter i, s.waiterWord w), (R.dbgSemWaiterCount i, BitVec.ofNat 64 w.count)] := by
  rw [SemSnap.waiterRegs, semTake_shown shown waits]

/-- A waiter's registers show its word and the count it awaits (R439). -/
theorem rd_semShow_waiter (r : s.RegsRise) : (s.semShow (s.semTake n)).rd (R.dbgSemWaiter i) = s.waiterWord w ∧
    (s.semShow (s.semTake n)).rd (R.dbgSemWaiterCount i) = BitVec.ofNat 64 w.count := by
  have listed := (s.semTake n).waiterRegs_subset_regs shown
  rw [semTake_waiterRegs shown waits] at listed
  exact ⟨rd_semShow r (listed (by simp)), rd_semShow r (listed (by simp))⟩

end

theorem rd_dbgSemSnap_semShow {s : State} (r : s.RegsRise) (n : Nat) :
    (s.semShow (s.semTake n)).rd R.dbgSemSnap =
      BitVec.ofNat 64 (2 ^ 31 + (s.semWaiters n).length * 2 ^ 16 + min 64 (s.semWaiters n).length) := by
  rw [← semTake_shown_length]
  exact rd_semShow r (List.mem_cons_of_mem _ (List.mem_append_right _ (List.mem_singleton.2 rfl)))

theorem rd_dbgSemLastTime_semShow {s : State} (r : s.RegsRise) (n : Nat) :
    (s.semShow (s.semTake n)).rd R.dbgSemLastTime = BitVec.ofNat 64 (SMap.get 0 s.sem.lastTime n) :=
  rd_semShow r List.mem_cons_self

/-! ### A forced value -/

/-- The state in which a forced value has been stored, stamped, counted, logged and traced, and the waiters are still to be served
(R435, R436). -/
def State.semForced (s : State) (fn n : Nat) (v : Word) : State :=
  let t := (s.wr (R.semValue n) (BitVec.ofNat 64 (Machine.fld v 47 0))).semStamp n 5 0 0 s.con.node 0
  ((t.count R.dbgSemForceCount 32 1).fillLog R.dbgSemForceLog (BitVec.ofNat 64 (2 ^ 63 + fn * 2 ^ 56 + n * 2 ^ 40 + t.time40))).trace
    ⟨0x08, 8, 0, 0, 0, n * 2 ^ 48 + s.semVal n, fn * 2 ^ 58 + Machine.fld v 47 0⟩

section
variable {s : State} {fn : Fin 64} {n : Fin 65536} (served : s.Serves fn (R.semValue n) true) (v : Word)
include served

theorem exec_semForce : exec (.semForce fn n v) s = .next (s.semForce fn n v) := congrArg _ (State.mmio_serves served _)

theorem exec_semForce_busy (idle : s.semState n ≠ 1) : exec (.semForce fn n v) s = .next (s.setFlag R.dbgSemStatus 0) :=
  (exec_semForce served v).trans (congrArg _ (if_pos idle))

theorem exec_semForce_serves (active : s.semState n = 1) : exec (.semForce fn n v) s = .next ((s.semForced fn n v).semServe n) :=
  (exec_semForce served v).trans (congrArg _ (if_neg (not_not.2 active)))

end

/-! ### The obligation -/

/-- Settles O42, clause by clause: the rows that write SEM_CFG, what the write does, a forced value, and the snapshot taken and shown. -/
theorem semaphoreRegisters : Obligations.SemaphoreRegisters := by
  unfold Obligations.SemaphoreRegisters
  refine ⟨fun s fn n ctx remote i v => ?_, fun s n v => ?_, fun s n none_ => ?_, fun s n ws waits => ?_,
    fun s fn n v served => ⟨exec_semForce_busy served v, exec_semForce_serves served v⟩,
    fun s fn n served => congrArg _ (State.mmio_serves served _), fun s => ⟨fun idle => ?_, fun n taking => ?_⟩,
    fun s n i x canon shown waits => ?_⟩
  · intro r owner rows served
    simp only [List.mem_cons, List.not_mem_nil, or_false, Prod.mk.injEq] at rows
    rcases rows with ⟨rfl, rfl⟩ | ⟨rfl, rfl⟩ | ⟨rfl, rfl⟩ | ⟨rfl, rfl⟩
    · exact exec_semActivate served ctx remote
    · exact exec_semRemoteChange served remote
    · exact exec_semBreak served
    · exact exec_semFree served
  · exact ⟨fun same active => (semCfgWrite_same same).trans (if_pos active), fun same idle => (semCfgWrite_same same).trans (if_neg idle),
      semCfgWrite_activates, semCfgWrite_ownerless, semCfgWrite_breaks, semCfgWrite_frees, semCfgWrite_busy⟩
  · rw [semBreak_none, semFree_eq, none_]
    exact ⟨rfl, rfl⟩
  · subst waits
    exact ⟨semBreak_none s n, semFree_eq s n⟩
  · show execSemSnapshotReady s = _
    rw [execSemSnapshotReady, idle]
  · show execSemSnapshotReady s = _
    rw [execSemSnapshotReady, taking]
  · obtain ⟨word, count⟩ := rd_semShow_waiter shown waits canon.rise
    exact ⟨rfl, rfl, rfl, rfl, word, count,
      rd_dbgSemSnap_semShow canon.rise n, rd_dbgSemLastTime_semShow canon.rise n, semShow_regsOnly s _⟩

end Sys2Proof.Machine

/-! What writing a record to memory and to the trace leaves standing: the registers and the lists of the semaphore store. -/

namespace Sys2Proof.Machine

/-! ### The semaphore store stands -/

/-- Does a register belong to the semaphore store (R421)? -/
def isSemReg (off : Nat) : Bool := inBlock off 0xA00000 0xC00000

/-- The semaphore store is in `t` as it is in `s`: its registers, its lists and its snapshot. -/
structure State.SemsStand (s t : State) : Prop where
  sem : t.sem = s.sem
  reads : ∀ off, isSemReg off = true → t.rd off = s.rd off
  rise : t.RegsRise

section
variable {s0 s t : State}

theorem State.SemsStand.refl (r : s.RegsRise) : s.SemsStand s := ⟨rfl, fun _ _ => rfl, r⟩

theorem State.SemsStand.same (h : s0.SemsStand s) (regs : t.regs = s.regs) (sem : t.sem = s.sem) : s0.SemsStand t :=
  ⟨sem.trans h.sem, fun off e => (State.rd_congr regs off).trans (h.reads off e), State.rise_congr regs h.rise⟩

theorem State.SemsStand.counted (h : s0.SemsStand s) (k : s.Counted t ∧ t.RegsRise) : s0.SemsStand t := by
  obtain ⟨⟨frame, reads⟩, rise⟩ := k
  refine ⟨(congrArg State.sem frame).trans h.sem, fun off e => (reads off ?_).trans (h.reads off e), rise⟩
  simp only [isSemReg, inBlock, Bool.and_eq_true, decide_eq_true_eq] at e
  simp only [isCounter, Bool.and_eq_false_iff, decide_eq_false_iff_not]
  omega

theorem State.SemsStand.ite {p : Prop} [Decidable p] (h : s0.SemsStand s) (k : s0.SemsStand t) : s0.SemsStand (if p then s else t) := by
  split
  · exact h
  · exact k

variable (h : s0.SemsStand s)
include h

theorem State.SemsStand.wr {off : Nat} (other : isSemReg off = false) (v : Word) : s0.SemsStand (s.wr off v) := by
  refine ⟨h.sem, fun j e => (State.rd_wr_ne h.rise v ?_).trans (h.reads j e), State.wr_rise h.rise off v⟩
  rintro rfl
  exact Bool.noConfusion (other.symm.trans e)

theorem State.SemsStand.setFlag {off : Nat} (other : isSemReg off = false) (i : Nat) : s0.SemsStand (s.setFlag off i) := h.wr other _

theorem State.SemsStand.count {off : Nat} (other : isSemReg off = false) (w k : Nat) : s0.SemsStand (s.count off w k) := by
  rw [State.count]
  split
  · exact h.wr other _
  · exact (h.same (t := { s with freeCount := s.freeCount + 1 }) rfl rfl).wr other _

theorem State.SemsStand.fillLog {off : Nat} (other : isSemReg off = false) (v : Word) : s0.SemsStand (s.fillLog off v) := by
  rw [State.fillLog]
  split
  · exact h
  · exact h.wr other v

theorem State.SemsStand.hit {set : Nat} (k : set < 214) (code n : Nat) : s0.SemsStand (s.hit set code n) :=
  h.counted (State.hit_counted (.refl s) h.rise k)

end

/-! ### Accesses of memory -/

theorem homeDie_lt (a : Nat) : homeDie a < 2 := by
  unfold homeDie
  split <;> decide

section
variable {s0 s : State} (h : s0.SemsStand s)
include h

theorem State.SemsStand.setMem (m : MemSys) : s0.SemsStand (s.setMem m) := by
  refine List.foldlRecOn _ _ (motive := s0.SemsStand) (h.same rfl rfl) fun t ht d listed => ?_
  have die : d < 2 := by
    rw [List.mem_pair] at listed
    omega
  have lines (k : Nat) : s0.SemsStand (if k = 0 then t else t.hit (210 + d) 0x3001 k) := ht.ite (ht.hit (by omega) 0x3001 k)
  exact (lines _).ite ((lines _).hit (by omega) 0x2003 _)

theorem State.SemsStand.sectorRead (sector slot : Nat) : s0.SemsStand (s.sectorRead sector slot).2 := by
  rw [State.sectorRead]
  split
  · exact h
  · exact h.same rfl rfl

theorem State.SemsStand.dramBytes (line slot : Nat) : s0.SemsStand (s.dramBytes line slot).2 :=
  List.foldlRecOn _ _ (motive := fun x : List Byte × State => s0.SemsStand x.2) h fun _ hx _ _ => hx.sectorRead _ slot

theorem State.SemsStand.dramLine (line slot : Nat) : s0.SemsStand (s.dramLine line slot).2 :=
  (h.hit (by have := homeDie_lt (128 * line); omega) 0x3000 1).dramBytes line slot

theorem State.SemsStand.placeLine (n : Nat) (x : L2Line) (mask : Nat) : s0.SemsStand (s.placeLine n x mask) := by
  rw [State.placeLine]
  split
  · exact h.same rfl rfl
  · exact (h.same (t := { s with freeCount := s.freeCount + 1 }) rfl rfl).setMem _

theorem State.SemsStand.placed (n : Nat) (x : L2Line) (mask : Nat) : s0.SemsStand (s.placed n x mask).2 := h.placeLine n x mask

theorem State.SemsStand.rekeyLine (n slot : Nat) (x : L2Line) : s0.SemsStand (s.rekeyLine n slot x).2 := by
  rw [State.rekeyLine]
  split
  · exact h
  · have read := (h.setMem (s.mem.cleanLine n)).dramLine n slot
    generalize (s.setMem (s.mem.cleanLine n)).dramLine n slot = p at read ⊢
    exact read.setMem _

theorem State.SemsStand.countRecall (n : Nat) : s0.SemsStand (s.countRecall n) := by
  have die := homeDie_lt (128 * n)
  have other : isSemReg (R.cchSidingRecalls (homeDie (128 * n))) = false := by
    interval_cases homeDie (128 * n) <;> decide
  exact (h.count other 64 1).hit (by omega) 0x2002 1

theorem State.SemsStand.countMiss (n : Nat) : s0.SemsStand (s.countMiss n) := by
  have die := homeDie_lt (128 * n)
  have other : isSemReg (R.cchL2Misses (homeDie (128 * n))) = false := by
    interval_cases homeDie (128 * n) <;> decide
  exact (h.count other 64 1).hit (by omega) 0x2001 1

theorem State.SemsStand.lineFor (n cls slot : Nat) (alloc first : Bool) : s0.SemsStand (s.lineFor n cls slot alloc first).2 := by
  have looked : s0.SemsStand (s.hit (208 + homeDie (128 * n)) 0x2000 1) := h.hit (by have := homeDie_lt (128 * n); omega) _ _
  rw [State.lineFor]
  generalize s.hit (208 + homeDie (128 * n)) 0x2000 1 = t at looked ⊢
  dsimp only
  split
  next x _ =>
    have keyed := looked.rekeyLine n slot x
    generalize t.rekeyLine n slot x = p at keyed ⊢
    obtain ⟨y, u⟩ := p
    have recalled := keyed.countRecall n
    dsimp only at keyed recalled ⊢
    split
    · exact keyed
    · split
      · dsimp only
        exact recalled
      · exact recalled.placed n _ _
  next =>
    have read := (looked.countMiss n).dramLine n slot
    generalize (t.countMiss n).dramLine n slot = p at read ⊢
    obtain ⟨b, u⟩ := p
    dsimp only at read ⊢
    split
    · exact read.placed n _ _
    · exact read

theorem State.SemsStand.lineUpdate (n : Nat) (x : L2Line) (data : SMap (Option Byte)) (slot : Nat) :
    s0.SemsStand (s.lineUpdate n x data slot) := by
  rw [State.lineUpdate]
  split
  · exact h.same rfl rfl
  · exact h.setMem _

theorem State.SemsStand.lineWrite (n : Nat) (data : SMap (Option Byte)) (cls slot : Nat) (alloc first : Bool) :
    s0.SemsStand (s.lineWrite n data cls slot alloc first) := by
  rw [State.lineWrite]
  split
  · exact h.same rfl rfl
  · have found := h.lineFor n cls slot alloc first
    generalize s.lineFor n cls slot alloc first = p at found ⊢
    exact found.lineUpdate n p.1 data slot

theorem State.SemsStand.memWrite (a : Nat) (b : List Byte) (cls slot : Nat) (alloc : Bool) : s0.SemsStand (s.memWrite a b cls slot alloc) := by
  exact List.foldlRecOn _ _ (motive := s0.SemsStand) h fun t ht p _ => ht.ite (ht.lineWrite ..)

/-! ### Records of the trace -/

theorem State.SemsStand.traceStore (i : Nat) (r : TraceRec) : s0.SemsStand (s.traceStore i r) := h.memWrite ..

theorem State.SemsStand.traceLost : s0.SemsStand s.traceLost := h.count (by decide) 64 1

theorem State.SemsStand.traceRing (r : TraceRec) : s0.SemsStand (s.traceRing r) := by
  have stored (v : Word) := (h.traceStore (s.fld R.dbgTraceWr 31 0 % s.traceSlots) r).wr (off := R.dbgTraceWr) (by decide) v
  rw [State.traceRing]
  dsimp only
  split
  · exact (stored _).setFlag (by decide) 3
  · split
    · exact (stored _).same rfl rfl
    · exact stored _

theorem State.SemsStand.traceWrite (r : TraceRec) : s0.SemsStand (s.traceWrite r) := by
  rw [State.traceWrite]
  dsimp only
  split
  · exact h.traceLost
  · split
    · exact h.traceLost
    · split
      · have stored := (h.traceStore (s.fld R.dbgTraceWr 31 0) r).wr (off := R.dbgTraceWr) (by decide)
          (BitVec.ofNat 64 (s.fld R.dbgTraceWr 31 0 + 1))
        exact (stored.setFlag (by decide) 2).ite stored
      · have full := h.traceLost.setFlag (off := R.dbgStatus) (by decide) 2
        refine State.SemsStand.traceStore ?_ _ _
        exact full.same rfl rfl
    · exact h.traceRing r
    · split
      · exact h.traceLost
      · exact (h.traceRing r).same rfl rfl
      · exact h.traceRing r

theorem State.SemsStand.trace (r : TraceRec) : s0.SemsStand (s.trace r) := by
  rw [State.trace]
  split
  · exact h.traceWrite r
  · exact h

end

/-! ### What a force leaves to be served -/

theorem State.rd_withSem (s : State) (x : SemState) (off : Nat) : { s with sem := x }.rd off = s.rd off := rfl

/-- A stamp writes SEM_LAST and SEM_LAST_COOKIE alone (R423). -/
theorem rd_semStamp {s : State} (r : s.RegsRise) {n off : Nat} (last : off ≠ R.semLast n) (cookie : off ≠ R.semLastCookie n)
    (kind ctx queue node c : Nat) : (s.semStamp n kind ctx queue node c).rd off = s.rd off := by
  rw [State.semStamp]
  exact (State.rd_withSem _ _ off).trans ((State.rd_wr_ne (State.wr_rise r _ _) _ cookie).trans (State.rd_wr_ne r _ last))

theorem inBlock_eq_true {off lo hi : Nat} (h : lo ≤ off ∧ off < hi) : inBlock off lo hi = true := by
  simpa [inBlock] using h

theorem inBlock_eq_false {off lo hi : Nat} (h : off < lo ∨ hi ≤ off) : inBlock off lo hi = false := by
  simp only [inBlock, Bool.and_eq_false_iff, decide_eq_false_iff_not]
  omega

theorem semValue_bounds {n : Nat} (h : n < 65536) : 0xA00000 ≤ R.semValue n ∧ R.semValue n < 0xC00000 := by
  unfold R.semValue
  omega

theorem isSemReg_semValue {n : Nat} (h : n < 65536) : isSemReg (R.semValue n) = true := inBlock_eq_true (semValue_bounds h)

/-- A field from bit 0 up, stored in a word of its own, reads as it was. -/
theorem fld_ofNat_fld (v : Word) (hi : Nat) : fld (BitVec.ofNat 64 (fld v hi 0)) hi 0 = fld v hi 0 := by
  apply Nat.eq_of_testBit_eq
  intro i
  rw [fld_testBit, BitVec.getLsbD_ofNat, Nat.zero_add, fld_testBit, Nat.zero_add]
  by_cases inside : i < 64
  · simp [inside]
  · simp [BitVec.getLsbD_of_ge v i (by omega)]

section
variable {s : State} (r : s.RegsRise) (fn n : Nat) (v : Word)
include r

/-- A force leaves the store as the value and the stamp have set it. -/
theorem semForced_stands : ((s.wr (R.semValue n) (BitVec.ofNat 64 (fld v 47 0))).semStamp n 5 0 0 s.con.node 0).SemsStand (s.semForced fn n v) := by
  have stamped : ((s.wr (R.semValue n) (BitVec.ofNat 64 (fld v 47 0))).semStamp n 5 0 0 s.con.node 0).RegsRise :=
    State.wr_rise (State.wr_rise (State.wr_rise r _ _) _ _) _ _
  exact (((State.SemsStand.refl stamped).count (by decide) 32 1).fillLog (by decide) _).trace _

theorem semForced_semWaiters : (s.semForced fn n v).semWaiters n = s.semWaiters n := by
  rw [State.semWaiters, (semForced_stands r fn n v).sem]
  rfl

theorem semForced_semVal (h : n < 65536) : (s.semForced fn n v).semVal n = fld v 47 0 := by
  have stamped := rd_semStamp (State.wr_rise r (R.semValue n) (BitVec.ofNat 64 (fld v 47 0))) (n := n) (off := R.semValue n)
    (by simp [R.semValue, R.semLast]) (by simp [R.semValue, R.semLastCookie]) 5 0 0 s.con.node 0
  rw [State.rd_wr_same r] at stamped
  rw [State.semVal, State.fld, (semForced_stands r fn n v).reads _ (isSemReg_semValue h), stamped, fld_ofNat_fld]

end

/-! ### Who may force a value -/

section
variable {s : State} {fn n : Nat} (exists_ : s.fnExists fn = true) (awake : SMap.get false s.pci.d3 fn = false) (answers : s.answers = true)
  (running : s.fld R.conStatus 3 0 ≠ 0) (powered : s.drained = false)
include exists_ awake answers running powered

/-- In a running package a write of SEM_VALUE is the physical function's or the tenant's (R421, R435). -/
theorem reach_semValue (h : n < 65536) :
    s.reach fn (R.semValue n) true = if fn = 0 ∨ s.fld (R.semCfg n) 59 54 = fn then .acts else .semRefused := by
  have bounds := semValue_bounds h
  have store : inBlock (R.semValue n) 0xA00000 0xC00000 = true := inBlock_eq_true bounds
  have maint : inBlock (R.semValue n) 0xD01040 0xD02000 = false := inBlock_eq_false (by omega)
  have index : (R.semValue n - 0xA00000) / 32 = n := by
    unfold R.semValue
    omega
  have row : (R.semValue n - 0xA00000) % 32 = 8 := by
    unfold R.semValue
    omega
  rw [State.reach]
  simp only [answers, exists_, awake, running, powered, store, maint, index, row, Bool.not_true, Bool.false_eq_true, if_false, decide_false,
    Bool.false_and, if_true]
  by_cases physical : fn = 0
  · simp [physical]
  · simp [physical]

theorem serves_semValue (h : n < 65536) (mine : fn = 0 ∨ s.fld (R.semCfg n) 59 54 = fn) : s.Serves fn (R.semValue n) true := by
  refine ⟨(reach_semValue exists_ awake answers running powered h).trans (if_pos mine), ?_⟩
  have bounds := semValue_bounds h
  have mgt : inBlock (R.semValue n) 0x50000 0x60000 = false := inBlock_eq_false (by omega)
  rw [State.mgtCut, mgt, Bool.and_false]

end

/-- Another function's write of SEM_VALUE only shows busy (R421). -/
theorem exec_semForce_foreign {s : State} {fn : Fin 64} {n : Fin 65536} (refused : s.reach fn (R.semValue n) true = .semRefused) (v : Word) :
    exec (.semForce fn n v) s = .next (s.setFlag R.dbgSemStatus 0) :=
  congrArg _ (State.mmio_write_unserved refused (by decide) _)

/-! ### The obligation -/

/-- Settles O50: the function that may write meets ACTIVE or another state, and any other function is refused. -/
theorem forcedSemaphoreValues : Obligations.ForcedSemaphoreValues := by
  unfold Obligations.ForcedSemaphoreValues
  intro s fn n v canon exists_ awake answers running powered
  refine ⟨fun mine => ?_, fun virtual foreign => ?_⟩
  · have served := serves_semValue exists_ awake answers running powered n.isLt mine
    exact ⟨fun active => ⟨s.semForced fn n v, exec_semForce_serves served v active, semForced_semVal canon.rise fn n v n.isLt,
      semForced_semWaiters canon.rise fn n v⟩, exec_semForce_busy served v⟩
  · have refused := (reach_semValue exists_ awake answers running powered n.isLt).trans (if_neg (not_or.2 ⟨virtual, foreign⟩))
    refine ⟨_, exec_semForce_foreign refused v, ?_, rfl⟩
    rw [State.semVal, State.semVal, State.fld, State.fld, State.setFlag, State.rd_setFld_ne canon.rise]
    simp only [R.semValue, R.dbgSemStatus]
    omega

end Sys2Proof.Machine

/-! What a step keeps of the fuses and of the debug scopes that a token granted, and the state at reset. -/

namespace Sys2Proof.Machine

/-- The queue's rest apart, a step keeps what a command keeps. -/
theorem step_fuses {s t : State} (m : s.boot.made = true) (e : step s = .next t) : t.boot.made = true ∧ s.sec.fuses.Grow t.sec.fuses := by
  cases hq : s.pending with
  | nil =>
    rw [step_of_empty hq] at e
    cases e
    have k := State.tick_keeps (.refl s)
    exact ⟨k.made m, k.fuses m⟩
  | cons c rest =>
    rw [step_of_front hq] at e
    have k := exec_keepsMost e
    exact ⟨k.made m, k.fuses m⟩

/-- A register reads its reset value until something is written. -/
theorem State.reset_rd (off : Nat) : State.reset.rd off = resetOf off := rfl

/-- Every table of the state at reset is empty. -/
theorem State.reset_canon : State.reset.Canon where
  dram := SMap.nil_canon _
  regs := SMap.nil_canon _
  cores := SMap.nil_canon _
  launches := SMap.nil_canon _
  cmds := SMap.nil_canon _
  threads := SMap.nil_canon _
  units := SMap.nil_canon _
  qps := SMap.nil_canon _

/-- Settles O7: an idle step by the tick, any other by the command in front. -/
theorem fusesNeverUnblow : Obligations.FusesNeverUnblow := fun _ _ => step_fuses

/-- Settles O8: what every command but TOKEN_VERIFY_DONE keeps, and the tick. -/
theorem onlyTokensOpenDebugScopes : Obligations.OnlyTokensOpenDebugScopes := by
  refine ⟨fun i s t h e => (exec_keeps s i h t e).scopes, fun s t idle e => ?_⟩
  rw [step_of_empty idle] at e
  cases e
  exact (State.tick_keeps (.refl s)).scopes

/-- Settles O5, table by table. -/
theorem resetIsCanonical : Obligations.ResetIsCanonical :=
  ⟨State.reset_canon, rfl, rfl, rfl, rfl, State.reset_rd⟩

end Sys2Proof.Machine


/-! Contexts: what a write of CTX_CFG or CTX_SEED does, a census from its start to its end, and the last step of a retirement. -/

namespace Sys2Proof.Machine

/-! ### Registers set to zero -/

theorem State.foldl_wr_rise {s : State} (r : s.RegsRise) (v : Word) (l : List Nat) : (l.foldl (fun t off => t.wr off v) s).RegsRise := by
  induction l generalizing s with
  | nil => exact r
  | cons off l ih => exact ih (State.wr_rise r off v)

theorem State.rd_foldl_wr_ne {s : State} (r : s.RegsRise) (v : Word) {l : List Nat} {off : Nat} (other : off ∉ l) :
    (l.foldl (fun t off => t.wr off v) s).rd off = s.rd off := by
  induction l generalizing s with
  | nil => rfl
  | cons o l ih =>
    rw [List.mem_cons, not_or] at other
    exact (ih (State.wr_rise r o v) other.2).trans (State.rd_wr_ne r v other.1)

theorem State.rd_foldl_wr_same {s : State} (r : s.RegsRise) (v : Word) {l : List Nat} {off : Nat} (listed : off ∈ l) :
    (l.foldl (fun t off => t.wr off v) s).rd off = v := by
  induction l generalizing s with
  | nil => cases listed
  | cons o l ih =>
    by_cases later : off ∈ l
    · exact ih (State.wr_rise r o v) later
    · obtain rfl := (List.mem_cons.1 listed).resolve_right later
      exact (State.rd_foldl_wr_ne (State.wr_rise r off v) v later).trans (State.rd_wr_same r off v)

/-- Dispatch's tables are no registers, so what `zeroCounters` does to them shows in no register. -/
theorem State.rd_zeroCounters (s : State) (n off : Nat) :
    (s.zeroCounters n).rd off = ((ctxCounters n).foldl (fun t r => t.wr r 0) s).rd off := by
  rw [State.zeroCounters, State.rd, State.rd]

/-! ### Writes of CTX_CFG and CTX_SEED -/

/-- A write of CTX_CFG asks a FREE context to become ACTIVE for an existing tenant (R515). -/
abbrev State.ctxStarts (s : State) (n : Nat) (v : Word) : Prop :=
  s.fld (R.ctxCfg n) 63 62 = 0 ∧ Machine.fld v 63 62 = 1 ∧ Machine.fld v 15 0 ≠ 0 ∧ s.fnExists (Machine.fld v 61 56) = true

/-- A write of CTX_CFG gives an ACTIVE context of the same tenant a weight (R515). -/
abbrev State.ctxAgain (s : State) (n : Nat) (v : Word) : Prop :=
  s.fld (R.ctxCfg n) 63 62 = 1 ∧ Machine.fld v 63 62 = 1 ∧ Machine.fld v 15 0 ≠ 0 ∧ Machine.fld v 61 56 = s.tenantOf n

/-- A write of CTX_CFG frees a RETIRED context (R515). -/
abbrev State.ctxFrees (s : State) (n : Nat) (v : Word) : Prop := s.fld (R.ctxCfg n) 63 62 = 3 ∧ Machine.fld v 63 62 = 0

/-- The state once a context has become ACTIVE: its counters at zero, the consist's seed in force, one more ACTIVE context (R515, R532). -/
def State.ctxStarted (s : State) (n : Nat) (v : Word) : State :=
  let u := (s.wr (R.ctxCfg n) (BitVec.ofNat 64 (2 ^ 62 + Machine.fld v 61 56 * 2 ^ 56 + Machine.fld v 15 0))).zeroCounters n
  let w := (u.clrFlag (R.ctxStatus n) 3).adopt (R.ctxSeed n)
  (w.wr (R.ctxSeed n) (SMap.get 0 w.con.seeds n)).adjust R.dspCtxActive 1 0

/-- The state once a context has become FREE: each of its registers at zero (R515). -/
def State.ctxFreed (s : State) (n : Nat) : State :=
  ((ctxRegs n ++ [R.ctxCfg n, R.ctxStatus n, R.ctxSeed n]).foldl (fun t r => t.wr r 0) (s.adopt (R.ctxSeed n))).zeroCounters n

section
variable {s : State} {n : Nat} {v : Word}

/-- The four ways in which a write of CTX_CFG ends. -/
theorem ctxCfgWrite_eq (s : State) (n : Nat) (v : Word) :
    s.ctxCfgWrite n v = if s.ctxStarts n v then s.ctxStarted n v
      else if s.ctxAgain n v then s.setFld (R.ctxCfg n) 15 0 (fld v 15 0)
      else if s.ctxFrees n v then s.ctxFreed n
      else s.setFlag (R.ctxStatus n) 0 := by
  unfold State.ctxCfgWrite
  simp only [Bool.and_eq_true, decide_eq_true_eq, and_assoc, ne_eq]
  rfl

theorem ctxCfgWrite_starts (starts : s.ctxStarts n v) : s.ctxCfgWrite n v = s.ctxStarted n v := by
  rw [ctxCfgWrite_eq, if_pos starts]

theorem ctxCfgWrite_again (again : s.ctxAgain n v) : s.ctxCfgWrite n v = s.setFld (R.ctxCfg n) 15 0 (fld v 15 0) := by
  have running : ¬ s.ctxStarts n v := fun starts => absurd (starts.1.symm.trans again.1) (by decide)
  rw [ctxCfgWrite_eq, if_neg running, if_pos again]

theorem ctxCfgWrite_frees (frees : s.ctxFrees n v) : s.ctxCfgWrite n v = s.ctxFreed n := by
  have held : ¬ s.ctxStarts n v := fun starts => absurd (starts.1.symm.trans frees.1) (by decide)
  have left : ¬ s.ctxAgain n v := fun again => absurd (again.1.symm.trans frees.1) (by decide)
  rw [ctxCfgWrite_eq, if_neg held, if_neg left, if_pos frees]

theorem ctxCfgWrite_busy (noStart : ¬ s.ctxStarts n v) (noChange : ¬ s.ctxAgain n v) (noFree : ¬ s.ctxFrees n v) :
    s.ctxCfgWrite n v = s.setFlag (R.ctxStatus n) 0 := by
  rw [ctxCfgWrite_eq, if_neg noStart, if_neg noChange, if_neg noFree]

end

section
variable {s : State} {fn : Fin 64} {n : Fin 4096} (served : s.Serves fn (R.ctxSeed n) true) (v : Word)
include served

theorem exec_seedWrite_free (free : s.fld (R.ctxCfg n) 63 62 = 0) : exec (.seedWrite fn n v) s = .next (s.wr (R.ctxSeed n) v) := by
  show execSeedWrite fn n v s = _
  simp only [execSeedWrite, State.mmio_serves served, free]

theorem exec_seedWrite_active (active : s.fld (R.ctxCfg n) 63 62 = 1) :
    exec (.seedWrite fn n v) s = .next ((s.wrLate (R.ctxSeed n) v).setFlag (R.ctxStatus n) 3) := by
  show execSeedWrite fn n v s = _
  simp only [execSeedWrite, State.mmio_serves served, active]

theorem exec_seedWrite_retires (leaving : 2 ≤ s.fld (R.ctxCfg n) 63 62) :
    exec (.seedWrite fn n v) s = .next (s.setFlag (R.ctxStatus n) 0) := by
  show execSeedWrite fn n v s = _
  obtain ⟨k, hk⟩ := Nat.exists_eq_add_of_le' leaving
  simp only [execSeedWrite, State.mmio_serves served, hk]
  rfl

end

/-! ### Census -/

theorem exec_census {s : State} {fn : Fin 64} {n : Fin 4096} (served : s.Serves fn (R.ctxCensus n) true) :
    exec (.census fn n) s = .next (if s.fld (R.ctxCfg n) 63 62 ≠ 1 || s.flag (R.ctxStatus n) 1 then s.setFlag (R.ctxStatus n) 0
      else s.setFlag (R.ctxStatus n) 1) :=
  congrArg _ (State.mmio_serves served _)

theorem exec_censusDone_idle {s : State} {n : Fin 4096} (idle : s.flag (R.ctxStatus n) 1 = false) (host : HostData) :
    exec (.censusDone n host) s = .next s := by
  show execCensusDone n host s = _
  rw [execCensusDone, idle]
  rfl

theorem exec_censusDone_counts {s u : State} {n : Fin 4096} {host : HostData} {a : Leaves} (runs : s.flag (R.ctxStatus n) 1 = true)
    (counted : (s.hostIn host).countLeaves ⟨0, 0, 0, false⟩ 3 ((s.hostIn host).rootOf n false) 4 = (a, u)) :
    exec (.censusDone n host) s = .next (u.censusCounted n a).hostOut := by
  show execCensusDone n host s = _
  rw [execCensusDone, runs]
  simp only [Bool.not_true, Bool.false_eq_true, if_false, State.withHost, counted]

/-! ### Retirement -/

section
variable {s : State} {n : Fin 4096}

theorem exec_retireDone_none (gone : (s.retireRun n).retire? n = none) : exec (.retireDone n) s = .next (s.retireRun n) := by
  show execRetireDone n s = _
  simp only [execRetireDone, gone]

theorem exec_retireDone_some {r : Retire} (runs : (s.retireRun n).retire? n = some r) :
    exec (.retireDone n) s = .next (if r.step = 6 then ((s.retireRun n).retired n r).flrRun else s.retireRun n) := by
  show execRetireDone n s = _
  simp only [execRetireDone, runs]

end

/-! ### The obligation -/

/-- Settles O34: CTX_CFG by the four ways in which a write of it ends, then seeds, a census and the end of a retirement. -/
theorem contextsComeAndGo : Obligations.ContextsComeAndGo := by
  unfold Obligations.ContextsComeAndGo
  refine ⟨fun s fn n tenant weight i v rows served => ?_,
    fun s n v => ⟨ctxCfgWrite_starts, ctxCfgWrite_again, ctxCfgWrite_frees, ctxCfgWrite_busy⟩,
    fun s n canon => ⟨fun r listed => (s.rd_zeroCounters n r).trans (State.rd_foldl_wr_same canon.rise 0 listed),
      fun r other => (s.rd_zeroCounters n r).trans (State.rd_foldl_wr_ne canon.rise 0 other)⟩,
    fun s fn n v served => ⟨exec_seedWrite_free served v, exec_seedWrite_active served v, exec_seedWrite_retires served v⟩,
    fun s fn n served => ?_, fun s u n host a => ⟨fun idle => exec_censusDone_idle idle host,
      exec_censusDone_counts, rfl⟩,
    fun s n => ⟨exec_retireDone_none, fun r runs early => (exec_retireDone_some runs).trans (by rw [if_neg early]),
      fun r runs last => (exec_retireDone_some runs).trans (by rw [if_pos last])⟩, fun s n r => rfl⟩
  · simp only [List.mem_cons, List.not_mem_nil, or_false, Prod.mk.injEq] at rows
    rcases rows with ⟨rfl, rfl⟩ | ⟨rfl, rfl⟩ | ⟨rfl, rfl⟩ <;> exact congrArg _ (State.mmio_serves served _)
  · rw [exec_census served]
    exact ⟨fun active idle => by simp [active, idle], fun busy => by rcases busy with idle | runs <;> simp [*]⟩

end Sys2Proof.Machine


/-! Ethernet ports and regions: pauses and storms, rates, link changes, the invalidation of a region's record, and the hold. -/

namespace Sys2Proof.Machine

theorem bool_num_testBit (b : Bool) : (if b then 1 else 0 : Nat).testBit 0 = b := by cases b <;> rfl

/-- A bit reads as it was put. -/
theorem State.flag_putFlag_same {s : State} (r : s.RegsRise) (off i : Nat) (k : i < 64) (b : Bool) : (s.putFlag off i b).flag off i = b := by
  show bit ((s.wr off _).rd off) i = b
  rw [State.rd_wr_same r, bit_setFld_same _ _ _ k, bool_num_testBit]

theorem State.rd_emit (s : State) (o : Out) (off : Nat) : (s.emit o).rd off = s.rd off := rfl

/-! ### Pauses and storms -/

/-- The engine with what a port's peer pauses of a priority replaced (R495). -/
def State.withPause (s : State) (k : Nat) (v : Option Nat) : State :=
  { s with eth := { s.eth with paused := SMap.put none s.eth.paused k v } }

/-- A port serves a priority's pauses: it is enabled and PFC_EN names the priority (R495). -/
def State.servesPause (s : State) (port prio : Nat) : Prop :=
  s.flag (R.ethPortCfg port) 55 = true ∧ s.flag (R.ethPortCfg port) (40 + prio) = true

section
variable {s : State} {port : Fin 2} {prio : Fin 8}

theorem exec_pfcPauseReceive_unserved (off : ¬ s.servesPause port prio) (on : Bool) : exec (.pfcPauseReceive port prio on) s = .next s := by
  have closed : (!s.flag (R.ethPortCfg port) 55 || !s.flag (R.ethPortCfg port) (40 + prio)) = true := by
    simpa [State.servesPause, Classical.or_iff_not_imp_left] using off
  show execPfcPauseReceive port prio on s = _
  simp only [execPfcPauseReceive, closed, if_true]

section
variable (served : s.servesPause port prio)
include served

theorem exec_pfcPauseReceive_ends :
    exec (.pfcPauseReceive port prio false) s = .next (s.withPause (8 * (port : Nat) + prio) none) := by
  obtain ⟨enabled, named⟩ := served
  show execPfcPauseReceive port prio false s = _
  simp only [execPfcPauseReceive, enabled, named, Bool.not_true, Bool.or_self, Bool.false_eq_true, if_false, Bool.not_false, if_true]
  rfl

theorem exec_pfcPauseReceive_on :
    exec (.pfcPauseReceive port prio true) s = .next (
      if s.now < SMap.get 0 s.eth.ignored (8 * (port : Nat) + prio) ∨ (SMap.get none s.eth.paused (8 * (port : Nat) + prio)).isSome = true then s
      else s.withPause (8 * (port : Nat) + prio) (some s.now)) := by
  obtain ⟨enabled, named⟩ := served
  show execPfcPauseReceive port prio true s = _
  simp only [execPfcPauseReceive, enabled, named, Bool.not_true, Bool.or_self, Bool.false_eq_true, if_false, Bool.or_eq_true, decide_eq_true_eq]
  rfl

end

theorem exec_pfcStorm_none (free : SMap.get none s.eth.paused (8 * (port : Nat) + prio) = none) : exec (.pfcStorm port prio) s = .next s := by
  show execPfcStorm port prio s = _
  simp only [execPfcStorm, free]

theorem exec_pfcStorm_some {t : Nat} (paused : SMap.get none s.eth.paused (8 * (port : Nat) + prio) = some t) :
    exec (.pfcStorm port prio) s = .next (if s.now < t + 100000000 then s else
      ({ s with eth := { (s.withPause (8 * (port : Nat) + prio) none).eth with
        ignored := SMap.put 0 s.eth.ignored (8 * (port : Nat) + prio) (s.now + 100000000) } }.count (R.ethPfcStorms port) 32 1).raiseCause 0 13) := by
  show execPfcStorm port prio s = _
  simp only [execPfcStorm, paused]
  rfl

end

/-! ### Rates -/

section
variable {s : State} {q : Fin 4096}

theorem exec_cnpReceive_some {x : Qp} (pair : s.qp q = some x) :
    exec (.cnpReceive q) s = .next ((s.hit 212 0x4006 1).setQp q (some { x with rate := max 1000 (x.rate / 2), rateAt := s.now })) := by
  show execCnpReceive q s = _
  simp only [execCnpReceive, pair]

theorem exec_cnpRateIncrease_some {x : Qp} (pair : s.qp q = some x) :
    exec (.cnpRateIncrease q) s = .next (if s.now < x.rateAt + 55000 then s
      else s.setQp q (some { x with rate := min 400000 (x.rate + 20000), rateAt := s.now })) := by
  show execCnpRateIncrease q s = _
  simp only [execCnpRateIncrease, pair]

theorem exec_cnp_none (none_ : s.qp q = none) : exec (.cnpReceive q) s = .next s ∧ exec (.cnpRateIncrease q) s = .next s := by
  constructor
  · show execCnpReceive q s = _
    simp only [execCnpReceive, none_]
  · show execCnpRateIncrease q s = _
    simp only [execCnpRateIncrease, none_]

end

/-! ### Links -/

theorem exec_ethLinkChange (s : State) (port : Fin 2) (up : Bool) :
    exec (.ethLinkChange port up) s = .next (
      if s.flag (R.ethPortCfg port) 55 = false ∨ s.flag R.ethStatus (8 + port) = up then s
      else (s.putFlag R.ethStatus (8 + port) up).raiseCause 0 13) := by
  show execEthLinkChange port up s = _
  simp only [execEthLinkChange, Bool.or_eq_true, Bool.not_eq_true', decide_eq_true_eq]

/-! ### Regions -/

theorem exec_regionInvalidate {s : State} {fn : Fin 64} (served : s.Serves fn R.ethRegionInv true) (index : BitVec 16) :
    exec (.regionInvalidate fn index) s = .next (if s.flag R.ethStatus 3 then s.setFlag R.ethStatus 4 else
      { s with eth := { s.eth with regions := SMap.put none s.eth.regions index.toNat none, invalidating := some index.toNat } }.setFlag
        R.ethStatus 3) :=
  congrArg _ (State.mmio_serves served _)

theorem exec_regionInvDone_some {s : State} {k : Nat} (runs : s.eth.invalidating = some k) :
    exec .regionInvDone s = .next ({ s with eth := { s.eth with regions := SMap.put none s.eth.regions k none, invalidating := none } }.clrFlag
      R.ethStatus 3) := by
  show execRegionInvDone s = _
  simp only [execRegionInvDone, runs]

/-! ### The hold -/

/-- ETH_CONTROL and the hold shown in ETH_STATUS, as a write of ETH_CONTROL leaves them (R505). -/
def State.holdShown (s : State) (on : Bool) : State := (s.wr R.ethControl (if on then 1 else 0)).putFlag R.ethStatus 1 on

/-- What a hold's start or end sends on a port (R505). -/
def State.holdSays (s : State) (on : Bool) (p : Nat) : List Out :=
  if s.flag (R.ethPortCfg p) 55 then [.pause p (s.fld (R.ethPortCfg p) 50 48) on] else []

/-- The state with what a hold's start or end sends on a port. -/
def State.holdSaid (s : State) (on : Bool) (p : Nat) : State :=
  if s.flag (R.ethPortCfg p) 55 then s.emit (.pause p (s.fld (R.ethPortCfg p) 50 48) on) else s

theorem State.holdSaid_eq (s : State) (on : Bool) (p : Nat) : s.holdSaid on p = { s with out := s.holdSays on p ++ s.out } := by
  unfold State.holdSaid State.holdSays
  split <;> rfl

/-- What a port is told depends on the port's register alone. -/
theorem State.holdSays_congr {s t : State} {p : Nat} (same : t.rd (R.ethPortCfg p) = s.rd (R.ethPortCfg p)) (on : Bool) :
    t.holdSays on p = s.holdSays on p := by
  unfold State.holdSays State.flag State.fld
  rw [same]

theorem exec_rdmaHold {s : State} {fn : Fin 64} (served : s.Serves fn R.ethControl true) (on : Bool) :
    exec (.rdmaHold fn on) s = .next (if s.flag R.ethControl 0 = on then s.holdShown on else ((s.holdShown on).holdSaid on 0).holdSaid on 1) :=
  congrArg _ (State.mmio_serves served _)

section
variable {s : State} (canon : s.Canon) (on : Bool)
include canon

theorem State.rd_holdShown_control : (s.holdShown on).rd R.ethControl = if on then 1 else 0 := by
  rw [State.holdShown, State.putFlag, State.rd_setFld_ne (State.wr_rise canon.rise _ _) _ _ _ (by decide), State.rd_wr_same canon.rise]

theorem State.rd_holdShown_ne {off : Nat} (other : off ∉ [R.ethControl, R.ethStatus]) : (s.holdShown on).rd off = s.rd off := by
  simp only [List.mem_cons, List.not_mem_nil, or_false, not_or] at other
  rw [State.holdShown, State.putFlag, State.rd_setFld_ne (State.wr_rise canon.rise _ _) _ _ _ other.2, State.rd_wr_ne canon.rise _ other.1]

/-- A write of ETH_CONTROL, and what is sent, leave what a port is told. -/
theorem State.holdSays_holdShown (l : List Out) (p : Nat) : ({ s.holdShown on with out := l } : State).holdSays on p = s.holdSays on p := by
  refine State.holdSays_congr (State.rd_holdShown_ne canon on ?_) on
  simp [R.ethPortCfg, R.ethControl, R.ethStatus]
  omega

/-- Both ports are told, port 0 first. -/
theorem State.holdSaid_both : ((s.holdShown on).holdSaid on 0).holdSaid on 1 =
    { s.holdShown on with out := s.holdSays on 1 ++ s.holdSays on 0 ++ s.out } := by
  have first : (s.holdShown on).holdSays on 0 = s.holdSays on 0 := State.holdSays_holdShown canon on (s.holdShown on).out 0
  have second := State.holdSays_holdShown canon on (s.holdSays on 0 ++ (s.holdShown on).out) 1
  rw [State.holdSaid_eq (s.holdShown on), first, State.holdSaid_eq, second, List.append_assoc]
  rfl

/-- What a write of ETH_CONTROL leaves, beside what it sends. -/
theorem State.holdShown_leaves (l : List Out) : let t : State := { s.holdShown on with out := l }
    t.rd R.ethControl = (if on then 1 else 0) ∧ t.flag R.ethStatus 1 = on ∧ t.eth = s.eth ∧ t.mem = s.mem ∧
      ∀ off, off ∉ [R.ethControl, R.ethStatus] → t.rd off = s.rd off :=
  ⟨State.rd_holdShown_control canon on, State.flag_putFlag_same (State.wr_rise canon.rise _ _) R.ethStatus 1 (by decide) on, rfl, rfl,
    fun _ other => State.rd_holdShown_ne canon on other⟩

end

/-! ### The obligation -/

/-- Settles O60, unit by unit: pauses and storms, rates, links, regions and the hold. -/
theorem ethernetPortsAndRegions : Obligations.EthernetPortsAndRegions := by
  unfold Obligations.EthernetPortsAndRegions
  refine ⟨fun s port prio on => ?_, fun s q => ⟨exec_cnp_none, fun x pair => ?_⟩, fun s port up => ?_, fun s fn index served => ?_,
    fun s => ⟨fun idle => ?_, fun k runs canon => ?_⟩, fun s fn on canon served => ?_⟩
  · refine ⟨fun off => exec_pfcPauseReceive_unserved off on, fun served ends => ?_, fun served starts held => ?_, fun served starts free => ?_,
      exec_pfcStorm_none, fun t paused early => ?_, fun t paused late => ?_⟩
    · subst ends
      exact exec_pfcPauseReceive_ends served
    · subst starts
      exact (exec_pfcPauseReceive_on served).trans (congrArg _ (if_pos held))
    · subst starts
      exact (exec_pfcPauseReceive_on served).trans (congrArg _ (if_neg free))
    · exact (exec_pfcStorm_some paused).trans (congrArg _ (if_pos early))
    · exact (exec_pfcStorm_some paused).trans (congrArg _ (if_neg (Nat.not_lt.2 late)))
  · exact ⟨exec_cnpReceive_some pair, fun early => (exec_cnpRateIncrease_some pair).trans (congrArg _ (if_pos early)),
      fun late => (exec_cnpRateIncrease_some pair).trans (congrArg _ (if_neg (Nat.not_lt.2 late)))⟩
  · refine ⟨fun still => (exec_ethLinkChange s port up).trans (congrArg _ (if_pos still)), fun on changes canon =>
      ⟨(exec_ethLinkChange s port up).trans (congrArg _ (if_neg ?_)), State.flag_putFlag_same canon.rise _ _ (by omega) up⟩⟩
    exact fun still => still.elim (fun off => absurd (off.symm.trans on) (by decide)) changes
  · rw [exec_regionInvalidate served]
    exact ⟨fun runs => congrArg _ (if_pos runs), fun idle => congrArg _ (if_neg (ne_true_of_eq_false idle))⟩
  · show execRegionInvDone s = _
    simp only [execRegionInvDone, idle]
  · refine ⟨_, exec_regionInvDone_some runs, State.flag_clrFlag_same (s := { s with eth := _ }) canon.rise _ _ (by decide), rfl, rfl, rfl,
      fun off other => ?_⟩
    exact State.rd_setFld_ne (s := { s with eth := _ }) canon.rise _ _ _ other
  · rw [exec_rdmaHold served]
    by_cases same : s.flag R.ethControl 0 = on
    · rw [if_pos same]
      obtain ⟨control, status, eth, mem, regs⟩ := State.holdShown_leaves canon on s.out
      exact ⟨_, rfl, control, status, eth, mem, regs, fun _ => rfl, fun other => absurd same other⟩
    · rw [if_neg same, State.holdSaid_both canon]
      obtain ⟨control, status, eth, mem, regs⟩ := State.holdShown_leaves canon on (s.holdSays on 1 ++ s.holdSays on 0 ++ s.out)
      exact ⟨_, rfl, control, status, eth, mem, regs, fun other => absurd other same, fun _ => rfl⟩

end Sys2Proof.Machine


/-! A raw frame whose priority the peer pauses: the engine tries it again later, and what it has asked of the host is not recorded. -/

namespace Sys2Proof.Machine

/-- A raw frame of a paused priority does not start: the row leaves the state that it found (R495). -/
theorem exec_send_paused {s t u : State} {q : Fin 4096} {host : HostData} {x : Qp} {b d : List Byte} (raw : (q : Nat) < 2)
    (pair : (s.hostIn host).qp q = some x) (may : (s.hostIn host).maySend q x = true)
    (entry : (s.hostIn host).qpRead q x (x.sqAt x.sqNext) 64 = (some b, t)) (legal : wqeOk q b (wqeOf x b t.now) = true)
    (op : (wqeOf x b t.now).op = 0) (frame : t.qpRead q x (wqeOf x b t.now).addr (wqeOf x b t.now).len = (some d, u))
    (paused : (s.hostIn host).prioPaused x.port (framePrio d) = true) :
    exec (.send q host) s = .next (s.hostIn host).hostOut := by
  show execSend q host s = _
  simp [execSend, State.sendRow, State.withHost, pair, may, entry, legal, op, raw, frame, paused]

/-- The state once the host has been asked for bytes and has answered without an error (R491). -/
def State.hostAsked (s : State) (fn a len : Nat) : State :=
  { s with freeCount := s.freeCount + 2, pci := { s.pci with nextTag := s.pci.nextTag + 1 } }.emit (.hostRead s.pci.nextTag fn a len)

/-- A raw queue pair reads the bytes that the host's answer gives. -/
theorem qpRead_raw {s : State} {q : Nat} {x : Qp} {a len : Nat} {host : HostData} {b : List Byte} (raw : q < 2)
    (answer : s.pci.hostData = some host) (ok : host.ending = .ok)
    (given : ∀ r : Nat, (List.range len).map (fun i => (host.byte (a + i)).getD (BitVec.ofNat 8 (r >>> (8 * i)))) = b) :
    s.qpRead q x a len = (some b, s.hostAsked (s.fld (R.ethPortCfg q) 63 58) a len) := by
  simp [State.qpRead, raw, State.busRead, answer, ok, State.hostError, given, State.hostAsked]

/-- A raw queue pair of port 0 with one posted entry of its ring at address 0. -/
def rawPair : Qp :=
  { owner := 0, flags := 0, pmtu := 0, retry := 0, timeout := 0, gid := 0, dscp := 0, vlan := 0, peerIp := 0, peerMac := 0, vector := 0, peer := 0,
    sqBase := 0, rqBase := 0, piAddr := 0, sqLog := 4, rqLog := 4, sendPsn := 0, recvPsn := 0, sqPi := 1, rqPi := 0, sqNext := 0, flight := [],
    tries := 0, rnrTries := 0, rate := 400000, rateAt := 0 }

/-- The module at reset with `rawPair` READY, the link of port 0 up, and priority 0 of port 0 paused by the peer. -/
def pausedPort : State :=
  { State.reset with
    regs := [(R.ethStatus, 0x100), (R.ethQpStatus 0, BitVec.ofNat 64 (2 ^ 62))],
    eth := { State.reset.eth with qps := [(0, some rawPair)], paused := [(0, some 0)] } }

/-- Host memory at address 0: a SEND of the 64 bytes at address 0, which are the entry itself. -/
def sendOfItself : HostData := ⟨[(0, 0), (8, 0), (16, 64), (24, 0), (32, 0), (40, 0), (48, 0), (56, 0)], .ok⟩

/-- The entry's bytes. -/
def sendEntry : List Byte := List.replicate 16 0 ++ [64] ++ List.replicate 47 0

theorem sendOfItself_bytes (r : Nat) :
    (List.range 64).map (fun i => (sendOfItself.byte (0 + i)).getD (BitVec.ofNat 8 (r >>> (8 * i)))) = sendEntry := rfl

/-- The state in which the row runs, then with its entry read, then with the buffer read too. -/
def pausedRow : State := pausedPort.hostIn sendOfItself
def entryRead : State := pausedRow.hostAsked (pausedRow.fld (R.ethPortCfg 0) 63 58) 0 64
def frameRead : State := entryRead.hostAsked (entryRead.fld (R.ethPortCfg 0) 63 58) 0 64

theorem pausedRow_reads_entry : pausedRow.qpRead 0 rawPair 0 64 = (some sendEntry, entryRead) :=
  qpRead_raw (by decide) rfl rfl sendOfItself_bytes

theorem entryRead_reads_frame : entryRead.qpRead 0 rawPair 0 64 = (some sendEntry, frameRead) :=
  qpRead_raw (by decide) rfl rfl sendOfItself_bytes

theorem pausedPort_sends_nothing : exec (.send 0 sendOfItself) pausedPort = .next pausedRow.hostOut :=
  exec_send_paused (by decide) (by decide +kernel) (by decide +kernel) pausedRow_reads_entry (by decide +kernel) (by decide +kernel)
    entryRead_reads_frame (by decide +kernel)

/-- The two states differ in what has been sent: two requests to the host. -/
theorem frameRead_differs : frameRead.hostOut ≠ pausedRow.hostOut := fun same =>
  absurd (congrArg (fun t : State => t.out.length) same) (by decide +kernel)

/-- Refutes O58: pair 0 reads its entry and its buffer from the host, and priority 0 is paused. The row leaves the state as it was before the
two reads, and the statement names the state after them. -/
theorem not_queuePairsAndSends : ¬ Obligations.QueuePairsAndSends := by
  unfold Obligations.QueuePairsAndSends
  rintro ⟨-, -, -, -, -, sends, -⟩
  obtain ⟨-, -, -, row⟩ := sends pausedPort 0 sendOfItself (.send 0 sendOfItself) 0 (by simp)
  obtain ⟨-, -, row⟩ := row rawPair sendEntry entryRead (by decide +kernel) (by decide +kernel) pausedRow_reads_entry
  obtain ⟨-, -, -, -, row, -⟩ := row (by decide +kernel) (by decide +kernel)
  have claimed := row sendEntry frameRead rfl (by decide) entryRead_reads_frame (by decide +kernel)
  injection claimed.symm.trans pausedPort_sends_nothing with same
  exact frameRead_differs same

end Sys2Proof.Machine


/-! Packets of peers: where each ends before it reaches its row, what each row does with one that may go on, receive entries, raw frames, and
ERROR. -/

namespace Sys2Proof.Machine

/-! ### What raising a cause changes -/

/-- Sending a vector touches only what was sent and the pending bits. -/
theorem State.sendVector_eq (s : State) (f v : Nat) :
    s.sendVector f v = { s with pci := (s.sendVector f v).pci, out := (s.sendVector f v).out } := by
  unfold State.sendVector
  split
  · rfl
  · split <;> rfl

theorem State.sendVector_rd (s : State) (f v off : Nat) : (s.sendVector f v).rd off = s.rd off := by
  rw [State.sendVector_eq]
  rfl

/-- Raising a cause touches its own register, what was sent and the pending bits. -/
theorem State.raiseCause_eq (s : State) (f c : Nat) :
    s.raiseCause f c = { s with regs := (s.raiseCause f c).regs, pci := (s.raiseCause f c).pci, out := (s.raiseCause f c).out } := by
  unfold State.raiseCause
  rw [State.sendVector_eq]
  rfl

theorem State.raiseCause_rd_ne {s : State} (r : s.RegsRise) {f c off : Nat} (other : off ≠ R.pciFnCause f) :
    (s.raiseCause f c).rd off = s.rd off :=
  (State.sendVector_rd _ _ _ _).trans (State.rd_setFld_ne r _ _ _ other)

theorem State.raiseCause_eth (s : State) (f c : Nat) : (s.raiseCause f c).eth = s.eth := by
  rw [State.raiseCause_eq]

/-! ### Where a packet ends before its row -/

/-- The packet comes on an enabled port whose link is up, for a queue pair that is not a raw one (R494). -/
def State.hears (s : State) (m : Inbound) : Prop :=
  s.flag (R.ethPortCfg (m.port : Nat)) 55 = true ∧ s.flag R.ethStatus (8 + (m.port : Nat)) = true ∧ 2 ≤ (m.qp : Nat)

/-- The packet comes on the wrong port, or against the storage reservation (R494). -/
def State.misrouted (s : State) (m : Inbound) (x : Qp) : Prop :=
  x.port ≠ (m.port : Nat) ∨ (s.flag (R.ethPortCfg 1) 56 = true ∧ ¬ (x.flags.testBit 1 = true ↔ (m.port : Nat) = 1))

theorem misrouted_iff (s : State) (m : Inbound) (x : Qp) :
    (x.port ≠ m.port || (s.flag (R.ethPortCfg 1) 56 && decide (x.flags.testBit 1 ≠ decide ((m.port : Nat) = 1)))) = true ↔ s.misrouted m x := by
  simp only [State.misrouted, Bool.or_eq_true, decide_eq_true_eq, Bool.and_eq_true]
  by_cases one : (m.port : Nat) = 1 <;> simp [one]

section
variable {s : State} {m : Inbound}

theorem gate_dead (dead : ¬ s.hears m) : s.gate m = (none, s) := by
  refine if_pos ?_
  simp only [State.hears, not_and_or, Bool.not_eq_true, Nat.not_le] at dead
  simpa only [Bool.or_eq_true, Bool.not_eq_true', decide_eq_true_eq, or_assoc] using dead

section
variable (live : s.hears m)
include live

theorem gate_live : s.gate m = if !m.icrc then (none, (s.hit 212 0x4006 1).count R.ethRxIcrc 32 1) else
    match s.qp m.qp with
    | none => (none, ((s.hit 212 0x4006 1).count R.ethRxDenied 32 1).send1 (.rdmaAck m.port none 0 m.psn 1))
    | some x =>
      let t := s.hit 212 0x4006 (x.packets m.data.length)
      if x.port ≠ m.port || (s.flag (R.ethPortCfg 1) 56 && decide (x.flags.testBit 1 ≠ decide ((m.port : Nat) = 1))) then
        (none, t.count R.ethRxDenied 32 1)
      else if s.qpState m.qp ≠ 1 then (none, (t.count R.ethRxDenied 32 1).ack x m.psn 1)
      else if m.psn ≠ x.recvPsn then (none, t)
      else (some x, t.notify m x) := by
  obtain ⟨enabled, up, paired⟩ := live
  refine if_neg ?_
  simp [enabled, up]
  omega

theorem gate_icrc (bad : m.icrc = false) : s.gate m = (none, (s.hit 212 0x4006 1).count R.ethRxIcrc 32 1) := by
  simp [gate_live live, bad]

variable (good : m.icrc = true)
include good

theorem gate_none (none_ : s.qp m.qp = none) :
    s.gate m = (none, ((s.hit 212 0x4006 1).count R.ethRxDenied 32 1).send1 (.rdmaAck m.port none 0 m.psn 1)) := by
  simp [gate_live live, good, none_]

variable {x : Qp} (pair : s.qp m.qp = some x)
include pair

theorem gate_misrouted (wrong : s.misrouted m x) :
    s.gate m = (none, (s.hit 212 0x4006 (x.packets m.data.length)).count R.ethRxDenied 32 1) := by
  simp only [gate_live live, good, pair, (misrouted_iff s m x).2 wrong, Bool.not_true, Bool.false_eq_true, if_false, if_true]

variable (right : ¬ s.misrouted m x)
include right

theorem gate_routed : s.gate m =
    let t := s.hit 212 0x4006 (x.packets m.data.length)
    if s.qpState m.qp ≠ 1 then (none, (t.count R.ethRxDenied 32 1).ack x m.psn 1)
    else if m.psn ≠ x.recvPsn then (none, t) else (some x, t.notify m x) := by
  simp only [gate_live live, good, pair, mt (misrouted_iff s m x).1 right, Bool.not_true, Bool.false_eq_true, if_false]

theorem gate_notReady (stopped : s.qpState m.qp ≠ 1) :
    s.gate m = (none, ((s.hit 212 0x4006 (x.packets m.data.length)).count R.ethRxDenied 32 1).ack x m.psn 1) := by
  rw [gate_routed live good pair right]
  exact if_pos stopped

theorem gate_outOfTurn (ready : s.qpState m.qp = 1) (early : m.psn ≠ x.recvPsn) :
    s.gate m = (none, s.hit 212 0x4006 (x.packets m.data.length)) := by
  rw [gate_routed live good pair right]
  exact (if_neg (not_not.2 ready)).trans (if_pos early)

theorem gate_passes (ready : s.qpState m.qp = 1) (turn : m.psn = x.recvPsn) :
    s.gate m = (some x, (s.hit 212 0x4006 (x.packets m.data.length)).notify m x) := by
  rw [gate_routed live good pair right]
  exact (if_neg (not_not.2 ready)).trans (if_neg (not_not.2 turn))

end

theorem notify_unmarked (plain : m.ce = false) (t : State) (x : Qp) : t.notify m x = t := by
  simp [State.notify, plain]

/-! ### The rows -/

/-- The gate looks at no immediate value. -/
theorem gate_withImm (s : State) (m : Inbound) (imm : Option (BitVec 32)) : s.gate { m with imm := imm } = s.gate m := by
  simp only [State.gate, State.notify]

theorem arrive_ends {t : State} (ends : s.gate m = (none, t)) (act : Qp → State → State) : s.arrive m act = t := by
  simp only [State.arrive, ends]

theorem arrive_goesOn {x : Qp} {u : State} (on : s.gate m = (some x, u)) (act : Qp → State → State) : s.arrive m act = act x u := by
  simp only [State.arrive, on]

theorem exec_inboundWrite (m : Inbound) (s : State) : exec (.inboundWrite m) s = .next (s.writeIn { m with imm := none }) := rfl

theorem exec_inboundWriteImm (m : Inbound) (s : State) :
    exec (.inboundWriteImm m) s = .next (s.writeIn { m with imm := some (m.imm.getD 0) }) := rfl

theorem exec_inbound_ends {t : State} (ends : s.gate m = (none, t)) :
    ∀ i ∈ [Instr.inboundWrite m, .inboundWriteImm m, .inboundRead m, .inboundSend m], exec i s = .next t := by
  intro i row
  simp only [List.mem_cons, List.not_mem_nil, or_false] at row
  rcases row with rfl | rfl | rfl | rfl
  · exact congrArg _ (arrive_ends ((gate_withImm s m none).trans ends) _)
  · exact congrArg _ (arrive_ends ((gate_withImm s m (some (m.imm.getD 0))).trans ends) _)
  · exact congrArg _ (arrive_ends ends _)
  · exact congrArg _ (arrive_ends ends _)

section
variable {x : Qp} {u : State} (on : s.gate m = (some x, u))
include on

theorem writeIn_refused (imm : Option (BitVec 32)) {t : State}
    (refused : u.regionFor x m.rkey.toNat m.va.toNat m.data.length true = (none, t)) :
    s.writeIn { m with imm := imm } = t.refuseIn m.qp x m.psn 1 2 .nothing :=
  (arrive_goesOn ((gate_withImm s m imm).trans on) _).trans (by simp only [refused])

section
variable {v : Nat} {t : State} (region : u.regionFor x m.rkey.toNat m.va.toNat m.data.length true = (some v, t))
include region

theorem writeIn_plain : s.writeIn { m with imm := none } =
    ((t.vaWrite (rdmaUser v) m.va.toNat m.data).2.setQp m.qp
      (some { x with recvPsn := psnAdd (psnAdd m.psn (x.packets m.data.length - 1)) 1 })).ack x (psnAdd m.psn (x.packets m.data.length - 1)) 0 :=
  (arrive_goesOn ((gate_withImm s m none).trans on) _).trans (by simp only [region])

theorem writeIn_imm (i : BitVec 32) : s.writeIn { m with imm := some i } =
    (t.vaWrite (rdmaUser v) m.va.toNat m.data).2.consume m.qp x (psnAdd m.psn (x.packets m.data.length - 1)) [] (some i) false :=
  (arrive_goesOn ((gate_withImm s m (some i)).trans on) _).trans (by simp only [region])

end

theorem exec_inboundRead_refused {t : State} (refused : u.regionFor x m.rkey.toNat m.va.toNat m.len false = (none, t)) :
    exec (.inboundRead m) s = .next (t.refuseIn m.qp x m.psn 1 2 .nothing) := by
  show execInboundRead m s = _
  rw [execInboundRead, arrive_goesOn on]
  simp only [refused]

theorem exec_inboundRead_answers {v : Nat} {t w : State} {b : List Byte}
    (region : u.regionFor x m.rkey.toNat m.va.toNat m.len false = (some v, t))
    (read : t.vaRead (rdmaUser v) m.va.toNat m.len = (.inl b, w)) :
    exec (.inboundRead m) s = .next (((w.hit 212 0x4005 (x.packets m.len)).setQp m.qp
      (some { x with recvPsn := psnAdd m.psn (x.packets m.len) })).emit
        (.rdmaRead x.port ((w.hit 212 0x4005 (x.packets m.len)).path x) x.peer m.psn b)) := by
  show execInboundRead m s = _
  rw [execInboundRead, arrive_goesOn on]
  simp only [region, read]

theorem exec_inboundSend_consumes : exec (.inboundSend m) s = .next (u.consume m.qp x m.psn m.data m.imm false) :=
  congrArg _ (arrive_goesOn on _)

end

end

/-! ### Receive entries -/

/-- What a completed receive entry leaves for the peer: for a raw frame nothing, else the expected number moved on and an acknowledgement
(R502, R503). -/
def State.received (t : State) (q : Nat) (x : Qp) (psn len : Nat) (raw : Bool) : State :=
  if raw then t else
    (t.setQp q (some { x with recvPsn := psnAdd (psnAdd psn (x.packets len - 1)) 1 })).ack x (psnAdd psn (x.packets len - 1)) 0

section
variable {s : State} {q psn : Nat} {x : Qp} {data : List Byte} {imm : Option (BitVec 32)} {raw : Bool}

theorem consume_empty (empty : s.rqCi q = x.rqPi) : s.consume q x psn data imm raw = if raw then s else s.ack x psn 3 := if_pos empty

section
variable (posted : s.rqCi q ≠ x.rqPi)
include posted

theorem consume_unread {t : State} (read : s.qpRead q x (x.rqAt (s.rqCi q)) 32 = (none, t)) :
    s.consume q x psn data imm raw = t.qpError q 4 .receive := by
  refine (if_neg posted).trans ?_
  simp only [read]

variable {b : List Byte} {t : State} (read : s.qpRead q x (x.rqAt (s.rqCi q)) 32 = (some b, t))
include read

theorem consume_short (short : leNat ((b.drop 8).take 4) < data.length) :
    s.consume q x psn data imm raw = if raw then t else t.refuseIn q x psn 2 3 .receive := by
  refine (if_neg posted).trans ?_
  simp only [read, short, if_true]

variable (room : data.length ≤ leNat ((b.drop 8).take 4))
include room

theorem consume_noData (none_ : data = []) : s.consume q x psn data imm raw =
    ((t.qpWrite q x (x.rqAt (s.rqCi q) + 0x10) (leBytes 4 data.length ++ leBytes 4 ((imm.map BitVec.toNat).getD 0))).2.recvDone q x
      (s.rqCi q) 0).received q x psn data.length raw := by
  refine (if_neg posted).trans ?_
  simp only [read, none_, Nat.not_lt.2 (none_ ▸ room), if_false, List.isEmpty_nil, if_true, Bool.not_true, Bool.false_eq_true]
  rfl

variable (some_ : data ≠ []) {u : State}
include some_

theorem consume_unwritten (put : t.qpWrite q x (leNat ((b.drop 0).take 8)) data = (false, u)) :
    s.consume q x psn data imm raw = u.qpError q 4 .receive := by
  have full : data.isEmpty = false := List.isEmpty_eq_false_iff.2 some_
  refine (if_neg posted).trans ?_
  simp only [read, Nat.not_lt.2 room, if_false, full, put, Bool.not_false, if_true, Bool.false_eq_true]

theorem consume_written (put : t.qpWrite q x (leNat ((b.drop 0).take 8)) data = (true, u)) : s.consume q x psn data imm raw =
    ((u.qpWrite q x (x.rqAt (s.rqCi q) + 0x10) (leBytes 4 data.length ++ leBytes 4 ((imm.map BitVec.toNat).getD 0))).2.recvDone q x
      (s.rqCi q) 0).received q x psn data.length raw := by
  have full : data.isEmpty = false := List.isEmpty_eq_false_iff.2 some_
  refine (if_neg posted).trans ?_
  simp only [read, Nat.not_lt.2 room, if_false, full, put, Bool.not_true, Bool.false_eq_true]
  rfl

end

end

/-! ### Raw frames -/

/-- A raw frame's port takes it: enabled, its link up, its pair READY, and the frame one for it (R497). -/
def State.takesFrame (h : State) (port : Fin 2) (data : List Byte) : Prop :=
  h.flag (R.ethPortCfg port) 55 = true ∧ h.flag R.ethStatus (8 + port) = true ∧ h.qpState port = 1 ∧ h.rawFrame port data = true

section
variable {s : State} {port : Fin 2} {data : List Byte} {host : HostData}

theorem exec_rawFrameReceive_dropped (dropped : ¬ (s.hostIn host).takesFrame port data ∨ (s.hostIn host).qp port = none) :
    exec (.rawFrameReceive port data host) s = .next (s.hostIn host).hostOut := by
  show execRawFrameReceive port data host s = _
  rw [execRawFrameReceive, State.withHost]
  by_cases takes : (s.hostIn host).takesFrame port data
  · have none_ := dropped.resolve_left (not_not.2 takes)
    simp only [none_, ite_self]
  · refine congrArg (fun t : State => Host.Outcome.next t.hostOut) (if_pos ?_)
    simpa [State.takesFrame, Classical.or_iff_not_imp_left] using takes

theorem exec_rawFrameReceive_taken {x : Qp} (takes : (s.hostIn host).takesFrame port data) (pair : (s.hostIn host).qp port = some x) :
    exec (.rawFrameReceive port data host) s = .next ((s.hostIn host).consume port x 0 data none true).hostOut := by
  obtain ⟨enabled, up, ready, frame⟩ := takes
  show execRawFrameReceive port data host s = _
  simp [execRawFrameReceive, State.withHost, enabled, up, ready, frame, pair]

end

theorem rawFrame_outOfSize {s : State} {port : Nat} {b : List Byte} (size : b.length < 64 ∨ 9216 < b.length) : s.rawFrame port b = false := by
  have bad : (decide (64 ≤ b.length) && decide (b.length ≤ 9216)) = false := by
    rw [Bool.and_eq_false_iff, decide_eq_false_iff_not, decide_eq_false_iff_not]
    omega
  simp only [State.rawFrame, bad, Bool.false_and]

/-- A frame that is neither tagged nor IP is judged by its size and address alone (R497). -/
theorem rawFrame_plain {s : State} {port : Nat} {b : List Byte} (least : 64 ≤ b.length) (most : b.length ≤ 9216)
    (address : beNat (b.take 6) = s.fld (R.ethPortMac port) 47 0 ∨ beNat (b.take 1) % 2 = 1)
    (plain : beNat ((b.drop 12).take 2) ∉ [0x8100, 0x0800, 0x86DD]) : s.rawFrame port b = true := by
  simp only [List.mem_cons, List.not_mem_nil, or_false, not_or] at plain
  obtain ⟨untagged, noIp4, noIp6⟩ := plain
  simp [State.rawFrame, least, most, untagged, noIp4, noIp6, address]

/-! ### ERROR -/

theorem qpError_unready {s : State} {q : Nat} (unready : s.qpState q ≠ 1) (code : Nat) (fail : Failing) : s.qpError q code fail = s := by
  unfold State.qpError
  split
  · rfl
  · exact if_pos unready

section
variable {s : State} {q : Nat} {x : Qp}

/-- The state in which ERROR is recorded: every posted entry has completed (R504). -/
def State.errorShown (s : State) (q : Nat) (x : Qp) (code : Nat) (fail : Failing) : State :=
  ((s.qpFlush q x code fail).setFld (R.ethQpStatus q) 63 62 2).setFld (R.ethQpStatus q) 61 54 code

theorem qpError_ready (pair : s.qp q = some x) (ready : s.qpState q = 1) (code : Nat) (fail : Failing) : s.qpError q code fail =
    let t := (s.errorShown q x code fail).setQp q (some { x with flight := [], sqNext := x.sqPi })
    t.raiseCause ((t.qpFunc q).getD 0) 3 := by
  simp only [State.qpError, pair, ready, ne_eq, not_true_eq_false, if_false]
  rfl

variable (canon : s.Canon) (code : Nat) (fail : Failing)
include canon

theorem State.errorShown_canon : (s.errorShown q x code fail).Canon :=
  (State.setFld_keeps (State.setFld_keeps (State.qpFlush_keeps (.refl s)))).canon canon

theorem State.rd_errorShown : (s.errorShown q x code fail).rd (R.ethQpStatus q) =
    Machine.setFld (Machine.setFld ((s.qpFlush q x code fail).rd (R.ethQpStatus q)) 63 62 2) 61 54 code := by
  have rise := ((State.qpFlush_keeps (.refl s)).canon canon).rise (s := s.qpFlush q x code fail)
  rw [State.errorShown, State.rd_setFld_same (State.setFld_rise rise _ _ _ _), State.rd_setFld_same rise]

/-- ERROR leaves the pair's status with state 2 and its code, and the pair with nothing in flight. -/
theorem qpError_leaves (pair : s.qp q = some x) (ready : s.qpState q = 1) (small : q < 4096) (byte : code < 256) :
    let t := s.qpError q code fail
    t.qpState q = 2 ∧ t.fld (R.ethQpStatus q) 61 54 = code ∧ (t.qp q).map (fun y => y.flight) = some [] := by
  have shown := State.errorShown_canon canon code fail (q := q) (x := x)
  rw [qpError_ready pair ready]
  generalize hv : (s.errorShown q x code fail).setQp q (some { x with flight := [], sqNext := x.sqPi }) = v
  have rise : v.RegsRise := hv ▸ ((State.setQp_keeps (.refl _)).canon shown).rise
  have status : (v.raiseCause ((v.qpFunc q).getD 0) 3).rd (R.ethQpStatus q) = (s.errorShown q x code fail).rd (R.ethQpStatus q) := by
    rw [State.raiseCause_rd_ne rise (by simp only [R.ethQpStatus, R.pciFnCause]; omega), ← hv]
    exact State.rd_setFld_ne (s := { s.errorShown q x code fail with eth := _ }) shown.rise _ _ _ (by simp only [R.ethQpStatus, R.ethStatus]; omega)
  have pairs : (v.raiseCause ((v.qpFunc q).getD 0) 3).qp q = some { x with flight := [], sqNext := x.sqPi } := by
    rw [State.qp, State.raiseCause_eth, ← hv]
    exact SMap.get_put_same _ _ _ shown.qps.1
  simp only [State.qpState, State.fld, status, State.rd_errorShown canon, pairs]
  refine ⟨?_, ?_, rfl⟩
  · rw [fld_setFld_ne _ _ _ _ _ _ (by decide) (by decide), fld_setFld_same _ _ _ _ (by decide) (by decide)]
    rfl
  · rw [fld_setFld_same _ _ _ _ (by decide) (by decide)]
    exact Nat.mod_eq_of_lt byte

end

/-! ### The obligation -/

/-- Settles O59, clause by clause: the gate, the rows behind it, receive entries, raw frames, acknowledgements and ERROR. -/
theorem inboundMessages : Obligations.InboundMessages := by
  unfold Obligations.InboundMessages
  refine ⟨fun s m => ⟨gate_dead, gate_icrc, gate_none, fun x live good pair => ⟨?_, ?_, ?_, ?_, fun plain => notify_unmarked plain _ x⟩⟩,
    fun s t m => exec_inbound_ends, fun s u m x on => ⟨fun t refused => ?_, fun v t region => ?_, fun t => exec_inboundRead_refused on,
      fun v t b w => exec_inboundRead_answers on, exec_inboundSend_consumes on⟩,
    fun s q psn x data imm raw => ⟨consume_empty, fun t posted read => consume_unread posted read, fun b t posted read => ⟨consume_short posted read,
      consume_noData posted read, fun u room some_ => consume_unwritten posted read room some_,
      fun u room some_ => consume_written posted read room some_⟩⟩,
    fun s port data host => ⟨exec_rawFrameReceive_dropped, fun x => exec_rawFrameReceive_taken⟩,
    fun s port b => ⟨rawFrame_outOfSize, rawFrame_plain⟩, fun s x psn nak => rfl,
    fun s q code fail x canon pair ready => qpError_leaves canon code.toNat fail pair ready q.isLt code.isLt,
    fun s q code fail unready => qpError_unready unready code fail⟩
  · exact gate_misrouted live good pair
  · exact gate_notReady live good pair
  · exact gate_outOfTurn live good pair
  · exact gate_passes live good pair
  · rw [exec_inboundWrite, exec_inboundWriteImm, writeIn_refused on _ refused, writeIn_refused on _ refused]
    exact ⟨rfl, rfl⟩
  · rw [exec_inboundWrite, exec_inboundWriteImm, writeIn_plain on region, writeIn_imm on region]
    exact ⟨rfl, rfl⟩

end Sys2Proof.Machine


/-! Mainline ports: roles, training, loss and replays; frames, control windows and timetables. -/

namespace Sys2Proof.Machine

/-! ### What counting leaves -/

/-- `t` is `s` but for registers, free values used up, and what the counter sets hold beside their registers. -/
def State.Tallies (s t : State) : Prop := t = { s with regs := t.regs, freeCount := t.freeCount, dbg := t.dbg }

section
variable {s t u : State}

theorem State.Tallies.refl (s : State) : s.Tallies s := rfl

theorem State.Tallies.trans (h : s.Tallies t) (k : t.Tallies u) : s.Tallies u := by
  rw [State.Tallies] at *
  rw [k, h]

theorem State.Tallies.ite {p : Prop} [Decidable p] (h : s.Tallies t) (k : s.Tallies u) : s.Tallies (if p then t else u) := by
  split
  · exact h
  · exact k

theorem State.Tallies.foldl {α : Type} {f : State → α → State} (step : ∀ t a, s.Tallies t → s.Tallies (f t a)) (l : List α)
    (h : s.Tallies t) : s.Tallies (l.foldl f t) := by
  induction l generalizing t with
  | nil => exact h
  | cons a l ih => exact ih (step t a h)

theorem State.Tallies.mln (h : s.Tallies t) : t.mln = s.mln := by rw [h]

theorem State.count_tallies (s : State) (off w k : Nat) : s.Tallies (s.count off w k) := State.Tallies.ite rfl rfl

theorem State.countSat_tallies (s : State) (set off n : Nat) : s.Tallies (s.countSat set off n) := State.Tallies.ite rfl rfl

theorem State.hit_tallies (s : State) (set code n : Nat) : s.Tallies (s.hit set code n) :=
  State.Tallies.foldl (fun _ _ h => State.Tallies.ite h (State.Tallies.foldl
    (fun u _ k => State.Tallies.ite (k.trans (u.countSat_tallies _ _ _)) k) _ h)) _ (.refl s)

@[simp] theorem State.count_mln (s : State) (off w k : Nat) : (s.count off w k).mln = s.mln := (s.count_tallies off w k).mln

@[simp] theorem State.led_mln (s : State) (k i n : Nat) : (s.led k i n).mln = s.mln := s.count_mln _ _ _

@[simp] theorem State.hit_mln (s : State) (set code n : Nat) : (s.hit set code n).mln = s.mln := (s.hit_tallies set code n).mln

end

/-! ### Roles -/

/-- A port may take a role: it is DISABLED or DOWN, and where the role is MESH its neighbour lies inside the mesh (R441). -/
def State.takesRole (s : State) (p role : Nat) : Prop :=
  (s.portState p = 0 ∨ s.portState p = 3) ∧ role ≤ 1 ∧ (role = 1 → s.facesMesh p = true)

theorem roleRefused_iff (s : State) (p role : Nat) :
    (!(s.portState p = 0 || s.portState p = 3) || decide (1 < role) || (role = 1 && !s.facesMesh p)) = true ↔ ¬ s.takesRole p role := by
  simp only [State.takesRole, Bool.or_eq_true, Bool.not_eq_true', decide_eq_true_eq, Bool.and_eq_true, Bool.or_eq_false_iff,
    decide_eq_false_iff_not, not_and_or, not_or, Nat.not_le, Classical.not_imp, Bool.not_eq_true, or_assoc]

section
variable {s : State} {fn : Fin 64} {p : Fin 8} {role : Fin 4} (served : s.Serves fn (R.mlnPortCfg p) true)
include served

theorem exec_portRoleWrite_takes (free : s.takesRole p role) :
    exec (.portRoleWrite fn p role) s = .next ((s.wr (R.mlnPortCfg p) (BitVec.ofNat 64 role)).setPort p role 0) := by
  show execPortRoleWrite fn p role s = _
  rw [execPortRoleWrite, State.mmio_serves served]
  exact congrArg _ (if_neg fun refused => (roleRefused_iff s p role).1 refused free)

theorem exec_portRoleWrite_refused (busy : ¬ s.takesRole p role) :
    exec (.portRoleWrite fn p role) s = .next (s.setFlag R.mlnStatus 11) := by
  show execPortRoleWrite fn p role s = _
  rw [execPortRoleWrite, State.mmio_serves served]
  exact congrArg _ (if_pos ((roleRefused_iff s p role).2 busy))

end

/-! ### Training -/

section
variable {s : State} {p : Fin 8} {peer : Option Peer}

theorem exec_portTrainingDone_idle (idle : s.portState p ≠ 1) : exec (.portTrainingDone p peer) s = .next s := congrArg _ (if_pos idle)

theorem exec_portTrainingDone (trains : s.portState p = 1) :
    exec (.portTrainingDone p peer) s = .next (
      if s.portUsable p && !(s.trained p peer).portUp p then (s.portDown p).trained p peer else s.trained p peer) :=
  congrArg _ (if_neg (not_not.2 trains))

theorem exec_portRetrainAttempt_idle (idle : ¬ (s.portState p = 3 ∧ s.fld (R.mlnPortCfg p) 1 0 = 1)) :
    exec (.portRetrainAttempt p peer) s = .next s :=
  congrArg _ (if_neg (by simpa using idle))

theorem exec_portRetrainAttempt (down : s.portState p = 3) (mesh : s.fld (R.mlnPortCfg p) 1 0 = 1) :
    exec (.portRetrainAttempt p peer) s = .next (s.trained p peer) :=
  congrArg _ (if_pos (by simp [down, mesh]))

/-- A DOWN port is not in service. -/
theorem portUsable_down (down : s.portState p = 3) : s.portUsable p = false := by
  simp [State.portUsable, down]

/-- The neighbour that a port expects reports (R442). -/
def State.expects (s : State) (p : Nat) (q : Peer) : Prop :=
  q.node.toNat = stepTo s.con.node (p / 2) ∧ (q.port : Nat) = (p + 4) % 8

/-- What a report leaves, by who reports and what is left of the port. -/
theorem trained_some (s : State) (p : Nat) (q : Peer) : s.trained p (some q) =
    let t := s.setFld (R.mlnPortStatus p) 23 16 q.node.toNat
    if q.node.toNat ≠ stepTo s.con.node (p / 2) || decide (q.port.val ≠ (p + 4) % 8) then
      ((t.setPort p 3 0).setFlag (R.mlnPortStatus p) 4).setFlag R.mlnStatus 12
    else if t.portLanes p = 0 then (t.setPort p 3 0).clrFlag (R.mlnPortStatus p) 4
    else t.cameUp p q := rfl

theorem trained_wrong {q : Peer} (wrong : ¬ s.expects p q) : s.trained p (some q) =
    (((s.setFld (R.mlnPortStatus p) 23 16 q.node.toNat).setPort p 3 0).setFlag (R.mlnPortStatus p) 4).setFlag R.mlnStatus 12 := by
  rw [trained_some]
  exact if_pos (by simpa [State.expects, Classical.or_iff_not_imp_left] using wrong)

theorem trained_expected {q : Peer} (expected : s.expects p q) : s.trained p (some q) =
    let t := s.setFld (R.mlnPortStatus p) 23 16 q.node.toNat
    if t.portLanes p = 0 then (t.setPort p 3 0).clrFlag (R.mlnPortStatus p) 4 else t.cameUp p q := by
  obtain ⟨node, port⟩ := expected
  rw [trained_some]
  exact if_neg (by simp [node, port])

end

/-! ### Loss -/

theorem exec_portDown (s : State) (p : Fin 8) : exec (.portDown p) s = .next (if s.portUsable p then s.portDown p else s) := rfl

/-! ### Control windows -/

/-- The state once a control window has sent and heard what it carries (R445, R446). -/
def State.windowPassed (s : State) (heard : List Heard) : State :=
  let t := ((List.range 8).filter s.portUp).foldl (fun u p => (u.sendSlot p).payCredits p) s
  let v := heard.foldl (fun u h => h.credits.foldl (fun w e => w.creditBack h.port e) u) t
  v.setMln { v.mln with slot := min 4095 (v.mln.slot + 1) }

/-- What a package makes of a control window: the root of the mesh counts for itself, any other follows its reference neighbour, and without one
serves no flow (R447). -/
def State.windowEnds (s : State) (heard : List Heard) : State :=
  if s.con.node = 0 then (s.wr R.mlnRootDist 0xF00).reviveFlows
  else match s.reference heard with
    | some h => (((s.wr R.mlnFrame (h.frame.setWidth 64)).wr R.mlnRootDist (BitVec.ofNat 64 ((h.port : Nat) * 256 + h.hops + 1))).setFlag
        R.mlnStatus 0).reviveFlows
    | none => ((s.wr R.mlnRootDist 0xF00).clrFlag R.mlnStatus 0).declareFlows true

theorem exec_controlWindow (s : State) (heard : List Heard) :
    exec (.controlWindow heard) s = .next ((s.windowPassed heard).windowEnds heard) := rfl

section
variable {s : State} {heard : List Heard}

theorem windowEnds_root (root : s.con.node = 0) : s.windowEnds heard = (s.wr R.mlnRootDist 0xF00).reviveFlows := if_pos root

theorem windowEnds_aligns {h : Heard} (other : s.con.node ≠ 0) (found : s.reference heard = some h) : s.windowEnds heard =
    (((s.wr R.mlnFrame (h.frame.setWidth 64)).wr R.mlnRootDist (BitVec.ofNat 64 ((h.port : Nat) * 256 + h.hops + 1))).setFlag
      R.mlnStatus 0).reviveFlows := by
  simp only [State.windowEnds, if_neg other, found]

theorem windowEnds_alone (other : s.con.node ≠ 0) (none_ : s.reference heard = none) :
    s.windowEnds heard = ((s.wr R.mlnRootDist 0xF00).clrFlag R.mlnStatus 0).declareFlows true := by
  simp only [State.windowEnds, if_neg other, none_]

end

/-! ### Timetables -/

theorem exec_timetableInstall_none {s : State} (none_ : s.mln.pending = none) : exec .timetableInstall s = .next s := by
  show execTimetableInstall s = _
  rw [execTimetableInstall, none_]

theorem exec_timetableInstall_some {s : State} {x : Timetable} (pending : s.mln.pending = some x) :
    exec .timetableInstall s = .next (
      if s.mln.slot = 0 ∧ x.activate ≤ s.fld R.mlnFrame 47 0 then s.installTimetable x else s) := by
  show execTimetableInstall s = _
  simp only [execTimetableInstall, pending, Bool.and_eq_true, decide_eq_true_eq]

/-! ### Replays and maintenance slots -/

/-- The state once a replay has been counted and the flows that it delays are late (R457, R466). -/
def State.blockReplayed (s : State) (p n : Nat) (delayed : List Nat) : State :=
  let t := (s.count (R.mlnPortRetry p) 32 1).hit 213 (0x5010 + p) 1
  let u := t.setMln { t.mln with replays := SMap.put 0 t.mln.replays p n }
  (delayed ++ (u.mln.leaving.filter (fun l => decide (l.port = p) && decide (l.msg.cls = 1))).map (fun l => l.msg.flow)).foldl
    (fun w f => w.declareFlow f 2 4 true) u

theorem exec_replayRequest (s : State) (p : Fin 8) (again : Bool) (delayed : List Nat) :
    exec (.replayRequest p again delayed) s = .next (
      let n := if again then SMap.get 0 s.mln.replays p + 1 else 1
      let v := s.blockReplayed p n delayed
      if 8 ≤ n && v.portUp p then (v.setMln { v.mln with replays := SMap.put 0 v.mln.replays p 0 }).retrain p else v) := by
  simp only [State.blockReplayed, State.hit_mln, State.count_mln]
  rfl

section
variable {s : State} {p : Fin 8} {slot : Fin 4096}

theorem exec_linkMaintOverrun_free (free : s.portState p ≠ 2 ∨ 0xFFFE ≤ SMap.get 0xFFFF s.mln.slotMap (4096 * (p : Nat) + slot)) :
    exec (.linkMaintOverrun p slot) s = .next s :=
  congrArg _ (if_pos (by simpa only [Bool.or_eq_true, decide_eq_true_eq] using free))

theorem exec_linkMaintOverrun_owned (up : s.portState p = 2) (owned : SMap.get 0xFFFF s.mln.slotMap (4096 * (p : Nat) + slot) < 0xFFFE) :
    exec (.linkMaintOverrun p slot) s = .next (((s.setFlag R.pwrStatus 4).trace ⟨0x0E, 7, p, 0, 0, p, 0⟩).declareFlow
      (SMap.get 0xFFFF s.mln.slotMap (4096 * (p : Nat) + slot)) 2 4 true) :=
  congrArg _ (if_neg (by simp only [Bool.or_eq_true, decide_eq_true_eq]; omega))

end

/-! ### The obligation -/

/-- Settles O43: roles, training, loss, frames, control windows, timetables, bad blocks, replays and maintenance slots. -/
theorem portsAndFrames : Obligations.PortsAndFrames := by
  unfold Obligations.PortsAndFrames
  refine ⟨fun s fn p role served => ⟨exec_portRoleWrite_takes served, exec_portRoleWrite_refused served⟩, fun s p peer i idle => ?_,
    fun s p peer i acts => ?_, fun s p peer => ⟨fun none_ => ?_, fun q some_ => ?_⟩, fun s p => ⟨fun usable => ?_, fun lost => ?_⟩, fun s => rfl,
    fun s heard => ?_,
    fun s => ⟨exec_timetableInstall_none, fun x pending => ⟨fun slot frame => ?_, fun early => ?_⟩⟩, fun s p lane => rfl,
    fun s p again delayed => ⟨fun few => ?_, fun many up => ?_⟩, fun s p slot => ⟨exec_linkMaintOverrun_free, exec_linkMaintOverrun_owned⟩⟩
  · rcases idle with ⟨rfl, idle⟩ | ⟨rfl, idle⟩
    · exact exec_portTrainingDone_idle idle
    · exact exec_portRetrainAttempt_idle idle
  · rcases acts with ⟨rfl, trains⟩ | ⟨rfl, down, mesh⟩
    · rw [exec_portTrainingDone trains]
      exact ⟨fun usable failed => congrArg _ (if_pos (by simp [usable, failed])),
        fun fresh => congrArg _ (if_neg (by rcases fresh with unused | up <;> simp [*]))⟩
    · rw [exec_portRetrainAttempt down mesh]
      exact ⟨fun usable => absurd (usable.symm.trans (portUsable_down down)) (by decide), fun _ => rfl⟩
  · subst none_
    rfl
  · subst some_
    exact ⟨trained_wrong, fun expected gone => (trained_expected expected).trans (if_pos gone),
      fun expected left => (trained_expected expected).trans (if_neg left)⟩
  · exact (exec_portDown s p).trans (congrArg _ (if_pos usable))
  · exact (exec_portDown s p).trans (congrArg _ (if_neg (ne_true_of_eq_false lost)))
  · rw [exec_controlWindow]
    exact ⟨fun root => congrArg _ (windowEnds_root root), fun h other found => congrArg _ (windowEnds_aligns other found),
      fun other none_ => congrArg _ (windowEnds_alone other none_)⟩
  · exact (exec_timetableInstall_some pending).trans (congrArg _ (if_pos ⟨slot, frame⟩))
  · exact (exec_timetableInstall_some pending).trans (congrArg _ (if_neg (by omega)))
  · refine (exec_replayRequest s p again delayed).trans (congrArg _ (if_neg ?_))
    simp only [Bool.and_eq_true, decide_eq_true_eq, not_and_or]
    exact few.imp Nat.not_le.2 ne_true_of_eq_false
  · refine (exec_replayRequest s p again delayed).trans (congrArg _ (if_pos ?_))
    simp only [Bool.and_eq_true, decide_eq_true_eq]
    exact ⟨many, up⟩

end Sys2Proof.Machine


/-! Mainline messages: those received in their turn, those that go on, acknowledgements, what a copy sends, and the answers of its reads. -/

namespace Sys2Proof.Machine

/-! ### Received messages -/

section
variable {s : State} {typ : Nat} {m : Msg}

theorem receive_other (other : m.typ ≠ typ ∨ m.dst ≠ s.con.node) : s.receive typ m = s := if_pos (by simpa using other)

section
variable (kind : m.typ = typ) (here : m.dst = s.con.node)
include kind here

/-- A message of the row's kind for this package, by its checks and its turn. -/
theorem receive_here : s.receive typ m =
    if m.malformed then (s.count R.mlnRxMalformed 32 1).freed m
    else if s.mln.needReset.contains m.src then ((s.led 3 0 (m.size / 16)).led 3 3 (m.size / 16)).freed m
    else
      let t := s.led 3 0 (m.size / 16)
      let ahead := (m.seq + 2 ^ 16 - SMap.get 0 s.mln.expect m.src) % 2 ^ 16
      if ahead = 0 then (t.performMsg m).performHeld m.src t.mln.hold.length
      else if ahead < 2 ^ 15 && !t.mln.hold.any (fun h => h.src = m.src && h.seq = m.seq) then
        (t.led 3 2 (m.size / 16)).setMln { t.mln with hold := t.mln.hold ++ [m] }
      else (t.led 3 1 (m.size / 16)).freed m :=
  if_neg (by simp [kind, here])

theorem receive_malformed (bad : m.malformed = true) : s.receive typ m = (s.count R.mlnRxMalformed 32 1).freed m := by
  rw [receive_here kind here, if_pos bad]

variable (whole : m.malformed = false)
include whole

theorem receive_awaitsReset (awaits : s.mln.needReset.contains m.src = true) :
    s.receive typ m = ((s.led 3 0 (m.size / 16)).led 3 3 (m.size / 16)).freed m := by
  rw [receive_here kind here, if_neg (ne_true_of_eq_false whole), if_pos awaits]

variable (paired : s.mln.needReset.contains m.src = false)
include paired

theorem receive_inTurn (turn : (m.seq + 2 ^ 16 - SMap.get 0 s.mln.expect m.src) % 2 ^ 16 = 0) :
    s.receive typ m = ((s.led 3 0 (m.size / 16)).performMsg m).performHeld m.src (s.led 3 0 (m.size / 16)).mln.hold.length := by
  rw [receive_here kind here, if_neg (ne_true_of_eq_false whole), if_neg (ne_true_of_eq_false paired)]
  exact if_pos turn

variable (early : 0 < (m.seq + 2 ^ 16 - SMap.get 0 s.mln.expect m.src) % 2 ^ 16)
include early

/-- Out of its turn a message is held once, and else was performed or is held already. -/
theorem receive_outOfTurn : s.receive typ m =
    let t := s.led 3 0 (m.size / 16)
    if (m.seq + 2 ^ 16 - SMap.get 0 s.mln.expect m.src) % 2 ^ 16 < 2 ^ 15 ∧
      t.mln.hold.any (fun h => decide (h.src = m.src) && decide (h.seq = m.seq)) = false then
      (t.led 3 2 (m.size / 16)).setMln { (t.led 3 2 (m.size / 16)).mln with hold := (t.led 3 2 (m.size / 16)).mln.hold ++ [m] }
    else (t.led 3 1 (m.size / 16)).freed m := by
  rw [receive_here kind here, if_neg (ne_true_of_eq_false whole), if_neg (ne_true_of_eq_false paired)]
  refine (if_neg (Nat.pos_iff_ne_zero.1 early)).trans ?_
  simp only [State.led_mln, Bool.and_eq_true, decide_eq_true_eq, Bool.not_eq_true']

end

theorem exec_receive {i : Instr} (row : (i, typ) ∈ [(Instr.writeReceive m, 1), (.readReceive m, 2), (.remoteSignalReceive m, 4)]) :
    exec i s = .next (s.receive typ m) := by
  simp only [List.mem_cons, List.not_mem_nil, or_false, Prod.mk.injEq] at row
  rcases row with ⟨rfl, rfl⟩ | ⟨rfl, rfl⟩ | ⟨rfl, rfl⟩ <;> rfl

end

/-! ### Messages that go on -/

/-- A message as it goes on: one of a flow that is not SERVED here goes as REQ (R457). -/
def State.onward (s : State) (m : Msg) : Msg :=
  if m.cls = 1 && !(match s.flow? m.flow with | some f => decide (f.state = 1) | none => false) then { m with cls := 2, flow := 0xFFFF } else m

theorem onward_eq (s : State) (m : Msg) [Decidable (m.cls = 1 ∧ ∀ f, s.flow? m.flow = some f → f.state ≠ 1)] :
    s.onward m = if m.cls = 1 ∧ (∀ f, s.flow? m.flow = some f → f.state ≠ 1) then { m with cls := 2, flow := 0xFFFF } else m := by
  unfold State.onward
  congr 1
  cases s.flow? m.flow with
  | none => simp
  | some f => simp

section
variable {s : State} {m : Msg}

theorem exec_messageForward_here (here : m.dst = s.con.node) : exec (.messageForward m) s = .next s := congrArg _ (if_pos here)

variable (away : m.dst ≠ s.con.node)
include away

theorem exec_messageForward_malformed (bad : m.malformed = true) :
    exec (.messageForward m) s = .next ((s.count R.mlnRxMalformed 32 1).freed m) :=
  congrArg _ ((if_neg away).trans (if_pos bad))

theorem exec_messageForward_goesOn (whole : m.malformed = false) : exec (.messageForward m) s = .next (s.passOn m (s.onward m)) :=
  congrArg _ ((if_neg away).trans (if_neg (ne_true_of_eq_false whole)))

end

section
variable {s : State} {x : Msg} {credit transit : Bool} {from_ lane : Nat}

theorem queueOut_none (none_ : s.outPort x = none) : s.queueOut x credit transit from_ lane = s.discard ⟨8, x, credit, transit, from_, lane⟩ := by
  simp only [State.queueOut, none_]

theorem queueOut_some {p : Nat} (port : s.outPort x = some p) : s.queueOut x credit transit from_ lane =
    s.setMln { s.mln with leaving := s.mln.leaving ++ [⟨p, x, credit, transit, from_, lane⟩] } := by
  simp only [State.queueOut, port]

end

theorem discard_transit (s : State) {l : Leaving} (free : l.credit = false) (transit : l.transit = true) :
    s.discard l = ((s.led 3 3 (l.msg.size / 16)).unhold 3 (l.msg.size / 16)).owe l.from_ l.lane (l.msg.size / 16) := by
  simp only [State.discard, free, transit, if_true, Bool.false_eq_true, if_false]

/-! ### Acknowledgements -/

/-- An acknowledgement covers a message: of its pair, and not after its number (R464). -/
def Msg.covers (m : Msg) (u : Unacked) : Bool := decide (u.dest = m.src) && decide ((m.seq + 2 ^ 16 - u.seq) % 2 ^ 16 < 2 ^ 15)

section
variable {s : State} {m : Msg}

theorem exec_mlnAck_other (other : m.typ ≠ 5 ∨ m.dst ≠ s.con.node) : exec (.mlnAck m) s = .next s :=
  congrArg _ (if_pos (by simpa using other))

variable (kind : m.typ = 5) (here : m.dst = s.con.node)
include kind here

theorem exec_mlnAck_here : exec (.mlnAck m) s = .next (
    if m.malformed then (s.count R.mlnRxMalformed 32 1).freed m
    else (((s.passed m).setMln { (s.passed m).mln with unacked := (s.passed m).mln.unacked.filter (fun u => !m.covers u) }).led 0 1
      ((s.passed m).mln.unacked.filter m.covers).length).unhold 0 ((s.passed m).mln.unacked.filter m.covers).length) :=
  congrArg _ (if_neg (by simp [kind, here]))

end

theorem exec_ackSend (s : State) (src : Fin 256) : exec (.ackSend src) s = .next (
    if s.dead (src : Nat) = true ∨ (src : Nat) = s.con.node ∨ SMap.get 0 s.mln.performed (src : Nat) = 0 then s else s.ackTo (src : Nat)) := by
  show execAckSend src s = _
  simp only [execAckSend, Bool.or_eq_true, decide_eq_true_eq, or_assoc]

/-! ### What a copy sends -/

section
variable {s : State} {c : Fin 192} {n : Fin 8} {x u : TSlot} {g : Option VmFault} {r : State}

/-- The next remote message of a TCOPY slot, once what precedes it has moved (R454). -/
def State.slotSends (r : State) (c n : Nat) (u : TSlot) : Option (Nat × Option VmFault × State) :=
  r.xferAccept (u.xfer r c) u.pos c (.tcopy c n) (r.flowsOf (((r.launch u.launch).map Launch.cmd).getD 0))

variable (slot : ((s.rspRun (.tcopy c n) s.mln.reads.length).core c).tslot n = some x) (fine : x.fault = none)
  (run : (s.rspRun (.tcopy c n) s.mln.reads.length).tcopyRun c n x x.turns = (u, g, r))
include slot fine run

theorem exec_messageAccept_slot_none (sent : r.slotSends c n u = none) :
    exec (.messageAccept (.tcopy c n)) s = .next (s.rspRun (.tcopy c n) s.mln.reads.length) := by
  unfold State.slotSends at sent
  show execMessageAccept (.tcopy c n) s = _
  simp only [execMessageAccept, slot, fine, Option.isSome_none, Bool.false_eq_true, if_false, run, sent]

theorem exec_messageAccept_slot_moves {p : Nat} {t : State} (sent : r.slotSends c n u = some (p, none, t)) :
    exec (.messageAccept (.tcopy c n)) s = .next (t.setTslot c n (some { u with pos := p })) := by
  unfold State.slotSends at sent
  show execMessageAccept (.tcopy c n) s = _
  simp only [execMessageAccept, slot, fine, Option.isSome_none, Bool.false_eq_true, if_false, run, sent]

theorem exec_messageAccept_slot_fails {p : Nat} {f : VmFault} {t : State} (sent : r.slotSends c n u = some (p, some f, t)) :
    exec (.messageAccept (.tcopy c n)) s = .next (t.tcopyFails c n u f) := by
  unfold State.slotSends at sent
  show execMessageAccept (.tcopy c n) s = _
  simp only [execMessageAccept, slot, fine, Option.isSome_none, Bool.false_eq_true, if_false, run, sent]

end

section
variable {s : State} {n p : Nat} {x : Copy} {g : Option VmFault} {r : State}

/-- The next remote message of a hub copy, once what precedes it has moved (R454). -/
def State.copySends (r : State) (n p : Nat) (x : Copy) : Option (Nat × Option VmFault × State) :=
  r.xferAccept x.xfer p 192 (.copy n) (r.flowsOf x.cmd)

variable (copy : (s.rspRun (.copy n) s.mln.reads.length).copy? n = some x) (fine : x.failed = none)
  (run : (s.rspRun (.copy n) s.mln.reads.length).copyRun n x = (p, g, r))
include copy fine run

theorem exec_messageAccept_copy_none (sent : r.copySends n p x = none) :
    exec (.messageAccept (.copy n)) s = .next (s.rspRun (.copy n) s.mln.reads.length) := by
  unfold State.copySends at sent
  show execMessageAccept (.copy n) s = _
  simp only [execMessageAccept, copy, fine, Option.isSome_none, Bool.false_eq_true, if_false, run, sent]

theorem exec_messageAccept_copy_moves {q : Nat} {t : State} (sent : r.copySends n p x = some (q, none, t)) :
    exec (.messageAccept (.copy n)) s = .next (t.setCopy n (some { x with pos := q })) := by
  unfold State.copySends at sent
  show execMessageAccept (.copy n) s = _
  simp only [execMessageAccept, copy, fine, Option.isSome_none, Bool.false_eq_true, if_false, run, sent]

theorem exec_messageAccept_copy_fails {q : Nat} {f : VmFault} {t : State} (sent : r.copySends n p x = some (q, some f, t)) :
    exec (.messageAccept (.copy n)) s = .next (t.setCopy n (some { x with pos := q, failed := some f.num })) := by
  unfold State.copySends at sent
  show execMessageAccept (.copy n) s = _
  simp only [execMessageAccept, copy, fine, Option.isSome_none, Bool.false_eq_true, if_false, run, sent]

end

/-! ### Answers -/

section
variable {s : State} {m : Msg}

theorem exec_readRsp_other (other : m.typ ≠ 3 ∨ m.dst ≠ s.con.node) : exec (.readRsp m) s = .next s :=
  congrArg _ (if_pos (by simpa using other))

variable (kind : m.typ = 3) (here : m.dst = s.con.node)
include kind here

theorem exec_readRsp_malformed (bad : m.malformed = true) : exec (.readRsp m) s = .next ((s.count R.mlnRxMalformed 32 1).freed m) :=
  congrArg _ ((if_neg (by simp [kind, here])).trans (if_pos bad))

variable (whole : m.malformed = false)
include whole

/-- The read that an answer is for: one that still waits, with the answer's tag, of the package that answers (R461). -/
def State.askedFor (s : State) (m : Msg) : Option MlnRead :=
  s.mln.reads.find? (fun r => decide (r.tag = m.tag) && decide (r.dest = m.src) && r.got.isNone)

theorem exec_readRsp_unasked (none_ : s.askedFor m = none) : exec (.readRsp m) s = .next (s.passed m) := by
  unfold State.askedFor at none_
  show execReadRsp m s = _
  simp [execReadRsp, kind, here, whole, none_]

theorem exec_readRsp_asked {r : MlnRead} (some_ : s.askedFor m = some r) :
    exec (.readRsp m) s = .next ((((s.led 3 0 (m.size / 16)).led 3 2 (m.size / 16)).setMln { s.mln with
      reads := s.mln.reads.map (fun x => if x.tag = m.tag then { x with got := some m } else x) }).rspRun r.who s.mln.reads.length) := by
  unfold State.askedFor at some_
  show execReadRsp m s = _
  simp [execReadRsp, kind, here, whole, some_]

end

section
variable {s : State} {who : MlnReader} {fuel : Nat}

/-- The oldest read of a reader. -/
def State.firstRead (s : State) (who : MlnReader) : Option MlnRead := s.mln.reads.find? (fun r => decide (r.who = who))

theorem rspRun_none (none_ : s.firstRead who = none) : s.rspRun who (fuel + 1) = s := by
  unfold State.firstRead at none_
  simp only [State.rspRun, none_]

theorem rspRun_waits {r : MlnRead} (first : s.firstRead who = some r) (waits : r.got = none) : s.rspRun who (fuel + 1) = s := by
  unfold State.firstRead at first
  simp only [State.rspRun, first, waits]

theorem rspRun_stuck {r : MlnRead} {m : Msg} (first : s.firstRead who = some r) (got : r.got = some m) (put : s.rspPut r m = none) :
    s.rspRun who (fuel + 1) = s := by
  unfold State.firstRead at first
  simp only [State.rspRun, first, got, put]

theorem rspRun_goesOn {r : MlnRead} {m : Msg} {t : State} (first : s.firstRead who = some r) (got : r.got = some m)
    (put : s.rspPut r m = some t) : s.rspRun who (fuel + 1) = t.rspRun who fuel := by
  unfold State.firstRead at first
  simp only [State.rspRun, first, got, put]

end

/-- The state in which an answer is taken: its read is no longer awaited (R461, R472). -/
def State.answered (s : State) (r : MlnRead) (m : Msg) : State :=
  (s.setMln { s.mln with reads := s.mln.reads.filter (fun x => !decide (x.tag = r.tag)) }).unhold 3 (m.size / 16) |>.led 3 1 (m.size / 16) |>.freed m

section
variable {s : State} {r : MlnRead} {m : Msg}

theorem rspPut_gone (gone : (s.answered r m).readerXfer r.who = none) : s.rspPut r m = some (s.answered r m) := by
  unfold State.answered at *
  simp only [State.rspPut, gone]

variable {x : Xfer} (xfer : (s.answered r m).readerXfer r.who = some x)
include xfer

theorem rspPut_refused (refused : m.status ≠ 0) :
    s.rspPut r m = some (((s.answered r m).rspRecord x r.pos (rspFault m.status)).readerFails r.who (rspFault m.status)) := by
  unfold State.answered at *
  simp only [State.rspPut, xfer, if_pos refused]

variable (ok : m.status = 0) {u : State}
include ok

theorem rspPut_faults {f : VmFault} (put : (s.answered r m).xferPut x r.pos m.data = (.fault f, u)) :
    s.rspPut r m = some (u.readerFails r.who f) := by
  unfold State.answered at *
  simp only [State.rspPut, xfer, ok, ne_eq, not_true_eq_false, if_false, put]

theorem rspPut_sends {d off : Nat} {dev : Bool} {b : List Byte} (put : (s.answered r m).xferPut x r.pos m.data = (.sendWrite d off dev b, u)) :
    ∃ core flows, s.rspPut r m = u.mlnAccept (u.writeMsg (u.tenantOf x.user.ctx) d off dev b) core flows := by
  unfold State.answered at *
  simp only [State.rspPut, xfer, ok, ne_eq, not_true_eq_false, if_false, put]
  exact ⟨_, _, rfl⟩

theorem rspPut_done {y : XStep} (put : (s.answered r m).xferPut x r.pos m.data = (y, u)) (fine : ∀ f, y ≠ .fault f)
    (local_ : ∀ d off dev b, y ≠ .sendWrite d off dev b) : s.rspPut r m = some u := by
  unfold State.answered at *
  simp only [State.rspPut, xfer, ok, ne_eq, not_true_eq_false, if_false, put]

end

/-! ### The obligation -/

/-- Settles O44: reception, forwarding, acknowledgement, what copies send, and answers taken in the order of their reads. -/
theorem mainlineMessages : Obligations.MainlineMessages := by
  unfold Obligations.MainlineMessages
  refine ⟨fun s m i typ row => ?_, fun s m => ⟨exec_messageForward_here, exec_messageForward_malformed, fun x away whole asBest => ?_⟩,
    fun s l => discard_transit s, fun s m => ⟨exec_mlnAck_other, fun kind here bad => ?_, fun kind here whole => ?_⟩,
    fun s src => ⟨fun idle => ?_, fun live other performed => ?_⟩,
    fun s c n x u g r slot fine run => ⟨exec_messageAccept_slot_none slot fine run, fun p t => exec_messageAccept_slot_moves slot fine run,
      fun p f t => exec_messageAccept_slot_fails slot fine run⟩,
    fun s n p x g r copy fine run => ⟨exec_messageAccept_copy_none copy fine run, fun q t => exec_messageAccept_copy_moves copy fine run,
      fun q f t => exec_messageAccept_copy_fails copy fine run⟩,
    fun s m => ⟨exec_readRsp_other, exec_readRsp_malformed, fun kind here whole => ⟨exec_readRsp_unasked kind here whole,
      fun r => exec_readRsp_asked kind here whole⟩⟩,
    fun s who fuel => ⟨rspRun_none, fun r => rspRun_waits, fun r m => rspRun_stuck, fun r m t => rspRun_goesOn⟩, fun s t r m x taken => ?_⟩
  · rw [exec_receive row]
    refine ⟨fun other => congrArg _ (receive_other other), fun kind here bad => congrArg _ (receive_malformed kind here bad),
      fun kind here whole awaits => congrArg _ (receive_awaitsReset kind here whole awaits), fun kind here whole paired =>
        ⟨fun turn => congrArg _ (receive_inTurn kind here whole paired turn), fun early near fresh => congrArg _ ?_,
          fun early again => congrArg _ ?_⟩⟩
    · exact (receive_outOfTurn kind here whole paired early).trans (if_pos ⟨near, fresh⟩)
    · refine (receive_outOfTurn kind here whole paired early).trans (if_neg fun held => ?_)
      exact again.elim (Nat.not_le.2 held.1) (ne_true_of_eq_false held.2)
  · rw [exec_messageForward_goesOn away whole, onward_eq, ← asBest]
    exact ⟨fun none_ => congrArg _ (queueOut_none none_), fun p port => congrArg _ (queueOut_some port)⟩
  · exact (exec_mlnAck_here kind here).trans (congrArg _ (if_pos bad))
  · exact (exec_mlnAck_here kind here).trans (congrArg _ (if_neg (ne_true_of_eq_false whole)))
  · exact (exec_ackSend s src).trans (congrArg _ (if_pos idle))
  · refine (exec_ackSend s src).trans (congrArg _ (if_neg ?_))
    rintro (dead | here | none_)
    · exact ne_true_of_eq_false live dead
    · exact other here
    · exact performed none_
  · subst taken
    exact ⟨rspPut_gone, fun xfer => ⟨rspPut_refused xfer, fun f u ok put => rspPut_faults xfer ok put,
      fun d off dev b u ok put => rspPut_sends xfer ok put, fun y u ok put => rspPut_done xfer ok put⟩⟩

end Sys2Proof.Machine


/-! The host link: functions and their resets, configuration requests, power states, the host window, and how reads of host memory end. -/

namespace Sys2Proof.Machine

/-! ### Functions -/

theorem exec_functionLevelReset (s : State) (fn : Fin 64) :
    exec (.functionLevelReset fn) s = .next (if (fn : Nat) = 0 ∨ s.fnExists fn = false then s else (s.flrBegin fn).flrRun) := by
  show execFunctionLevelReset fn s = _
  simp only [execFunctionLevelReset, Bool.or_eq_true, decide_eq_true_eq, Bool.not_eq_true']

theorem exec_vfEnable (s : State) :
    exec .vfEnable s = .next (if s.answers then { s with pci := { s.pci with vfEnable := true } } else s) := rfl

theorem exec_numvfsWrite (s : State) (num : Nat) : exec (.numvfsWrite num) s =
    .next (if s.answers = true ∧ num ≤ s.con.totalVfs then { s with pci := { s.pci with numVfs := num } } else s) := by
  show execNumvfsWrite num s = _
  simp only [execNumvfsWrite, Bool.and_eq_true, decide_eq_true_eq]

theorem exec_powerStateChange (s : State) (fn : Fin 64) (d3 : Bool) : exec (.powerStateChange fn d3) s =
    .next (if s.fnExists fn then { s with pci := { s.pci with d3 := SMap.put false s.pci.d3 fn d3 } }.sendPending fn else s) := by
  show execPowerStateChange fn d3 s = _
  simp only [execPowerStateChange, Bool.not_eq_true', ← Bool.not_eq_true, ite_not]

/-! ### Configuration requests -/

section
variable {s : State} {fn : Fin 64}

theorem exec_configRequest_retry (quiet : s.answers = false) (req : CfgReq) : exec (.configRequest fn req) s = .next (s.emit .retry) := by
  show execConfigRequest fn req s = _
  simp only [execConfigRequest, quiet, Bool.not_false, if_true]

variable (answers : s.answers = true)
include answers

theorem exec_configRequest_missing (missing : s.fnExists fn = false) (req : CfgReq) :
    exec (.configRequest fn req) s = .next (s.aerLog.emit .unsupported) := by
  show execConfigRequest fn req s = _
  simp only [execConfigRequest, answers, missing, Bool.not_true, Bool.not_false, Bool.false_eq_true, if_false, if_true]

variable (exists_ : s.fnExists fn = true)
include exists_

theorem exec_configRequest_read (off : Nat) : exec (.configRequest fn (.read off)) s = .next (
    if off = 0 then s.emit (.config off (if (fn : Nat) = 0 then 0x96001F3B else 0x96011F3B))
    else if off = 8 then s.emit (.config off 0x120000A2)
    else s.withFree fun r s => s.emit (.config off (r % 2 ^ 32))) := by
  show execConfigRequest fn (.read off) s = _
  simp only [execConfigRequest, answers, exists_, Bool.not_true, Bool.false_eq_true, if_false]

theorem exec_configRequest_msix (on mask : Bool) : exec (.configRequest fn (.msix on mask)) s =
    .next ({ s with pci := { s.pci with
      msixOn := SMap.put false s.pci.msixOn fn on, msixMask := SMap.put false s.pci.msixMask fn mask } }.sendPending fn) := by
  show execConfigRequest fn (.msix on mask) s = _
  simp only [execConfigRequest, answers, exists_, Bool.not_true, Bool.false_eq_true, if_false]

theorem exec_configRequest_timeout (v : Fin 16) (off : Bool) : exec (.configRequest fn (.timeout v off)) s =
    .next { s with pci := { s.pci with timeout := SMap.put 0 s.pci.timeout fn ((v : Nat) + if off then 16 else 0) } } := by
  show execConfigRequest fn (.timeout v off) s = _
  simp only [execConfigRequest, answers, exists_, Bool.not_true, Bool.false_eq_true, if_false]

end

/-! ### The host window -/

section
variable {s : State} {off len : Nat} {data : MaskedBytes}

theorem exec_hostWindow_shut (shut : s.windowOpen = false) :
    exec (.hostWindowWrite off data) s = .next s ∧ exec (.hostWindowRead off len) s = .next s := by
  constructor
  · show execHostWindowWrite off data s = _
    simp only [execHostWindowWrite, shut, Bool.not_false, if_true]
  · show execHostWindowRead off len s = _
    simp only [execHostWindowRead, shut, Bool.not_false, if_true]

variable (open_ : s.windowOpen = true)
include open_

theorem exec_hostWindow_disabled (disabled : s.flag R.pciWinCfg 8 = false) :
    exec (.hostWindowWrite off data) s = .next (s.count R.pciWinDiscards 32 1) ∧
      exec (.hostWindowRead off len) s = .next (s.emit .unsupported) := by
  constructor
  · show execHostWindowWrite off data s = _
    simp only [execHostWindowWrite, open_, disabled, Bool.not_true, Bool.not_false, Bool.false_eq_true, if_false, if_true]
  · show execHostWindowRead off len s = _
    simp only [execHostWindowRead, open_, disabled, Bool.not_true, Bool.not_false, Bool.false_eq_true, if_false, if_true]

variable (enabled : s.flag R.pciWinCfg 8 = true)
include enabled

theorem exec_hostWindowWrite_runs : exec (.hostWindowWrite off data) s =
    .next ((enabledRuns data (off % 0x4000000)).foldl (fun t r => t.windowRun r) s) := by
  show execHostWindowWrite off data s = _
  simp only [execHostWindowWrite, open_, enabled, Bool.not_true, Bool.false_eq_true, if_false]

theorem exec_hostWindowRead_answers {b : List Byte} {bad : Bool} {t : State}
    (read : s.memRead (s.fld R.pciWinBase 55 0 + off % 0x4000000) len 5 s.windowSlot true = (b, bad, t)) :
    exec (.hostWindowRead off len) s = .next ((t.poisonIf bad).emit (.window b bad)) := by
  show execHostWindowRead off len s = _
  simp only [execHostWindowRead, open_, enabled, Bool.not_true, Bool.false_eq_true, if_false, read]

end

/-! ### Reads of host memory -/

/-- The request of a tag (R491). -/
def State.asked (s : State) (tag : Nat) : Option HostReq := s.pci.reqs.find? (fun r => decide (r.tag = tag))

/-- The state once a tag's request has been forgotten. -/
def State.forgets (s : State) (tag : Nat) : State := { s with pci := { s.pci with reqs := s.pci.reqs.filter (fun x => !decide (x.tag = tag)) } }

section
variable {s : State} {tag : Nat} {data : List Byte} {e : HostEnd}

theorem hostEnds_none (none_ : s.asked tag = none) : s.hostEnds tag data e = s := by
  unfold State.asked at none_
  simp only [State.hostEnds, none_]

variable {r : HostReq} (asked : s.asked tag = some r)
include asked

theorem hostEnds_thread {c slot op : Nat} (who : r.who = .thread c slot op) : s.hostEnds tag data e =
    ((s.forgets tag).hostError r.fn 1 ((s.forgets tag).slotCtx c slot) r.addr e).updCore c (fun k => k.answeredBy tag op r.len data e) := by
  unfold State.asked at asked
  simp only [State.hostEnds, asked, who]
  rfl

theorem hostEnds_fetch {c slot line : Nat} (who : r.who = .fetch c slot line) : s.hostEnds tag data e =
    let t := (s.forgets tag).hostError r.fn 1 ((s.forgets tag).slotCtx c slot) r.addr e
    if e = .ok then t.icachePut c line (data ++ leBytes (128 - data.length) 0) else t.consumedPoison.fetchFault c slot 0x06 := by
  unfold State.asked at asked
  simp only [State.hostEnds, asked, who]
  rfl

end

theorem exec_hostReadTimeout_none {s : State} {tag : Nat} (none_ : s.asked tag = none) : exec (.hostReadTimeout tag) s = .next s := by
  unfold State.asked at none_
  show execHostReadTimeout tag s = _
  simp only [execHostReadTimeout, none_]

theorem exec_hostReadTimeout_some {s : State} {tag : Nat} {r : HostReq} (asked : s.asked tag = some r) :
    exec (.hostReadTimeout tag) s = .next (
      if 16 ≤ SMap.get 0 s.pci.timeout r.fn ∨ s.now < r.sent + timeoutFloor (SMap.get 0 s.pci.timeout r.fn) then s
      else s.hostEnds tag [] .timeout) := by
  unfold State.asked at asked
  show execHostReadTimeout tag s = _
  simp only [execHostReadTimeout, asked, Bool.or_eq_true, decide_eq_true_eq]

/-! ### The link -/

theorem exec_pcieLinkUp (s : State) (speed : Fin 16) (width : Byte) (flit : Bool) : exec (.pcieLinkUp speed width flit) s = .next (
    if s.boot.perst = true ∨ s.bootStep < 4 ∨ s.boot.stopped = true then s
    else (((s.setFlag R.pciStatus 10).putFlag R.pciStatus 11 flit).setFld R.pciStatus 15 12 speed).setFld R.pciStatus 23 16 width.toNat) := by
  show execPcieLinkUp speed width flit s = _
  simp only [execPcieLinkUp, Bool.or_eq_true, decide_eq_true_eq, or_assoc]

/-! ### The obligation -/

/-- Settles O46: functions and their resets, configuration requests, power states, the window, host reads and the link. -/
theorem functionsAndHostWindow : Obligations.FunctionsAndHostWindow := by
  unfold Obligations.FunctionsAndHostWindow
  refine ⟨fun s fn => ?_, fun s num => ?_, fun s fn req => ⟨fun quiet => exec_configRequest_retry quiet req,
      fun answers missing => exec_configRequest_missing answers missing req, fun answers exists_ => ?_⟩, fun s fn d3 => ?_,
    fun s off len data => ⟨exec_hostWindow_shut, exec_hostWindow_disabled, fun open_ enabled => ⟨exec_hostWindowWrite_runs open_ enabled,
      fun b bad t => exec_hostWindowRead_answers open_ enabled⟩, fun n b => ⟨fun sealed_ => if_pos sealed_,
      fun outside => if_neg (ne_true_of_eq_false outside)⟩⟩, fun s tag data e => rfl,
    fun s tag => ⟨exec_hostReadTimeout_none, fun r asked => ?_⟩, fun s tag data e => ⟨hostEnds_none, fun r asked => ?_⟩,
    fun s speed width flit => ?_⟩
  · rw [exec_functionLevelReset]
    refine ⟨fun ignored => congrArg _ (if_pos ignored), fun virtual exists_ => congrArg _ (if_neg ?_), rfl, rfl, rfl⟩
    exact not_or.2 ⟨virtual, ne_false_of_eq_true exists_⟩
  · rw [exec_vfEnable, exec_numvfsWrite]
    refine ⟨fun quiet => congrArg _ (if_neg (ne_true_of_eq_false quiet)), fun answers => congrArg _ (if_pos answers),
      fun refused => congrArg _ (if_neg ?_), fun answers fits => congrArg _ (if_pos ⟨answers, fits⟩)⟩
    exact fun taken => refused.elim (ne_false_of_eq_true taken.1) (Nat.not_lt.2 taken.2)
  · refine ⟨?_, ?_, fun off kind identity class_ => ?_, fun on mask kind => ?_, fun v off kind => ?_⟩
    · rintro rfl
      exact exec_configRequest_read answers exists_ 0
    · rintro rfl
      exact exec_configRequest_read answers exists_ 8
    · subst kind
      exact ⟨_, (exec_configRequest_read answers exists_ off).trans (congrArg _ ((if_neg identity).trans (if_neg class_)))⟩
    · subst kind
      exact exec_configRequest_msix answers exists_ on mask
    · subst kind
      exact exec_configRequest_timeout answers exists_ v off
  · rw [exec_powerStateChange]
    exact ⟨fun missing => congrArg _ (if_neg (ne_true_of_eq_false missing)), fun exists_ => congrArg _ (if_pos exists_)⟩
  · refine ⟨fun early => (exec_hostReadTimeout_some asked).trans (congrArg _ (if_pos early)),
      fun on late => (exec_hostReadTimeout_some asked).trans (congrArg _ (if_neg ?_))⟩
    omega
  · exact ⟨fun c slot op => hostEnds_thread asked, fun c slot line who ok => (hostEnds_fetch asked who).trans (if_pos ok),
      fun c slot line who bad => (hostEnds_fetch asked who).trans (if_neg bad)⟩
  · rw [exec_pcieLinkUp]
    refine ⟨fun down => congrArg _ (if_pos down), fun released clocked runs => congrArg _ (if_neg ?_)⟩
    rw [released, runs]
    simp only [Bool.false_eq_true, or_false, false_or]
    omega

end Sys2Proof.Machine


/-! Power and heat: what a sample keeps, how steps rise and fall, and when an idle cluster is gated. -/

namespace Sys2Proof.Machine

/-! ### Samples -/

theorem exec_powerSample (s : State) (input west east : BitVec 32) : exec (.powerSample input west east) s = .next (
    if s.boot.main = false then s
    else if s.fld R.conStatus 3 0 ≤ 1 then s.showInput input.toNat
    else
      let t := (s.showInput input.toNat).sampled input.toNat west.toNat east.toNat
      if t.stepDue = true then t.raiseStep 2 else t) := by
  show execPowerSample input west east s = _
  simp only [execPowerSample, Bool.not_eq_true']

theorem State.showInput_rd_same {s : State} (canon : s.Canon) (p : Nat) :
    (s.showInput p).rd R.pwrInputMw = BitVec.ofNat 64 p ∧ (s.showInput p).rd (R.mgtRailMw 0) = BitVec.ofNat 64 p := by
  have rise := canon.rise
  constructor
  · rw [State.showInput, State.rd_wr_ne (State.wr_rise rise _ _) _ (by decide), State.rd_wr_same rise]
  · exact State.rd_wr_same (State.wr_rise rise _ _) _ _

theorem State.showInput_rd_ne {s : State} (canon : s.Canon) (p : Nat) {off : Nat} (other : off ∉ [R.pwrInputMw, R.mgtRailMw 0]) :
    (s.showInput p).rd off = s.rd off := by
  have rise := canon.rise
  simp only [List.mem_cons, List.not_mem_nil, or_false, not_or] at other
  obtain ⟨input, rail⟩ := other
  rw [State.showInput, State.rd_wr_ne (State.wr_rise rise _ _) _ rail, State.rd_wr_ne rise _ input]

theorem runTime_get_same {m : SMap Nat} (rise : m.Rising) (u : Nat) (on : Bool) :
    SMap.get 0 (runTime m u on) u = if on = true then SMap.get 0 m u + 1 else 0 :=
  SMap.get_put_same _ _ _ rise

theorem runTime_get_ne {m : SMap Nat} (rise : m.Rising) {u k : Nat} (ne : k ≠ u) (on : Bool) :
    SMap.get 0 (runTime m u on) k = SMap.get 0 m k :=
  SMap.get_put_ne _ _ ne rise

theorem runTime_canon {m : SMap Nat} (canon : m.Canon fun _ => 0) (u : Nat) (on : Bool) : (runTime m u on).Canon fun _ => 0 :=
  SMap.put_canon canon u _

section
variable {s : State} (p w e : Nat)

theorem State.sampled_dieOver (canon : s.pwr.dieOver.Canon fun _ => 0) :
    (SMap.get 0 (s.sampled p w e).pwr.dieOver 0 = if 1000 * s.pwr.dieW < w then SMap.get 0 s.pwr.dieOver 0 + 1 else 0) ∧
    (SMap.get 0 (s.sampled p w e).pwr.dieOver 1 = if 1000 * s.pwr.dieW < e then SMap.get 0 s.pwr.dieOver 1 + 1 else 0) := by
  have first := runTime_canon canon 0 (decide (1000 * s.pwr.dieW < w))
  constructor
  · show SMap.get 0 (runTime (runTime _ _ _) _ _) 0 = _
    rw [runTime_get_ne first.1 (by decide), runTime_get_same canon.1]
    simp only [decide_eq_true_eq]
  · show SMap.get 0 (runTime (runTime _ _ _) _ _) 1 = _
    rw [runTime_get_same first.1, runTime_get_ne canon.1 (by decide)]
    simp only [decide_eq_true_eq]

theorem State.sampled_calm (canon : s.pwr.calm.Canon fun _ => 0) :
    (SMap.get 0 (s.sampled p w e).pwr.calm 0 =
      if 2 * (s.sampled p w e).pwr.account < s.excursionCap ∧ w ≤ 1000 * s.pwr.dieW then SMap.get 0 s.pwr.calm 0 + 1 else 0) ∧
    (SMap.get 0 (s.sampled p w e).pwr.calm 2 =
      if 2 * (s.sampled p w e).pwr.account < s.excursionCap ∧ p ≤ 1000 * s.fld R.pwrPartition 63 48 then SMap.get 0 s.pwr.calm 2 + 1
      else 0) := by
  have account : (s.sampled p w e).pwr.account = s.pwr.account + p - 1000 * s.fld R.pwrPartition 63 48 := rfl
  rw [account]
  have west := runTime_canon canon 0 (decide (2 * (s.pwr.account + p - 1000 * s.fld R.pwrPartition 63 48) <
    s.excursionCap) && decide (w ≤ 1000 * s.pwr.dieW))
  have east := runTime_canon west 1 (decide (2 * (s.pwr.account + p - 1000 * s.fld R.pwrPartition 63 48) <
    s.excursionCap) && decide (e ≤ 1000 * s.pwr.dieW))
  constructor
  · show SMap.get 0 (runTime (runTime (runTime _ _ _) _ _) _ _) 0 = _
    rw [runTime_get_ne east.1 (by decide), runTime_get_ne west.1 (by decide), runTime_get_same canon.1]
    simp only [Bool.and_eq_true, decide_eq_true_eq]
  · show SMap.get 0 (runTime (runTime (runTime _ _ _) _ _) _ _) 2 = _
    rw [runTime_get_same east.1, runTime_get_ne west.1 (by decide), runTime_get_ne canon.1 (by decide)]
    simp only [Bool.and_eq_true, decide_eq_true_eq]

variable (canon : s.Canon)
include canon

theorem State.sampled_rd_ne {off : Nat} (other : off ≠ R.pwrBucketMj) : (s.sampled p w e).rd off = s.rd off :=
  State.rd_wr_ne (s := { s with pwr := _ }) canon.rise _ other

theorem State.sampled_rd_bucket : (s.sampled p w e).rd R.pwrBucketMj =
    BitVec.ofNat 64 ((s.sampled p w e).pwr.account / 1000000 % 2 ^ 32) :=
  State.rd_wr_same (s := { s with pwr := _ }) canon.rise _ _

/-- The partition's register is not the one a sample shows the account in, so the account's size stays. -/
theorem State.sampled_excursionCap : (s.sampled p w e).excursionCap = s.excursionCap := by
  have partition : (s.sampled p w e).fld R.pwrPartition 63 48 = s.fld R.pwrPartition 63 48 := by
    rw [State.fld, State.sampled_rd_ne p w e canon (by decide)]
    rfl
  rw [State.excursionCap, partition]
  rfl

theorem State.sampled_stepDue : (s.sampled p w e).stepDue = true ↔
    s.excursionCap ≤ (s.sampled p w e).pwr.account ∨ 50 ≤ (s.sampled p w e).pwr.above := by
  rw [State.stepDue, State.sampled_excursionCap p w e canon, Bool.or_eq_true, decide_eq_true_eq, decide_eq_true_eq]
end

/-! ### Steps -/

/-- A step of the unit was raised within the last 100 us. -/
abbrev State.raisedLately (s : State) (u : Nat) : Prop := ∃ at_, SMap.get none s.pwr.raised u = some at_ ∧ s.now < at_ + 100000

theorem State.raiseStep_top {s : State} {u : Nat} (top : 3 ≤ s.curStep u) : s.raiseStep u = s := by
  simp only [State.raiseStep, top, decide_true, Bool.true_or, if_true]

theorem State.raiseStep_soon {s : State} {u at_ : Nat} (last : SMap.get none s.pwr.raised u = some at_) (soon : s.now < at_ + 100000) :
    s.raiseStep u = s := by
  simp only [State.raiseStep, last, soon, decide_true, Bool.or_true, if_true]

theorem State.raiseStep_rises {s : State} {u : Nat} (below : s.curStep u < 3)
    (rested : ∀ at_, SMap.get none s.pwr.raised u = some at_ → at_ + 100000 ≤ s.now) :
    s.raiseStep u = { s with pwr := { s.pwr with
      steps := SMap.put 0 s.pwr.steps u (s.curStep u + 1), raised := SMap.put none s.pwr.raised u (some s.now),
      calm := SMap.put 0 s.pwr.calm u 0 } }.declareStep (if u = 2 then 2 else 3) (if u = 2 then 10 else u) (s.curStep u + 1) 0 := by
  rw [State.raiseStep]
  cases last : SMap.get none s.pwr.raised u with
  | none => simp only [Nat.not_le.mpr below, decide_false, Bool.or_false, Bool.false_eq_true, if_false]
  | some at_ =>
    simp only [Nat.not_le.mpr below, Nat.not_lt.mpr (rested at_ last), decide_false, Bool.or_false, Bool.false_eq_true, if_false]

theorem exec_stepLower (s : State) (unit : StepUnit) : exec (.stepLower unit) s = .next (
    if s.curStep unit.num = 0 ∨ SMap.get 0 s.pwr.calm unit.num < 1000 then s
    else { s with pwr := { s.pwr with
      steps := SMap.put 0 s.pwr.steps unit.num (s.curStep unit.num - 1), calm := SMap.put 0 s.pwr.calm unit.num 0 } }.showSteps) := by
  show execStepLower unit s = _
  simp only [execStepLower, Bool.or_eq_true, decide_eq_true_eq]

theorem exec_diePowerStep (s : State) (d : Fin 2) : exec (.diePowerStep d) s = .next (
    if SMap.get 0 s.pwr.dieOver d < 1000 then s
    else { s with pwr := { s.pwr with dieOver := SMap.put 0 s.pwr.dieOver d 0 } }.raiseStep d) := by
  show execDiePowerStep d s = _
  rw [execDiePowerStep, Nat.mod_eq_of_lt d.isLt]

/-! ### Temperature -/

theorem exec_thermalStep {s : State} {unit : HeatUnit} {sensor : Nat} {temp : Int} (hot : s.hottest unit.num = (sensor, temp)) :
    exec (.thermalStep unit) s = .next (
      let u := unit.num
      let n := heatReached u temp
      let put (k : Nat) : State := { s with pwr := { s.pwr with heat := SMap.put 0 s.pwr.heat u k } }
      if s.heatStep u < n then
        if u = 10 then ((put n).declareStep 1 0 n sensor).declareStep 1 1 n sensor else (put n).declareStep 1 u n sensor
      else (put (s.heatKept u)).showSteps) := by
  show execThermalStep unit s = _
  simp only [execThermalStep, hot]

/-! ### Gating -/

/-- Cluster `n` is outside every lane, runs, and has held no block for the time that PWR_GATE_IDLE asks for. -/
abbrev State.mayGate (s : State) (n : Nat) : Prop :=
  (s.rd R.pwrGateIdle).toNat ≠ 0 ∧ s.laneMask.testBit n = false ∧ (∀ e ∈ s.cores, clusterOf e.1 = n → e.2.blockList = []) ∧
    s.pwr.gated.contains n = false ∧ SMap.get 0 s.pwr.lastBlock n + 1000 * (s.rd R.pwrGateIdle).toNat ≤ s.now

theorem State.busyCluster_iff (s : State) (n : Nat) :
    s.cores.any (fun e => clusterOf e.1 = n && !e.2.blockList.isEmpty) = false ↔
      ∀ e ∈ s.cores, clusterOf e.1 = n → e.2.blockList = [] := by
  simp only [List.any_eq_false, Bool.and_eq_true, decide_eq_true_eq, Bool.not_eq_true', not_and, Bool.not_eq_false,
    List.isEmpty_iff]

theorem exec_clusterGate_gates {s : State} {n : Fin 16} (may : s.mayGate n) :
    exec (.clusterGate n) s = .next { s with pwr := { s.pwr with gated := (n : Nat) :: s.pwr.gated } } := by
  obtain ⟨asked, unlaned, idle, running, rested⟩ := may
  show execClusterGate n s = _
  simp only [execClusterGate, Nat.mod_eq_of_lt n.isLt, asked, unlaned, (s.busyCluster_iff n).mpr idle, running, Nat.not_lt.mpr rested,
    decide_false, Bool.or_false, Bool.false_eq_true, if_false]

theorem exec_clusterGate_stays {s : State} {n : Fin 16} (not : ¬ s.mayGate n) : exec (.clusterGate n) s = .next s := by
  show execClusterGate n s = _
  rw [execClusterGate, Nat.mod_eq_of_lt n.isLt]
  refine congrArg Host.Outcome.next (if_pos ?_)
  by_contra refused
  simp only [Bool.or_eq_true, decide_eq_true_eq, not_or, Bool.not_eq_true] at refused
  obtain ⟨⟨⟨⟨asked, unlaned⟩, idle⟩, running⟩, rested⟩ := refused
  exact not ⟨asked, unlaned, (s.busyCluster_iff n).mp idle, running, Nat.not_lt.mp rested⟩

theorem exec_clusterWake (s : State) (n : Fin 16) : exec (.clusterWake n) s = .next { s with pwr := { s.pwr with
    gated := s.pwr.gated.filter (fun m => !decide (m = (n : Nat))), lastBlock := SMap.put 0 s.pwr.lastBlock n s.now } } := by
  show execClusterWake n s = _
  rw [execClusterWake, Nat.mod_eq_of_lt n.isLt]

/-- Settles O53: each event by the lemma for its case; a sample's account, times and shown registers one by one. -/
theorem powerAndHeat : Obligations.PowerAndHeat := by
  unfold Obligations.PowerAndHeat
  refine ⟨fun s input west east => ?_, fun s p canon => ?_, fun s p w e canon => ?_, fun s u => ?_, fun s unit => ?_, fun s d => ?_,
    fun s unit sensor temp hot => ?_, fun s n => ?_⟩
  · rw [exec_powerSample]
    refine ⟨fun off => if_pos off ▸ rfl, fun on early => ?_, fun on limits due => ?_, fun on limits due => ?_⟩
    · simp only [on, early, Bool.true_eq_false, if_false, if_true]
    · simp only [on, Nat.not_le.mpr limits, due, Bool.true_eq_false, if_false, if_true]
    · simp only [on, Nat.not_le.mpr limits, due, Bool.true_eq_false, Bool.false_eq_true, if_false]
  · obtain ⟨input, rail⟩ := State.showInput_rd_same canon p
    exact ⟨input, rail, rfl, fun off other => State.showInput_rd_ne canon p other⟩
  · refine ⟨rfl, fun exceeds => if_pos exceeds, fun under => if_neg (Nat.not_lt.mpr under), State.sampled_dieOver p w e, fun calm => ?_,
      State.sampled_stepDue p w e canon, State.sampled_rd_bucket p w e canon, fun off other => State.sampled_rd_ne p w e canon other⟩
    obtain ⟨west, package⟩ := State.sampled_calm p w e calm
    exact ⟨fun low held => package.trans (if_pos ⟨low, held⟩),
      fun broken => package.trans (if_neg fun held => broken.elim (· held.1) (Nat.not_lt.mpr held.2)),
      fun low held => west.trans (if_pos ⟨low, held⟩),
      fun broken => west.trans (if_neg fun held => broken.elim (· held.1) (Nat.not_lt.mpr held.2))⟩
  · exact ⟨State.raiseStep_top, fun at_ => State.raiseStep_soon, State.raiseStep_rises⟩
  · rw [exec_stepLower]
    exact ⟨fun stays => if_pos stays ▸ rfl, fun held calm => by rw [if_neg (not_or.mpr ⟨held, Nat.not_lt.mpr calm⟩)]⟩
  · rw [exec_diePowerStep]
    exact ⟨fun under => by rw [if_pos under], fun exceeds => by rw [if_neg (Nat.not_lt.mpr exceeds)]⟩
  · rw [exec_thermalStep hot]
    refine ⟨fun rises die => ?_, fun rises hub => ?_, fun falls => ?_⟩
    · simp only [rises, die, if_true, if_false]
    · simp only [hub] at rises
      simp only [hub, rises, if_true]
    · simp only [Nat.not_lt.mpr falls, if_false]
  · exact ⟨exec_clusterGate_gates, exec_clusterGate_stays, exec_clusterWake s n⟩

end Sys2Proof.Machine


/-! Maintenance of the stacks, lasting faults, sparing, and the conservation ledgers. -/

namespace Sys2Proof.Machine

/-! ### Maintenance -/

theorem State.inWindow_iff (s : State) (k : Nat) : s.inWindow k = true ↔ ∃ w ∈ s.mln.windows, w.1 = k ∧
    ((s.now - s.mln.frameAt) % 262144 + 262144 - w.2.1 % 262144) % 262144 < w.2.2 := by
  simp only [State.inWindow, List.any_eq_true, Bool.and_eq_true, decide_eq_true_eq]

theorem exec_maintWindowOpen (s : State) (channel : Byte) (work : MaintWork) : exec (.maintWindowOpen channel work) s =
    .next (if s.inWindow channel.toNat = true then s.maintain channel.toNat work else s) := rfl

section
variable {s : State} (channel : Byte) (task : Fin 4) (cycles : Fin 2000) (work : MaintWork)

theorem exec_maintOverrun_free (free : ∀ e ∈ s.cmdList, e.2.lane = none ∨ e.2.inService = false) :
    exec (.maintOverrun channel task cycles work) s = .next (s.maintain channel.toNat work) := by
  refine congrArg Host.Outcome.next (if_pos ?_)
  simpa only [List.all_eq_true, Bool.not_eq_true', Bool.and_eq_false_iff, Option.isSome_eq_false_iff, Option.isNone_iff_eq_none] using free

theorem exec_maintOverrun_laned (laned : ∃ e ∈ s.cmdList, e.2.lane.isSome = true ∧ e.2.inService = true) :
    let k := channel.toNat
    let n := (cycles : Nat) + 1
    let log := 2 ^ 63 + ((task : Nat) + 1) * 2 ^ 60 + k * 2 ^ 52 + n * 2 ^ 40 + s.time40
    let t := (s.count R.memOverrunCount 32 1).count R.memOverrunCycles 64 n
    let u := ((if t.keepsOverrun k then t else t.wr R.memOverrunLog (BitVec.ofNat 64 log)).setFlag R.memStatus 1).setFlag R.pwrStatus 4
    let v := { u with pwr := { u.pwr with overrun := SMap.put 0 u.pwr.overrun k (u.now + n) } }
    exec (.maintOverrun channel task cycles work) s =
      .next (((v.voidCmds (fun _ _ => true)).trace ⟨0x0E, 6, k, 0, 0, log, 0⟩).maintain k work) := by
  refine congrArg Host.Outcome.next (if_neg fun free => ?_)
  obtain ⟨e, mem, lane, runs⟩ := laned
  have stopped := List.all_eq_true.mp free e mem
  rw [lane, runs] at stopped
  exact absurd stopped (by decide)
end

/-! ### Lasting faults -/

theorem State.lasting_iff (s : State) (part : Part) :
    s.lasting part = true ↔ s.fld (R.rasPolicy part.kind) 15 0 ≤ s.partEvents part ∧ 0 < s.partEvents part := by
  simp only [State.lasting, Bool.and_eq_true, decide_eq_true_eq]

section
variable {s : State}

theorem exec_lastingFault_below {part : Part} (below : ¬ s.lasting part = true) : exec (.lastingFault part) s = .next s := by
  show execLastingFault part s = _
  simp only [execLastingFault, below, Bool.not_false, if_true]

theorem exec_lastingFault_core {c : Fin 192} (reached : s.lasting (.core c) = true) :
    exec (.lastingFault (.core c)) s = .next (s.keepPart (.core c) false) := by
  show execLastingFault (.core c) s = _
  simp only [execLastingFault, reached, Bool.not_true, Bool.false_eq_true, if_false]

theorem exec_lastingFault_keeps {part : Part} (reached : s.lasting part = true) (keeps : ¬ s.fld (R.rasPolicy part.kind) 23 16 = 1)
    (fabric : part.kind ≠ 3) : exec (.lastingFault part) s = .next (s.keepPart part false) := by
  show execLastingFault part s = _
  cases part with
  | core c => exact absurd rfl fabric
  | lane p l => simp only [execLastingFault, reached, keeps, decide_false, Bool.not_true, Bool.false_eq_true, if_false]
  | way d sl w =>
    simp only [execLastingFault, reached, keeps, decide_false, Bool.not_true, Bool.not_false, Bool.false_eq_true, if_false, if_true]
  | row k pc bg b r =>
    simp only [execLastingFault, reached, keeps, decide_false, Bool.not_true, Bool.not_false, Bool.false_eq_true, if_false, if_true]

theorem exec_lastingFault_lane {p l : Fin 8} (reached : s.lasting (.lane p l) = true)
    (retires : s.fld (R.rasPolicy (Part.lane p l).kind) 23 16 = 1) :
    exec (.lastingFault (.lane p l)) s = .next ((s.retireLane p l).retireLog (.lane p l) true false) := by
  show execLastingFault (.lane p l) s = _
  simp only [execLastingFault, reached, retires, decide_true, Bool.not_true, Bool.false_eq_true, if_false, if_true]

theorem exec_lastingFault_way {d : Fin 2} {sl : Fin 32} {w : Fin 16} (reached : s.lasting (.way d sl w) = true)
    (retires : s.fld (R.rasPolicy (Part.way d sl w).kind) 23 16 = 1) : exec (.lastingFault (.way d sl w)) s = .next (
      let reg := R.cchWayRetired (32 * (d : Nat) + sl)
      if s.flag reg w = true then s
      else if 8 ≤ ones 16 (s.fld reg 15 0) then (s.setFlag R.rasStatus 4).keepPart (.way d sl w) true
      else (s.retireWay d sl w).retireLog (.way d sl w) true false) := by
  show execLastingFault (.way d sl w) s = _
  simp only [execLastingFault, reached, retires, decide_true, Bool.not_true, Bool.false_eq_true, if_false]

theorem exec_lastingFault_row {part : Part} {k : Byte} {pc : Bool} {bg b : Fin 4} {r : BitVec 18} (row : part = .row k pc bg b r)
    (reached : s.lasting part = true) (retires : s.fld (R.rasPolicy part.kind) 23 16 = 1) : exec (.lastingFault part) s = .next (
      if s.rd (R.memSpareLeft (k.toNat / 32)) = 0 then s.keepPart part true
      else if 16 ≤ (s.ras.sparing.filter (fun x => decide (x / 2 ^ 48 / 32 = k.toNat / 32))).length then s
      else ({ s with ras := { s.ras with sparing := s.ras.sparing ++ [part.place] } }.retireLog part true false).raiseCause 0 15) := by
  show execLastingFault part s = _
  subst row
  simp only [execLastingFault, reached, retires, decide_true, Bool.not_true, Bool.false_eq_true, if_false]
end

/-! ### Reports -/

/-- The registers that reporting a part may write. -/
def reportRegs : List Nat :=
  [R.rasRetireLog, R.rasRetireWhere, R.mgtAlert, R.mgtLogLost, R.pciFnCause 0, R.rasStatus]

/-- `t` is `s` with parts reported: memory, the cores, the rows that wait and those that are spared stand, and so do all registers but
those of `reportRegs`. -/
structure State.Reports (s t : State) : Prop where
  mem : t.mem = s.mem
  cores : t.cores = s.cores
  sparing : t.ras.sparing = s.ras.sparing
  rows : t.mgt.rows = s.mgt.rows
  rise : t.RegsRise
  rd : ∀ off, off ∉ reportRegs → t.rd off = s.rd off

section
variable {s t : State}

theorem State.Reports.refl (rise : s.RegsRise) : s.Reports s := ⟨rfl, rfl, rfl, rfl, rise, fun _ _ => rfl⟩

theorem State.Reports.wr (h : s.Reports t) {off : Nat} (v : Word) (mine : off ∈ reportRegs) : s.Reports (t.wr off v) :=
  ⟨h.mem, h.cores, h.sparing, h.rows, State.wr_rise h.rise _ _,
    fun j other => (State.rd_wr_ne h.rise v (ne_of_mem_of_not_mem mine other).symm).trans (h.rd j other)⟩

theorem State.Reports.emit (h : s.Reports t) (o : Out) : s.Reports (t.emit o) := ⟨h.mem, h.cores, h.sparing, h.rows, h.rise, h.rd⟩

theorem State.Reports.foldl {α : Type} {f : State → α → State} (step : ∀ t a, s.Reports t → s.Reports (f t a)) (l : List α)
    (h : s.Reports t) : s.Reports (l.foldl f t) := by
  induction l generalizing t with
  | nil => exact h
  | cons a l ih => exact ih (step t a h)

theorem State.Reports.ite {p : Prop} [Decidable p] {u : State} (h : s.Reports t) (k : s.Reports u) : s.Reports (if p then t else u) := by
  split
  · exact h
  · exact k

theorem State.Reports.raiseCause (h : s.Reports t) (c : Nat) : s.Reports (t.raiseCause 0 c) := by
  have flagged : s.Reports (t.setFlag (R.pciFnCause 0) c) := h.wr _ (by decide)
  rw [State.raiseCause, State.sendVector_eq]
  exact ⟨flagged.mem, flagged.cores, flagged.sparing, flagged.rows, flagged.rise, flagged.rd⟩

theorem State.Reports.alert (h : s.Reports t) (c : Nat) : s.Reports (t.alert c) :=
  .ite h (.foldl (fun _ _ k => k.emit _) _ (h.wr _ (by decide)))

theorem State.Reports.logEvent (h : s.Reports t) (code unit data : Nat) : s.Reports (t.logEvent code unit data) := by
  obtain ⟨mem, cores, sparing, rows, rise, rd⟩ := h
  refine .ite ⟨mem, cores, sparing, rows, rise, rd⟩ (.ite ⟨mem, cores, sparing, rows, rise, rd⟩ (.ite ?_ ?_))
  · exact State.Reports.wr ⟨mem, cores, sparing, rows, rise, rd⟩ _ (by decide)
  · exact State.Reports.wr (t := { t with freeCount := t.freeCount + 1 }) ⟨mem, cores, sparing, rows, rise, rd⟩ _ (by decide)

theorem State.Reports.retireLog (h : s.Reports t) (p : Part) (done limit : Bool) : s.Reports (t.retireLog p done limit) := by
  refine ((State.Reports.ite ?_ ((State.Reports.wr ?_ _ ?_).wr _ ?_)).alert 5).logEvent _ _ _
  · exact ⟨h.mem, h.cores, h.sparing, h.rows, h.rise, h.rd⟩
  · exact ⟨h.mem, h.cores, h.sparing, h.rows, h.rise, h.rd⟩
  · decide
  · decide

theorem State.Reports.keepPart (h : s.Reports t) (p : Part) (limit : Bool) : s.Reports (t.keepPart p limit) :=
  .ite ((h.retireLog p false limit).raiseCause 15) (((h.retireLog p false limit).raiseCause 15).wr _ (by decide))
end

/-! ### Sparing -/

/-- Row `r` no longer waits: it is listed among the spared rows, and one more spare of stack `st` is in use. -/
def State.rowCopied (s : State) (st r : Nat) : State := { s with
  ras := { s.ras with sparing := s.ras.sparing.erase r },
  mgt := { s.mgt with
    rows := s.mgt.rows ++ [r], spares := SMap.upd 0 s.mgt.spares st (· + 1),
    rowDays := SMap.upd [] s.mgt.rowDays st (fun l => (s.rd R.mgtPowerOnDays).toNat :: l) } }

/-- A copied row is shown, before the last spare is looked at. -/
def State.spared (s : State) (st r : Nat) : State :=
  (((s.rowCopied st r).wr (R.memSpareLeft st) (BitVec.ofNat 64 ((s.rd (R.memSpareLeft st)).toNat - 1))).setFlag R.rasStatus 2).raiseCause
    0 15

theorem exec_rowSpareDone_none {s : State} {channel : Byte}
    (none_ : s.ras.sparing.find? (fun r => decide (r / 2 ^ 48 = channel.toNat)) = none) : exec (.rowSpareDone channel) s = .next s := by
  show execRowSpareDone channel s = _
  simp only [execRowSpareDone, none_]

section
variable {s : State} {channel : Byte} {r : Nat} (found : s.ras.sparing.find? (fun r => decide (r / 2 ^ 48 = channel.toNat)) = some r)
include found

theorem exec_rowSpareDone_last (last : (s.rd (R.memSpareLeft (channel.toNat / 32))).toNat ≤ 1) :
    exec (.rowSpareDone channel) s = .next ((s.spared (channel.toNat / 32) r).sparesOut (channel.toNat / 32)) := by
  show execRowSpareDone channel s = _
  simp only [execRowSpareDone, found, Nat.sub_eq_zero_of_le last, if_true]
  rw [State.spared, Nat.sub_eq_zero_of_le last]
  rfl

theorem exec_rowSpareDone_more (more : ¬ (s.rd (R.memSpareLeft (channel.toNat / 32))).toNat ≤ 1) :
    exec (.rowSpareDone channel) s = .next (s.spared (channel.toNat / 32) r) := by
  show execRowSpareDone channel s = _
  simp only [execRowSpareDone, found, Nat.sub_ne_zero_of_lt (Nat.not_le.mp more), if_false]
  rfl
end

/-- No register that reporting writes is a stack's spare count or the mark of a stack without spares. -/
theorem spareRegs_not_report {st : Nat} (stack : st < 8) : R.memSpareLeft st ∉ reportRegs ∧ R.memSpareLeft st ≠ R.rasSparesOut := by
  simp only [reportRegs, R.memSpareLeft, R.rasRetireLog, R.rasRetireWhere, R.mgtAlert, R.mgtLogLost, R.pciFnCause, R.rasStatus,
    R.rasSparesOut, List.mem_cons, List.not_mem_nil, or_false]
  omega

/-- What a copied row leaves, but for what is reported: the row is spared, one spare fewer is left. -/
structure State.SparedBy (s t : State) (st r : Nat) : Prop where
  mem : t.mem = s.mem
  cores : t.cores = s.cores
  rows : t.mgt.rows = s.mgt.rows ++ [r]
  left : t.rd (R.memSpareLeft st) = BitVec.ofNat 64 ((s.rd (R.memSpareLeft st)).toNat - 1)

section
variable {s : State} (canon : s.Canon) {st : Nat} (stack : st < 8) (r : Nat)
include canon

theorem State.spared_reports (st : Nat) : ((s.rowCopied st r).wr (R.memSpareLeft st)
    (BitVec.ofNat 64 ((s.rd (R.memSpareLeft st)).toNat - 1))).Reports (s.spared st r) := by
  have rise : (s.rowCopied st r).RegsRise := canon.rise
  exact ((State.Reports.refl (State.wr_rise rise _ _)).wr _ (by decide)).raiseCause 15

include stack

theorem State.spared_sparedBy : s.SparedBy (s.spared st r) st r :=
  have copied := State.spared_reports canon r st
  ⟨copied.mem, copied.cores, copied.rows, (copied.rd _ (spareRegs_not_report stack).1).trans
    (State.rd_wr_same (s := s.rowCopied st r) canon.rise _ _)⟩

theorem State.sparesOut_spared : s.SparedBy ((s.spared st r).sparesOut st) st r ∧
    ((s.spared st r).sparesOut st).ras.sparing = (s.ras.sparing.erase r).filter (fun x => decide (x / 2 ^ 48 / 32 ≠ st)) ∧
    ((s.spared st r).sparesOut st).flag R.rasSparesOut st = true := by
  have copied := State.spared_reports canon r st
  obtain ⟨notReport, notMark⟩ := spareRegs_not_report stack
  have spared := State.spared_sparedBy canon stack r
  let t : State := { s.spared st r with ras := { (s.spared st r).ras with
    sparing := (s.spared st r).ras.sparing.filter (fun x => !decide (x / 2 ^ 48 / 32 = st)) } }
  have shown : t.Reports (t.setFlag R.rasStatus 3) :=
    State.Reports.wr (.refl (s := t) copied.rise) _ (by decide)
  have kept : ((t.setFlag R.rasStatus 3).setFlag R.rasSparesOut st).Reports ((s.spared st r).sparesOut st) :=
    .foldl (fun _ _ k => k.keepPart _ _) _ (.refl (State.wr_rise shown.rise _ _))
  refine ⟨⟨?_, ?_, ?_, ?_⟩, ?_, ?_⟩
  · exact kept.mem.trans (shown.mem.trans spared.mem)
  · exact kept.cores.trans (shown.cores.trans spared.cores)
  · exact kept.rows.trans (shown.rows.trans spared.rows)
  · rw [kept.rd _ notReport, State.setFlag, State.rd_setFld_ne shown.rise _ _ _ notMark, shown.rd _ notReport]
    exact spared.left
  · rw [kept.sparing]
    show ((s.spared st r).ras.sparing).filter _ = _
    rw [copied.sparing]
    simp only [decide_not]
    rfl
  · rw [State.flag, kept.rd _ (by decide)]
    exact State.flag_setFlag_same shown.rise _ _ (Nat.lt_trans stack (by decide))
end

/-! ### Ledgers -/

theorem exec_ledgerSnapshot {s : State} {fn : Fin 64} (served : s.Serves fn R.rasSnap true) (v : Word) :
    exec (.ledgerSnapshot fn v) s = .next (if bit v 0 = true then s.snapshot else s) := by
  show execLedgerSnapshot fn v s = _
  rw [execLedgerSnapshot, State.mmio_serves served]

theorem exec_ledgerSnapshotDone_none {s : State} (none_ : s.ras.snap = none) : exec .ledgerSnapshotDone s = .next s := by
  show execLedgerSnapshotDone s = _
  simp only [execLedgerSnapshotDone, none_]

/-- The counts of a snapshot in their registers (R571). -/
def State.showLedgers (s : State) (l : List Nat) : State :=
  (List.range 48).foldl (fun u j => u.wr (R.rasLedger j) (BitVec.ofNat 64 (l.getD j 0))) s

/-- A snapshot whose counts are shown is over: `word` is in RAS_LEDGER_STATE, and the next one may be taken. -/
def State.endSnapshot (t : State) (word : Word) : State :=
  let u := (t.wr R.rasLedgerState word).clrFlag R.rasStatus 8
  { u with ras := { u.ras with snap := none } }

theorem State.endSnapshot_eq (t : State) (word : Word) : t.endSnapshot word =
    { (t.wr R.rasLedgerState word).clrFlag R.rasStatus 8 with ras := { (t.wr R.rasLedgerState word).ras with snap := none } } := rfl

/-- What the end of a snapshot leaves, its faults reported. -/
def State.snapshotDone (s : State) (l : List Nat) (settled : Nat) : State :=
  let s := (List.range 48).foldl (fun s j => s.wr (R.rasLedger j) (BitVec.ofNat 64 (l.getD j 0))) s
  let bad := ledgerFaults l settled
  let s := s.wr R.rasLedgerState (BitVec.ofNat 64 (2 ^ 63 + bad * 2 ^ 32 + settled))
  let s := { s.clrFlag R.rasStatus 8 with ras := { s.ras with snap := none } }
  if bad = 0 then s else (((s.setFlag R.rasStatus 6).raiseCause 0 15).alert 6).logEvent 0x07 0 bad

theorem exec_ledgerSnapshotDone_some {s : State} {l : List Nat} {settled : Nat} (taken : s.ras.snap = some (l, settled)) :
    exec .ledgerSnapshotDone s = .next (s.snapshotDone l settled) := by
  show execLedgerSnapshotDone s = _
  rw [execLedgerSnapshotDone, taken]
  rfl

theorem State.snapshotDone_eq (s : State) (l : List Nat) (settled : Nat) : s.snapshotDone l settled =
    let v := (s.showLedgers l).endSnapshot (BitVec.ofNat 64 (2 ^ 63 + ledgerFaults l settled * 2 ^ 32 + settled))
    if ledgerFaults l settled = 0 then v
    else (((v.setFlag R.rasStatus 6).raiseCause 0 15).alert 6).logEvent 0x07 0 (ledgerFaults l settled) := by
  rw [State.snapshotDone, ← State.showLedgers, State.endSnapshot_eq]

/-- The marks of those of the first `n` numbers that `p` holds for, one bit each. -/
def marks (p : Nat → Bool) (n : Nat) : Nat := (List.range n).foldl (fun a k => if p k then a + 2 ^ k else a) 0

theorem marks_succ (p : Nat → Bool) (n : Nat) : marks p (n + 1) = if p n then marks p n + 2 ^ n else marks p n := by
  rw [marks, List.range_succ, List.foldl_append]
  rfl

theorem marks_lt (p : Nat → Bool) (n : Nat) : marks p n < 2 ^ n := by
  induction n with
  | zero => exact Nat.zero_lt_one
  | succ n ih =>
    rw [marks_succ, Nat.pow_succ]
    split <;> omega

theorem marks_testBit (p : Nat → Bool) (n k : Nat) : (marks p n).testBit k = (decide (k < n) && p k) := by
  induction n with
  | zero => exact Nat.zero_testBit k
  | succ n ih =>
    have top : (marks p n).testBit n = false := Nat.testBit_lt_two_pow (marks_lt p n)
    rw [marks_succ]
    rcases Nat.lt_trichotomy k n with below | here | above
    · rw [apply_ite (Nat.testBit · k), Nat.add_comm, Nat.testBit_two_pow_add_gt below, ite_self, ih]
      simp only [below, Nat.lt_succ_of_lt below]
    · subst here
      cases on : p k with
      | true => simp only [if_true, Nat.add_comm _ (2 ^ k), Nat.testBit_two_pow_add_eq, top, Nat.lt_succ_self, decide_true, Bool.not_false,
          Bool.and_self]
      | false => simp only [Bool.false_eq_true, if_false, top, Bool.and_false]
    · have small : (if p n then marks p n + 2 ^ n else marks p n) < 2 ^ k :=
        (marks_succ p n ▸ marks_lt p (n + 1)).trans_le (Nat.pow_le_pow_right (by decide) above)
      rw [Nat.testBit_lt_two_pow small, decide_eq_false (by omega), Bool.false_and]

theorem ledgerFaults_testBit (l : List Nat) (settled : Nat) {k : Nat} (ledger : k < 12) :
    (ledgerFaults l settled).testBit k = true ↔ settled.testBit k = true ∧
      l.getD (4 * k) 0 ≠ l.getD (4 * k + 1) 0 + l.getD (4 * k + 2) 0 + l.getD (4 * k + 3) 0 := by
  have bits : ledgerFaults l settled = marks (fun k => settled.testBit k && ledgerBad l k) 12 := rfl
  simp only [bits, marks_testBit, ledger, ledgerBad, decide_true, Bool.true_and, Bool.and_eq_true, decide_eq_true_eq, Nat.add_zero]

/-- Settles O54: each event by the lemma for its case; a copied row by what its report leaves, the ledgers' faults bit by bit. -/
theorem maintenanceRetirementAndLedgers : Obligations.MaintenanceRetirementAndLedgers := by
  unfold Obligations.MaintenanceRetirementAndLedgers
  refine ⟨fun s channel task cycles work => ?_, fun s part => ?_, fun s channel => ⟨exec_rowSpareDone_none, fun r canon found => ?_⟩,
    fun s fn v served => ?_, fun s => ⟨exec_ledgerSnapshotDone_none, fun l settled taken => ?_⟩,
    fun l settled k ledger => ledgerFaults_testBit l settled ledger⟩
  · rw [exec_maintWindowOpen]
    exact ⟨fun inside => by rw [if_pos ((s.inWindow_iff _).mpr inside)],
      fun outside => by rw [if_neg fun inside => outside ((s.inWindow_iff _).mp inside)],
      exec_maintOverrun_free channel task cycles work, exec_maintOverrun_laned channel task cycles work⟩
  · rw [← s.lasting_iff part]
    refine ⟨exec_lastingFault_below, ?_, exec_lastingFault_keeps, ?_, ?_, ?_⟩
    · rintro c reached rfl
      exact exec_lastingFault_core reached
    · rintro p l reached retires rfl
      exact exec_lastingFault_lane reached retires
    · rintro d sl w reached retires rfl
      rw [exec_lastingFault_way reached retires]
      refine ⟨fun gone => ?_, fun there full => ?_, fun there room => ?_⟩
      · simp only [gone, if_true]
      · simp only [there, full, Bool.false_eq_true, if_false, if_true]
      · simp only [there, Nat.not_le.mpr room, Bool.false_eq_true, if_false]
    · intro k pc bg b r reached retires row
      rw [exec_lastingFault_row row reached retires]
      refine ⟨fun spent => ?_, fun left full => ?_, fun left room => ?_⟩
      · rw [if_pos spent]
      · rw [if_neg left, if_pos full]
      · rw [if_neg left, if_neg (Nat.not_le.mpr room)]
  · have stack : channel.toNat / 32 < 8 := by omega
    by_cases last : (s.rd (R.memSpareLeft (channel.toNat / 32))).toNat ≤ 1
    · obtain ⟨by_, sparing, mark⟩ := State.sparesOut_spared canon stack r
      exact ⟨_, exec_rowSpareDone_last found last, by rw [if_pos last]; exact ⟨sparing, mark⟩, by_.rows, by_.left, by_.mem, by_.cores⟩
    · have by_ := State.spared_sparedBy canon stack r
      exact ⟨_, exec_rowSpareDone_more found last, by rw [if_neg last]; exact (State.spared_reports canon r _).sparing, by_.rows, by_.left, by_.mem, by_.cores⟩
  · rw [exec_ledgerSnapshot served]
    refine ⟨fun idle => ?_, fun asked free => ⟨Config.free s.freeCount % 2 ^ 63, ?_⟩⟩
    · have stays : (if bit v 0 = true then s.snapshot else s) = s := by
        rcases idle with off | taking
        · exact if_neg (Bool.eq_false_iff.mp off)
        · rw [State.snapshot, if_pos taking, ite_self]
      rw [stays]
    · rw [show bit v 0 = true from asked, if_pos rfl, State.snapshot, if_neg (Bool.eq_false_iff.mp free)]
      rfl
  · rw [exec_ledgerSnapshotDone_some taken, State.snapshotDone_eq]
    exact ⟨fun good => congrArg Host.Outcome.next (if_pos good), fun bad => congrArg Host.Outcome.next (if_neg bad)⟩

end Sys2Proof.Machine


/-! Security controls: commits of the rollback counters, nonces, unlock tokens and their grants, and key changes. -/

namespace Sys2Proof.Machine

/-! ### Commits -/

/-- A commit in RUNNING: the fuses are blown and shown. -/
def State.blow (s : State) (f : Fuses) : State := { s with sec := { s.sec with fuses := f } }.showFuses

theorem State.blow_rd_ne {s : State} (canon : s.Canon) (f : Fuses) {off : Nat} (other : off ∉ [R.secRollback, R.secFuses]) :
    (s.blow f).rd off = s.rd off := by
  simp only [List.mem_cons, List.not_mem_nil, or_false, not_or] at other
  obtain ⟨rollback, fuses⟩ := other
  have rise : ({ s with sec := { s.sec with fuses := f } } : State).RegsRise := canon.rise
  exact (State.rd_wr_ne (State.wr_rise rise _ _) _ fuses).trans (State.rd_wr_ne rise _ rollback)

/-- What a commit may change: the fuses and the registers that show them. -/
theorem State.blow_frame {s : State} (canon : s.Canon) (f : Fuses) : (s.blow f).sec.fuses = f ∧
    (∀ off, off ∉ [R.secRollback, R.secFuses] → (s.blow f).rd off = s.rd off) ∧
    (s.blow f).mem = s.mem ∧ (s.blow f).cores = s.cores ∧ (s.blow f).mgt = s.mgt :=
  ⟨rfl, fun _ other => State.blow_rd_ne canon f other, rfl, rfl, rfl⟩

section
variable {s : State} {fn : Fin 64} (served : s.Serves fn R.secControl true)
include served

theorem exec_commitFw : exec (.commitFw fn) s = .next (
    if s.fld R.conStatus 3 0 ≠ 2 then s.setFlag R.secStatus 9
    else s.blow { s.sec.fuses with fwCount := max s.sec.fuses.fwCount (min 64 s.sec.fwVersion) }) := by
  show execCommitFw fn s = _
  rw [execCommitFw, State.commit, State.mmio_serves served]
  rfl

theorem exec_commitConsist : exec (.commitConsist fn) s = .next (
    if s.fld R.conStatus 3 0 ≠ 2 then s.setFlag R.secStatus 9
    else s.blow { s.sec.fuses with conCount := max s.sec.fuses.conCount (min 64 s.sec.baseVersion) }) := by
  show execCommitConsist fn s = _
  rw [execCommitConsist, State.commit, State.mmio_serves served]
  rfl

/-! ### Tokens and grants -/

theorem exec_tokenSubmit_busy (busy : s.sec.checking.isSome = true) : exec (.tokenSubmit fn) s = .next (s.setFlag R.secStatus 11) := by
  show execTokenSubmit fn s = _
  rw [execTokenSubmit, State.mmio_serves served]
  exact congrArg _ (if_pos busy)

theorem exec_tokenSubmit_takes (free : s.sec.checking = none) : exec (.tokenSubmit fn) s =
    .next ({ s with sec := { s.sec with checking := some ((List.range 18).map (SMap.get 0 s.sec.token)) } }.setFlag R.secStatus 10) := by
  show execTokenSubmit fn s = _
  rw [execTokenSubmit, State.mmio_serves served]
  exact congrArg _ (if_neg (by rw [free]; decide))

theorem exec_relock : exec (.relock fn) s = .next s.relock := by
  show execRelock fn s = _
  rw [execRelock, State.mmio_serves served]
end

/-- Without a grant only what is open for all is unlocked. -/
theorem State.relock_unlocked (s : State) : s.relock.unlocked = s.sec.opened := by
  have over_ : ¬ s.relock.now < 0 := Nat.not_lt_zero _
  show s.sec.opened ||| (if s.relock.now < 0 then 0 else 0) = _
  rw [if_neg over_, Nat.or_zero]

theorem exec_nonceRead {s : State} {fn : Fin 64} (served : s.Serves fn R.secNonce false) :
    exec (.nonceRead fn) s = .next (s.takeNonce.2.emit (.answer R.secNonce s.takeNonce.1.toNat)) := by
  show execNonceRead fn s = _
  rw [execNonceRead, State.mmio_serves served]

theorem exec_tokenVerifyDone_none {s : State} (none_ : s.sec.checking = none) : exec .tokenVerifyDone s = .next s := by
  show execTokenVerifyDone s = _
  simp only [execTokenVerifyDone, none_]

/-- A token's check is over: the token and the nonce are used up. -/
def State.tokenChecked (s : State) : State :=
  { s with sec := { s.sec with checking := none, nonce := none } }.clrFlag R.secStatus 10

theorem exec_tokenVerifyDone_some {s : State} {ws : List Word} (checked : s.sec.checking = some ws) :
    exec .tokenVerifyDone s = .next (
      let b := tokenBytes ws
      let t := s.tokenChecked
      if s.tokenErr b ≠ 0 then (t.setFlag R.secStatus 11).setFld R.secStatus 7 0 (s.tokenErr b)
      else { t with sec := { t.sec with scopes := num b 6 2, until_ := t.now + 1000000000 * num b 0x18 4 } }.setFlag R.secStatus 12) := by
  show execTokenVerifyDone s = _
  simp only [execTokenVerifyDone, checked]
  rfl

theorem exec_unlockExpire (s : State) :
    exec .unlockExpire s = .next (if s.sec.scopes ≠ 0 ∧ s.sec.until_ ≤ s.now then s.relock else s) := by
  show execUnlockExpire s = _
  simp only [execUnlockExpire, Bool.and_eq_true, decide_eq_true_eq]

/-! ### Keys -/

theorem State.tenantQuiet_iff (s : State) (f : Nat) :
    s.tenantQuiet f = true ↔ ∀ n, n < 4096 → s.tenantOf n = f → s.ctxState n = 0 ∨ s.ctxState n = 3 := by
  simp only [State.tenantQuiet, List.all_eq_true, List.mem_range, Bool.or_eq_true, decide_eq_true_eq, or_assoc, ne_eq]
  exact forall₂_congr fun _ _ => imp_iff_not_or.symm

/-- The key of a slot may be changed (R586, log 31). -/
abbrev State.mayRekey (s : State) (slot : Nat) : Prop := 0 < slot ∧ slot ≤ 64 ∧ s.sec.rekeying = none ∧ (slot = 64 → s.quiesced = true) ∧
  (slot < 64 → ∀ n, n < 4096 → s.tenantOf n = slot → s.ctxState n = 0 ∨ s.ctxState n = 3)

theorem State.keyRefused_iff (s : State) (slot : Nat) : s.keyRefused slot = false ↔ s.mayRekey slot := by
  simp only [State.keyRefused, State.mayRekey, Bool.or_eq_false_iff, decide_eq_false_iff_not, Nat.not_lt, Option.isSome_eq_false_iff,
    Option.isNone_iff_eq_none, and_assoc, Nat.pos_iff_ne_zero, ← State.tenantQuiet_iff]
  refine and_congr_right fun _ => and_congr_right fun small => and_congr_right fun _ => ?_
  by_cases mine : slot = 64
  · simp only [mine, if_true, Bool.not_eq_false', Nat.lt_irrefl, false_implies, and_true, true_implies]
  · simp only [mine, if_false, Bool.not_eq_false', Nat.lt_of_le_of_ne small mine, false_implies, true_and, true_implies]

section
variable {s : State} {fn : Fin 64} {slot : Fin 128} (served : s.Serves fn R.secKeyCmd true)
include served

theorem exec_keyChange_refused (not : ¬ s.mayRekey slot) : exec (.keyChange fn slot) s = .next (s.setFlag R.secStatus 14) := by
  show execKeyChange fn slot s = _
  rw [execKeyChange, State.mmio_serves served]
  exact congrArg _ (if_pos (Bool.not_eq_false _ ▸ mt (s.keyRefused_iff slot).mp not))

theorem exec_keyChange_rekeys (may : s.mayRekey slot) : exec (.keyChange fn slot) s =
    .next (({ s with sec := { s.sec with rekeying := some (slot : Nat) } }.rekey slot).setFlag R.secStatus 15) := by
  show execKeyChange fn slot s = _
  rw [execKeyChange, State.mmio_serves served]
  exact congrArg _ (if_neg (Bool.eq_false_iff.mp ((s.keyRefused_iff slot).mpr may)))
end

theorem exec_keyInstalled_none {s : State} (none_ : s.sec.rekeying = none) : exec .keyInstalled s = .next s := by
  show execKeyInstalled s = _
  simp only [execKeyInstalled, none_]

theorem exec_keyInstalled_some {s : State} {k : Nat} (changing : s.sec.rekeying = some k) :
    exec .keyInstalled s = .next ({ s with sec := { s.sec with rekeying := none } }.clrFlag R.secStatus 15) := by
  show execKeyInstalled s = _
  simp only [execKeyInstalled, changing]

/-- Settles O55: each control by the lemma for its case; a commit by what it may change. -/
theorem securityControls : Obligations.SecurityControls := by
  unfold Obligations.SecurityControls
  refine ⟨fun s fn canon served => ?_, fun s fn served => exec_nonceRead served,
    fun s => ⟨exec_tokenVerifyDone_none, fun ws checked => ?_⟩, fun s => ?_,
    fun s fn slot served => ⟨exec_keyChange_refused served, exec_keyChange_rekeys served⟩,
    fun s => ⟨exec_keyInstalled_none, fun k => exec_keyInstalled_some⟩⟩
  · refine ⟨fun stopped => ?_, fun running => ?_, exec_tokenSubmit_busy served, exec_tokenSubmit_takes served, exec_relock served,
      s.relock_unlocked⟩
    · rw [exec_commitFw served, exec_commitConsist served, if_pos stopped, if_pos stopped]
      exact ⟨rfl, rfl⟩
    · have up := not_not.mpr running
      rw [exec_commitFw served, exec_commitConsist served, if_neg up, if_neg up]
      exact ⟨⟨_, rfl, State.blow_frame canon _⟩, ⟨_, rfl, State.blow_frame canon _⟩⟩
  · rw [exec_tokenVerifyDone_some checked]
    exact ⟨fun bad => congrArg Host.Outcome.next (if_pos bad), fun good => congrArg Host.Outcome.next (if_neg (not_not.mpr good))⟩
  · rw [exec_unlockExpire]
    exact ⟨fun lasts => congrArg Host.Outcome.next (if_neg lasts), fun ends => congrArg Host.Outcome.next (if_pos ends)⟩

end Sys2Proof.Machine


/-! SPDM in its turns, MCTP and PLDM messages, sensor samples, firmware updates, and the wear history. -/

namespace Sys2Proof.Machine

/-! ### SPDM -/

section
variable {s : State} {m : Medium}

theorem State.spdm_unserved (off : s.spdmServed m = false) (need to_ : Nat) (act : State → State) : s.spdm m need to_ act = s := by
  simp only [State.spdm, off, Bool.not_false, if_true]

variable (served : s.spdmServed m = true)
include served

theorem State.spdm_early {need : Nat} (early : SMap.get 0 s.sec.spdm m.num < need) (to_ : Nat) (act : State → State) :
    s.spdm m need to_ act = s.emit (.spdm m 7 [] 0 0) := by
  simp only [State.spdm, served, early, Bool.not_true, Bool.false_eq_true, if_false, if_true]

theorem State.spdm_turn {need : Nat} (ready : need ≤ SMap.get 0 s.sec.spdm m.num) (to_ : Nat) (act : State → State) :
    s.spdm m need (to_ + 1) act = act { s with sec := { s.sec with spdm := SMap.put 0 s.sec.spdm m.num (to_ + 1) } } := by
  simp only [State.spdm, served, Nat.not_lt.mpr ready, Nat.succ_ne_zero, Bool.not_true, Bool.false_eq_true, if_false]

theorem State.spdm_stays {need : Nat} (ready : need ≤ SMap.get 0 s.sec.spdm m.num) (act : State → State) :
    s.spdm m need 0 act = act s := by
  simp only [State.spdm, served, Nat.not_lt.mpr ready, Bool.not_true, Bool.false_eq_true, if_false, if_true]
end

theorem exec_spdm_unserved {s : State} {m : Medium} (off : s.spdmServed m = false) (a n : Nat) :
    ∀ i ∈ [.getVersion m, .getCapabilities m, .negotiateAlgorithms m] ++ [.getDigests m, .getCertificate m a n, .challenge m,
      .getMeasurements m], exec i s = .next s := by
  simp only [List.cons_append, List.nil_append, List.forall_mem_cons]
  refine ⟨?_, ?_, ?_, ?_, ?_, ?_, ?_, fun _ none_ => absurd none_ List.not_mem_nil⟩ <;>
    exact congrArg Host.Outcome.next (State.spdm_unserved off _ _ _)

theorem exec_spdm_early {s : State} {m : Medium} (served : s.spdmServed m = true) (early : SMap.get 0 s.sec.spdm m.num < 3)
    (a n : Nat) : ∀ i ∈ [.getDigests m, .getCertificate m a n, .challenge m, .getMeasurements m],
      exec i s = .next (s.emit (.spdm m 7 [] 0 0)) := by
  simp only [List.forall_mem_cons]
  refine ⟨?_, ?_, ?_, ?_, fun _ none_ => absurd none_ List.not_mem_nil⟩ <;>
    exact congrArg Host.Outcome.next (State.spdm_early served early _ _)

/-! ### MCTP and PLDM -/

theorem exec_mctpControl_unserved {s : State} {m : Medium} (off : s.mctpServed m = false) (req : MctpReq) :
    exec (.mctpControl m req) s = .next s := by
  show execMctpControl m req s = _
  simp only [execMctpControl, off, Bool.not_false, if_true]

section
variable {s : State} {m : Medium} (served : s.mctpServed m = true)
include served

theorem exec_mctpControl_setEid_smbus (eid : Byte) (smbus : m = .smbus) :
    exec (.mctpControl m (.setEid eid)) s = .next ((s.setFld R.mgtEid 7 0 eid.toNat).emit (.mctp m)) := by
  show execMctpControl m (.setEid eid) s = _
  simp only [execMctpControl, served, Bool.not_true, Bool.false_eq_true, if_false, if_pos smbus]

theorem exec_mctpControl_setEid_other (eid : Byte) (other : m ≠ .smbus) :
    exec (.mctpControl m (.setEid eid)) s = .next ((s.setFld R.mgtEid 15 8 eid.toNat).emit (.mctp m)) := by
  show execMctpControl m (.setEid eid) s = _
  simp only [execMctpControl, served, Bool.not_true, Bool.false_eq_true, if_false, if_neg other]

theorem exec_mctpControl_events (on : Bool) : exec (.mctpControl m (.events on)) s =
    .next ({ s with mgt := { s.mgt with events := SMap.put false s.mgt.events m.num on } }.emit (.mctp m)) := by
  show execMctpControl m (.events on) s = _
  simp only [execMctpControl, served, Bool.not_true, Bool.false_eq_true, if_false]

theorem exec_mctpControl_other : exec (.mctpControl m .other) s = .next (s.emit (.mctp m)) := by
  show execMctpControl m .other s = _
  simp only [execMctpControl, served, Bool.not_true, Bool.false_eq_true, if_false]

theorem exec_mctpControl_foreign : exec (.mctpControl m .foreign) s = .next (s.count R.mgtMctpDropped 32 1) := by
  show execMctpControl m .foreign s = _
  simp only [execMctpControl, served, Bool.not_true, Bool.false_eq_true, if_false]
end

theorem exec_pldmSensorRead (s : State) (m : Medium) (id : Nat) : exec (.pldmSensorRead m id) s =
    .next (if s.mctpServed m = true ∧ s.mgt.running.isSome = true then s.emit (.sensor m id (s.reading id)) else s) := by
  show execPldmSensorRead m id s = _
  simp only [execPldmSensorRead, Bool.and_eq_true]

section
variable {s : State} {m : Medium}

theorem exec_pldmEventLogRead_down (down : ¬ (s.mctpServed m = true ∧ s.mgt.running.isSome = true)) (n : Nat) :
    exec (.pldmEventLogRead m n) s = .next s := by
  show execPldmEventLogRead m n s = _
  simp only [execPldmEventLogRead, ← Bool.and_eq_true, Bool.not_eq_true] at down ⊢
  simp only [down, Bool.not_false, if_true]

variable (up : s.mctpServed m = true ∧ s.mgt.running.isSome = true) {n : Nat}
include up

theorem exec_pldmEventLogRead_kept {r : LogRec} (kept : s.mgt.log.reverse[n]? = some r) :
    exec (.pldmEventLogRead m n) s = .next (s.emit (.logRecord m r.time r.code r.unit r.data)) := by
  show execPldmEventLogRead m n s = _
  simp only [execPldmEventLogRead, up.1, up.2, kept, Bool.and_self, Bool.not_true, Bool.false_eq_true, if_false]

theorem exec_pldmEventLogRead_none (gone : s.mgt.log.reverse[n]? = none) : exec (.pldmEventLogRead m n) s = .next s := by
  show execPldmEventLogRead m n s = _
  simp only [execPldmEventLogRead, up.1, up.2, gone, Bool.and_self, Bool.not_true, Bool.false_eq_true, if_false]
end

/-! ### Sensors -/

/-- Only the numbers from 0x400 to 0x40A are end-of-life sensors. -/
theorem sensorOf_eol {id u : Nat} (is : sensorOf id = some (.eol u)) : 0x400 ≤ id ∧ id ≤ 0x40A := by
  unfold sensorOf at is
  split_ifs at is <;> simp only [Option.some.injEq, reduceCtorEq] at is
  case pos life => simpa only [Bool.and_eq_true, decide_eq_true_eq] using life

/-- Only 0x207 is the rail of standby power. -/
theorem sensorOf_standby {id : Nat} (is : sensorOf id = some (.rail 7)) : id = 0x207 := by
  unfold sensorOf at is
  split_ifs at is <;> simp only [Option.some.injEq, reduceCtorEq, Sensor.rail.injEq] at is
  omega

theorem State.reading_off {s : State} {id : Nat} (off : s.boot.main = false) (life : id < 0x400 ∨ 0x40A < id) (standby : id ≠ 0x207) :
    s.reading id = none := by
  unfold State.reading
  split
  case h_1 => rfl
  case h_2 u is => exact absurd (sensorOf_eol is) (by omega)
  case h_3 is => exact absurd (sensorOf_standby is) standby
  case h_4 => rw [off]; rfl

section
variable {s : State} {id : Nat} (v : BitVec 32)

theorem exec_sensorSample_none (none_ : sensorOf id = none) : exec (.sensorSample id v) s = .next s := by
  show execSensorSample id v s = _
  simp only [execSensorSample, none_]

theorem exec_sensorSample_eol {u : Nat} (is : sensorOf id = some (.eol u)) :
    exec (.sensorSample id v) s = .next (s.putReading id (s.rd (R.mgtEol u)).toNat) := by
  show execSensorSample id v s = _
  simp only [execSensorSample, is]

theorem exec_sensorSample_standby (is : sensorOf id = some (.rail 7)) (on : s.boot.power = true) :
    exec (.sensorSample id v) s = .next ((s.wr (R.mgtRailMw 7) (BitVec.ofNat 64 v.toNat)).putReading id v.toNat) := by
  show execSensorSample id v s = _
  simp only [execSensorSample, is, on, if_true]

theorem exec_sensorSample_off (off : s.boot.main = false) (life : ∀ u, sensorOf id ≠ some (.eol u)) (standby : sensorOf id ≠ some (.rail 7)) :
    exec (.sensorSample id v) s = .next s := by
  show execSensorSample id v s = _
  unfold execSensorSample
  split
  case h_1 => rfl
  case h_2 u is => exact absurd is (life u)
  case h_3 is => exact absurd is standby
  case h_4 => rw [off]; rfl

variable (on : s.boot.main = true)
include on

theorem exec_sensorSample_temp {u r : Nat} (is : sensorOf id = some (.temp u r)) :
    exec (.sensorSample id v) s = .next ((s.setTemp u r (v.setWidth 16)).putReading id (v.setWidth 16).toNat) := by
  show execSensorSample id v s = _
  simp only [execSensorSample, is, on, Bool.not_true, Bool.false_eq_true, if_false]

theorem exec_sensorSample_stack {n : Nat} (is : sensorOf id = some (.stack n)) :
    exec (.sensorSample id v) s = .next (s.putReading id (s.rd (R.memStackTemp n)).toNat) := by
  show execSensorSample id v s = _
  simp only [execSensorSample, is, on, Bool.not_true, Bool.false_eq_true, if_false]

theorem exec_sensorSample_rail {n : Nat} (is : sensorOf id = some (.rail n)) (main : n ≠ 7) : exec (.sensorSample id v) s = .next (
    let w := if n = 0 then (s.rd R.pwrInputMw).toNat else v.toNat
    (s.wr (R.mgtRailMw n) (BitVec.ofNat 64 w)).putReading id w) := by
  show execSensorSample id v s = _
  rw [execSensorSample, is]
  split
  case h_1 none_ => cases none_
  case h_2 life => cases life
  case h_3 standby => exact absurd (Sensor.rail.inj (Option.some.inj standby)) main
  case h_4 k _ _ same =>
    obtain rfl := Option.some.inj same
    simp only [on, Bool.not_true, Bool.false_eq_true, if_false]

theorem exec_sensorSample_util {f : Nat} (is : sensorOf id = some (.util f)) : exec (.sensorSample id v) s = .next (
    { s with mgt := { s.mgt with utilBase := SMap.put 0 s.mgt.utilBase f (s.tenantNs f) } }.rounded
      (10000 * (s.tenantNs f - SMap.get 0 s.mgt.utilBase f)) (192 * 1000000000) fun v s => s.putReading id v) := by
  show execSensorSample id v s = _
  simp only [execSensorSample, is, on, Bool.not_true, Bool.false_eq_true, if_false]
end

/-- A rounded quotient is shown as it is or one more. -/
theorem State.rounded_putReading (s : State) (a b id : Nat) : ∃ w, (w = a / b ∨ w = a / b + 1) ∧
    (s.rounded a b fun v s => s.putReading id v).regs = s.regs ∧ (s.rounded a b fun v s => s.putReading id v).mem = s.mem ∧
    (s.rounded a b fun v s => s.putReading id v).mgt.readings = SMap.put none s.mgt.readings id (some w) := by
  unfold State.rounded
  split
  · exact ⟨a / b, .inl rfl, rfl, rfl, rfl⟩
  · exact ⟨_, by omega, rfl, rfl, rfl⟩

/-! ### Updates -/

theorem exec_requestUpdate (s : State) (m : Medium) : exec (.requestUpdate m) s = .next (
    if s.mctpServed m = false then s
    else if s.mgt.update.isSome = true then s.emit (.update m 0 false)
    else ({ s with mgt := { s.mgt with update := some ⟨m, [], [], true⟩ } }.setFlag R.mgtStatus 1).emit (.update m 0 true)) := by
  show execRequestUpdate m s = _
  simp only [execRequestUpdate, Bool.not_eq_true']

/-- Component `comp` of the update has passed, and nothing more is written. -/
def Update.pass (u : Update) (comp : Nat) : Update :=
  { u with passed := if u.passed.contains comp then u.passed else u.passed ++ [comp], writing := false }

/-- The flash is free again once component `comp` has passed. -/
def State.componentPassed (s : State) (u : Update) (comp : Nat) : State :=
  { s with mgt := { s.mgt with update := some (u.pass comp) } }.logFlush

section
variable {s : State} {m : Medium}

theorem exec_update_none (none_ : s.updateOf m = none) (comp off : Nat) (data : List Byte) (bad : Bool) :
    ∀ i ∈ [.updateWrite m comp off data, .transferComplete m comp bad, .activateFirmware m, .cancelUpdate m], exec i s = .next s := by
  simp only [List.forall_mem_cons]
  refine ⟨?_, ?_, ?_, ?_, fun _ none_ => absurd none_ List.not_mem_nil⟩
  · show execUpdateWrite m comp off data s = _
    simp only [execUpdateWrite, none_]
  · show execTransferComplete m comp bad s = _
    simp only [execTransferComplete, none_]
  · show execActivateFirmware m s = _
    simp only [execActivateFirmware, none_]
  · show execCancelUpdate m s = _
    simp only [execCancelUpdate, none_]

variable {u : Update} (runs : s.updateOf m = some u) {comp : Nat}
include runs

theorem exec_updateWrite_flash {base size : Nat} (target : s.target comp = some (base, size)) (off : Nat) (data : List Byte) :
    exec (.updateWrite m comp off data) s = .next (if size < off + data.length then s.emit (.update m 1 false)
      else (s.flashStore (base + off) data).updateWritten m comp u) := by
  show execUpdateWrite m comp off data s = _
  simp only [execUpdateWrite, runs, target]

theorem exec_updateWrite_fuses (target : s.target comp = none) (off : Nat) (data : List Byte) :
    exec (.updateWrite m comp off data) s = .next (if (comp = 0x20 ∨ comp = 0x21) ∧ off + data.length ≤ 208 then
      s.updateWritten m comp { u with buf := u.buf.store (fuseBuf comp + off) data } else s.emit (.update m 1 false)) := by
  show execUpdateWrite m comp off data s = _
  simp only [execUpdateWrite, runs, target, Bool.and_eq_true, Bool.or_eq_true, decide_eq_true_eq]

theorem exec_transferComplete_passes {bad : Bool} (good : s.componentErr u comp bad = none) :
    exec (.transferComplete m comp bad) s = .next ((s.componentPassed u comp).emit (.update m 2 true)) := by
  show execTransferComplete m comp bad s = _
  simp only [execTransferComplete, runs, good]
  rfl

theorem exec_transferComplete_fails {bad : Bool} {e : Nat × Nat} (err : s.componentErr u comp bad = some e) :
    exec (.transferComplete m comp bad) s = .next (
      let v := { s with mgt := { s.mgt with update := some { u with writing := false } } }.logFlush
      ((v.conFail e).logEvent 0x08 (v.compSlot comp) (e.2 * 2 ^ 16 + e.1)).emit (.update m 2 false)) := by
  show execTransferComplete m comp bad s = _
  simp only [execTransferComplete, runs, err]

theorem exec_activateFirmware : exec (.activateFirmware m) s = .next (if u.passed = [] then s.emit (.update m 3 false)
    else ((componentOrder.filter u.passed.contains).foldl (fun t c => t.activate u c) s.endUpdate).emit (.update m 3 true)) := by
  show execActivateFirmware m s = _
  simp only [execActivateFirmware, runs, List.isEmpty_iff]

theorem exec_cancelUpdate : exec (.cancelUpdate m) s = .next (s.endUpdate.emit (.update m 4 true)) := by
  show execCancelUpdate m s = _
  simp only [execCancelUpdate, runs]
end

/-- Appending records leaves all but the log as it is. -/
theorem MgtState.foldl_append (l : List LogRec) (g : MgtState) : l.foldl MgtState.append g = { g with log := (l.foldl MgtState.append g).log } := by
  induction l generalizing g with
  | nil => rfl
  | cons r l ih => exact ih (g.append r)

theorem State.logFlush_mgt (s : State) : s.logFlush.mgt = { s.mgt with waiting := [], log := s.logFlush.mgt.log } :=
  MgtState.foldl_append s.mgt.waiting { s.mgt with waiting := [] }

theorem State.componentPassed_frame (s : State) (u : Update) (comp : Nat) : (s.componentPassed u comp).mgt.waiting = [] ∧
    (s.componentPassed u comp).mgt.update = some (u.pass comp) ∧
    (s.componentPassed u comp).mgt.flash = s.mgt.flash ∧ (s.componentPassed u comp).sec = s.sec ∧
    (s.componentPassed u comp).regs = s.regs := by
  rw [State.componentPassed, State.logFlush_mgt]
  exact ⟨rfl, rfl, rfl, rfl, rfl⟩

/-! ### The wear history -/

/-- `t` is `s` after registers were shown and events logged: the history and the update stand, and no event waits that did not where no
update runs. -/
structure State.Logs (s t : State) : Prop where
  wear : t.mgt.wear = s.mgt.wear
  update : t.mgt.update = s.mgt.update
  waiting : s.mgt.update = none → t.mgt.waiting = s.mgt.waiting

section
variable {s t : State}

theorem State.Logs.refl (s : State) : s.Logs s := ⟨rfl, rfl, fun _ => rfl⟩

theorem State.Logs.of_mgt (h : s.Logs t) {u : State} (same : u.mgt = t.mgt) : s.Logs u :=
  ⟨same ▸ h.wear, same ▸ h.update, fun idle => same ▸ h.waiting idle⟩

theorem State.Logs.wr (h : s.Logs t) (off : Nat) (v : Word) : s.Logs (t.wr off v) := h.of_mgt rfl

theorem State.Logs.emit (h : s.Logs t) (o : Out) : s.Logs (t.emit o) := h.of_mgt rfl

theorem State.Logs.foldl {α : Type} {f : State → α → State} (step : ∀ t a, s.Logs t → s.Logs (f t a)) (l : List α) (h : s.Logs t) :
    s.Logs (l.foldl f t) := by
  induction l generalizing t with
  | nil => exact h
  | cons a l ih => exact ih (step t a h)

theorem State.Logs.alert (h : s.Logs t) (c : Nat) : s.Logs (t.alert c) := by
  unfold State.alert
  split
  · exact h
  · exact .foldl (fun _ _ k => k.emit _) _ (h.wr _ _)

theorem State.Logs.logEvent (h : s.Logs t) (code unit data : Nat) : s.Logs (t.logEvent code unit data) := by
  unfold State.logEvent
  extract_lets r writing
  split
  · exact ⟨h.wear, h.update, h.waiting⟩
  · next busy =>
    have runs : s.mgt.update ≠ none := fun idle => busy (by simp only [writing, h.update, idle, Bool.not_false])
    split
    · exact ⟨h.wear, h.update, fun idle => absurd idle runs⟩
    · rw [State.count_tallies t]
      exact h.of_mgt rfl

theorem State.Logs.setEol (h : s.Logs t) (u : Nat) : s.Logs (t.setEol u) := by
  simp only [State.setEol]
  split
  · exact (h.wr _ _).wr _ _
  · split
    · exact h.wr _ _
    · exact ((((h.wr _ _).alert 7).logEvent _ _ _).wr _ _)

theorem State.showEye_mgt (t : State) (l : Nat) : (t.showEye l).mgt = t.mgt := by
  unfold State.showEye
  split
  · rfl
  · extract_lets
    split
    · rfl
    · split <;> rfl
end

theorem State.addWear_logs (s : State) (x : WearSample) : { s with mgt := { s.mgt with
    wear := (s.mgt.wear ++ [x]).drop ((s.mgt.wear ++ [x]).length - 400), wearHeld := none } }.Logs (s.addWear x) := by
  unfold State.addWear
  exact .foldl (fun _ u h => h.setEol u) _ (.foldl (fun t l h => h.of_mgt (t.showEye_mgt l)) _
    (.foldl (fun _ _ h => h.wr _ _) _ (.refl _)))

theorem State.addWear_wear (s : State) (x : WearSample) :
    (s.addWear x).mgt.wear = (s.mgt.wear ++ [x]).drop (s.mgt.wear.length + 1 - 400) := by
  rw [(s.addWear_logs x).wear, List.length_append, List.length_singleton]

theorem State.addWear_idle {s : State} (idle : s.mgt.update = none) (flushed : s.mgt.waiting = []) (x : WearSample) :
    (s.addWear x).mgt.update = none ∧ (s.addWear x).mgt.waiting = [] :=
  ⟨(s.addWear_logs x).update.trans idle, ((s.addWear_logs x).waiting idle).trans flushed⟩

theorem State.logFlush_idle {s : State} (idle : s.mgt.update = none) : s.logFlush.mgt.update = none ∧ s.logFlush.mgt.waiting = [] := by
  rw [State.logFlush_mgt]
  exact ⟨idle, rfl⟩

theorem State.endUpdate_ends (s : State) : s.endUpdate.mgt.update = none ∧ s.endUpdate.mgt.waiting = [] := by
  obtain ⟨update, waiting⟩ := State.logFlush_idle (s := { s with mgt := { s.mgt with update := none } }) rfl
  rw [← State.clrFlag_mgt _ R.mgtStatus 1] at update waiting
  simp only [State.endUpdate]
  split
  · next x _ =>
    refine State.addWear_idle ?_ ?_ x
    · exact update
    · exact waiting
  · exact ⟨update, waiting⟩

theorem exec_wearSample (s : State) (r : WearReading) : exec (.wearSample r) s = .next (
    let t := s.count R.mgtPowerOnDays 32 1
    if s.boot.main = false then s
    else if s.mgt.update.isSome = true then { t with mgt := { t.mgt with wearHeld := some (t.wearSample r) } }
    else t.addWear (t.wearSample r)) := by
  show execWearSample r s = _
  have update : (s.count R.mgtPowerOnDays 32 1).mgt.update = s.mgt.update := by rw [State.count_tallies s]
  simp only [execWearSample, Bool.not_eq_true', update]

theorem State.eolOf_young {s : State} (young : s.mgt.wear.length < 30) (u : Nat) : s.eolOf u = (0, 0xFFFF) := if_pos young

/-- Settles O56: each message by the lemma for its case; the wear history by what showing end of life leaves of it. -/
theorem spdmAndManagementMessages : Obligations.SpdmAndManagementMessages := by
  unfold Obligations.SpdmAndManagementMessages
  refine ⟨fun s m off len => ?_, fun s m req => ?_, fun s m id n => ?_, fun s id v => ?_, fun s m => ?_, fun s m comp off data bad => ?_,
    State.endUpdate_ends, fun s r => ?_, State.addWear_wear, fun s u young => State.eolOf_young young u⟩
  · refine ⟨fun dead => exec_spdm_unserved dead off len, fun served => ⟨?_, ?_, ?_, ?_, ?_, fun early => exec_spdm_early served early off len,
      fun ready => ⟨?_, ?_, ?_, ?_⟩⟩⟩
    · exact congrArg Host.Outcome.next (State.spdm_turn served (Nat.zero_le _) 0 _)
    · exact fun early => congrArg Host.Outcome.next (State.spdm_early served early _ _)
    · exact fun ready => congrArg Host.Outcome.next (State.spdm_turn served ready 1 _)
    · exact fun early => congrArg Host.Outcome.next (State.spdm_early served early _ _)
    · exact fun ready => congrArg Host.Outcome.next (State.spdm_turn served ready 2 _)
    · exact congrArg Host.Outcome.next (State.spdm_stays served ready _)
    · exact congrArg Host.Outcome.next (State.spdm_stays served ready _)
    · exact congrArg Host.Outcome.next (State.spdm_stays served ready _)
    · exact congrArg Host.Outcome.next (State.spdm_stays served ready _)
  · refine ⟨fun dead => exec_mctpControl_unserved dead req, fun served => ⟨?_, ?_, ?_, ?_, ?_⟩⟩
    · rintro eid rfl smbus
      exact exec_mctpControl_setEid_smbus served eid smbus
    · rintro eid rfl other
      exact exec_mctpControl_setEid_other served eid other
    · rintro on rfl
      exact exec_mctpControl_events served on
    · rintro rfl
      exact exec_mctpControl_other served
    · rintro rfl
      exact exec_mctpControl_foreign served
  · rw [exec_pldmSensorRead]
    exact ⟨fun down => ⟨congrArg Host.Outcome.next (if_neg down), exec_pldmEventLogRead_down down n⟩,
      fun up => ⟨congrArg Host.Outcome.next (if_pos up), fun r => exec_pldmEventLogRead_kept up, exec_pldmEventLogRead_none up⟩,
      State.reading_off⟩
  · refine ⟨exec_sensorSample_none v, fun u => exec_sensorSample_eol v, exec_sensorSample_standby v, exec_sensorSample_off v,
      fun on => ⟨fun u r => exec_sensorSample_temp v on, fun n => exec_sensorSample_stack v on, fun n => exec_sensorSample_rail v on,
        fun f is => ?_⟩⟩
    obtain ⟨w, rounds, regs, mem, readings⟩ := State.rounded_putReading
      { s with mgt := { s.mgt with utilBase := SMap.put 0 s.mgt.utilBase f (s.tenantNs f) } }
      (10000 * (s.tenantNs f - SMap.get 0 s.mgt.utilBase f)) (192 * 1000000000) id
    exact ⟨_, exec_sensorSample_util v on is, regs, mem, w, rounds, readings⟩
  · rw [exec_requestUpdate]
    refine ⟨fun dead => ?_, fun served busy => ?_, fun served free => ?_⟩
    · rw [if_pos dead]
    · rw [if_neg (by rw [served]; decide), if_pos busy]
    · rw [if_neg (by rw [served]; decide), if_neg (by rw [free]; decide)]
  · refine ⟨fun none_ => exec_update_none none_ comp off data bad, fun u runs => ⟨?_, ?_, ?_, ?_, ?_, fun e => exec_transferComplete_fails runs, ?_, ?_,
      exec_cancelUpdate runs⟩⟩
    · exact fun base size target fits => (exec_updateWrite_flash runs target off data).trans (congrArg _ (if_neg (Nat.not_lt.mpr fits)))
    · exact fun base size target over_ => (exec_updateWrite_flash runs target off data).trans (congrArg _ (if_pos over_))
    · exact fun target fuse fits => (exec_updateWrite_fuses runs target off data).trans (congrArg _ (if_pos ⟨fuse, fits⟩))
    · refine fun target bad => (exec_updateWrite_fuses runs target off data).trans (congrArg _ (if_neg ?_))
      omega
    · exact fun good => ⟨_, exec_transferComplete_passes runs good, s.componentPassed_frame u comp⟩
    · exact fun none_ => (exec_activateFirmware runs).trans (congrArg _ (if_pos none_))
    · exact fun some_ => (exec_activateFirmware runs).trans (congrArg _ (if_neg some_))
  · rw [exec_wearSample]
    refine ⟨fun off => ?_, fun on free => ?_, fun on busy => ?_⟩
    · exact congrArg Host.Outcome.next (if_pos off)
    · simp only [on, free, Option.isSome_none, Bool.true_eq_false, Bool.false_eq_true, if_false]
    · simp only [on, busy, Bool.true_eq_false, if_false, if_true]

end Sys2Proof.Machine


/-! Samples of the counters, trace writes and triggers, surveys, and the test access port. -/

namespace Sys2Proof.Machine

/-! ### Samples -/

/-- A sample is due: sampling is on, and the time is a multiple of its interval (R614). -/
abbrev State.sampleDue (s : State) : Prop := s.flag R.dbgSampleCfg 63 = true ∧ s.now % (1000 * max 1 (s.fld R.dbgSampleCfg 19 0)) = 0

section
variable {s : State}

theorem exec_counterSample_idle (idle : ¬ s.sampleDue) : exec .counterSample s = .next s := by
  refine congrArg Host.Outcome.next (if_pos ?_)
  simpa only [Bool.or_eq_true, Bool.not_eq_true', decide_eq_true_eq, not_and_or, Bool.not_eq_true] using idle

theorem exec_counterSample_due (due : s.sampleDue) : exec .counterSample s = .next (
    let n := (s.rd R.dbgSampleSize).toNat / 256
    let wr := (s.rd R.dbgSampleWr).toNat
    let t := { s with dbg := { s.dbg with sampleSeq := s.dbg.sampleSeq + 1 } }
    if s.sampleRoom < s.enabledSets.length then t.count R.dbgSampleLost 32 1
    else ((t.samplePut s.enabledSets wr n s.dbg.sampleSeq).wr R.dbgSampleWr
      (BitVec.ofNat 64 (if n = 0 then 0 else (wr + s.enabledSets.length) % n))).markBoundary s.enabledSets) := by
  refine congrArg Host.Outcome.next (if_neg ?_)
  simpa only [Bool.or_eq_true, Bool.not_eq_true', decide_eq_true_eq, not_or, Bool.not_eq_false, ne_eq, not_not] using due
end

theorem State.mem_enabledSets {s : State} {i : Nat} (set : i < 214) : i ∈ s.enabledSets ↔ s.flag (R.dbgSetEn (i / 64)) (i % 64) = true := by
  simp only [State.enabledSets, List.mem_filter, List.mem_range, set, true_and]

theorem length_flatMap_leBytes (n : Nat) (l : List Word) : (l.flatMap (fun v => leBytes n v.toNat)).length = n * l.length := by
  simp only [List.length_flatMap, leBytes_length, List.map_const', List.sum_replicate, smul_eq_mul, Nat.mul_comm]

theorem State.sampleRecord_length {s : State} {n : Nat} (counts : (s.setShown n).2.2.2.length = 24) (seq : Nat) :
    (s.sampleRecord n seq).length = 256 := by
  simp only [State.sampleRecord, List.length_append, leBytes_length, length_flatMap_leBytes, counts]

section
variable {s : State} {fn : Fin 64} {set : Fin 214} (served : s.Serves fn (R.dbgSetCfg set) true)
include served

theorem exec_counterClear (v : Word) : exec (.counterClear fn set v) s = .next (
    if bit v 1 = false then s
    else
      let t := (s.setFld (R.dbgSetCfg set) 0 0 (if bit v 0 then 1 else 0)).restartSet set
      { t with dbg := { t.dbg with
        owners := SMap.put none t.dbg.owners set ((SMap.get none t.dbg.owners set).map (fun o => { o with shared := false })) } }) := by
  show execCounterClear fn set v s = _
  rw [execCounterClear, State.mmio_serves served]
  simp only [Bool.not_eq_true']
end

/-! ### Trace -/

theorem exec_traceRestart {s : State} {fn : Fin 64} (served : s.Serves fn R.dbgTraceCtl true) : exec (.traceRestart fn) s = .next (
    let t := (s.wr R.dbgTraceWr 0).setFld R.dbgStatus 5 2 0
    { t with dbg := { t.dbg with postLeft := none, traceFilled := false, fillLost := 0 } }) := by
  show execTraceRestart fn s = _
  rw [execTraceRestart, State.mmio_serves served]

theorem exec_traceTrigger {s : State} {fn : Fin 64} (served : s.Serves fn R.dbgTraceCtl true) :
    exec (.traceTrigger fn) s = .next (s.traceTrigger 0) := by
  show execTraceTrigger fn s = _
  rw [execTraceTrigger, State.mmio_serves served]

/-- The first enabled trigger has its record, its mark and its time. -/
def State.triggered (s : State) (b : Nat) : State :=
  let t := s.traceWrite ⟨0x0C, 9, 0, 0, 0, b, 0⟩
  (t.setFlag R.dbgStatus 4).wr R.dbgTraceTrigTime (BitVec.ofNat 64 t.now)

section
variable {s : State} {b : Nat}

theorem State.traceTrigger_ignored (ignored : s.flag R.dbgTraceCfg (8 + b) = false ∨ s.flag R.dbgStatus 4 = true) :
    s.traceTrigger b = s := by
  refine if_pos ?_
  rwa [Bool.or_eq_true, Bool.not_eq_true']

theorem State.traceTrigger_first (on : s.flag R.dbgTraceCfg (8 + b) = true) (first : s.flag R.dbgStatus 4 = false) :
    s.traceTrigger b = let u := s.triggered b
      if u.fld R.dbgTraceCfg 1 0 = 3 then { u with dbg := { u.dbg with postLeft := some (u.fld R.dbgTraceCfg 63 32) } } else u := by
  refine if_neg ?_
  rw [on, first]
  decide
end

section
variable {s : State} (r : TraceRec)

theorem State.traceWrite_lost (lost : s.traceSlots = 0 ∨ s.fld R.dbgTraceCfg 1 0 = 0 ∨ (s.fld R.dbgTraceCfg 1 0 = 3 ∧ s.dbg.postLeft = some 0)) :
    s.traceWrite r = s.count R.dbgTraceLost 64 1 := by
  rcases lost with empty | off | ⟨freeze, over_⟩
  · exact if_pos empty
  · simp only [State.traceWrite, off, ite_self]
    rfl
  · simp only [State.traceWrite, freeze, over_, ite_self]
    rfl

variable (room : s.traceSlots ≠ 0)
include room

theorem State.traceWrite_fill (fill : s.fld R.dbgTraceCfg 1 0 = 1) : s.traceWrite r =
    if s.fld R.dbgTraceWr 31 0 + 1 < s.traceSlots then
      let u := (s.traceStore (s.fld R.dbgTraceWr 31 0) r).wr R.dbgTraceWr (BitVec.ofNat 64 (s.fld R.dbgTraceWr 31 0 + 1))
      if s.fld R.dbgTraceWr 31 0 + 2 = s.traceSlots then u.setFlag R.dbgStatus 2 else u
    else
      let u := (s.count R.dbgTraceLost 64 1).setFlag R.dbgStatus 2
      { u with dbg := { u.dbg with fillLost := s.dbg.fillLost + 1 } }.traceStore (s.traceSlots - 1)
        ⟨0x7F, 9, 0, 0, 0, s.dbg.fillLost + 1, r.unit + 2 ^ 16 * r.source⟩ := by
  simp only [State.traceWrite, room, fill, if_false]
  rfl

theorem State.traceWrite_ring (ring : s.fld R.dbgTraceCfg 1 0 = 2 ∨ (s.fld R.dbgTraceCfg 1 0 = 3 ∧ s.dbg.postLeft = none)) :
    s.traceWrite r = s.traceRing r := by
  rcases ring with ring | ⟨freeze, before⟩
  · simp only [State.traceWrite, room, ring, if_false]
  · simp only [State.traceWrite, room, freeze, before, if_false]

theorem State.traceWrite_post {k : Nat} (freeze : s.fld R.dbgTraceCfg 1 0 = 3) (left : s.dbg.postLeft = some (k + 1)) :
    s.traceWrite r = { s.traceRing r with dbg := { (s.traceRing r).dbg with postLeft := some k } } := by
  simp only [State.traceWrite, room, freeze, left, if_false]
end

theorem exec_traceFreeze (s : State) : exec .traceFreeze s = .next (
    if s.fld R.dbgTraceCfg 1 0 = 3 ∧ s.dbg.postLeft = some 0 then s.setFlag R.dbgStatus 5 else s) := by
  show execTraceFreeze s = _
  simp only [execTraceFreeze, Bool.and_eq_true, decide_eq_true_eq]

/-! ### Surveys -/

/-- A survey's start is ignored: one runs, one is kept, or there is no buffer (R627). -/
abbrev State.surveyIgnored (s : State) : Prop :=
  s.flag R.dbgStatus 6 = true ∨ (s.flag R.dbgSurveyCtl 1 = true ∧ s.flag R.dbgStatus 7 = true) ∨ s.fld R.dbgSurveyBase 55 0 = 0

theorem State.surveyStart_host (t : State) : t.surveyStart 0 0 =
    if t.surveyIgnored then t.count R.dbgSurveyIgnored 32 1
    else { t.setFlag R.dbgStatus 6 with dbg := { t.dbg with survey := some 0, surveyWho := 0, latched := false, frozen := none } } := by
  simp only [State.surveyStart, State.surveyIgnored, Bool.or_eq_true, Bool.and_eq_true, decide_eq_true_eq, or_assoc, if_true]

section
variable {s : State} {fn : Fin 64} (served : s.Serves fn R.dbgSurveyCtl true)
include served

theorem exec_surveyStart (v : Word) : exec (.surveyStart fn v) s = .next (
    if bit v 0 = false then s else (s.wr R.dbgSurveyCtl (v &&& 0xF02#64)).surveyStart 0 0) := by
  show execSurveyStart fn v s = _
  rw [execSurveyStart, State.mmio_serves served]
  simp only [Bool.not_eq_true']
end

section
variable {s : State}

theorem exec_surveyLatch_idle (idle : s.dbg.survey = none ∨ s.dbg.latched = true) : exec .surveyLatch s = .next s := by
  refine congrArg Host.Outcome.next (if_pos ?_)
  rwa [Bool.or_eq_true, Option.isNone_iff_eq_none]

theorem exec_surveyLatch_latches (runs : s.dbg.survey.isSome = true) (open_ : s.dbg.latched = false) : exec .surveyLatch s = .next (
    let t := { s with freeCount := s.freeCount + 1 }
    let u := t.surveyWrite (t.surveyView.surveyParts (Config.free s.freeCount % 2 ^ 63))
    { u with dbg := { u.dbg with latched := true, surveyTime := t.surveyView.now, frozen := none } }.traceTrigger 7) := by
  have latches : ¬ (s.dbg.survey.isNone || s.dbg.latched) = true := by
    rwa [open_, Bool.or_false, Bool.not_eq_true, Option.isNone_eq_false_iff]
  show execSurveyLatch s = _
  rw [execSurveyLatch, if_neg latches, State.withFree]

theorem exec_surveyDone_idle (idle : s.dbg.survey = none ∨ s.dbg.latched = false) : exec .surveyDone s = .next s := by
  show execSurveyDone s = _
  cases code : s.dbg.survey with
  | none => simp only [execSurveyDone, code]
  | some c =>
    have open_ := idle.resolve_left (by rw [code]; exact Option.some_ne_none c)
    simp only [execSurveyDone, code, open_, Bool.not_false, if_true]

theorem exec_surveyDone_writes {code : Nat} (runs : s.dbg.survey = some code) (latched : s.dbg.latched = true) : exec .surveyDone s = .next (
    let l := s.surveySems
    let t := s.surveyWrite (((List.range l.length).zip l).map (fun e => (0x60000 + 64 * e.1, s.semRecord e.2)))
    let u := ((t.surveyPut 0 (s.surveyHeader code l.length)).clrFlag R.dbgStatus 6).setFlag R.dbgStatus 7
    let v := { u with dbg := { u.dbg with survey := none, latched := false, surveySeq := s.dbg.surveySeq + 1 } }
    { v with freeCount := v.freeCount + 1 }.trace ⟨0x0B, Config.free v.freeCount % 10, 0, 0, 0, s.dbg.surveySeq, code⟩) := by
  show execSurveyDone s = _
  simp only [execSurveyDone, runs, latched, Bool.not_true, Bool.false_eq_true, if_false]
  rfl
end

theorem State.surveyHeader_length (s : State) (code sems : Nat) : (s.surveyHeader code sems).length = 64 := by
  simp only [State.surveyHeader, List.length_append, leBytes_length]

/-! ### The test access port -/

section
variable {s : State}

/-- Where the port does not act, every instruction is BYPASS. -/
theorem exec_tap_bypassed (quiet : ¬ (s.boot.perst = true ∧ s.boot.waiting = true)) (cells : Nat) :
    ∀ i ∈ [.idcode, .samplePreload cells, .extest, .extestPulse],
      exec i s = .next { s with tap := { s.tap with instr := .bypass, driving := false } } := by
  have idle : ¬ s.tapActs = true := by rwa [State.tapActs, Bool.and_eq_true]
  simp only [List.forall_mem_cons]
  refine ⟨?_, ?_, ?_, ?_, fun _ none_ => absurd none_ List.not_mem_nil⟩ <;>
    exact congrArg Host.Outcome.next (if_neg idle)

theorem State.tapDo_acts (acts : s.boot.perst = true ∧ s.boot.waiting = true) (i : TapInstr) (act : State → State) :
    s.tapDo i act = act { s with tap := { s.tap with instr := i, driving := false } } :=
  if_pos (by rwa [State.tapActs, Bool.and_eq_true])
end

/-- Settles O57: each event by the lemma for its case. -/
theorem samplesTraceSurveysAndTestPort : Obligations.SamplesTraceSurveysAndTestPort := by
  unfold Obligations.SamplesTraceSurveysAndTestPort
  refine ⟨fun s => ⟨exec_counterSample_idle, fun due full => ?_, fun due fits => ?_⟩, fun s i => State.mem_enabledSets,
    fun s n seq counts => State.sampleRecord_length counts seq, fun s fn set v served => ?_, fun s fn served => exec_traceRestart served,
    fun s fn served => ?_, fun s r => ⟨State.traceWrite_lost r, fun room fill => ?_, fun room fill => ?_, State.traceWrite_ring r,
      fun k room => State.traceWrite_post r room⟩, fun s => ?_, fun s fn v served => ?_,
    fun s => ⟨exec_surveyLatch_idle, exec_surveyLatch_latches⟩, fun s => ⟨exec_surveyDone_idle, fun code => exec_surveyDone_writes⟩,
    fun s code => s.surveyHeader_length code _, fun s cells => ⟨rfl, fun quiet => exec_tap_bypassed quiet cells, fun acts => ⟨?_, ?_, ?_, ?_⟩⟩⟩
  · exact (exec_counterSample_due due).trans (congrArg _ (if_pos full))
  · exact (exec_counterSample_due due).trans (congrArg _ (if_neg (Nat.not_lt.mpr fits)))
  · rw [exec_counterClear served]
    exact ⟨fun keep => congrArg Host.Outcome.next (if_pos keep), fun clear => congrArg Host.Outcome.next (if_neg (Bool.not_eq_false _ ▸ clear))⟩
  · rw [exec_traceTrigger served]
    exact ⟨fun ignored => congrArg Host.Outcome.next (State.traceTrigger_ignored ignored),
      fun on first other => congrArg Host.Outcome.next ((State.traceTrigger_first on first).trans (if_neg other)),
      fun on first freeze => congrArg Host.Outcome.next ((State.traceTrigger_first on first).trans (if_pos freeze))⟩
  · exact fun fits => (State.traceWrite_fill r room fill).trans (if_pos fits)
  · exact fun full => (State.traceWrite_fill r room fill).trans (if_neg (Nat.not_lt.mpr full))
  · rw [exec_traceFreeze]
    exact ⟨fun over_ => congrArg Host.Outcome.next (if_pos over_), fun before => congrArg Host.Outcome.next (if_neg before)⟩
  · rw [exec_surveyStart served, State.surveyStart_host]
    refine ⟨fun off => congrArg Host.Outcome.next (if_pos off), fun go ignored => ?_, fun go starts => ?_⟩
    · exact congrArg Host.Outcome.next ((if_neg (Bool.not_eq_false _ ▸ go)).trans (if_pos ignored))
    · exact congrArg Host.Outcome.next ((if_neg (Bool.not_eq_false _ ▸ go)).trans (if_neg starts))
  · exact congrArg Host.Outcome.next (State.tapDo_acts acts _ _)
  · exact congrArg Host.Outcome.next (State.tapDo_acts acts _ _)
  · exact congrArg Host.Outcome.next (State.tapDo_acts acts _ _)
  · exact congrArg Host.Outcome.next (State.tapDo_acts acts _ _)

end Sys2Proof.Machine


/-! Start-up: what the factory left, the firmware, converters and PLL, the stacks, and the consist's base and overlay. -/

namespace Sys2Proof.Machine

/-! ### Standby power -/

theorem State.toStep_bootStep {s : State} (rise : s.RegsRise) {n : Nat} (small : n < 16) : (s.toStep n).bootStep = n := by
  rw [State.bootStep, State.toStep, State.fld, State.rd_setFld_same rise, fld_setFld_same _ _ _ _ (by decide) (by decide)]
  exact Nat.mod_eq_of_lt small

/-- The fuses that the factory blew. -/
def Factory.fuses (f : Factory) : Fuses := {
  ochornRevoke := f.ochornRevoke.toNat, ownerHash := f.ownerHash.take 8, ownerRevoke := f.ownerRevoke.toNat, fwCount := f.fwCount.val,
  conCount := f.conCount.val }

/-- The registers that show what the factory left. -/
def Factory.regs (f : Factory) : List (Nat × Word) :=
  let keyWord (i part : Nat) : Word := BitVec.ofNat 64 (leNat (if part = 0 then (leBytes 16 (keyIdOf (Config.romKey i))).reverse.take 8
    else (leBytes 16 (keyIdOf (Config.romKey i))).reverse.drop 8))
  [(R.secSerial, f.serial), (R.secRollback, BitVec.ofNat 64 (f.fuses.conCount * 2 ^ 8 + f.fuses.fwCount)),
    (R.secFuses, BitVec.ofNat 64 (f.fuses.ochornRevoke * 2 ^ 16 + f.fuses.ownerRevoke * 2 ^ 8 + (2 ^ f.fuses.ownerHash.length - 1))),
    (R.secRomKeyid 0, keyWord 0 0), (R.secRomKeyid 1, keyWord 0 1), (R.secRomKeyid 2, keyWord 1 0), (R.secRomKeyid 3, keyWord 1 1)]

/-- What the factory left beside the registers. -/
def State.fromFactory (s : State) (f : Factory) : State := { s with
  boot := { s.boot with made := true }
  mgt := { s.mgt with flash := f.flash.foldl (fun (m : SMap Byte) e => SMap.put 0xFF m e.1 e.2) [] }
  sec := { s.sec with fuses := f.fuses, ownerKeys := f.ownerKeys.take 8 } }

/-- Standby power is up, and step 1 is over. -/
def State.standbyUp (s : State) (straps : Fin 4) : State := { s with boot := { s.boot with power := true, straps := (straps : Nat) } }.toStep 1

section
variable {s : State} (factory : Factory) (straps : Fin 4)

theorem exec_standbyPowerOn_up (up : s.boot.power = true) : exec (.standbyPowerOn factory straps) s = .next s :=
  congrArg Host.Outcome.next (if_pos up)

theorem exec_standbyPowerOn_again (down : s.boot.power = false) (made : s.boot.made = true) :
    exec (.standbyPowerOn factory straps) s = .next (s.standbyUp straps) := by
  show execStandbyPowerOn factory straps s = _
  rw [execStandbyPowerOn, down, if_neg (by decide)]
  exact congrArg Host.Outcome.next (if_pos made)

theorem exec_standbyPowerOn_first (down : s.boot.power = false) (new : s.boot.made = false) :
    exec (.standbyPowerOn factory straps) s = .next (((s.standbyUp straps).fromFactory factory).wrAll factory.regs) := by
  have unmade : ¬ (s.standbyUp straps).boot.made = true := fun made => absurd (new.symm.trans made) (by decide)
  show execStandbyPowerOn factory straps s = _
  rw [execStandbyPowerOn, down, if_neg (by decide)]
  exact congrArg Host.Outcome.next (if_neg unmade)
end

theorem Factory.regs_nodup (f : Factory) : (f.regs.map Prod.fst).Nodup := by
  show [R.secSerial, R.secRollback, R.secFuses, R.secRomKeyid 0, R.secRomKeyid 1, R.secRomKeyid 2, R.secRomKeyid 3].Nodup
  decide

theorem Factory.bootStatus_not_regs (f : Factory) : R.pwrBootStatus ∉ f.regs.map Prod.fst := by
  show R.pwrBootStatus ∉ [R.secSerial, R.secRollback, R.secFuses, R.secRomKeyid 0, R.secRomKeyid 1, R.secRomKeyid 2, R.secRomKeyid 3]
  decide

section
variable {s : State} (canon : s.Canon) (f : Factory) (straps : Fin 4)
include canon

theorem State.fromFactory_rise : ((s.standbyUp straps).fromFactory f).RegsRise :=
  State.setFld_rise (s := { s with boot := { s.boot with power := true, straps := (straps : Nat) } }) canon.rise _ _ _ _

theorem State.fromFactory_bootStep : (((s.standbyUp straps).fromFactory f).wrAll f.regs).bootStep = 1 := by
  rw [State.bootStep, State.fld, State.rd_wrAll_ne (State.fromFactory_rise canon f straps) f.bootStatus_not_regs]
  exact State.toStep_bootStep (s := { s with boot := { s.boot with power := true, straps := (straps : Nat) } }) canon.rise (by decide)

theorem State.fromFactory_serial : (((s.standbyUp straps).fromFactory f).wrAll f.regs).rd R.secSerial = f.serial :=
  State.rd_wrAll_same (State.fromFactory_rise canon f straps) f.regs_nodup List.mem_cons_self
end

/-! ### Firmware -/

/-- The boot ROM does not look for firmware: there is no power, or firmware runs and no reset asks for it again. -/
abbrev State.firmwareStays (s : State) : Prop :=
  s.boot.power = false ∨ (s.mgt.running.isSome = true ∧ (s.fld R.conStatus 3 0 ≠ 1 ∨ s.boot.stopped = true))

theorem State.firmwareStays_iff (s : State) :
    (!s.boot.power || (s.mgt.running.isSome && (s.fld R.conStatus 3 0 ≠ 1 || s.boot.stopped))) = true ↔ s.firmwareStays := by
  simp only [State.firmwareStays, Bool.or_eq_true, Bool.not_eq_true', Bool.and_eq_true, decide_eq_true_eq]

section
variable {s : State} (badA badB : Bool)

theorem exec_bootRomVerify_stays (stays : s.firmwareStays) : exec (.bootRomVerify badA badB) s = .next s :=
  congrArg Host.Outcome.next (if_pos (s.firmwareStays_iff.mpr stays))

variable (looks : ¬ s.firmwareStays)
include looks

theorem exec_bootRomVerify_runs {i : Nat} (passes : s.firmware badA badB = some i) : exec (.bootRomVerify badA badB) s = .next (
    let img := slotImage s.mgt.flash (fwSlot i) 0x1000000
    let t := { s with mgt := { s.mgt with running := some i }, sec := { s.sec with fwMeas := measure img, fwVersion := num img 0x1C 4 } }
    let u := ((t.setFlag R.mgtStatus 0).clrFlag R.mgtStatus 2).setFld R.mgtStatus 9 8 i
    if u.bootStep < 2 then u.toStep 2 else u) := by
  show execBootRomVerify badA badB s = _
  rw [execBootRomVerify, if_neg (mt s.firmwareStays_iff.mp looks), passes]

theorem exec_bootRomVerify_recovers (fails : s.firmware badA badB = none) : ∃ a b, exec (.bootRomVerify badA badB) s = .next (
    let t := { s with mgt := { s.mgt with running := none } }
    let u := (t.clrFlag R.mgtStatus 0).setFlag R.mgtStatus 2
    (u.logEvent 0x08 u.mgt.fwPref a).logEvent 0x08 (1 - u.mgt.fwPref) b) := by
  show ∃ a b, execBootRomVerify badA badB s = _
  rw [execBootRomVerify, if_neg (mt s.firmwareStays_iff.mp looks), fails]
  exact ⟨_, _, rfl⟩
end

/-! ### Main power and the PLL -/

theorem exec_mainInputValid (s : State) : exec .mainInputValid s = .next (
    if s.mgt.running = none ∨ s.boot.main = true then s
    else { s with boot := { s.boot with main := true, converters := false, pll := 0 } }) := by
  show execMainInputValid s = _
  simp only [execMainInputValid, Bool.or_eq_true, Option.isNone_iff_eq_none]

theorem exec_convertersSettled (s : State) (ok : Bool) : exec (.convertersSettled ok) s = .next (
    if s.boot.main = false ∨ s.boot.converters = true then s
    else if ok = true then { s with boot := { s.boot with converters := true, pll := 0 } }.toStep 3
    else s.mainFail 0) := by
  show execConvertersSettled ok s = _
  simp only [execConvertersSettled, Bool.or_eq_true, Bool.not_eq_true']

theorem exec_pllLockTimeout (s : State) : exec .pllLockTimeout s = .next (
    if s.bootStep ≠ 3 then s
    else if s.boot.pll < 3 then { s with boot := { s.boot with pll := s.boot.pll + 1 } }
    else s.mainFail 0) := rfl

theorem exec_rootPllLock (s : State) : exec .rootPllLock s = .next (
    if s.bootStep ≠ 3 then s
    else
      let t := (({ s with dbg := { s.dbg with mxBase := [] } }.wr R.clkTsNow 0).setFlag R.clkStatus 4).putFlag R.clkStatus 7 s.boot.lossStart
      { t with boot := { t.boot with pll := 0, lossStart := false } }.toStep 4) := rfl

/-! ### Stacks -/

/-- A step of the start is skipped: the step before it is not the last one over, the package is not LOADING, or a reset has stopped it. -/
abbrev State.skipsStep (s : State) (n : Nat) : Prop := s.bootStep ≠ n ∨ s.fld R.conStatus 3 0 ≠ 1 ∨ s.boot.stopped = true

/-- The training of the stacks is over, or must wait for PERST#. -/
abbrev State.skipsTraining (s : State) : Prop :=
  s.bootStep ≠ 4 ∨ s.fld R.conStatus 3 0 ≠ 1 ∨ s.boot.stopped = true ∨ (s.boot.waiting = true ∧ s.boot.perst = true)

/-- A trained stack shows the spare rows it has left. -/
def State.stackTrained (s : State) (i : Nat) : State :=
  let used := SMap.get 0 s.mgt.spares i
  let s := s.wr (R.memSpareLeft i) (BitVec.ofNat 64 (2048 - used))
  if 2048 ≤ used then s.setFlag R.rasSparesOut i else s

theorem memSpareLeft_ne_sparesOut (i : Nat) : R.memSpareLeft i ≠ R.rasSparesOut := by
  rw [R.memSpareLeft, R.rasSparesOut]
  omega

theorem memSpareLeft_inj {i j : Nat} (ne : j ≠ i) : R.memSpareLeft j ≠ R.memSpareLeft i := by
  rw [R.memSpareLeft, R.memSpareLeft]
  omega

/-- `t` is `s` but for registers, in order. -/
structure State.Shows (s t : State) : Prop where
  frame : t = { s with regs := t.regs }
  rise : t.RegsRise

section
variable {s : State} (rise : s.RegsRise)
include rise

theorem State.stackTrained_shows (i : Nat) : s.Shows (s.stackTrained i) := by
  unfold State.stackTrained
  extract_lets
  split
  · exact ⟨rfl, State.setFld_rise (State.wr_rise rise _ _) _ _ _ _⟩
  · exact ⟨rfl, State.wr_rise rise _ _⟩

theorem State.stackTrained_same (i : Nat) :
    (s.stackTrained i).rd (R.memSpareLeft i) = BitVec.ofNat 64 (2048 - SMap.get 0 s.mgt.spares i) := by
  unfold State.stackTrained
  extract_lets
  split
  · exact (State.rd_setFld_ne (State.wr_rise rise _ _) _ _ _ (memSpareLeft_ne_sparesOut i)).trans (State.rd_wr_same rise _ _)
  · exact State.rd_wr_same rise _ _

theorem State.stackTrained_ne {i j : Nat} (ne : j ≠ i) : (s.stackTrained i).rd (R.memSpareLeft j) = s.rd (R.memSpareLeft j) := by
  unfold State.stackTrained
  extract_lets
  split
  · exact (State.rd_setFld_ne (State.wr_rise rise _ _) _ _ _ (memSpareLeft_ne_sparesOut j)).trans (State.rd_wr_ne rise _ (memSpareLeft_inj ne))
  · exact State.rd_wr_ne rise _ (memSpareLeft_inj ne)

theorem State.foldl_stackTrained (l : List Nat) : s.Shows (l.foldl State.stackTrained s) ∧
    (∀ j, j ∉ l → (l.foldl State.stackTrained s).rd (R.memSpareLeft j) = s.rd (R.memSpareLeft j)) ∧
    (∀ i ∈ l, (l.foldl State.stackTrained s).rd (R.memSpareLeft i) = BitVec.ofNat 64 (2048 - SMap.get 0 s.mgt.spares i)) := by
  induction l generalizing s with
  | nil => exact ⟨⟨rfl, rise⟩, fun _ _ => rfl, fun _ none_ => absurd none_ List.not_mem_nil⟩
  | cons k l ih =>
    have first := State.stackTrained_shows rise k
    obtain ⟨shows_, others, listed⟩ := ih first.rise
    have mgt : (s.stackTrained k).mgt = s.mgt := by rw [first.frame]
    refine ⟨⟨?_, shows_.rise⟩, fun j other => ?_, fun i mem => ?_⟩
    · rw [List.foldl_cons, shows_.frame, first.frame]
    · rw [List.mem_cons, not_or] at other
      exact (others j other.2).trans (State.stackTrained_ne rise other.1)
    · by_cases later : i ∈ l
      · rw [List.foldl_cons, listed i later, mgt]
      · obtain rfl := (List.mem_cons.mp mem).resolve_right later
        exact (others i later).trans (State.stackTrained_same rise i)
end

/-- Step 5 is over. -/
def State.endStep5 (s : State) : State := { s with boot := { s.boot with waiting := false } }.toStep 5

/-- All stacks are trained, each shows the spare rows it has left, and step 5 is over. -/
def State.stacksTrained (s : State) : State :=
  ((List.range 8).foldl (fun s i =>
    let used := SMap.get 0 s.mgt.spares i
    let s := s.wr (R.memSpareLeft i) (BitVec.ofNat 64 (2048 - used))
    if 2048 ≤ used then s.setFlag R.rasSparesOut i else s) s).endStep5

theorem State.stacksTrained_eq (s : State) : s.stacksTrained = ((List.range 8).foldl State.stackTrained s).endStep5 := rfl

theorem State.skipsTraining_iff (s : State) :
    (s.bootStep ≠ 4 || s.fld R.conStatus 3 0 ≠ 1 || s.boot.stopped || (s.boot.waiting && s.boot.perst)) = true ↔ s.skipsTraining := by
  simp only [State.skipsTraining, Bool.or_eq_true, Bool.and_eq_true, decide_eq_true_eq, or_assoc]

section
variable {s : State} {failed : Byte}

theorem exec_stackTrainingDone_skips (skips : s.skipsTraining) : exec (.stackTrainingDone failed) s = .next s :=
  congrArg Host.Outcome.next (if_pos (s.skipsTraining_iff.mpr skips))

variable (acts : ¬ s.skipsTraining)
include acts

theorem exec_stackTrainingDone_trained (all : failed = 0) : exec (.stackTrainingDone failed) s = .next s.stacksTrained := by
  show execStackTrainingDone failed s = _
  rw [execStackTrainingDone, if_neg (mt s.skipsTraining_iff.mp acts), if_pos all]
  rfl

theorem exec_stackTrainingDone_failed (some_ : failed ≠ 0) : exec (.stackTrainingDone failed) s = .next
    (((List.range 8).filter (fun i => failed.toNat.testBit i)).foldl (fun t i => t.logEvent 0x0D i 3)
      ((s.setFlag R.pwrBootStatus 0).setFld R.pwrBootStatus 15 8 failed.toNat)).noConsist := by
  show execStackTrainingDone failed s = _
  rw [execStackTrainingDone, if_neg (mt s.skipsTraining_iff.mp acts), if_neg some_]
end

theorem State.stacksTrained_frame {s : State} (canon : s.Canon) : s.stacksTrained.bootStep = 5 ∧
    (∀ i < 8, s.stacksTrained.rd (R.memSpareLeft i) = BitVec.ofNat 64 (2048 - SMap.get 0 s.mgt.spares i)) ∧
    s.stacksTrained = { s with regs := s.stacksTrained.regs, boot := { s.boot with waiting := false } } := by
  obtain ⟨⟨frame, rise⟩, _, listed⟩ := State.foldl_stackTrained canon.rise (List.range 8)
  rw [State.stacksTrained_eq]
  generalize (List.range 8).foldl State.stackTrained s = t at frame rise listed
  refine ⟨State.toStep_bootStep (s := { t with boot := { t.boot with waiting := false } }) rise (by decide), fun i small => ?_, ?_⟩
  · have other : R.memSpareLeft i ≠ R.pwrBootStatus := by
      rw [R.memSpareLeft, R.pwrBootStatus]
      omega
    exact (State.rd_setFld_ne (s := { t with boot := { t.boot with waiting := false } }) rise _ _ _ other).trans
      (listed i (List.mem_range.mpr small))
  · generalize t.regs = r at frame
    subst frame
    rfl

/-! ### The consist -/

theorem State.skipsStep_iff (s : State) (n : Nat) :
    (s.fld R.pwrBootStatus 19 16 ≠ n || s.fld R.conStatus 3 0 ≠ 1 || s.boot.stopped) = true ↔ s.skipsStep n := by
  simp only [State.skipsStep, State.bootStep, Bool.or_eq_true, decide_eq_true_eq, or_assoc]

section
variable {s : State} (badA badB : Bool)

theorem exec_consistLoad_skips (skips : s.skipsStep 5) : exec (.consistLoad badA badB) s = .next s :=
  congrArg Host.Outcome.next (if_pos ((s.skipsStep_iff 5).mpr skips))

variable (acts : ¬ s.skipsStep 5)
include acts

theorem exec_consistLoad_first
    (good : s.baseFault (s.fld R.conBootSlot 0 0) (if s.fld R.conBootSlot 0 0 = 0 then badA else badB) = none) :
    exec (.consistLoad badA badB) s = .next (s.baseTaken (s.fld R.conBootSlot 0 0)) := by
  show execConsistLoad badA badB s = _
  simp only [execConsistLoad, if_neg (mt (s.skipsStep_iff 5).mp acts), good]

variable {e : Nat × Nat}
  (refused : s.baseFault (s.fld R.conBootSlot 0 0) (if s.fld R.conBootSlot 0 0 = 0 then badA else badB) = some e)
include refused

theorem exec_consistLoad_second (good : (s.baseRefused (s.fld R.conBootSlot 0 0) e).baseFault (1 - s.fld R.conBootSlot 0 0)
      (if 1 - s.fld R.conBootSlot 0 0 = 0 then badA else badB) = none) : exec (.consistLoad badA badB) s =
    .next (((s.baseRefused (s.fld R.conBootSlot 0 0) e).baseTaken (1 - s.fld R.conBootSlot 0 0)).raiseCause 0 8) := by
  show execConsistLoad badA badB s = _
  simp only [execConsistLoad, if_neg (mt (s.skipsStep_iff 5).mp acts), refused, good]

theorem exec_consistLoad_none {f : Nat × Nat} (other : (s.baseRefused (s.fld R.conBootSlot 0 0) e).baseFault
      (1 - s.fld R.conBootSlot 0 0) (if 1 - s.fld R.conBootSlot 0 0 = 0 then badA else badB) = some f) :
    exec (.consistLoad badA badB) s = .next (
      let one := s.fld R.conBootSlot 0 0
      let u := (s.baseRefused one e).baseRefused (1 - one) f
      ((u.logEvent 0x08 one (e.2 * 2 ^ 16 + e.1)).logEvent 0x08 (1 - one) (f.2 * 2 ^ 16 + f.1)).noConsist) := by
  show execConsistLoad badA badB s = _
  simp only [execConsistLoad, if_neg (mt (s.skipsStep_iff 5).mp acts), refused, other]
end

section
variable {s : State} (bad : Bool)

theorem exec_startOverlay_skips (skips : s.skipsStep 7) : exec (.startOverlay bad) s = .next s :=
  congrArg Host.Outcome.next (if_pos ((s.skipsStep_iff 7).mpr skips))

variable (acts : ¬ s.skipsStep 7)
include acts

theorem exec_startOverlay_base (alone : s.fld R.conStartSlot 3 0 = 0xF) :
    exec (.startOverlay bad) s = .next (s.showOverlay 0xF none).startRun := by
  show execStartOverlay bad s = _
  simp only [execStartOverlay, if_neg (mt (s.skipsStep_iff 7).mp acts), alone, if_true]

variable (named : s.fld R.conStartSlot 3 0 ≠ 0xF)
include named

theorem exec_startOverlay_refused {e : Nat × Nat}
    (err : s.verifySlot (ovlSlot (s.fld R.conStartSlot 3 0)) 0x100000 2 s.conCounter bad = some e) :
    exec (.startOverlay bad) s = .next ((s.conFail e).showOverlay 0xF none).startRun := by
  show execStartOverlay bad s = _
  simp only [execStartOverlay, if_neg (mt (s.skipsStep_iff 7).mp acts), named, err, if_false]

theorem exec_startOverlay_applies (good : s.verifySlot (ovlSlot (s.fld R.conStartSlot 3 0)) 0x100000 2 s.conCounter bad = none) :
    exec (.startOverlay bad) s = .next (
      let n := s.fld R.conStartSlot 3 0
      let img := slotImage s.mgt.flash (ovlSlot n) 0x100000
      ((s.loadFields s.baseImage (some img) true).showOverlay n (some img)).startRun) := by
  show execStartOverlay bad s = _
  simp only [execStartOverlay, if_neg (mt (s.skipsStep_iff 7).mp acts), named, good, if_false]
end

/-- Settles O47: each event of the start by the lemma for its case; the first start by the registers that the factory's contents show in. -/
theorem startUp : Obligations.StartUp := by
  unfold Obligations.StartUp
  refine ⟨fun s factory straps => ⟨exec_standbyPowerOn_up factory straps, exec_standbyPowerOn_again factory straps, fun down new canon => ?_⟩,
    fun s badA badB => ⟨exec_bootRomVerify_stays badA badB, fun i looks => exec_bootRomVerify_runs badA badB looks, exec_bootRomVerify_recovers badA badB⟩,
    fun s => ?_, fun s failed => ⟨exec_stackTrainingDone_skips, fun acts all canon => ?_, exec_stackTrainingDone_failed⟩,
    fun s badA badB => ⟨exec_consistLoad_skips badA badB, exec_consistLoad_first badA badB,
      fun e acts refused => ⟨exec_consistLoad_second badA badB acts refused, fun f => exec_consistLoad_none badA badB acts refused⟩⟩,
    fun s bad => ⟨exec_startOverlay_skips bad, exec_startOverlay_base bad, fun e acts named => exec_startOverlay_refused bad acts named,
      exec_startOverlay_applies bad⟩,
    fun s => ⟨rfl, fun on => congrArg Host.Outcome.next (if_pos on), fun off => ?_, rfl⟩⟩
  · have regs := ((s.standbyUp straps).fromFactory factory).wrAll_regsOnly factory.regs
    refine ⟨_, exec_standbyPowerOn_first factory straps down new, ?_, State.fromFactory_bootStep canon factory straps,
      State.fromFactory_serial canon factory straps, ?_, ?_, ?_, ?_, ?_⟩ <;> rw [regs] <;> rfl
  · rw [exec_mainInputValid, exec_pllLockTimeout, exec_rootPllLock]
    refine ⟨fun stays => ?_, fun runs off => ?_, fun stays ok => ?_, fun on off => ⟨?_, ?_⟩, fun other => ?_, fun three few => ?_,
      fun three many => ?_, fun three => ?_⟩
    · rw [if_pos stays]
    · rw [if_neg (not_or.mpr ⟨fun none_ => absurd runs (by rw [none_]; decide), Bool.eq_false_iff.mp off⟩)]
    · rw [exec_convertersSettled, if_pos stays]
    · rw [exec_convertersSettled, if_neg (by rw [on, off]; decide), if_pos rfl]
    · rw [exec_convertersSettled, if_neg (by rw [on, off]; decide), if_neg (by decide)]
    · rw [if_pos other, if_pos other]
      exact ⟨rfl, rfl⟩
    · rw [if_neg (not_not.mpr three), if_pos few]
    · rw [if_neg (not_not.mpr three), if_neg (Nat.not_lt.mpr many)]
    · rw [if_neg (not_not.mpr three)]
      rfl
  · exact ⟨_, exec_stackTrainingDone_trained acts all, State.stacksTrained_frame canon⟩
  · exact congrArg Host.Outcome.next (if_neg (Bool.eq_false_iff.mp off))

end Sys2Proof.Machine


/-! What resets and losses of power clear and keep, warm resets, the drain, and unit resets. -/

namespace Sys2Proof.Machine

/-! ### What a reset of the main domains clears -/

/-- The log is the controller's. -/
theorem State.flushIf_frame (s : State) (p : Prop) [Decidable p] :
    (if p then s.logFlush else s) = { s with mgt := (if p then s.logFlush else s).mgt } := by
  split <;> rfl

section
variable (s : State) (warm : Bool)

theorem State.clearMain_fuses : (s.clearMain warm).sec.fuses = s.sec.fuses := by
  rw [State.clearMain, State.flushIf_frame]
  rfl

theorem State.clearMain_boot :
    (s.clearMain warm).boot.perst = s.boot.perst ∧ (s.clearMain warm).boot.made = s.boot.made := by
  rw [State.clearMain, State.flushIf_frame]
  exact ⟨rfl, rfl⟩

theorem SMap.get_filter_none {α : Type} (d : α) {m : SMap α} {p : Nat × α → Bool} {k : Nat} (gone : ∀ v, p (k, v) = false) :
    SMap.get d (m.filter p) k = d := by
  refine SMap.get_of_not_mem_keys d fun mem => ?_
  obtain ⟨⟨j, v⟩, listed, rfl⟩ := List.mem_map.mp mem
  have stays := (List.mem_filter.mp listed).2
  exact absurd ((gone v).symm.trans stays) (by decide)

theorem State.filter_rise {s : State} (rise : s.RegsRise) (p : Nat × Word → Bool) : SMap.Rising (s.regs.filter p) :=
  rise.sublist List.filter_sublist

/-- A register that the reset does not keep reads its reset value; MGT_STATUS loses the mark of an update besides. -/
theorem State.clearMain_rd {s : State} (canon : s.Canon) {off : Nat} (other : off ≠ R.mgtStatus) (always : keptAlways off = false)
    (kept : warm = true → keptWarm s.boot.startWritten off = false) : (s.clearMain warm).rd off = resetOf off := by
  rw [State.clearMain, State.flushIf_frame]
  refine (State.rd_setFld_ne ?_ _ _ _ other).trans (SMap.get_filter_none _ fun _ => ?_)
  · exact State.filter_rise canon.rise _
  · cases warm with
    | false => simp only [always, Bool.false_and, Bool.or_false]
    | true => simp only [always, kept rfl, Bool.and_false, Bool.or_false]
end

/-! ### Losses -/

theorem State.powerOff_fuses (s : State) : s.powerOff.sec.fuses = s.sec.fuses := s.clearMain_fuses false

theorem State.powerOff_boot (s : State) : s.powerOff.boot.perst = s.boot.perst ∧ s.powerOff.boot.made = s.boot.made :=
  s.clearMain_boot false

section
variable {s : State}

theorem exec_rootPllLockLoss (s : State) : exec .rootPllLockLoss s = .next (
    let t := ((s.clearMain false).resetCause 8 s.drained).clrFlag R.clkStatus 4
    if s.bootStep < 4 then s
    else ({ t with boot := { t.boot with lossStart := true, pll := 0, warm := none } }.toStep 3).alert 3
      |>.withFree fun r u => u.logEvent 0x01 0 r) := rfl

theorem exec_mainPowerLoss (s : State) : exec .mainPowerLoss s = .next (
    if s.boot.main = false then s
    else if s.drained = true then s.powerOff.withFree fun r u => u.logEvent 0x0B 0 r
    else s.powerOff.logEvent 0x0C 0 0) := by
  show execMainPowerLoss s = _
  simp only [execMainPowerLoss, Bool.not_eq_true']

theorem exec_mainInputOvervoltage (s : State) :
    exec .mainInputOvervoltage s = .next (if s.boot.main = false then s else s.powerOff.logEvent 0x0C 0 1) := by
  show execMainInputOvervoltage s = _
  simp only [execMainInputOvervoltage, Bool.not_eq_true']

/-- A unit that trips: power is off, the trip is marked, and a free value is used up for its record. -/
def State.trips (s : State) : State :=
  let t := s.powerOff
  { t with boot := { t.boot with trip := true }, freeCount := t.freeCount + 1 }

theorem exec_thermalTrip (s : State) (unit : HeatUnit) : exec (.thermalTrip unit) s = .next (
    if s.boot.main = false ∨ s.tripped unit.num = false then s
    else s.trips.logEvent 0x04 (if unit.num = 10 then 0 else if 2 ≤ unit.num then unit.num - 2 else unit.num)
      (Config.free s.powerOff.freeCount)) := by
  show execThermalTrip unit s = _
  simp only [execThermalTrip, Bool.or_eq_true, Bool.not_eq_true']
  rfl

/-- What the loss of standby power leaves: fuses, flash and what is recorded in it. -/
def State.standbyLost (s : State) : State :=
  let s := s.powerOff
  { s with
    regs := s.regs.filter (fun e => !inBlock e.1 0x50000 0x60000 || (e.1 = R.mgtPowerOnDays || inArray e.1 (R.mgtEol 0) 8 11))
    mgt := { s.mgt with running := none, events := [], waiting := [] }
    sec := { s.sec with fwMeas := 0, fwVersion := 0 }
    boot := { bootReset with made := s.boot.made, perst := s.boot.perst } }

theorem exec_standbyPowerLoss (s : State) : exec .standbyPowerLoss s = .next (if s.boot.power = false then s else s.standbyLost.toStep 0) := by
  show execStandbyPowerLoss s = _
  simp only [execStandbyPowerLoss, Bool.not_eq_true']
  rfl

theorem State.standbyLost_frame (canon : s.Canon) : let t := s.standbyLost.toStep 0
    t.bootStep = 0 ∧ t.boot.power = false ∧ t.mgt.running = none ∧ t.mgt.events = [] ∧ t.mgt.flash = s.powerOff.mgt.flash ∧
      t.sec.fuses = s.sec.fuses ∧ t.boot.perst = s.boot.perst ∧ t.boot.made = s.boot.made := by
  have rise : s.standbyLost.RegsRise := State.filter_rise ((State.powerOff_keeps (.refl s)).canon canon).rise _
  obtain ⟨perst, made⟩ := s.powerOff_boot
  exact ⟨State.toStep_bootStep rise (by decide), rfl, rfl, rfl, rfl, s.powerOff_fuses, perst, made⟩
end

/-! ### Warm resets and the drain -/

theorem exec_perstAssert (s : State) : exec .perstAssert s = .next (
    if s.boot.perst = true then s else { s with boot := { s.boot with perst := true } }.warmStart false) := rfl

theorem exec_hotReset (s : State) : exec .hotReset s = .next (if s.boot.perst = true then s else s.warmStart true) := rfl

theorem State.warmStart_begins {s : State} (up : 4 ≤ s.bootStep) (none_ : s.boot.warm = none) (hot : Bool) :
    s.warmStart hot = s.warmBegin hot := by
  rw [State.warmStart, if_neg (Nat.not_lt.mpr up), if_pos (Option.isNone_iff_eq_none.mpr none_)]

theorem exec_warmResetDomainReset (s : State) :
    exec .warmResetDomainReset s = .next (if s.boot.stopped = true then s.domainReset else s) := rfl

theorem State.domainReset_stopped {s : State} (stopped : s.boot.stopped = true) : s.domainReset =
    let u := s.finishStores.finishMainline.finishCaches
    let t := ((u.clearMain true).resetCause (if s.boot.warm = some true then 4 else 2) s.drained).toStep 4
    { t with boot := { t.boot with waiting := true } } := by
  simp only [State.domainReset, stopped, Bool.not_true, Bool.false_and, Bool.or_false, if_true]

theorem exec_drainDone (s : State) : exec .drainDone s = .next (
    let t := s.finishStores.finishMainline.finishCaches.logFlush
    if s.boot.drain = false ∨ s.entriesGone = false then s
    else ({ t with boot := { t.boot with drain := false } }.setFlag R.pwrDrain 1).raiseCause 0 14) := by
  show execDrainDone s = _
  simp only [execDrainDone, Bool.or_eq_true, Bool.not_eq_true']

theorem exec_drainRequest {s : State} {fn : Fin 64} (served : s.Serves fn R.pwrDrain true) : exec (.drainRequest fn) s = .next (
    if s.boot.drain = true ∨ s.drained = true then s else { s with boot := { s.boot with drain := true } }.stopAll) := by
  show execDrainRequest fn s = _
  rw [execDrainRequest, State.mmio_serves served]
  simp only [Bool.or_eq_true]

/-! ### Unit resets -/

/-- A unit reset runs: its kind and index show. -/
def State.unitResets (s : State) (kind index : Nat) : State :=
  let t := (s.setFld R.pwrUnitReset 11 8 kind).setFld R.pwrUnitReset 7 0 index
  { t with boot := { t.boot with unit := some (kind, index) } }.setFlag R.pwrUnitReset 30

theorem State.unitGo_serves {s : State} {fn : Fin 64} (served : s.Serves fn R.pwrUnitReset true) (kind index : Nat) (ok : State → Bool)
    (act : State → State) : s.unitGo fn kind index ok act =
      if s.flag R.pwrUnitReset 30 = true ∨ ok s = false then s.setFlag R.pwrUnitReset 29 else act (s.unitResets kind index) := by
  rw [State.unitGo, State.mmio_serves served]
  simp only [Bool.or_eq_true, Bool.not_eq_true']
  rfl

/-- A unit reset is refused while one runs or where its requirement fails, and acts otherwise. -/
theorem exec_unit {s : State} {fn : Fin 64} (served : s.Serves fn R.pwrUnitReset true) {i : Instr} {kind index : Nat} {ok : State → Bool}
    (act : State → State) {free : Bool} {v : State} (row : exec i s = .next (s.unitGo fn kind index ok act)) (required : free = ok s)
    (after : v = act (s.unitResets kind index)) :
    (s.flag R.pwrUnitReset 30 = true ∨ free = false → exec i s = .next (s.setFlag R.pwrUnitReset 29)) ∧
    (s.flag R.pwrUnitReset 30 = false → free = true → exec i s = .next v) := by
  rw [row, State.unitGo_serves served, required, after]
  refine ⟨fun refused => congrArg Host.Outcome.next (if_pos refused), fun idle free => congrArg Host.Outcome.next (if_neg ?_)⟩
  rw [idle, free]
  decide

theorem State.crossingReset_none {s : State} {sel : Nat × Nat → Bool} (none_ : ∀ e ∈ s.mem.fenced, sel e = false) :
    s.crossingReset sel = s :=
  if_neg fun some_ => by
    obtain ⟨e, mem, picked⟩ := List.any_eq_true.mp some_
    exact absurd ((none_ e mem).symm.trans picked) (by decide)

theorem State.crossingReset_some {s : State} {sel : Nat × Nat → Bool} (some_ : ∃ e ∈ s.mem.fenced, sel e = true) :
    s.crossingReset sel = let u := { s with freeCount := s.freeCount + 1 }
      if Config.free s.freeCount % 2 = 1 then { u with mem := { u.mem with fenced := u.mem.fenced.filter (fun e => !sel e) } } else u :=
  if_pos (List.any_eq_true.mpr some_)

/-- Settles O48: each loss and reset by the lemma for its case; what a reset of the main domains clears, register by register. -/
theorem resetsAndPowerLoss : Obligations.ResetsAndPowerLoss := by
  unfold Obligations.ResetsAndPowerLoss
  refine ⟨fun s => ?_, fun s unit => ?_, fun s canon => ?_, fun s warm canon => ⟨rfl, rfl, rfl, rfl, rfl, rfl, rfl, rfl, rfl, rfl,
    s.clearMain_fuses warm, fun off => State.clearMain_rd warm canon⟩, fun s => ?_, fun s fn served => ?_,
    fun s fn index i kind served => ?_, fun s sel => ⟨State.crossingReset_none, State.crossingReset_some⟩⟩
  · rw [exec_rootPllLockLoss, exec_mainPowerLoss, exec_mainInputOvervoltage]
    refine ⟨fun early => ?_, fun up => ?_, fun off => ⟨?_, ?_⟩, fun on drained => ?_, fun on undrained => ?_, fun on => ?_⟩
    · exact congrArg Host.Outcome.next (if_pos early)
    · exact congrArg Host.Outcome.next (if_neg (Nat.not_lt.mpr up))
    · rw [if_pos off]
    · rw [if_pos off]
    · rw [if_neg (by rw [on]; decide), if_pos drained]
    · rw [if_neg (by rw [on]; decide), if_neg (by rw [undrained]; decide)]
    · rw [if_neg (by rw [on]; decide)]
  · rw [exec_thermalTrip]
    refine ⟨fun stays => congrArg Host.Outcome.next (if_pos stays), fun on trips => ⟨_, congrArg Host.Outcome.next (if_neg ?_)⟩⟩
    rw [on, trips]
    decide
  · rw [exec_standbyPowerLoss]
    exact ⟨fun down => congrArg Host.Outcome.next (if_pos down), fun up => ⟨_, congrArg Host.Outcome.next (if_neg (by rw [up]; decide)),
      State.standbyLost_frame canon⟩⟩
  · rw [exec_perstAssert, exec_hotReset, exec_warmResetDomainReset, exec_drainDone]
    refine ⟨fun low => ?_, fun high => ?_, fun hot => ⟨fun early => if_pos early, fun up none_ => State.warmStart_begins up none_ hot⟩,
      fun runs => ?_, fun stopped => ?_, fun idle => ?_, fun drains gone => ?_, rfl⟩
    · exact ⟨congrArg Host.Outcome.next (if_pos low), congrArg Host.Outcome.next (if_pos low)⟩
    · have up := Bool.eq_false_iff.mp high
      exact ⟨congrArg Host.Outcome.next (if_neg up), congrArg Host.Outcome.next (if_neg up)⟩
    · exact congrArg Host.Outcome.next (if_neg (Bool.eq_false_iff.mp runs))
    · exact congrArg Host.Outcome.next ((if_pos stopped).trans (State.domainReset_stopped stopped))
    · exact congrArg Host.Outcome.next (if_pos idle)
    · exact congrArg Host.Outcome.next (if_neg (by rw [drains, gone]; decide))
  · rw [exec_drainRequest served]
    exact ⟨fun ignored => congrArg Host.Outcome.next (if_pos ignored),
      fun free undrained => congrArg Host.Outcome.next (if_neg (by rw [free, undrained]; decide))⟩
  · intro n t u link free v unit
    simp only [List.mem_cons, Prod.mk.injEq, List.not_mem_nil, or_false] at unit
    rcases unit with ⟨row, number, required, after⟩ | ⟨row, number, required, after⟩ | ⟨row, number, required, after⟩ |
      ⟨row, number, required, after⟩
    · exact exec_unit served (fun s => s.resetCore index.toNat) (by rw [row, number]; rfl) required after
    · exact exec_unit served (fun s => s.resetCluster index.toNat) (by rw [row, number]; rfl) required after
    · exact exec_unit served
        (fun s => ((s.portDown index.toNat).setPort index.toNat 1 0).crossingReset (fun e => e = (5, 0))) (by rw [row, number]; rfl) required after
    · exact exec_unit served
        (fun s => if s.flag R.ethStatus (8 + index.toNat) then (s.clrFlag R.ethStatus (8 + index.toNat)).raiseCause 0 13 else s)
        (by rw [row, number]; rfl) required after

end Sys2Proof.Machine
